-- ==== Sys2Proof/Word.lean ====
section
/-!
DEFINITION. Words, bytes and the ranges that name the parts of a ZR9-P56 package
(spec/00_scope.md R2, spec/01_architecture.md R17).
-/
namespace Sys2Proof

abbrev Byte := BitVec 8
abbrev Half := BitVec 16
abbrev Word := BitVec 32
abbrev DWord := BitVec 64

/-- A physical die position, PD0 to PD55 (R2, R5). -/
abbrev PD := Fin 56
/-- A logical die number, LD0 to LD49 (R22). -/
abbrev LD := Fin 50
/-- A physical matrix core of a die, MC0 to MC16 (R2). -/
abbrev MC := Fin 17
/-- A hart identifier (R22). -/
abbrev HartId := Fin 100
/-- A command ring (R415). -/
abbrev RingId := Fin 64
/-- A Jallyn port J0 to J7 (R17). -/
abbrev JPort := Fin 8
/-- A DDR5 channel F0 to F23 (R17). -/
abbrev FChan := Fin 24
/-- A PCIe root port P0 to P3 (R17). -/
abbrev RPort := Fin 4
/-- A mover of a die (R329). -/
abbrev MoverIx := Fin 4

/-- Block types, in the order of their type codes 0x01 to 0x18 (R44). -/
inductive Blk where
  | dieCfg | familyParam | mcore | tcache | tsram | tstile | carousel | place | nstack | fchan
  | xlate | mover | cmdq | home | cpucl | jport | sched | rmstr | pagent | pcierp | timebase
  | evlog | pstore | dbg
deriving DecidableEq, Repr

/-- A register page of R44: a block type, the physical die that hosts it (0 for a package-wide page) and
its number among the pages of that type on the die or in the package. -/
structure Page where
  blk : Blk
  pd : PD
  inst : Fin 64
deriving DecidableEq, Repr

/-- Who sends a register access (R29, R45, R483, R694). -/
inductive Requester where
  | hart (h : HartId)
  | cluster (pd : PD) (core : Fin 4)
  | debug (pd : PD)
deriving DecidableEq, Repr

end Sys2Proof
end

