-- ==== Sys2Proof/Syntax.lean ====
section
/-!
DEFINITION. The commands of the ZR9-P56 package: Instr, one constructor per row of spec/opcode_table.json, and the
types of their operands.
-/
namespace Sys2Proof

/-- What goes wrong in the storage or the array while a queue head's work runs (R98, R115, R123, R282): nothing, n
corrected accumulator reads, n corrected Tier S reads of a bank, a double-bit error in the Tier S word holding an
address, a flip of the bits of mask in the column sum of row i, column c, or an error in the operand-cache line holding the
n-th line of an access (R180). Errors that are core faults by themselves
arrive as CORE_FAULT. -/
inductive IssueErr where
  | none
  | accCe (n : Fin 4096)
  | tsCe (bank : Fin 64) (n : Fin 4096)
  | tsUe (addr : BitVec 33)
  | sumFlip (i : Fin 1024) (c : Fin 256) (mask : Word)
  | tcLine (n : Fin 1024)
deriving DecidableEq, Repr

/-- Kinds of requests at a placement agent (R293): a read, a write, a write-back of a dirty line. -/
inductive ReqKind where
  | read | write | writeBack
deriving DecidableEq, Repr

/-- A request to one 128 B line as it reaches a placement agent (R293, R483): the requester's own tag for its answer, its
stream identifier, its CTXID, the line (system address ÷ 128), and a write's byte mask and data. -/
structure AReq where
  tag : Half
  sid : Half
  ctx : Half
  kind : ReqKind
  line : BitVec 45
  mask : BitVec 128
  data : BitVec 1024
deriving DecidableEq, Repr

/-- What reading a DRAM line meets (R341, R372): no error, errors in some symbols, or an error beyond correction. -/
inductive MemErr where
  | none
  | symbols (at_ : List (Fin 160))
  | ue
deriving DecidableEq, Repr

/-- What a tier did not answer in time (R301, R302): a forwarded request by its tag, or the commit writes of an exchange
engine of a die. -/
inductive TmoTarget where
  | request (tag : Half)
  | commit (ld : LD) (eng : Fin 4)
deriving DecidableEq, Repr

/-- A holder of cached lines that a home snoops (R469): a hart's core, a root port, a core's operand cache. -/
inductive Holder where
  | hart (h : HartId)
  | rport (p : RPort)
  | tcache (pd : PD) (mc : MC)
deriving DecidableEq, Repr

/-- What the read of a directory entry meets (R488): no error, a corrected one, an uncorrectable one. -/
inductive DirErr where
  | none
  | ce
  | ue
deriving DecidableEq, Repr

/-- AMO operations of the A extension. -/
inductive AmoOp where
  | swap | add | xor | and | or | min | max | minu | maxu
deriving DecidableEq, Repr

/-- What a hart's memory access is (R446, R452). -/
inductive HartOp where
  | load | fetch | store | amo (op : AmoOp) | lr | sc
deriving DecidableEq, Repr

/-- A span of a descriptor's memory side (R400): its lowest byte, its length, and whether the side is written. -/
structure Span where
  va : DWord
  len : BitVec 48
  write : Bool
deriving DecidableEq, Repr

/-- Requester classes of a translation (R413). -/
inductive XClass where
  | tcache | mvr | ringMove | ringInline | carousel | pcie
deriving DecidableEq, Repr

/-- How a tier fails to answer an access (R302): not at all, with uncorrectable data, not in time. -/
inductive TierFail where
  | none | readError | timeout
deriving DecidableEq, Repr

/-- What the completions of a read through a PCIe window bring (R609): data, none within the time-out, or UR, CA, RRS after
1 s or poison. -/
inductive WinAns where
  | data (d : BitVec 32768)
  | timeout
  | failed
deriving DecidableEq, Repr

/-- Where a piece of a mover's work comes from (R332): an MVR slot, a ring slot, a Carousel record in flight. -/
inductive MvSrc where
  | mvr (slot : Fin 8)
  | ring (slot : Fin 4)
  | carousel (slot : Fin 8)
deriving DecidableEq, Repr

/-- What a piece meets (R332, R333): a tier's failure, a double-bit error in Tier S, the answer of a window. -/
structure PieceErr where
  tier : TierFail
  ue : Option (BitVec 33)
  win : WinAns
deriving DecidableEq, Repr

/-- The header of a sync token (R504). -/
structure TokHdr where
  hops : Byte
  origin : Half
  partId : Word
  step : DWord
deriving DecidableEq, Repr

/-- The body of GATHER and RELEASE (R505). -/
structure GatherBody where
  stretch : Word
  cats : Byte
  flags : Byte
  ratio : Byte
  trapStep : DWord
  trapSbeat : Word
  trapLc : Half
  trapDev : Half
  trapCount : Half
  contrib : Half
  reason : Word
deriving DecidableEq, Repr

/-- The body of START_GATHER (R504). -/
structure StartBody where
  buildId : DWord
  hdrCrc : Word
  jobSteps : DWord
  descCrc : Word
  contrib : Half
deriving DecidableEq, Repr

/-- The body of RESUME (R539). -/
structure ResumeBody where
  decision : Byte
  code : Byte
  attempt : Byte
  cats : Byte
  m : Word
  t0 : DWord
deriving DecidableEq, Repr

/-- The body of IDENT (R504). -/
structure IdentBody where
  partId : Word
  xm1 : BitVec 3
  ym1 : BitVec 3
  zm1 : BitVec 3
  x : BitVec 3
  y : BitVec 3
  z : BitVec 3
  port : BitVec 3
  device : Half
deriving DecidableEq, Repr

/-- How a training ends (R497, R498): with the partner's IDENT, the token latency in ns, the lanes that L8 replaced in each
direction and whether the stored parameters sufficed; a lane that cannot be replaced; a reference out of range. -/
inductive TrainOut where
  | up (ident : IdentBody) (latency : BitVec 10) (spareTx spareRx : Option (Fin 8)) (fromStore : Bool)
  | laneFail
  | reference
deriving DecidableEq, Repr

/-- Causes of a link fault (R520). -/
inductive LinkCause where
  | fecUe | lockLost | alignLost | overflow
deriving DecidableEq, Repr

/-- A core fault that a detector found (R524, R528): its KIND, indexes, bank, checksums, PC and TILE_ID. -/
structure CoreFaultArg where
  kind : Byte
  index : BitVec 10
  index2 : BitVec 10
  bank : Bool
  p : DWord
  q : DWord
  pc : BitVec 14
  tile : Half
deriving DecidableEq, Repr

/-- What a core's watchdog found (R525, R528). -/
inductive WdQueue where
  | lq | sq | dq | vq | mq | dispatch
deriving DecidableEq, Repr

/-- Die faults (R524): a Midway router, the Turnstile block, the checkpoint store, the control cluster. -/
inductive DieFault where
  | router | turnstile | checkpoint | cluster
deriving DecidableEq, Repr

/-- A token's body (R504). -/
inductive TokBody where
  | gather (b : GatherBody)
  | release (b : GatherBody)
  | hold (cause : Byte) (beat : Word) (detail : DWord)
  | resume (b : ResumeBody)
  | startGather (b : StartBody)
  | startRelease (result : Byte) (t0 : DWord)
  | trapRecord (rec_ : BitVec 256)
  | formGather (contrib : Half)
  | formRelease
  | lpReq
  | lpAck
  | ident (b : IdentBody)
deriving DecidableEq, Repr

/-- A token. -/
structure Tok where
  hdr : TokHdr
  body : TokBody
deriving DecidableEq, Repr

/-- A DATA flit (R494): PARITY, LAST, SLOT, SEQ and the 640 B payload. -/
structure Flit where
  parity : Bool
  last : Bool
  slot : BitVec 12
  seq : BitVec 3
  payload : BitVec 5120
deriving DecidableEq, Repr

/-- An inbound TLP (R610): a memory read, a memory write with its Relaxed Ordering attribute, a kind that the port does not
support, posted or not. -/
inductive InTlp where
  | read (len : Fin 4097)
  | write (len : Fin 513) (data : BitVec 4096) (relaxed : Bool)
  | unsupported (posted : Bool)
deriving DecidableEq, Repr

/-- What a completion brings (R609); rrs: whether 1 s has passed since the request. -/
inductive CplSt where
  | ok
  | ur
  | ca
  | rrs (after1s : Bool)
  | poisoned
deriving DecidableEq, Repr

/-- Messages of an endpoint that the port records (R606). -/
inductive EpMsg where
  | correctable | nonFatal | fatal | pme
deriving DecidableEq, Repr

/-- What stage 2 finds on a die (R23, R284, R544): whether its compute and I/O partitions fail their tests, the matrix cores
and the physical banks of Tier S that fail. Dies that are not named pass. -/
structure DieTest where
  pd : PD
  compute : Bool
  io : Bool
  cores : List MC
  banks : List (Fin 66)
deriving DecidableEq, Repr

/-- How a channel's training ends (R367 to R381): in service or not, FCHAN_DIMM0 and 1, the rate, and the capacity in GiB. -/
structure ChanTrain where
  ch : FChan
  ready : Bool
  dimm0 : BitVec 12
  dimm1 : BitVec 12
  rate : Fin 3
  downbin : Bool
  cap : Fin 257
deriving DecidableEq, Repr


/-- The commands of the package, one constructor per row of spec/opcode_table.json. -/
inductive Instr where
  /-- R6. A write to a register field that has no row of its own stores, clears or sets the field according to its access code. -/
  | registerWrite (who : Requester) (p : Page) (reg : Fin 1024) (value : Word)
  /-- R42. The router answers an access to an absent page: reads return 0 and writes are discarded. -/
  | absentPageAccess (who : Requester) (p : Page) (reg : Fin 1024) (write : Option Word)
  /-- R47. A write to the _LO half of a pair stages the value tagged with its requester. -/
  | loWrite (who : Requester) (p : Page) (reg : Fin 1024) (value : Word)
  /-- R47. A write to the _HI half commits the staged low half and the high half as one 64-bit value, or is discarded if another requester holds the tag. -/
  | hiWrite (who : Requester) (p : Page) (reg : Fin 1024) (value : Word)
  /-- R48. A read of _LO returns the low half and takes a 64-bit snapshot for its requester. -/
  | loRead (who : Requester) (p : Page) (reg : Fin 1024)
  /-- R48. A read of _HI returns the high half of the requester's snapshot and discards it, or returns the current high half if there is no snapshot. -/
  | hiRead (who : Requester) (p : Page) (reg : Fin 1024)
  /-- R50. A BLK_SYNC read returns once every earlier write to the page has been performed. -/
  | blkSyncRead (who : Requester) (p : Page)
  /-- R51. 10 us pass with earlier writes still not performed; the BLK_SYNC read returns SYNC_TIMEOUT = 1 and ERR is set with SOURCE 4. -/
  | syncTimeout (who : Requester) (p : Page) (pend : List (Fin 1024))
  /-- R56. A write to BLK_CTRL.ENABLE lets the block accept new work or stops it from doing so. -/
  | enableWrite (who : Requester) (p : Page) (on : Bool)
  /-- R62. Writing 1 to SOFT_RESET returns every non-ST field to reset and discards staging, snapshots and lock state. -/
  | softReset (who : Requester) (p : Page)
  /-- R62. The soft reset completes; SOFT_RESET clears and READY returns to 1. -/
  | softResetDone (p : Page)
  /-- R60. A write to BLK_CTRL.FENCE isolates the block, or lifts the isolation when the page is unlocked. -/
  | fenceWrite (who : Requester) (p : Page) (on : Bool)
  /-- R58. A 1 written to BLK_INT_SET sets the same bit of BLK_INT_STAT. -/
  | blkIntSetWrite (who : Requester) (p : Page) (bits : Word)
  /-- R64. A KEY write arms the lock, unlocks it or clears it, following the unlock sequence. -/
  | blkLockWrite (who : Requester) (p : Page) (value : Word)
  /-- R147. NOP dispatches and does nothing else. -/
  | nop (pd : PD) (mc : MC)
  /-- R141. HALT ends the program and stops dispatch. -/
  | halt (pd : PD) (mc : MC)
  /-- R141. Once its queues are empty after a HALT, the core enters HALTED. -/
  | haltedEntry (pd : PD) (mc : MC)
  /-- R137. LSET writes COUNT to a loop counter. -/
  | lset (pd : PD) (mc : MC)
  /-- R137. LBNZ decrements the loop counter if it is non-zero and branches if the result is non-zero. -/
  | lbnz (pd : PD) (mc : MC)
  /-- R137. JMP branches unconditionally by OFFSET. -/
  | jmp (pd : PD) (mc : MC)
  /-- R138. ALT waits for a selector Turnstile value and then dispatches the chosen JMP of its table. -/
  | alt (pd : PD) (mc : MC)
  /-- R139. SYNCB holds dispatch until the beat-in-step reaches BEAT. -/
  | syncb (pd : PD) (mc : MC)
  /-- R139. The beat named by a held SYNCB arrives and dispatch resumes. -/
  | syncbRelease (pd : PD) (mc : MC)
  /-- R140. STEP marks the end of the core's work in the step; the core waits for its queues to drain and for the step commit. -/
  | step (pd : PD) (mc : MC)
  /-- R136. AMOVI writes a zero-extended immediate to an A register. -/
  | amovi (pd : PD) (mc : MC)
  /-- R136. AADDI adds a signed immediate to an A register. -/
  | aaddi (pd : PD) (mc : MC)
  /-- R136. AADD adds two A registers. -/
  | aadd (pd : PD) (mc : MC)
  /-- R136. AIDX computes D = S + LN x IMM. -/
  | aidx (pd : PD) (mc : MC)
  /-- R136. TSETB loads a descriptor's BASE from an A register. -/
  | tsetb (pd : PD) (mc : MC)
  /-- R136. TSETG sets a descriptor's FMT, WIDTH, ROWS and PITCH. -/
  | tsetg (pd : PD) (mc : MC)
  /-- R136. TADV advances a descriptor's BASE by DELTA x 128, modulo 2^33. -/
  | tadv (pd : PD) (mc : MC)
  /-- R133. KSET writes one half of a stripe configuration. -/
  | kset (pd : PD) (mc : MC)
  /-- R142. WLD queues a weight tile load into LQ. -/
  | wld (pd : PD) (mc : MC)
  /-- R142. STR queues a stream into SQ. -/
  | str (pd : PD) (mc : MC)
  /-- R142. DRN queues a drain of accumulator entry rows into DQ. -/
  | drn (pd : PD) (mc : MC)
  /-- R147. SFENCE holds dispatch until earlier DRN and VST Tier S writes and merging-buffer entries are performed. -/
  | sfence (pd : PD) (mc : MC)
  /-- R166. VMV queues a vector-matrix multiply of one weight tile against up to 8 tokens. -/
  | vmv (pd : PD) (mc : MC)
  /-- R165. VLD queues a load of 256 elements into a vector register. -/
  | vld (pd : PD) (mc : MC)
  /-- R165. VST queues a store of a vector register narrowed to FMT. -/
  | vst (pd : PD) (mc : MC)
  /-- R160. VOP VADD adds lanes with one rounding per lane. -/
  | vadd (pd : PD) (mc : MC)
  /-- R160. VOP VSUB subtracts lanes. -/
  | vsub (pd : PD) (mc : MC)
  /-- R160. VOP VMUL multiplies lanes. -/
  | vmul (pd : PD) (mc : MC)
  /-- R160. VOP VFMA computes a x b + c with one rounding. -/
  | vfma (pd : PD) (mc : MC)
  /-- R161. VOP VMAX takes the lane maximum. -/
  | vmax (pd : PD) (mc : MC)
  /-- R161. VOP VMIN takes the lane minimum. -/
  | vmin (pd : PD) (mc : MC)
  /-- R161. VOP VEXP2 computes 2^a, correctly rounded. -/
  | vexp2 (pd : PD) (mc : MC)
  /-- R161. VOP VRCP computes 1 / a, correctly rounded. -/
  | vrcp (pd : PD) (mc : MC)
  /-- R161. VOP VRSQRT computes 1 / sqrt(a), correctly rounded. -/
  | vrsqrt (pd : PD) (mc : MC)
  /-- R162. VOP VREDSUM sums the 256 lanes in a fixed 8-stage tree into lane 0. -/
  | vredsum (pd : PD) (mc : MC)
  /-- R162. VOP VREDMAX takes the maximum of the 256 lanes through the same tree. -/
  | vredmax (pd : PD) (mc : MC)
  /-- R163. VOP VCVT narrows each lane to the format in VB lane 0 and widens it back. -/
  | vcvt (pd : PD) (mc : MC)
  /-- R161. VOP VMOV copies lanes and canonicalises NaN. -/
  | vmov (pd : PD) (mc : MC)
  /-- R161. VOP VSPLAT copies lane 0 of a into every lane. -/
  | vsplat (pd : PD) (mc : MC)
  /-- R252. TSOP add adds k to a Turnstile, saturating, at its effect beat. -/
  | tsopAdd (pd : PD) (mc : MC)
  /-- R252. TSOP subtract subtracts k from a Turnstile, saturating at 0. -/
  | tsopSubtract (pd : PD) (mc : MC)
  /-- R252. TSOP wait-at-least holds dispatch until the Turnstile holds at least N. -/
  | tsopWaitAtLeast (pd : PD) (mc : MC)
  /-- R252. TSOP wait-then-subtract waits for a value of at least N and then subtracts N. -/
  | tsopWaitThenSubtract (pd : PD) (mc : MC)
  /-- R145. MVR queues a mover request that names a 64 B descriptor in Tier S. -/
  | mvr (pd : PD) (mc : MC)
  /-- R252. A pending wait or ALT is released at the first beat at which the Turnstile value reaches N. -/
  | tsWaitRelease (pd : PD) (mc : Option MC) (index : Fin 4096)
  /-- R148. The LQ head issues a weight load once every timing condition holds. -/
  | lqIssue (pd : PD) (mc : MC) (err : IssueErr)
  /-- R101. The last weight row is written at L + 255, and the bank's VALID is set. -/
  | weightLoadDone (pd : PD) (mc : MC) (bank : Bool)
  /-- R148. The SQ head issues a stream once its hazard and calendar conditions hold. -/
  | sqIssue (pd : PD) (mc : MC) (err : IssueErr)
  /-- R148. The DQ head issues a drain that reads entry rows, scales and converts them, and writes them out. -/
  | dqIssue (pd : PD) (mc : MC) (err : IssueErr)
  /-- R192. Once every issued piece of work of a trapped core is performed, the core enters STOPPED_TRAP. -/
  | trapStopDone (pd : PD) (mc : MC)
  /-- R158. The VQ head issues a vector, load/store or VMP instruction once its unit is free and its registers interlock. -/
  | vqIssue (pd : PD) (mc : MC) (err : IssueErr)
  /-- R330. The MQ head issues an MVR when its mover has a free MVR slot. -/
  | mqIssue (pd : PD) (mc : MC)
  /-- R153. Setting MCORE_CTRL.HALT_REQ stops dispatch at the next instruction boundary; the core enters STOPPED_REQ. -/
  | haltReqWrite (who : Requester) (pd : PD) (mc : MC) (on : Bool)
  /-- R193. A write to TRAP_NAN applies to rows read after the beat in which it is performed. -/
  | trapNanWrite (who : Requester) (pd : PD) (mc : MC) (on : Bool)
  /-- R173. A write to MCORE_CTXID invalidates the operand cache and its translations once the merging buffer drains. -/
  | mcoreCtxidWrite (who : Requester) (pd : PD) (mc : MC) (ctx : Half)
  /-- R155. The NONE command completes with DONE. -/
  | mcoreCmdNone (who : Requester) (pd : PD) (mc : MC)
  /-- R155. LOAD_PROGRAM copies LEN instructions into program memory and clears the rest. -/
  | loadProgram (who : Requester) (pd : PD) (mc : MC)
  /-- R155. START sets PC to ENTRY and arms the core for the next step. -/
  | mcoreStart (who : Requester) (pd : PD) (mc : MC)
  /-- R156. SAVE_CTX writes the context image to CTX_ADDR. -/
  | saveCtx (who : Requester) (pd : PD) (mc : MC)
  /-- R157. RESTORE_CTX checks and loads a context image; the core becomes IDLE. -/
  | restoreCtx (who : Requester) (pd : PD) (mc : MC)
  /-- R155. CLEAR returns all core state, banks and accumulators to reset. -/
  | mcoreClear (who : Requester) (pd : PD) (mc : MC)
  /-- R155. A running MCORE command completes; GO clears, CMD_STATUS loads and CMD_DONE is set. -/
  | mcoreCmdDone (pd : PD) (mc : MC) (err : TierFail)
  /-- R175. A demand fill or prefetch line arrives and is installed under the allocation rule. -/
  | tcFillArrive (pd : PD) (mc : MC) (line : BitVec 45) (err : TierFail)
  /-- R179. An invalidation from the home removes the line from the operand cache. -/
  | tcSnoopInval (pd : PD) (mc : MC) (line : BitVec 45)
  /-- R177. A merging-buffer entry with no write for 64 beats issues its write to the home. -/
  | mbAgeTimeout (pd : PD) (mc : MC) (line : BitVec 45)
  /-- R180. Each way's error count is halved every 2^30 beats. -/
  | tcWayErrDecay (pd : PD) (mc : MC)
  /-- R182. INV_ALL invalidates every TC line and the side buffer. -/
  | tcInvAll (who : Requester) (pd : PD) (mc : MC)
  /-- R182. A TCACHE_WAY_REEN write re-enables the selected ways and clears their counts. -/
  | tcWayReen (who : Requester) (pd : PD) (mc : MC) (ways : Half)
  /-- R182. A write to TCACHE_LFSR loads the replacement LFSR; a value of 0 loads 0xACE1. -/
  | tcLfsrWrite (who : Requester) (pd : PD) (mc : MC) (value : Half)
  /-- R189. Writing 1 to FIRST_VALID clears it together with the first-flag record. -/
  | nfFirstValidClear (who : Requester) (pd : PD) (mc : MC)
  /-- R227. SCHED_CTRL.LOAD reads and checks the Flifold image in order. -/
  | schedLoad (who : Requester) (pd : PD) (err : TierFail)
  /-- R228. After a successful load, Barker clears and loads the cores, initialises Turnstiles, starts the cores and arms. -/
  | imageLoadDone
  /-- R229. ARM joins the start exchange over the sync token. -/
  | schedArm (who : Requester) (pd : PD)
  /-- R508. A START_GATHER token is compared with the node's own values and forwarded up the tree. -/
  | startGather (port : JPort) (hdr : TokHdr) (b : StartBody)
  /-- R508. A START_RELEASE token gives go with T0, or ends the job on a mismatch. -/
  | startRelease (port : JPort) (hdr : TokHdr) (result : Byte) (t0 : DWord)
  /-- R508. The time base reaches T0 and beat 0 of the first step opens. -/
  | firstStepOpen
  /-- R230. At LEN + s_d, once transfers and captures are complete, the device sends its gather report. -/
  | gatherReport
  /-- R505. A GATHER token is combined with the node's own report and forwarded; the root sends RELEASE. -/
  | gatherToken (port : JPort) (hdr : TokHdr) (b : GatherBody)
  /-- R505. A RELEASE token carrying M and the merged flags is received and forwarded down. -/
  | releaseToken (port : JPort) (hdr : TokHdr) (b : GatherBody)
  /-- R231. At beat C the device decides on commit, fault, error or trap and commits the step. -/
  | stepCommit (flushed : Bool)
  /-- R234. At C + 1600 the Jallyn receive buffers flip parity. -/
  | parityFlip
  /-- R231. At C + 2400 beat 0 of the next step opens, with the new input set, ratio, windows and slot tables. -/
  | stepOpen
  /-- R478. At max(0, LEN - 6000) the lead controller distributes the next input set and the protection sweep runs. -/
  | inputSetDistribute
  /-- R248. The beat-in-step reaches 262,143 before commit, which is a schedule error with reason 0x0C. -/
  | stepOverrun
  /-- R254. A TSOP add or subtract from another die reaches the pool over Midway and applies at D + 180. -/
  | tsRemotePost (pd : PD)
  /-- R261. A TS_VALUE write replaces the selected Turnstile's value at the end of the beat and sets its tag to 0. -/
  | tsValueWrite (who : Requester) (pd : PD) (value : Word)
  /-- R266. A TS_SEL write selects a Turnstile; reserved combinations keep the register unchanged. -/
  | tsSelWrite (who : Requester) (pd : PD) (value : Word)
  /-- R266. The NONE command of TSTILE does nothing. -/
  | tstileCmdNone (who : Requester) (pd : PD)
  /-- R264. SAVE writes the die-pool image to TS_CTX_ADDR. -/
  | tstileSave (who : Requester) (pd : PD)
  /-- R264. RESTORE checks and loads the die-pool image. -/
  | tstileRestore (who : Requester) (pd : PD)
  /-- R266. CLEAR sets every pool value and flag to 0. -/
  | tstileClear (who : Requester) (pd : PD)
  /-- R265. A TSTILE command completes and CMD_DONE is set. -/
  | tstileCmdDone (pd : PD) (err : TierFail)
  /-- R283. Every 1024 beats the scrubber reads one line per bank and writes back corrected words. -/
  | tsramScrubTick (pd : PD) (ce : List (Fin 64)) (ue : List (Fin 64 × Fin 8))
  /-- R279. A pool mask write in an idle state makes pool slabs FREE and the rest STATIC; otherwise it is discarded. -/
  | tsramPoolMaskWrite (who : Requester) (pd : PD) (mask : DWord)
  /-- R285. The NONE command of TSRAM does nothing. -/
  | tsramCmdNone (who : Requester) (pd : PD)
  /-- R281. ZERO writes 0 to every Tier S line, clears poison and frees the pool slabs. -/
  | zero (who : Requester) (pd : PD)
  /-- R281. A TSRAM command completes after 12,288 beats. -/
  | tsramCmdDone (pd : PD)
  /-- R293. A placement agent looks up the entry, checks owner, frozen and input, counts, and routes the request. -/
  | agentRequest (r : AReq) (entryUe : Bool)
  /-- R294. The zero fill of a never-written chunk completes; ZMAP clears and the waiting writes are performed. -/
  | zeroFillDone (frame : BitVec 22) (chunk : Fin 32)
  /-- R306. A free engine takes a hint or promotion and the target agent scans for a victim. -/
  | victimScan (ld : LD) (eng : Fin 4)
  /-- R295. A and B become EXCHANGING with their new slots, or the claim fails. -/
  | exchangeClaim (ld : LD) (eng : Fin 4)
  /-- R295. The live sides of a chunk are captured into the buffers, and COMMIT begins. -/
  | captureDone (ld : LD) (eng : Fin 4) (bad : List (Bool × Fin 512))
  /-- R295. The commit writes of a chunk are performed, and MOVED is set. -/
  | commitChunkDone (ld : LD) (eng : Fin 4)
  /-- R298. A write held 2 us during COMMIT is applied to the buffer and counts as performed. -/
  | heldWriteTimeout (tag : Half)
  /-- R302. A tier answers a forwarded request, which ends with that answer alone. -/
  | tierResponse (tag : Half)
  /-- R302. A forwarded request gets no answer within TMO_US and ends with TIER_TIMEOUT. -/
  | tierTimeout (target : TmoTarget)
  /-- R303. The entry whose index equals the free-running beat count has its COUNT halved. -/
  | countDecay (ld : LD) (index : Fin 131072)
  /-- R307. A PROMOTE hint sets PREF_LD and KEEP and queues a Tier F frame in the hint queue. -/
  | hintPromote (frame : BitVec 22) (ld : LD) (until_ : Word)
  /-- R307. A KEEP hint sets KEEP and KEEP_UNTIL. -/
  | hintKeep (frame : BitVec 22) (until_ : Word)
  /-- R307. A DEMOTE hint zeroes COUNT and clears KEEP. -/
  | hintDemote (frame : BitVec 22)
  /-- R309. The NONE command of PLACE does nothing. -/
  | placeCmdNone (who : Requester) (pd : PD)
  /-- R309. SET_OWNER writes OWNER over the frame range. -/
  | setOwner (who : Requester) (pd : PD)
  /-- R309. DISCARD checks each frame as a write and sets ZMAP to all ones. -/
  | discard (who : Requester) (pd : PD)
  /-- R479. SET_FROZEN sweeps and then sets FROZEN over the range. -/
  | setFrozen (who : Requester) (pd : PD)
  /-- R309. CLR_FROZEN clears FROZEN over the range. -/
  | clrFrozen (who : Requester) (pd : PD)
  /-- R309. PIN sets PIN over the range once any exchange in progress completes. -/
  | pin (who : Requester) (pd : PD)
  /-- R309. UNPIN clears PIN over the range. -/
  | unpin (who : Requester) (pd : PD)
  /-- R309. The PROMOTE command acts as a PROMOTE hint whatever HINT_EN is. -/
  | placePromote (who : Requester) (pd : PD)
  /-- R309. The DEMOTE command acts as a DEMOTE hint whatever HINT_EN is. -/
  | placeDemote (who : Requester) (pd : PD)
  /-- R309. RECOUNT zeroes COUNT over the range. -/
  | recount (who : Requester) (pd : PD)
  /-- R309. A PLACE command completes once every holding agent has finished. -/
  | placeCmdDone (pd : PD)
  /-- R314. A PLACE_ENT_SEL write clears ENT_VALID and fetches a snapshot of the entry. -/
  | placeEntSelWrite (who : Requester) (pd : PD) (frame : BitVec 22)
  /-- R314. The entry snapshot arrives, and ENT_VALID is set. -/
  | placeEntSnapshot (pd : PD)
  /-- R321. A layer record begins in job order once the window, slab, in-flight and hold conditions are met. -/
  | carouselBegin (pd : PD)
  /-- R323. At y = max(DUE, done + 1) the staging posts to its Turnstile, recording any lateness. -/
  | carouselPost (pd : PD)
  /-- R325. A selector add in the due step chooses an alternative; Carousel acts on it one beat later. -/
  | carouselSelector (pd : PD) (site : Half)
  /-- R330. A mover's fetch of an MVR descriptor completes and is checked against the step length. -/
  | moverDescFetch (pd : PD) (i : MoverIx) (slot : Fin 8) (ue : Option (BitVec 33))
  /-- R332. A 4 KiB piece of a transfer is performed. -/
  | moverPieceDone (pd : PD) (i : MoverIx) (src : MvSrc) (err : PieceErr)
  /-- R331. At y = max(E + BUDGET, done + 1) the mover posts its Turnstile and frees the MVR slot. -/
  | moverPost (pd : PD) (i : MoverIx) (slot : Fin 8)
  /-- R339. A Tier N controller performs a line read or a masked write from an agent. -/
  | nstackRequest (tag : Half) (err : MemErr)
  /-- R347. A write-combining buffer entry idle for WCB_AGE retires by read-modify-write. -/
  | nsWcbAgeRetire (ld : LD) (addr : BitVec 34) (err : MemErr)
  /-- R356. The tREFI timer raises the refresh debt. -/
  | refreshTick (ld : LD)
  /-- R356. A reserved maintenance window begins and serves refresh, ZQ and scrub in order. -/
  | maintWindowBegin (ld : LD)
  /-- R357. The ZQ deadline passes outside a window and one calibration is stolen. -/
  | zqDeadline (ld : LD)
  /-- R357. A scrub pass incomplete after 24 h starts stealing 256 beats per 65,536. -/
  | scrubDeadline (ld : LD)
  /-- R360. A stack temperature sample adjusts refresh rate, throttle and critical state. -/
  | stackTempSample (ld : LD) (layer : Fin 8) (temp : BitVec 8)
  /-- R345. Each stack lane's corrected count is halved every 2^30 beats. -/
  | nsLaneCeDecay (ld : LD)
  /-- R370. A DDR5 controller performs a line request from an agent. -/
  | fchanRequest (tag : Half) (err : MemErr)
  /-- R370. A Tier F write-combining entry idle for WCB_AGE retires. -/
  | fchanWcbAgeRetire (c : FChan) (addr : BitVec 38) (err : MemErr)
  /-- R375. An ALERT_n from the DIMM replays the command buffer; five failures start a retrain. -/
  | fchanAlert (c : FChan) (crc cleared : Bool)
  /-- R376. A retrain completes and the channel drains its buffered writes. -/
  | fchanRetrainDone (c : FChan) (ok : Bool)
  /-- R382. The refresh timer issues same-bank or all-bank refresh. -/
  | fchanRefresh (c : FChan) (rank : Fin 4) (demand : Bool)
  /-- R383. A DIMM sensor read every 32 ms adjusts refresh, throttle and critical state. -/
  | fchanTempRead (c : FChan) (temp : Option (BitVec 8))
  /-- R384. A rank idle for 256 controller cycles enters precharge power-down. -/
  | fchanPowerDown (c : FChan) (rank : Fin 4)
  /-- R386. The patrol scrubber reads a line and writes it back corrected or poisoned. -/
  | fchanScrub (c : FChan) (err : MemErr)
  /-- R386. A pass incomplete after 24 h puts the scrubber into priority mode. -/
  | fchanScrubPriority (c : FChan)
  /-- R374. Each device's corrected count is halved every 2^30 beats. -/
  | fDevCeDecay (c : FChan)
  /-- R400. The DTU translates the spans of a descriptor into regions under its context. -/
  | dtuTranslate (pd : PD) (cls : XClass) (ctx : Half) (tag : Word) (spans : List Span)
  /-- R412. The NONE command of XLATE does nothing. -/
  | xlateCmdNone (who : Requester) (pd : PD)
  /-- R405. ADVANCE raises one context's epoch on every die and drops its cached translations. -/
  | advance (who : Requester) (pd : PD) (ctx : Half)
  /-- R405. ADVANCE_ALL raises the epoch of every context. -/
  | advanceAll (who : Requester) (pd : PD)
  /-- R409. RID_FLUSH drops a port's cached requester entries and waits for admitted requests. -/
  | ridFlush (who : Requester) (pd : PD) (port : RPort)
  /-- R405. An XLATE command completes once earlier-epoch pieces have ended. -/
  | xlateCmdDone (late : Bool)
  /-- R393. A hart CSR write to zctxid sets the CTXID of later accesses. -/
  | zctxidWrite (h : HartId) (value : DWord)
  /-- R423. Barker polls an ACTIVE ring at least every 20 us and accepts valid slots in sequence. -/
  | ringPoll (ring : RingId)
  /-- R423. A doorbell write makes Barker poll the ring within 2 us. -/
  | cmdqDoorbell (who : Requester) (ring : RingId) (value : Word)
  /-- R417. Setting ENABLE checks the ring configuration and enters ACTIVE; clearing it enters STOPPED. -/
  | cmdqEnable (who : Requester) (ring : RingId) (on : Bool)
  /-- R438. FLUSH stops acceptance and ends descriptors that have not started with FLUSHED. -/
  | cmdqFlush (who : Requester) (ring : RingId)
  /-- R438. Once every request has posted its FINAL completion, the SQ is zeroed and the ring returns to RESET. -/
  | flushComplete (ring : RingId)
  /-- R437. TIME_US passes after the first unsignalled record, and CPL is set. -/
  | cplCoalTimeout (ring : RingId)
  /-- R424. A NOP descriptor ends DONE at acceptance. -/
  | ringNop (ring : RingId)
  /-- R426. A JOB_SUBMIT descriptor translates its image and queues the job. -/
  | jobSubmit (ring : RingId)
  /-- R426. When no other job is active, Barker sets the CTXIDs and runs load, checks and start. -/
  | jobStart (err : TierFail)
  /-- R428. JOB_CTL END ends a trapped job with NUMERIC_TRAP. -/
  | jobCtlEnd (ring : RingId)
  /-- R428. JOB_CTL RERUN reruns the trapped step once every device agrees. -/
  | jobCtlRerun (ring : RingId)
  /-- R428. JOB_CTL RERUN_NOTRAP clears TRAP_NAN and reruns the trapped step. -/
  | jobCtlRerunNotrap (ring : RingId)
  /-- R429. A MOVE descriptor runs a mover transfer under the ring's CTXID. -/
  | move (ring : RingId)
  /-- R430. INLINE_WRITE writes up to 192 payload bytes as masked line writes. -/
  | inlineWrite (ring : RingId)
  /-- R430. INLINE_READ reads up to 48 bytes into the completion DETAIL. -/
  | inlineRead (ring : RingId)
  /-- R430. Every line of an inline transfer is performed; the post is made and the descriptor ends. -/
  | inlineTransferDone (ring : RingId) (seq : Word) (err : PieceErr)
  /-- R431. A ring TSOP add is scheduled for beat 0 of a job step, or applied at acceptance. -/
  | ringTsopAdd (ring : RingId)
  /-- R431. A ring TSOP subtract is scheduled for beat 0 of a job step, or applied at acceptance. -/
  | ringTsopSubtract (ring : RingId)
  /-- R433. BARRIER ends once every earlier descriptor of the ring has posted FINAL. -/
  | mgmtBarrier (ring : RingId)
  /-- R433. MGMT ADVANCE runs XLATE ADVANCE for a context. -/
  | mgmtAdvance (ring : RingId)
  /-- R433. MGMT PLACE runs a PLACE command from a ring. -/
  | mgmtPlace (ring : RingId)
  /-- R433. TIMESTAMP returns the time base, step counter and JSTEP. -/
  | mgmtTimestamp (ring : RingId)
  /-- R444. A RUNc write starts a hart in RESET at BOOT_ADDR. -/
  | hartRun (who : Requester) (pd : PD) (core : Fin 2)
  /-- R452. A hart load, store, AMO or fetch is performed, or takes an access fault. -/
  | hartMemoryAccess (h : HartId) (op : HartOp) (va : DWord) (pa pb : Option (BitVec 52)) (size : Fin 4) (data : DWord) (rl vec : Bool) (err : TierFail)
  /-- R456. A non-temporal store merges into the combining buffer after write permission is obtained. -/
  | hartNtStore (h : HartId) (va : DWord) (line : BitVec 46) (mask : BitVec 64) (data : BitVec 512)
  /-- R457. A combining entry with no store for 256 CCLK drains. -/
  | cbAgeDrain (h : HartId) (line : BitVec 46)
  /-- R464. No instruction retired for CPUCL_WDOG.MS starts removal with cause 3. -/
  | hartWatchdog (h : HartId)
  /-- R464. An uncorrectable error in architectural state or tags starts removal. -/
  | hartStateUe (h : HartId) (tags : Bool)
  /-- R468. The NONE command of CPUCL does nothing. -/
  | cpuclCmdNone (who : Requester) (pd : PD)
  /-- R465. The REMOVE command starts the removal of a core with cause 4. -/
  | remove (who : Requester) (pd : PD) (core : Fin 2)
  /-- R465. Write-backs complete and the hart becomes REMOVED. -/
  | hartRemovalDone (h : HartId)
  /-- R462. A CPUCL_MSI_SEND write delivers an identity to a hart's interrupt file, or drops it. -/
  | msiSend (who : Requester) (pd : PD) (value : Word)
  /-- R463. time reaches MTIMECMPc and the M-level timer interrupt becomes pending. -/
  | mtimerInterrupt (h : HartId)
  /-- R460. An access to APLIC_DATA reaches the APLIC register that the requester selected. -/
  | aplicAccess (who : Requester) (pd : PD) (write : Option Word)
  /-- R474. The home serves READ_S with an E or S grant from the owner, the L3 or the agent. -/
  | homeReadS (h : HartId) (tag ctx : Half) (line : BitVec 46) (dir : DirErr)
  /-- R474. The home checks the grant at the agent and then grants M with data. -/
  | homeReadX (who : Holder) (tag ctx : Half) (line : BitVec 46) (dir : DirErr)
  /-- R474. The home grants M without data to an S or O holder. -/
  | homeUpgrade (h : HartId) (tag ctx : Half) (line : BitVec 46) (dir : DirErr)
  /-- R474. The home grants M without data for a full line. -/
  | homeClaim (who : Holder) (tag ctx : Half) (line : BitVec 46) (data : BitVec 512) (dir : DirErr)
  /-- R474. An L2 evicting E notifies the home. -/
  | homeEvictE (h : HartId) (line : BitVec 46)
  /-- R474. A write-back or drain delivers data to the L3 slice or the agent. -/
  | homeWb (who : Holder) (line : BitVec 46)
  /-- R474. The home grants S for an operand-cache line of two granules. -/
  | homeFillS (pd : PD) (mc : MC) (tag ctx : Half) (line : BitVec 46) (dir : DirErr)
  /-- R474. An uncached READ returns data only. -/
  | homeRead (tag ctx : Half) (line : BitVec 46) (dir : DirErr)
  /-- R476. An uncached WRITE is performed after any recalled dirty data reaches the L3. -/
  | homeWrite (tag ctx : Half) (line : BitVec 46) (mask : BitVec 64) (data : BitVec 512) (own : Option (PD × MC)) (dir : DirErr)
  /-- R475. A holder answers SNP_SHARE, moving M to O or E to S. -/
  | snpShare (who : Holder) (line : BitVec 46)
  /-- R475. A holder answers SNP_INVAL and invalidates its copy. -/
  | snpInval (who : Holder) (line : BitVec 46)
  /-- R475. A holder answers SNP_CUR with current data and keeps its state. -/
  | snpCur (who : Holder) (line : BitVec 46)
  /-- R481. The home takes a snoop answer, handling WB_IN_FLIGHT and EVICTING_CLEAN crossings. -/
  | snoopResponse (who : Holder) (line : BitVec 46)
  /-- R476. The requester's COMP_ACK closes the line's transaction. -/
  | compAck (line : BitVec 46)
  /-- R481. WB_ACK lets the owner free its write-back buffer entry. -/
  | wbAck (who : Holder) (line : BitVec 46)
  /-- R486. An unanswered snoop after SNP_TMO_US is treated as not present or as lost data. -/
  | snoopTimeout (who : Holder) (line : BitVec 46)
  /-- R480. A root-port line with no write for 4096 NCLK is released with WB. -/
  | rpLineRelease (p : RPort) (line : BitVec 46)
  /-- R489. A HOME_LOOKUP_HI write commits a lookup of home and agent. -/
  | homeLookup (who : Requester) (pd : PD) (hi : Word)
  /-- R497. A TRAIN write starts DETECT, TRAIN and ALIGN on a port. -/
  | jpTrain (who : Requester) (port : JPort)
  /-- R498. DETECT times out and the port goes DOWN or restarts. -/
  | jpDetectTimeout (port : JPort)
  /-- R497. ALIGN completes, the port enters UP and its parameters are stored. -/
  | jpTrainDone (port : JPort) (out : TrainOut)
  /-- R498. Partner signalling lost during training restarts it, up to 3 times. -/
  | jpSignalLost (port : JPort)
  /-- R499. A JP_CTRL.LP_REQ write starts low-power entry or exit. -/
  | lpReqWrite (who : Requester) (port : JPort) (on : Bool)
  /-- R499. An LP_REQ token is received; the port answers LP_ACK and quiesces. -/
  | lpReq (port : JPort) (hdr : TokHdr)
  /-- R499. An LP_ACK token completes low-power entry. -/
  | lpAck (port : JPort) (hdr : TokHdr)
  /-- R499. Low-power exit completes, or fails with LOST_IN_PM after 1 ms. -/
  | lpExitDone (port : JPort) (ok : Bool)
  /-- R523. FORCE_DOWN holds the port DOWN with cause FORCED. -/
  | forceDownWrite (who : Requester) (port : JPort) (on : Bool)
  /-- R502. JP_FORM.GO trains the used ports and starts formation. -/
  | formGo (who : Requester) (port : JPort)
  /-- R502. An IDENT token is checked against the shape and coordinates; a mismatch makes the port MISCABLED. -/
  | ident (port : JPort) (hdr : TokHdr) (b : IdentBody)
  /-- R502. A FORM_GATHER token sums CONTRIB up the tree. -/
  | formGather (port : JPort) (hdr : TokHdr) (contrib : Half)
  /-- R502. FORM_RELEASE makes the used ports ACTIVE, zeroes the step counter and sets FORMED. -/
  | formRelease (port : JPort) (hdr : TokHdr)
  /-- R502. A device not FORMED within 2 s of GO fails with TIMEOUT. -/
  | formTimeout
  /-- R502. DISSOLVE returns the ports to UP and the form state to IDLE. -/
  | dissolve (who : Requester) (port : JPort)
  /-- R507. A HOLD token is acted on the first time it arrives and flooded on. -/
  | holdToken (port : JPort) (hdr : TokHdr) (cause : Byte) (beat : Word) (detail : DWord)
  /-- R505. A flooded TRAP_RECORD token delivers the partition's earliest trap record. -/
  | trapRecord (port : JPort) (hdr : TokHdr) (rec_ : BitVec 256)
  /-- R514. A received DATA flit is matched against the next receive entry and buffered. -/
  | dataFlit (port : JPort) (flit : Flit) (lanes : List (Fin 9 × Fin 16))
  /-- R512. A transmit entry becomes ready at B, its predecessor's pace and its guard, and begins reading and sending. -/
  | jpTxEntryReady (port : JPort)
  /-- R513. A receive entry writes its lines into the parity half from W. -/
  | jpRxEntry (port : JPort)
  /-- R513. When the last write is performed, the receive entry posts its Turnstile at y. -/
  | jpRxPost (port : JPort)
  /-- R520. An uncorrectable codeword, lost lock, lost alignment or overflow is a link fault and starts RECOVER. -/
  | jpLinkFault (port : JPort) (cause : LinkCause)
  /-- R520. No flit received for 2 us is a SILENT link fault. -/
  | jpSilent (port : JPort)
  /-- R521. Recovery completes and the port returns to ACTIVE. -/
  | jpRecoverDone (port : JPort) (spareTx spareRx : Option (Fin 8))
  /-- R521. Recovery fails or exceeds 400 us; the port goes DOWN and the job ends. -/
  | jpRecoverTimeout (port : JPort)
  /-- R500. Each receive lane's corrected count is halved every 2^30 beats. -/
  | jLaneCeDecay (port : JPort)
  /-- R526. A decided core fault stops and fences the core and writes the fault record. -/
  | coreFault (pd : PD) (mc : MC) (f : Option CoreFaultArg)
  /-- R525. An overdue operation or stalled dispatch expires the core watchdog. -/
  | coreWatchdog (pd : PD) (mc : MC) (q : WdQueue)
  /-- R524. A router, Turnstile block, checkpoint or control-cluster failure is a die fault. -/
  | dieFault (pd : PD) (what : DieFault)
  /-- R537. MC16's built-in test completes; MC16 adopts the identity or the fault becomes unreplayable. -/
  | substBistDone (pd : PD) (fail : Option (BitVec 10))
  /-- R538. A held device sends its recovery report once its substitutions and recoveries are finished. -/
  | recoveryReport
  /-- R540. RESUME REPLAY restores cores and Turnstiles for the step to open at T0. -/
  | resumeReplay (port : JPort) (hdr : TokHdr) (attempt : Byte) (t0 : DWord)
  /-- R540. RESUME COMMIT performs the step commit on devices that had not committed. -/
  | resumeCommit (port : JPort) (hdr : TokHdr) (cats : Byte) (m : Word) (t0 : DWord)
  /-- R542. RESUME STOP ends the job with its CODE on every device. -/
  | resumeStop (port : JPort) (hdr : TokHdr) (code : Byte)
  /-- R540. The time base reaches T0 and the resumed step opens; FAULT_REPLAY is recorded. -/
  | resumeStepOpen
  /-- R540. No RESUME within 10 ms of holding ends the job with LINK_FAULT_UNRECOVERED. -/
  | resumeTimeout
  /-- R531. A core's state capture begins once its STEP conditions and checker decisions are done. -/
  | checkpointCapture (pd : PD) (mc : MC)
  /-- R531. The 594-beat capture into the standby slot completes. -/
  | checkpointCaptureDone (pd : PD) (mc : MC)
  /-- R546. A source stamps an event and queues it, or discards it and counts it lost. -/
  | eventReport (p : Page) (num : Byte) (data : DWord)
  /-- R547. The log accepts one queued entry into place s mod 8192. -/
  | eventLogWrite (blk : Byte) (pd : PD) (inst : Fin 64)
  /-- R547. An EV_RD_SEQ_HI write fetches an entry into EV_ENTRY with its status. -/
  | eventFetch (who : Requester) (hi : Word)
  /-- R552. A power agent samples die current, voltage and temperature. -/
  | paSample (pd : PD) (mw : BitVec 20) (vcore vsram vdram : Half) (temp : Option (Byte × Fin 16)) (valid : Bool) (model : BitVec 20)
  /-- R553. Every 1 ms each group's PA_CAL is computed from rail and sensed energy. -/
  | rmCalibrate (groups : List (Word × Word))
  /-- R555. The Ringmaster's heartbeat reaches an agent, which leaves SAFE if it was in it. -/
  | rmHeartbeat (pd : PD)
  /-- R578. 10 ms without a heartbeat puts the agent in SAFE. -/
  | paSafeEntry (pd : PD)
  /-- R558. A 1024-beat gate period holds the cores for 64k beats at the effective duty. -/
  | gatePeriod (pd : PD)
  /-- R559. Every 10 us the native peak duty is adjusted against B_PD. -/
  | peakEval (pd : PD)
  /-- R561. Every 10 us in ZR6 mode the current duty is adjusted against rail limits. -/
  | zr6Eval (pd : PD)
  /-- R563. Every HOLD_MS the ratio request moves slower or faster. -/
  | ratioEval (volt : Bool)
  /-- R569. In each 64-beat slice of a barrier, cores issue filler rows at level Lambda. -/
  | fillerSlice (pd : PD) (free : List (MC × Fin 65)) (act : Fin 1025)
  /-- R571. Every 1 ms the thermal duty is adjusted against DIE_HOT and DIE_CRIT. -/
  | dieThermalEval (pd : PD)
  /-- R571. A die sensor at DIE_TRIP starts the emergency stop in hardware. -/
  | dieTrip (pd : PD) (temp : Byte)
  /-- R572. A stack at STACK_TRIP starts the emergency stop. -/
  | stackTrip (pd : PD) (temp : Byte)
  /-- R572. A critical temperature held for 1 s starts the emergency stop. -/
  | critHeld (pd : PD)
  /-- R574. COOLANT_FAULT_N low in 10 consecutive samples starts the emergency stop. -/
  | coolantFault
  /-- R574. RM_CTRL.STOP_REQ starts the emergency stop with cause 5. -/
  | stopReq (who : Requester)
  /-- R575. The stop gates cores, holds the partition, stops I/O and clocks, and commands rails off within 1 ms. -/
  | emergencyStop
  /-- R577. Rails not off within 1 ms assert THERMTRIP_N. -/
  | railsOffTimeout
  /-- R581. At each 1 ms interval, measured energy is attributed to slots in proportion to the model. -/
  | attrInterval
  /-- R585. The NONE command of RMSTR does nothing. -/
  | rmCmdNone (who : Requester)
  /-- R556. FRAC_COMMIT activates the staged fraction table if it is valid and the state permits. -/
  | fracCommit (who : Requester)
  /-- R557. FRAC_DEFAULT reloads the default table into the staged copy. -/
  | fracDefault (who : Requester)
  /-- R562. A MODE write switches native or ZR6 mode only in idle states. -/
  | rmModeWrite (who : Requester) (on : Bool)
  /-- R593. The Ringmaster polls the load frame and takes a new request. -/
  | fwPoll
  /-- R596. LOAD copies and verifies the bundle, distributes the images and starts the clusters. -/
  | fwLoad
  /-- R598. Every agent and Barker report ready; STATE becomes RUNNING. -/
  | fwStartDone
  /-- R598. A start not complete within 200 ms fails with reason 0x09. -/
  | fwStartTimeout
  /-- R599. STOP flushes every ring and holds the clusters in reset. -/
  | fwStop
  /-- R600. A cluster core watchdog expires and its cluster is held in reset. -/
  | fwWatchdog (pd : PD) (core : Fin 4)
  /-- R600. An uncorrectable cluster SRAM or core state error fails the cluster. -/
  | fwClusterUe (pd : PD) (core : Fin 4) (addr : Option (BitVec 24))
  /-- R601. A reloaded agent cluster restarts. -/
  | agentRestartDone (pd : PD)
  /-- R610. An inbound memory TLP is looked up, translated and sent to the home. -/
  | pcieInbound (port : RPort) (rid : Half) (at_ : Bool) (kind : InTlp) (addr : DWord) (err : TierFail) (corr : Byte)
  /-- R613. A 4 B write to the doorbell page is looked up in the MSI table and delivered after earlier writes. -/
  | pcieMsi (port : RPort) (rid : Half) (at_ : Bool) (addr : DWord) (len : Fin 513) (data : Word)
  /-- R605. An INTx message is discarded and counted. -/
  | pcieIntx (port : RPort)
  /-- R607. A hart, mover or Carousel access to a window is sent as an ECAM or memory request. -/
  | pcieOutbound (h : HartId) (va : DWord) (op : HartOp) (addr : BitVec 52) (size : Fin 65) (data : DWord)
  /-- R609. A completion for an outbound non-posted request arrives. -/
  | pcieCompletion (port : RPort) (h : HartId) (write : Bool) (st : CplSt) (data : DWord)
  /-- R609. No completion within PRP_CPL_TMO ends the outbound request. -/
  | pcieCplTimeout (port : RPort) (h : HartId) (write : Bool)
  /-- R616. The link reaches UP after PERST_N release and training. -/
  | pcieLinkUp (port : RPort) (speed : Fin 6) (width : Fin 5) (flit : Bool)
  /-- R617. Link loss or a DPC trigger stops inbound traffic and ends outbound requests. -/
  | pcieLinkDown (port : RPort) (dpc : Bool)
  /-- R616. PERST_ASSERT drives or releases the port's PERST_N. -/
  | perstAssertWrite (who : Requester) (port : RPort) (on : Bool)
  /-- R619. RETRAIN retrains the link. -/
  | prpRetrain (who : Requester) (port : RPort)
  /-- R619. LINK_DISABLE holds the link in Disabled. -/
  | linkDisableWrite (who : Requester) (port : RPort) (on : Bool)
  /-- R619. The NONE command of PCIERP does nothing. -/
  | prpCmdNone (who : Requester) (port : RPort)
  /-- R613. MSI_FLUSH drops the port's cached MSI table entries. -/
  | msiFlush (who : Requester) (port : RPort)
  /-- R621. The device answers the Alert Response Address while it asserts ALERT_N. -/
  | smbusAlertResponse
  /-- R622. The MCTP Set Endpoint ID command assigns the endpoint ID. -/
  | setEndpointId (i3c : Bool) (op : BitVec 2) (eid : Byte)
  /-- R622. The MCTP Get Endpoint ID command returns the endpoint ID. -/
  | getEndpointId (i3c : Bool)
  /-- R622. The MCTP Get Endpoint UUID command returns the UUID. -/
  | getEndpointUuid (i3c : Bool)
  /-- R622. The MCTP Get MCTP Version Support command returns the supported versions. -/
  | getMctpVersionSupport (i3c : Bool) (ty : Byte)
  /-- R622. The MCTP Get Message Type Support command returns the control and PLDM types. -/
  | getMessageTypeSupport (i3c : Bool)
  /-- R622. PLDM GetTID returns the terminus ID. -/
  | gettid (i3c : Bool)
  /-- R622. PLDM SetTID sets the terminus ID. -/
  | settid (i3c : Bool) (tid : Byte)
  /-- R622. PLDM GetPLDMVersion returns a type's version. -/
  | getpldmversion (i3c : Bool) (opFlag ty : Byte)
  /-- R622. PLDM GetPLDMTypes returns the supported types. -/
  | getpldmtypes (i3c : Bool)
  /-- R622. PLDM GetPLDMCommands returns the supported commands. -/
  | getpldmcommands (i3c : Bool) (ty : Byte) (version : Word)
  /-- R623. PLDM GetSensorReading returns a numeric sensor value. -/
  | getSensorReading (i3c : Bool) (id : Half)
  /-- R623. PLDM GetStateSensorReadings returns a state sensor. -/
  | getStateSensorReadings (i3c : Bool) (id : Half)
  /-- R623. PLDM SetNumericEffecterValue writes a power cap. -/
  | setNumericEffecterValue (i3c : Bool) (id : Half) (value : Word)
  /-- R623. PLDM GetNumericEffecterValue reads a power cap. -/
  | getNumericEffecterValue (i3c : Bool) (id : Half)
  /-- R623. PLDM SetStateEffecterStates acts on the ratio limit, stop or power effecters. -/
  | setStateEffecterStates (i3c : Bool) (id : Half) (request : Bool) (value : Byte)
  /-- R623. PLDM GetStateEffecterStates reads a state effecter. -/
  | getStateEffecterStates (i3c : Bool) (id : Half)
  /-- R622. PLDM GetPDRRepositoryInfo describes the PDR repository. -/
  | getPdrRepositoryInfo (i3c : Bool)
  /-- R622. PLDM GetPDR returns a PDR record. -/
  | getPdr (i3c : Bool) (handle transfer : Word) (opFlag : Byte) (count : Half)
  /-- R624. PLDM SetEventReceiver names the event receiver. -/
  | setEventReceiver (i3c : Bool) (enable transport address : Byte)
  /-- R624. PLDM PollForPlatformEventMessage collects a pending event. -/
  | pollForPlatformEventMessage (i3c : Bool)
  /-- R622. PLDM GetFRURecordTableMetadata describes the FRU table. -/
  | getFruRecordTableMetadata (i3c : Bool)
  /-- R622. PLDM GetFRURecordTable returns part, stepping and serial number. -/
  | getFruRecordTable (i3c : Bool)
  /-- R635. VSTBY reaches regulation; a system reset with cause POWER_ON begins. -/
  | powerOn
  /-- R635. SYS_RESET_N low for 10 us causes a system reset. -/
  | sysResetPin (low : Bool)
  /-- R635. PWR_OK falls while rails are held on, causing a system reset. -/
  | pwrOkLost
  /-- R635. TB_CTRL.SYS_RESET_REQ causes a system reset. -/
  | sysResetReq (who : Requester)
  /-- R635. The Ringmaster's 100 ms watchdog expires and causes a system reset. -/
  | rmWatchdog
  /-- R638. After reset, the boot ROM samples straps, locks RPLL, selects a bank and starts the Ringmaster. -/
  | stage0Boot (backup : Bool) (boardId : BitVec 4) (refclk : Bool)
  /-- R645. An on request becomes pending. -/
  | powerOnRequest (who : Option Requester)
  /-- R647. An off request takes effect at the next safe point. -/
  | powerOffRequest (who : Option Requester)
  /-- R639. With reference and coolant present, the Ringmaster commands the rails on. -/
  | powerUp (refclk coolantLow : Bool)
  /-- R674. The rails of a sequence step report POWER_GOOD and the next step is commanded. -/
  | railPowerGood
  /-- R639. PWR_OK not high within 100 ms fails with FAIL PWR. -/
  | pwrOkTimeout
  /-- R640. PWR_OK high starts router training, die tests, spare selection and numbering. -/
  | stage2Start (links : Bool) (tests : List DieTest) (flash : Bool)
  /-- R641. The die map is committed and memory training, hart tests and PCIe release start. -/
  | stage3Start
  /-- R641. Tier N and Tier F are done; MEM_TOP loads, the load frame is reserved and the boot hart is released. -/
  | memoryTrainingDone (spares : List (PD × Fin 32 × Word)) (chans : List ChanTrain) (harts : List HartId) (repaired : List (Fin 4096))
  /-- R642. A stack fails training and the package returns to stage 2. -/
  | stackTrainingFail (pd : PD) (tests : List DieTest) (flash : Bool)
  /-- R646. Power-down holds clusters, stops traffic and clocks, and commands the rails off. -/
  | powerDown
  /-- R629. REFCLK100 appears and RPLL relocks to it. -/
  | refclkRelock
  /-- R630. The monitor declares clock loss; clocks stop and the package returns to stage 1. -/
  | clockLoss
  /-- R632. A SYNC_IN edge loads every time-base copy with TB_SYNC_VAL. -/
  | syncPulse
  /-- R632. FIRE drives SYNC_OUT high for 4 REFCLK periods. -/
  | syncFire (who : Requester)
  /-- R660. The NONE command of PSTORE does nothing. -/
  | psCmdNone (who : Requester)
  /-- R654. COMMIT writes the inactive bank now. -/
  | commit (who : Requester)
  /-- R658. UPDATE_IMAGE verifies an image, writes it to the inactive slot and commits. -/
  | updateImage (who : Requester)
  /-- R658. UPDATE_CFG replaces BOOT_CFG and commits. -/
  | updateCfg (who : Requester)
  /-- R658. REVOKE marks keys revoked, raises the minimum versions and commits. -/
  | revoke (who : Requester) (mask : Byte)
  /-- R658. CLEAR_KIND removes the history entries of a kind and commits. -/
  | clearKind (who : Requester) (kind : Byte)
  /-- R658. READ_RECORD copies a record payload to memory. -/
  | readRecord (who : Requester)
  /-- R658. A PSTORE command completes with a code and reason. -/
  | psCmdDone (flash : Bool)
  /-- R654. Pending history or link parameters are committed within 60 s or 24 h. -/
  | psAutoCommit (flash : Bool)
  /-- R677. Each regulator is read every 1 ms; 10 misses fall back to the last reading. -/
  | regulatorPoll (rail : Fin 14) (mw : Option (BitVec 24)) (fault : Bool)
  /-- R676. PMB_ALERT_N makes the Ringmaster read every regulator's STATUS_WORD. -/
  | pmbAlert (faults : List (Fin 14))
  /-- R686. TRST_N low holds every TAP in Test-Logic-Reset. -/
  | tapReset
  /-- R691. EXTEST drives and captures boundary cells in test mode. -/
  | extest (tap : Option PD) (data lands : BitVec 192)
  /-- R686. SAMPLE captures the boundary register. -/
  | sample (tap : Option PD) (lands : BitVec 192)
  /-- R686. PRELOAD loads the boundary register. -/
  | preload (tap : Option PD) (data : BitVec 192)
  /-- R687. IDCODE selects the 32-bit identification register. -/
  | idcode (tap : Option PD)
  /-- R691. CLAMP holds the boundary outputs and selects bypass. -/
  | clamp (tap : Option PD)
  /-- R691. HIGHZ sets the outputs to high impedance in test mode. -/
  | highz (tap : Option PD)
  /-- R685. CHAIN_CFG includes or bypasses die TAPs at Update-DR. -/
  | chainCfg (bits : BitVec 56)
  /-- R686. DIE_POS reports the die's position and role. -/
  | diePos (pd : PD)
  /-- R691. TEST_MODE sets test mode during stage 2. -/
  | testMode (on : Bool)
  /-- R689. WS_EXTEST drives and captures the die wrapper interfaces. -/
  | wsExtest (pd : PD) (data lanes : BitVec 4096)
  /-- R689. WS_INTEST isolates the die core. -/
  | wsIntest (pd : PD) (data lanes : BitVec 4096)
  /-- R686. WS_PRELOAD loads the die wrapper register. -/
  | wsPreload (pd : PD) (data : BitVec 4096)
  /-- R686. WS_BYPASS selects the 1-bit wrapper bypass. -/
  | wsBypass (pd : PD)
  /-- R686. BYPASS selects the 1-bit bypass register. -/
  | bypass (tap : Option PD) (code : Byte)
  /-- R694. A REG_ACCESS read performs a register read as the debug block of PD0. -/
  | regAccessRead (addr : BitVec 46)
  /-- R694. A REG_ACCESS write performs a register write followed by a BLK_SYNC read. -/
  | regAccessWrite (addr : BitVec 46) (data : Word)
  /-- R701. DMI reaches the RISC-V debug module for hart halt, step and register access. -/
  | dmi (op : BitVec 2) (addr : BitVec 7) (data : Word)
  /-- R695. HALT debug-halts the selected core at the next instruction boundary. -/
  | dbgHalt (who : Requester) (pd : PD)
  /-- R695. RESUME restores the state the core held before the halt. -/
  | dbgResume (who : Requester) (pd : PD)
  /-- R695. STEP dispatches one instruction and halts again. -/
  | dbgStep (who : Requester) (pd : PD)
  /-- R697. A DBG_TS_VALUE write replaces a Turnstile value and sets DEBUG_TOUCHED when running. -/
  | dbgTsValueWrite (who : Requester) (pd : PD) (value : Word)
  /-- R698. DBG_MEM read performs one 4 B read of system or scratch memory. -/
  | dbgMemRead (who : Requester) (pd : PD) (err : TierFail)
  /-- R698. DBG_MEM write performs one 4 B write, past frozen, input and IMAGE_RO protection. -/
  | dbgMemWrite (who : Requester) (pd : PD) (err : TierFail)
  /-- R699. DBG_RB_SEL selects a mover slot or Carousel record whose region block is shown. -/
  | dbgRbSelWrite (who : Requester) (pd : PD) (value : Word)
  /-- R134. An instruction with a reserved opcode reaches dispatch; it is not dispatched and the core stops with SCHED_ERROR, reason 0x01. -/
  | reservedOpcode (pd : PD) (mc : MC)
  /-- R424. A ring descriptor with a reserved KIND, or a reserved OP within its kind, is accepted and ends at once with SCHED_ERROR, posting only its FINAL completion. -/
  | reservedKind (ring : RingId)
  /-- R457. A hart FENCE whose predecessor set includes W or O, or a FENCE.TSO, drains every combining-buffer entry of the hart. -/
  | hartFence (h : HartId) (predWO tso : Bool)
  /-- R355. Outside a running schedule, the 64 ms ZQ interval, or an 8 °C stack temperature move, expires and the controller calibrates all channels on its own timer. -/
  | zqInterval (ld : LD)
  /-- R624. The event receiver accepts a PlatformEventMessage; the event leaves the pending list, and ALERT_N is released once no event is pending. -/
  | platformEventAccepted
  /-- R621. An I3C SETDASA command assigns the device's dynamic address from its static address. -/
  | setdasa (static dyn : BitVec 7)
  /-- R621. An I3C ENTDAA command assigns the device a dynamic address through arbitration. -/
  | entdaa (dyn : BitVec 7)
  /-- R606. An inbound PCIe error or PME message is logged in AER or the PME status and sets PCIERP BLK_INT_STAT.RP_EVENT. -/
  | endpointErrorMessage (port : RPort) (msg : EpMsg)
  /-- R648. VSTBY is lost at any point; all state, including pending persistent-store entries, is lost, and the next start is a POWER_ON. -/
  | vstbyPowerLoss
deriving DecidableEq, Repr

end Sys2Proof
end

