-- ==== Sys2Proof/Config.lean ====
section
/-!
DEFINITION. The values the spec leaves open: constants without a body, so that nothing can be proved of one. A step
that meets an undefined value takes the next one, counted by State.freeCtr.
-/
namespace Sys2Proof.Config

/-- Undefined value number n, item i of it (log entry 4). -/
opaque freeDWord : Nat → Nat → DWord

/-- An undefined byte. -/
def freeByte (n i : Nat) : Byte := (freeDWord n i).setWidth 8

/-- An undefined word. -/
def freeWord (n i : Nat) : Word := (freeDWord n i).setWidth 32

/-- An undefined bit. -/
def freeBit (n i : Nat) : Bool := (freeDWord n i).getLsbD 0

/-- An undefined number below 2^w. -/
def freeNat (n i w : Nat) : Nat := (freeDWord n i).toNat % 2 ^ w

/-- BLK_VER.MINOR and MAJOR of a block type, LOADED and not given (R54; log entry 41). -/
opaque blkVersion : Nat → Half

/-! The configuration space of a root port, whose layout beyond the Type 1 header is the PCI Express Base Specification's
(R605; log entry 32): the value after reset of a byte, its bits that software writes and those that a written 1 clears, and
the offsets of the AER, DPC and PCI Express capabilities. -/

opaque rootCfg : Nat → Byte
opaque rootCfgRw : Nat → Byte
opaque rootCfgW1c : Nat → Byte
opaque aerOff : Nat
opaque dpcOff : Nat
opaque pcieOff : Nat

/-! What the management endpoint answers where the spec names the standard's field and not its value (R622; log entry 36):
the endpoint's UUID, versions by PLDM type, the version of PLDM over MCTP, the PDR repository's records and its update
times. -/

opaque uuid : Nat → Byte
opaque pldmVersion : Nat → Word
opaque pldmMctp : Word
opaque pdrs : List (List Byte)
opaque pdrTimes : Nat → Byte

end Sys2Proof.Config
end

