-- ==== Sys2Proof/Machine/Map.lean ====
section
/-!
DEFINITION. Sparse maps in canonical form: a list of key and value pairs, keys strictly rising, no entry equal to
what an unlisted key reads as. Registers, memories and every large array of the package are held so.
-/
namespace Sys2Proof.Machine

variable {α : Type}

/-- What key k reads as: its entry, or the default where none is listed. -/
def mget (d : Nat → α) : List (Nat × α) → Nat → α
  | [], k => d k
  | (j, v) :: m, k => if k = j then v else if k < j then d k else mget d m k

/-- Drops the entry of key k. -/
def merase : List (Nat × α) → Nat → List (Nat × α)
  | [], _ => []
  | (j, v) :: m, k => if k = j then m else if k < j then (j, v) :: m else (j, v) :: merase m k

/-- Lists value v at key k, keeping the keys rising. -/
def minsert : List (Nat × α) → Nat → α → List (Nat × α)
  | [], k, v => [(k, v)]
  | (j, w) :: m, k, v =>
    if k = j then (k, v) :: m else if k < j then (k, v) :: (j, w) :: m else (j, w) :: minsert m k v

/-- Writes value v at key k; a write of the default removes the entry, so that equal maps are equal lists. -/
def mput [DecidableEq α] (d : Nat → α) (m : List (Nat × α)) (k : Nat) (v : α) : List (Nat × α) :=
  if v = d k then merase m k else minsert m k v

/-- The canonical form: every key above lo, keys strictly rising, no entry equal to the default. -/
def mwfFrom [DecidableEq α] (d : Nat → α) : Nat → List (Nat × α) → Bool
  | _, [] => true
  | lo, (j, v) :: m => decide (lo ≤ j) && decide (v ≠ d j) && mwfFrom d (j + 1) m

abbrev mwf [DecidableEq α] (d : Nat → α) (m : List (Nat × α)) : Bool := mwfFrom d 0 m

/-- Applies f to the value at key k. -/
def mmodify [DecidableEq α] (d : Nat → α) (m : List (Nat × α)) (k : Nat) (f : α → α) : List (Nat × α) :=
  mput d m k (f (mget d m k))

/-- Writes the values vs at k, k + 1, … -/
def mputs [DecidableEq α] (d : Nat → α) (m : List (Nat × α)) (k : Nat) : List α → List (Nat × α)
  | [] => m
  | v :: vs => mputs d (mput d m k v) (k + 1) vs

/-- Reads n values from k on. -/
def mgets (d : Nat → α) (m : List (Nat × α)) (k : Nat) : Nat → List α
  | 0 => []
  | n + 1 => mget d m k :: mgets d m (k + 1) n

end Sys2Proof.Machine
end

