-- ==== Sys2Proof/Machine/Regs.lean ====
section
/-!
DEFINITION. The register fields of every page, as the spec's register tables give them: offset, bits, access code,
reset value, protection and permitted values (R6 to R9, R52 to R66 and the table of each block's chapter). A field of
an array of registers is listed once with its count and stride. LOADED fields read 0 until loaded (log entry 2).
-/
namespace Sys2Proof.Machine

/-- Access codes of R6. -/
inductive Acc where
  | ro | rw | w1c | w1s | wo | sc
deriving DecidableEq, Repr

/-- One field of a register table. own: the field's write is an action with an operation of its own; ok: the
permitted values as ranges, none listed meaning all (R9). -/
structure RegField where
  off : Nat
  lo : Nat
  w : Nat
  acc : Acc
  n : Nat := 1
  stride : Nat := 4
  reset : Nat := 0
  st : Bool := false
  prot : Bool := false
  own : Bool := false
  ok : List (Nat × Nat) := []
deriving DecidableEq, Repr


/-! Fields of R53-R63, spec/02_register_pages.md. -/

def Reg.BLK_VER_STEPPING : RegField := ⟨0x004, 16, 8, .ro, 1, 4, 0xB1, false, false, false, []⟩
def Reg.BLK_CTRL_ENABLE : RegField := ⟨0x008, 0, 1, .rw, 1, 4, 0x0, false, false, true, []⟩
def Reg.BLK_CTRL_SOFT_RESET : RegField := ⟨0x008, 1, 1, .sc, 1, 4, 0x0, false, false, true, []⟩
def Reg.BLK_CTRL_FENCE : RegField := ⟨0x008, 2, 1, .rw, 1, 4, 0x0, true, true, true, []⟩
def Reg.BLK_STAT_READY : RegField := ⟨0x00C, 0, 1, .ro, 1, 4, 0x0, false, false, false, []⟩
def Reg.BLK_STAT_BUSY : RegField := ⟨0x00C, 1, 1, .ro, 1, 4, 0x0, false, false, false, []⟩
def Reg.BLK_STAT_FENCED : RegField := ⟨0x00C, 2, 1, .ro, 1, 4, 0x0, true, false, false, []⟩
def Reg.BLK_STAT_ERR : RegField := ⟨0x00C, 3, 1, .w1c, 1, 4, 0x0, true, false, false, []⟩
def Reg.BLK_INT_STAT_CAUSES : RegField := ⟨0x010, 0, 32, .w1c, 1, 4, 0x0, false, false, false, []⟩
def Reg.BLK_INT_EN_ENABLES : RegField := ⟨0x014, 0, 32, .rw, 1, 4, 0x0, false, false, false, []⟩
def Reg.BLK_INT_SET_CAUSES : RegField := ⟨0x018, 0, 32, .w1s, 1, 4, 0x0, false, false, true, []⟩
def Reg.BLK_SYNC_WRITE_COUNT : RegField := ⟨0x01C, 0, 31, .ro, 1, 4, 0x0, false, false, false, []⟩
def Reg.BLK_ERR_INFO0_INFO : RegField := ⟨0x020, 0, 32, .ro, 1, 4, 0x0, true, false, false, []⟩
def Reg.BLK_ERR_INFO1_INFO : RegField := ⟨0x024, 0, 32, .ro, 1, 4, 0x0, true, false, false, []⟩
def Reg.BLK_ERR_INFO2_INFO : RegField := ⟨0x028, 0, 32, .ro, 1, 4, 0x0, true, false, false, []⟩
def Reg.BLK_ERR_INFO3_INFO : RegField := ⟨0x02C, 0, 32, .ro, 1, 4, 0x0, true, false, false, []⟩
def Reg.BLK_LOCK_ARMED : RegField := ⟨0x040, 16, 1, .ro, 1, 4, 0x0, false, false, true, []⟩
def Reg.BLK_LOCK_UNLOCKED : RegField := ⟨0x040, 17, 1, .ro, 1, 4, 0x0, false, false, true, []⟩

/-! Fields of R65, spec/02_register_pages.md. -/

def Reg.FP_GENERATION : RegField := ⟨0x100, 0, 8, .ro, 1, 4, 0x9, false, false, false, []⟩
def Reg.FP_MEMBER : RegField := ⟨0x100, 8, 8, .ro, 1, 4, 0x38, false, false, false, []⟩
def Reg.FP_SPEED_GRADE : RegField := ⟨0x100, 16, 8, .ro, 1, 4, 0xC, false, false, false, []⟩
def Reg.FP_STEPPING : RegField := ⟨0x100, 24, 8, .ro, 1, 4, 0xB1, false, false, false, []⟩
def Reg.FP_PHYS_DIES : RegField := ⟨0x104, 0, 8, .ro, 1, 4, 0x38, false, false, false, []⟩
def Reg.FP_LOGICAL_DIES : RegField := ⟨0x104, 8, 8, .ro, 1, 4, 0x0, false, false, false, []⟩
def Reg.FP_ROWS : RegField := ⟨0x104, 16, 8, .ro, 1, 4, 0x7, false, false, false, []⟩
def Reg.FP_COLS : RegField := ⟨0x104, 24, 8, .ro, 1, 4, 0x8, false, false, false, []⟩
def Reg.FP_PHYS_MC_PER_DIE : RegField := ⟨0x108, 0, 8, .ro, 1, 4, 0x11, false, false, false, []⟩
def Reg.FP_LOGICAL_MC_PER_DIE : RegField := ⟨0x108, 8, 8, .ro, 1, 4, 0x10, false, false, false, []⟩
def Reg.FP_LOGICAL_MC : RegField := ⟨0x108, 16, 16, .ro, 1, 4, 0x0, false, false, false, []⟩
def Reg.FP_HARTS_PER_DIE : RegField := ⟨0x10C, 0, 8, .ro, 1, 4, 0x2, false, false, false, []⟩
def Reg.FP_HARTS : RegField := ⟨0x10C, 8, 16, .ro, 1, 4, 0x0, false, false, false, []⟩
def Reg.FP_JPORTS : RegField := ⟨0x110, 0, 8, .ro, 1, 4, 0x8, false, false, false, []⟩
def Reg.FP_JLANES : RegField := ⟨0x110, 8, 8, .ro, 1, 4, 0x9, false, false, false, []⟩
def Reg.FP_FCHANS : RegField := ⟨0x110, 16, 8, .ro, 1, 4, 0x18, false, false, false, []⟩
def Reg.FP_PCIE_PORTS : RegField := ⟨0x110, 24, 8, .ro, 1, 4, 0x4, false, false, false, []⟩
def Reg.FP_ARRAY_DIM : RegField := ⟨0x114, 0, 16, .ro, 1, 4, 0x100, false, false, false, []⟩
def Reg.FP_STRIPES : RegField := ⟨0x114, 16, 8, .ro, 1, 4, 0x10, false, false, false, []⟩
def Reg.FP_STRIPE_COLS : RegField := ⟨0x114, 24, 8, .ro, 1, 4, 0x10, false, false, false, []⟩
def Reg.FP_S_BANKS : RegField := ⟨0x118, 0, 16, .ro, 1, 4, 0x40, false, false, false, []⟩
def Reg.FP_S_BANK_KIB : RegField := ⟨0x118, 16, 16, .ro, 1, 4, 0x600, false, false, false, []⟩
def Reg.FP_N_GIB_PER_DIE : RegField := ⟨0x11C, 0, 16, .ro, 1, 4, 0x10, false, false, false, []⟩
def Reg.FP_F_GIB : RegField := ⟨0x11C, 16, 16, .ro, 1, 4, 0x0, false, false, false, []⟩
def Reg.FP_MEM_TOP_LO : RegField := ⟨0x120, 0, 32, .ro, 1, 4, 0x0, false, false, false, []⟩
def Reg.FP_MEM_TOP_HI : RegField := ⟨0x124, 0, 32, .ro, 1, 4, 0x0, false, false, false, []⟩
def Reg.FP_MCLK_MHZ : RegField := ⟨0x128, 0, 16, .ro, 1, 4, 0x4B0, false, false, false, []⟩
def Reg.FP_RPLL_MHZ : RegField := ⟨0x128, 16, 16, .ro, 1, 4, 0x12C0, false, false, false, []⟩
def Reg.FP_TS_CORE : RegField := ⟨0x12C, 0, 16, .ro, 1, 4, 0x40, false, false, false, []⟩
def Reg.FP_TS_POOL : RegField := ⟨0x12C, 16, 16, .ro, 1, 4, 0x1000, false, false, false, []⟩
def Reg.FP_STEP_MAX_BEATS : RegField := ⟨0x130, 0, 32, .ro, 1, 4, 0x3A980, false, false, false, []⟩
def Reg.FP_DIE_MAP_VALID : RegField := ⟨0x134, 0, 1, .ro, 1, 4, 0x0, false, false, false, []⟩
def Reg.FP_TIER_F_VALID : RegField := ⟨0x134, 1, 1, .ro, 1, 4, 0x0, false, false, false, []⟩
def Reg.FP_SPARE_SHORT : RegField := ⟨0x134, 2, 1, .ro, 1, 4, 0x0, false, false, false, []⟩
def Reg.FP_FULL_MAP_LO : RegField := ⟨0x138, 0, 32, .ro, 1, 4, 0x0, false, false, false, []⟩
def Reg.FP_FULL_MAP_HI : RegField := ⟨0x13C, 0, 24, .ro, 1, 4, 0x0, false, false, false, []⟩
def Reg.FP_LD_MAP : RegField := ⟨0x200, 0, 32, .ro, 16, 4, 0x0, false, false, false, []⟩

/-! Fields of R66, spec/02_register_pages.md. -/

def Reg.DC_ROLE : RegField := ⟨0x100, 0, 2, .ro, 1, 4, 0x0, false, false, false, []⟩
def Reg.DC_SPARE : RegField := ⟨0x100, 2, 1, .ro, 1, 4, 0x0, false, false, false, []⟩
def Reg.DC_SPARE_IN_USE : RegField := ⟨0x100, 3, 1, .ro, 1, 4, 0x0, false, false, false, []⟩
def Reg.DC_EDGE : RegField := ⟨0x100, 4, 1, .ro, 1, 4, 0x0, false, false, false, []⟩
def Reg.DC_MGMT_CAPABLE : RegField := ⟨0x100, 5, 1, .ro, 1, 4, 0x0, false, false, false, []⟩
def Reg.DC_MGMT_ACTIVE : RegField := ⟨0x100, 6, 1, .ro, 1, 4, 0x0, false, false, false, []⟩
def Reg.DC_LDIE : RegField := ⟨0x100, 8, 6, .ro, 1, 4, 0x0, false, false, false, []⟩
def Reg.DC_ROW : RegField := ⟨0x100, 16, 3, .ro, 1, 4, 0x0, false, false, false, []⟩
def Reg.DC_COL : RegField := ⟨0x100, 20, 3, .ro, 1, 4, 0x0, false, false, false, []⟩
def Reg.DC_F_BONDED : RegField := ⟨0x104, 0, 1, .ro, 1, 4, 0x0, false, false, false, []⟩
def Reg.DC_J_BONDED : RegField := ⟨0x104, 1, 1, .ro, 1, 4, 0x0, false, false, false, []⟩
def Reg.DC_P_BONDED : RegField := ⟨0x104, 2, 1, .ro, 1, 4, 0x0, false, false, false, []⟩
def Reg.DC_M_BONDED : RegField := ⟨0x104, 3, 1, .ro, 1, 4, 0x0, false, false, false, []⟩
def Reg.DC_F_ABSENT : RegField := ⟨0x104, 8, 1, .ro, 1, 4, 0x0, false, false, false, []⟩
def Reg.DC_J_ABSENT : RegField := ⟨0x104, 9, 1, .ro, 1, 4, 0x0, false, false, false, []⟩
def Reg.DC_P_ABSENT : RegField := ⟨0x104, 10, 1, .ro, 1, 4, 0x0, false, false, false, []⟩
def Reg.DC_F_NUM : RegField := ⟨0x104, 16, 5, .ro, 1, 4, 0x0, false, false, false, []⟩
def Reg.DC_J_NUM : RegField := ⟨0x104, 24, 4, .ro, 1, 4, 0x0, false, false, false, []⟩
def Reg.DC_P_NUM : RegField := ⟨0x104, 28, 3, .ro, 1, 4, 0x0, false, false, false, []⟩
def Reg.DC_ROUTER_ON : RegField := ⟨0x108, 0, 1, .ro, 1, 4, 0x1, false, false, false, []⟩
def Reg.DC_CONTROL_ON : RegField := ⟨0x108, 1, 1, .ro, 1, 4, 0x1, false, false, false, []⟩
def Reg.DC_IO_ON : RegField := ⟨0x108, 2, 1, .ro, 1, 4, 0x0, false, false, false, []⟩
def Reg.DC_COMPUTE_ON : RegField := ⟨0x108, 3, 1, .ro, 1, 4, 0x0, false, false, false, []⟩
def Reg.DC_HART_BASE : RegField := ⟨0x10C, 0, 8, .ro, 1, 4, 0x0, false, false, false, []⟩
def Reg.DC_MC_MAP : RegField := ⟨0x110, 0, 32, .ro, 4, 4, 0x0, false, false, false, []⟩
def Reg.DC_MC_FREE : RegField := ⟨0x120, 0, 5, .ro, 1, 4, 0x0, false, false, false, []⟩
def Reg.DC_SUBSTITUTED : RegField := ⟨0x120, 8, 1, .ro, 1, 4, 0x0, true, false, false, []⟩
def Reg.DC_DIE_TEST_FAIL : RegField := ⟨0x124, 0, 1, .ro, 1, 4, 0x0, true, false, false, []⟩
def Reg.DC_IO_TEST_FAIL : RegField := ⟨0x124, 1, 1, .ro, 1, 4, 0x0, true, false, false, []⟩

/-! Fields of R153, spec/05_matrix_core_programming.md. -/

def Reg.MCORE_CTRL_TRAP_NAN : RegField := ⟨0x100, 0, 1, .rw, 1, 4, 0x0, false, false, false, []⟩
def Reg.MCORE_CTRL_HALT_REQ : RegField := ⟨0x100, 1, 1, .rw, 1, 4, 0x0, false, false, false, []⟩
def Reg.MCORE_STAT_STATE : RegField := ⟨0x104, 0, 4, .ro, 1, 4, 0x0, false, false, false, []⟩
def Reg.MCORE_STAT_LQ_OCC : RegField := ⟨0x104, 8, 4, .ro, 1, 4, 0x0, false, false, false, []⟩
def Reg.MCORE_STAT_SQ_OCC : RegField := ⟨0x104, 12, 4, .ro, 1, 4, 0x0, false, false, false, []⟩
def Reg.MCORE_STAT_DQ_OCC : RegField := ⟨0x104, 16, 4, .ro, 1, 4, 0x0, false, false, false, []⟩
def Reg.MCORE_STAT_VQ_OCC : RegField := ⟨0x104, 20, 4, .ro, 1, 4, 0x0, false, false, false, []⟩
def Reg.MCORE_STAT_MQ_OCC : RegField := ⟨0x104, 24, 4, .ro, 1, 4, 0x0, false, false, false, []⟩
def Reg.MCORE_STAT_BANK0_VALID : RegField := ⟨0x104, 28, 1, .ro, 1, 4, 0x0, false, false, false, []⟩
def Reg.MCORE_STAT_BANK1_VALID : RegField := ⟨0x104, 29, 1, .ro, 1, 4, 0x0, false, false, false, []⟩
def Reg.MCORE_PC_PC : RegField := ⟨0x108, 0, 14, .ro, 1, 4, 0x0, false, false, false, []⟩
def Reg.MCORE_LCORE_LC : RegField := ⟨0x10C, 0, 10, .ro, 1, 4, 0x0, false, false, false, []⟩
def Reg.MCORE_LCORE_LC_VALID : RegField := ⟨0x10C, 15, 1, .ro, 1, 4, 0x0, false, false, false, []⟩
def Reg.MCORE_PROG_ADDR_LO_ADDR : RegField := ⟨0x110, 0, 32, .rw, 1, 4, 0x0, false, false, false, []⟩
def Reg.MCORE_PROG_ADDR_HI_ADDR : RegField := ⟨0x114, 0, 20, .rw, 1, 4, 0x0, false, false, false, []⟩
def Reg.MCORE_PROG_LEN_LEN : RegField := ⟨0x118, 0, 15, .rw, 1, 4, 0x0, false, false, false, [(1, 16384)]⟩
def Reg.MCORE_CTX_ADDR_LO_ADDR : RegField := ⟨0x11C, 0, 32, .rw, 1, 4, 0x0, false, false, false, []⟩
def Reg.MCORE_CTX_ADDR_HI_ADDR : RegField := ⟨0x120, 0, 20, .rw, 1, 4, 0x0, false, false, false, []⟩
def Reg.MCORE_CMD_CMD : RegField := ⟨0x124, 0, 3, .rw, 1, 4, 0x0, false, false, false, [(0, 5)]⟩
def Reg.MCORE_CMD_GO : RegField := ⟨0x124, 3, 1, .sc, 1, 4, 0x0, false, false, true, []⟩
def Reg.MCORE_CMD_STATUS_CODE : RegField := ⟨0x128, 0, 8, .ro, 1, 4, 0x0, false, false, false, []⟩
def Reg.MCORE_CMD_STATUS_VALID : RegField := ⟨0x128, 8, 1, .ro, 1, 4, 0x0, false, false, false, []⟩
def Reg.MCORE_CTXID_CTXID : RegField := ⟨0x12C, 0, 16, .rw, 1, 4, 0x0, false, true, true, []⟩
def Reg.MCORE_ENTRY_PC : RegField := ⟨0x130, 0, 14, .rw, 1, 4, 0x0, false, false, false, []⟩
def Reg.MCORE_ACC_CE_COUNT : RegField := ⟨0x134, 0, 32, .rw, 1, 4, 0x0, true, false, false, []⟩
def Reg.MCORE_ACC_CE_THR_THR : RegField := ⟨0x138, 0, 32, .rw, 1, 4, 0x1000, false, false, false, []⟩
def Reg.MCORE_CHK_SKIP_COUNT : RegField := ⟨0x13C, 0, 32, .rw, 1, 4, 0x0, true, false, false, []⟩

/-! Fields of R182, spec/06_vector_matrix_path.md. -/

def Reg.TCACHE_CFG_BUDGET : RegField := ⟨0x100, 0, 12, .rw, 1, 4, 0x258, false, false, false, [(16, 4095)]⟩
def Reg.TCACHE_CFG_PACE : RegField := ⟨0x100, 12, 4, .rw, 1, 4, 0x0, false, false, false, []⟩
def Reg.TCACHE_CFG_PF_EN : RegField := ⟨0x100, 16, 1, .rw, 1, 4, 0x1, false, false, false, []⟩
def Reg.TCACHE_CFG_BYPASS_REQ : RegField := ⟨0x100, 17, 1, .rw, 1, 4, 0x0, false, false, false, []⟩
def Reg.TCACHE_CFG_WAY_THR : RegField := ⟨0x100, 24, 8, .rw, 1, 4, 0x8, false, false, false, [(1, 255)]⟩
def Reg.TCACHE_STAT_WAY_DIS : RegField := ⟨0x104, 0, 16, .ro, 1, 4, 0x0, true, false, false, []⟩
def Reg.TCACHE_STAT_BYPASS : RegField := ⟨0x104, 16, 1, .ro, 1, 4, 0x0, false, false, false, []⟩
def Reg.TCACHE_STAT_MB_OCC : RegField := ⟨0x104, 17, 6, .ro, 1, 4, 0x0, false, false, false, []⟩
def Reg.TCACHE_STAT_SB_OCC : RegField := ⟨0x104, 23, 5, .ro, 1, 4, 0x0, false, false, false, []⟩
def Reg.TCACHE_LFSR_STATE : RegField := ⟨0x108, 0, 16, .rw, 1, 4, 0xACE1, false, false, true, []⟩
def Reg.TCACHE_INV_INV_ALL : RegField := ⟨0x10C, 0, 1, .sc, 1, 4, 0x0, false, false, true, []⟩
def Reg.TCACHE_WAY_REEN_WAYS : RegField := ⟨0x110, 0, 16, .wo, 1, 4, 0x0, false, true, true, []⟩
def Reg.TCACHE_HITS_LO_COUNT : RegField := ⟨0x114, 0, 32, .ro, 1, 4, 0x0, false, false, false, []⟩
def Reg.TCACHE_HITS_HI_COUNT : RegField := ⟨0x118, 0, 32, .ro, 1, 4, 0x0, false, false, false, []⟩
def Reg.TCACHE_MISSES_LO_COUNT : RegField := ⟨0x11C, 0, 32, .ro, 1, 4, 0x0, false, false, false, []⟩
def Reg.TCACHE_MISSES_HI_COUNT : RegField := ⟨0x120, 0, 32, .ro, 1, 4, 0x0, false, false, false, []⟩
def Reg.TCACHE_LATE_COUNT : RegField := ⟨0x124, 0, 32, .rw, 1, 4, 0x0, true, false, false, []⟩
def Reg.TCACHE_PF_DROP_COUNT : RegField := ⟨0x128, 0, 32, .rw, 1, 4, 0x0, true, false, false, []⟩
def Reg.TCACHE_WAY_ERR_COUNT : RegField := ⟨0x140, 0, 16, .ro, 16, 4, 0x0, true, false, false, []⟩

/-! Fields of R201, spec/07_numeric_exceptions.md. -/

def Reg.NF_STAT_LAST_NAN : RegField := ⟨0x200, 0, 1, .ro, 1, 4, 0x0, false, false, false, []⟩
def Reg.NF_STAT_LAST_INF : RegField := ⟨0x200, 1, 1, .ro, 1, 4, 0x0, false, false, false, []⟩
def Reg.NF_STAT_LAST_VALID : RegField := ⟨0x200, 2, 1, .ro, 1, 4, 0x0, false, false, false, []⟩
def Reg.NF_STAT_STICKY_NAN : RegField := ⟨0x200, 8, 1, .w1c, 1, 4, 0x0, true, false, true, []⟩
def Reg.NF_STAT_STICKY_INF : RegField := ⟨0x200, 9, 1, .w1c, 1, 4, 0x0, true, false, true, []⟩
def Reg.NF_STAT_FIRST_VALID : RegField := ⟨0x200, 10, 1, .w1c, 1, 4, 0x0, true, false, true, []⟩
def Reg.NF_STAT_TRAP_VALID : RegField := ⟨0x200, 11, 1, .ro, 1, 4, 0x0, true, false, false, []⟩
def Reg.NF_LAST_NAN_POS_ROW : RegField := ⟨0x204, 0, 10, .ro, 1, 4, 0x0, false, false, false, []⟩
def Reg.NF_LAST_NAN_POS_CHAN : RegField := ⟨0x204, 16, 8, .ro, 1, 4, 0x0, false, false, false, []⟩
def Reg.NF_LAST_NAN_POS_VALID : RegField := ⟨0x204, 31, 1, .ro, 1, 4, 0x0, false, false, false, []⟩
def Reg.NF_LAST_INF_POS_ROW : RegField := ⟨0x208, 0, 10, .ro, 1, 4, 0x0, false, false, false, []⟩
def Reg.NF_LAST_INF_POS_CHAN : RegField := ⟨0x208, 16, 8, .ro, 1, 4, 0x0, false, false, false, []⟩
def Reg.NF_LAST_INF_POS_VALID : RegField := ⟨0x208, 31, 1, .ro, 1, 4, 0x0, false, false, false, []⟩
def Reg.NF_LAST_TILE_TILE_ID : RegField := ⟨0x20C, 0, 16, .ro, 1, 4, 0x0, false, false, false, []⟩
def Reg.NF_LAST_TILE_ACC_BASE : RegField := ⟨0x20C, 16, 10, .ro, 1, 4, 0x0, false, false, false, []⟩
def Reg.NF_FLAGGED_COUNT : RegField := ⟨0x210, 0, 32, .rw, 1, 4, 0x0, true, false, true, []⟩
def Reg.NF_FIRST_RECORD : RegField := ⟨0x220, 0, 32, .ro, 8, 4, 0x0, true, false, false, []⟩
def Reg.NF_TRAP_RECORD : RegField := ⟨0x240, 0, 32, .ro, 8, 4, 0x0, true, false, false, []⟩

/-! Fields of R250, spec/08_static_schedule.md. -/

def Reg.SCHED_CTRL_LOAD : RegField := ⟨0x100, 0, 1, .sc, 1, 4, 0x0, false, false, true, []⟩
def Reg.SCHED_CTRL_ARM : RegField := ⟨0x100, 1, 1, .sc, 1, 4, 0x0, false, false, true, []⟩
def Reg.SCHED_STAT_STATE : RegField := ⟨0x104, 0, 4, .ro, 1, 4, 0x0, false, false, false, []⟩
def Reg.SCHED_STAT_LEAD : RegField := ⟨0x104, 4, 1, .ro, 1, 4, 0x0, false, false, false, []⟩
def Reg.SCHED_STAT_DEVIATED : RegField := ⟨0x104, 5, 1, .ro, 1, 4, 0x0, false, false, false, []⟩
def Reg.SCHED_STAT_DEBUG_TOUCHED : RegField := ⟨0x104, 6, 1, .ro, 1, 4, 0x0, true, false, false, []⟩
def Reg.SCHED_IMG_ADDR_LO_ADDR : RegField := ⟨0x108, 0, 32, .rw, 1, 4, 0x0, false, false, false, []⟩
def Reg.SCHED_IMG_ADDR_HI_ADDR : RegField := ⟨0x10C, 0, 20, .rw, 1, 4, 0x0, false, false, false, []⟩
def Reg.SCHED_JOB_JOB : RegField := ⟨0x110, 0, 32, .rw, 1, 4, 0x0, false, false, false, []⟩
def Reg.SCHED_PART_DEVICE : RegField := ⟨0x114, 0, 16, .ro, 1, 4, 0x0, false, false, false, []⟩
def Reg.SCHED_PART_XM1 : RegField := ⟨0x114, 16, 3, .ro, 1, 4, 0x0, false, false, false, []⟩
def Reg.SCHED_PART_YM1 : RegField := ⟨0x114, 19, 3, .ro, 1, 4, 0x0, false, false, false, []⟩
def Reg.SCHED_PART_ZM1 : RegField := ⟨0x114, 22, 3, .ro, 1, 4, 0x0, false, false, false, []⟩
def Reg.SCHED_STEP_LO_STEP : RegField := ⟨0x118, 0, 32, .ro, 1, 4, 0x0, false, false, false, []⟩
def Reg.SCHED_STEP_HI_STEP : RegField := ⟨0x11C, 0, 32, .ro, 1, 4, 0x0, false, false, false, []⟩
def Reg.SCHED_JSTEP_LO_JSTEP : RegField := ⟨0x120, 0, 32, .ro, 1, 4, 0x0, false, false, false, []⟩
def Reg.SCHED_JSTEP_HI_JSTEP : RegField := ⟨0x124, 0, 32, .ro, 1, 4, 0x0, false, false, false, []⟩
def Reg.SCHED_BEAT_BEAT : RegField := ⟨0x128, 0, 18, .ro, 1, 4, 0x0, false, false, false, []⟩
def Reg.SCHED_LEN_LEN : RegField := ⟨0x12C, 0, 18, .ro, 1, 4, 0x0, false, false, false, []⟩
def Reg.SCHED_CWIN_CWIN : RegField := ⟨0x130, 0, 18, .ro, 1, 4, 0x0, false, false, false, []⟩
def Reg.SCHED_STRETCH_S_D : RegField := ⟨0x134, 0, 18, .ro, 1, 4, 0x0, false, false, false, []⟩
def Reg.SCHED_SLIP_M : RegField := ⟨0x138, 0, 18, .ro, 1, 4, 0x0, false, false, false, []⟩
def Reg.SCHED_RATIO_CUR : RegField := ⟨0x13C, 0, 2, .ro, 1, 4, 0x0, false, false, false, []⟩
def Reg.SCHED_RATIO_NEXT : RegField := ⟨0x13C, 2, 2, .ro, 1, 4, 0x0, false, false, false, []⟩
def Reg.SCHED_RATIO_NEXT_VALID : RegField := ⟨0x13C, 4, 1, .ro, 1, 4, 0x0, false, false, false, []⟩
def Reg.SCHED_RATIO_REQ : RegField := ⟨0x13C, 8, 2, .rw, 1, 4, 0x0, false, false, false, []⟩
def Reg.SCHED_DEV_THROTTLE_COUNT : RegField := ⟨0x140, 0, 32, .rw, 1, 4, 0x0, true, false, false, []⟩
def Reg.SCHED_DEV_MAINT_COUNT : RegField := ⟨0x144, 0, 32, .rw, 1, 4, 0x0, true, false, false, []⟩
def Reg.SCHED_DEV_LATE_COUNT : RegField := ⟨0x148, 0, 32, .rw, 1, 4, 0x0, true, false, false, []⟩
def Reg.SCHED_DEV_REPLAY_COUNT : RegField := ⟨0x14C, 0, 32, .rw, 1, 4, 0x0, true, false, false, []⟩
def Reg.SCHED_DEV_SLIP_COUNT : RegField := ⟨0x150, 0, 32, .rw, 1, 4, 0x0, true, false, false, []⟩
def Reg.SCHED_PROT_CUR_RANGES : RegField := ⟨0x154, 0, 7, .ro, 1, 4, 0x0, false, false, false, []⟩
def Reg.SCHED_PROT_NEXT_RANGES : RegField := ⟨0x154, 8, 7, .ro, 1, 4, 0x0, false, false, false, []⟩

/-! Fields of R266, spec/09_turnstiles.md. -/

def Reg.TS_SEL_INDEX : RegField := ⟨0x100, 0, 12, .rw, 1, 4, 0x0, false, false, false, []⟩
def Reg.TS_SEL_POOL : RegField := ⟨0x100, 12, 1, .rw, 1, 4, 0x0, false, false, false, []⟩
def Reg.TS_SEL_SLOT : RegField := ⟨0x100, 13, 5, .rw, 1, 4, 0x0, false, false, false, []⟩
def Reg.TS_VALUE_VALUE : RegField := ⟨0x104, 0, 31, .rw, 1, 4, 0x0, false, true, true, []⟩
def Reg.TS_FLAG_STICKY : RegField := ⟨0x108, 0, 1, .w1c, 1, 4, 0x0, false, false, true, []⟩
def Reg.TS_FLAG_WAITING : RegField := ⟨0x108, 1, 1, .ro, 1, 4, 0x0, false, false, false, []⟩
def Reg.TS_TAG_SBEAT : RegField := ⟨0x10C, 0, 18, .ro, 1, 4, 0x0, false, false, false, []⟩
def Reg.TS_STICKY_NEXT_INDEX : RegField := ⟨0x110, 0, 12, .ro, 1, 4, 0x0, false, false, false, []⟩
def Reg.TS_STICKY_NEXT_POOL : RegField := ⟨0x110, 12, 1, .ro, 1, 4, 0x0, false, false, false, []⟩
def Reg.TS_STICKY_NEXT_SLOT : RegField := ⟨0x110, 13, 5, .ro, 1, 4, 0x0, false, false, false, []⟩
def Reg.TS_STICKY_NEXT_NONE : RegField := ⟨0x110, 31, 1, .ro, 1, 4, 0x1, false, false, false, []⟩
def Reg.TS_EVT_COUNT_COUNT : RegField := ⟨0x114, 0, 32, .rw, 1, 4, 0x0, true, false, false, []⟩
def Reg.TS_CTX_ADDR_LO_ADDR : RegField := ⟨0x118, 0, 32, .rw, 1, 4, 0x0, false, false, false, []⟩
def Reg.TS_CTX_ADDR_HI_ADDR : RegField := ⟨0x11C, 0, 20, .rw, 1, 4, 0x0, false, false, false, []⟩
def Reg.TS_CMD_CMD : RegField := ⟨0x120, 0, 2, .rw, 1, 4, 0x0, false, false, false, []⟩
def Reg.TS_CMD_GO : RegField := ⟨0x120, 2, 1, .sc, 1, 4, 0x0, false, false, true, []⟩
def Reg.TS_CMD_STATUS_CODE : RegField := ⟨0x124, 0, 8, .ro, 1, 4, 0x0, false, false, false, []⟩
def Reg.TS_CMD_STATUS_VALID : RegField := ⟨0x124, 8, 1, .ro, 1, 4, 0x0, false, false, false, []⟩
def Reg.TS_CTXID_CTXID : RegField := ⟨0x128, 0, 16, .rw, 1, 4, 0x0, false, true, false, []⟩

/-! Fields of R285, spec/10_tier_s_scratch.md. -/

def Reg.TSRAM_CFG_SCRUB_EN : RegField := ⟨0x100, 0, 1, .rw, 1, 4, 0x1, false, false, false, []⟩
def Reg.TSRAM_STAT_POOL_BANKS : RegField := ⟨0x104, 0, 7, .ro, 1, 4, 0x0, false, false, false, []⟩
def Reg.TSRAM_STAT_POISON : RegField := ⟨0x104, 7, 1, .ro, 1, 4, 0x0, false, false, false, []⟩
def Reg.TSRAM_POOL_MASK_LO_MASK : RegField := ⟨0x108, 0, 32, .rw, 1, 4, 0x0, false, true, true, []⟩
def Reg.TSRAM_POOL_MASK_HI_MASK : RegField := ⟨0x10C, 0, 32, .rw, 1, 4, 0x0, false, true, true, []⟩
def Reg.TSRAM_SLAB_SEL_SLAB : RegField := ⟨0x110, 0, 11, .rw, 1, 4, 0x0, false, false, false, [(0, 1535)]⟩
def Reg.TSRAM_SLAB_STATE_STATE : RegField := ⟨0x114, 0, 2, .ro, 1, 4, 0x0, false, false, false, []⟩
def Reg.TSRAM_CMD_CMD : RegField := ⟨0x118, 0, 2, .rw, 1, 4, 0x0, false, false, false, [(0, 1)]⟩
def Reg.TSRAM_CMD_GO : RegField := ⟨0x118, 2, 1, .sc, 1, 4, 0x0, false, false, true, []⟩
def Reg.TSRAM_CMD_STATUS_CODE : RegField := ⟨0x11C, 0, 8, .ro, 1, 4, 0x0, false, false, false, []⟩
def Reg.TSRAM_CMD_STATUS_VALID : RegField := ⟨0x11C, 8, 1, .ro, 1, 4, 0x0, false, false, false, []⟩
def Reg.TSRAM_CE_THR_THR : RegField := ⟨0x120, 0, 32, .rw, 1, 4, 0x1000, false, false, false, []⟩
def Reg.TSRAM_UE_COUNT_COUNT : RegField := ⟨0x124, 0, 32, .rw, 1, 4, 0x0, true, false, false, []⟩
def Reg.TSRAM_UE_ADDR_LO_ADDR : RegField := ⟨0x128, 0, 32, .ro, 1, 4, 0x0, true, false, false, []⟩
def Reg.TSRAM_UE_ADDR_HI_ADDR : RegField := ⟨0x12C, 0, 1, .ro, 1, 4, 0x0, true, false, false, []⟩
def Reg.TSRAM_UE_ADDR_HI_VALID : RegField := ⟨0x12C, 31, 1, .w1c, 1, 4, 0x0, true, false, false, []⟩
def Reg.TSRAM_HOLD_COUNT_COUNT : RegField := ⟨0x130, 0, 32, .rw, 1, 4, 0x0, true, false, false, []⟩
def Reg.TSRAM_RO_REFUSED_COUNT : RegField := ⟨0x134, 0, 32, .rw, 1, 4, 0x0, true, false, false, []⟩
def Reg.TSRAM_SCRUB_PASSES_COUNT : RegField := ⟨0x138, 0, 32, .ro, 1, 4, 0x0, true, false, false, []⟩
def Reg.TSRAM_REPAIR_SPARED0 : RegField := ⟨0x13C, 0, 7, .ro, 1, 4, 0x0, false, false, false, []⟩
def Reg.TSRAM_REPAIR_SPARED1 : RegField := ⟨0x13C, 8, 7, .ro, 1, 4, 0x0, false, false, false, []⟩
def Reg.TSRAM_BANK_MAP_MAP : RegField := ⟨0x140, 0, 32, .ro, 16, 4, 0x0, false, false, false, []⟩
def Reg.TSRAM_CE_COUNT : RegField := ⟨0x200, 0, 32, .rw, 64, 4, 0x0, true, false, false, []⟩

/-! Fields of R314, spec/11_memory_placement.md. -/

def Reg.PLACE_CFG_MIG_EN : RegField := ⟨0x100, 0, 1, .rw, 1, 4, 0x1, false, false, false, []⟩
def Reg.PLACE_CFG_HINT_EN : RegField := ⟨0x100, 1, 1, .rw, 1, 4, 0x1, false, false, false, []⟩
def Reg.PLACE_CFG_ENGINES : RegField := ⟨0x100, 2, 2, .rw, 1, 4, 0x3, false, false, false, []⟩
def Reg.PLACE_THR_HOT_THR : RegField := ⟨0x104, 0, 16, .rw, 1, 4, 0x400, false, false, false, [(1, 65535)]⟩
def Reg.PLACE_THR_COLD_THR : RegField := ⟨0x104, 16, 16, .rw, 1, 4, 0x10, false, false, false, []⟩
def Reg.PLACE_TMO_TMO_US : RegField := ⟨0x108, 0, 10, .rw, 1, 4, 0x32, false, false, false, [(1, 1000)]⟩
def Reg.PLACE_STAT_ENG_BUSY : RegField := ⟨0x10C, 0, 4, .ro, 1, 4, 0x0, false, false, false, []⟩
def Reg.PLACE_STAT_HINTQ_OCC : RegField := ⟨0x10C, 4, 7, .ro, 1, 4, 0x0, false, false, false, []⟩
def Reg.PLACE_STAT_PROMQ_OCC : RegField := ⟨0x10C, 11, 5, .ro, 1, 4, 0x0, false, false, false, []⟩
def Reg.PLACE_STAT_TABLE_READY : RegField := ⟨0x10C, 16, 1, .ro, 1, 4, 0x0, false, false, false, []⟩
def Reg.PLACE_STAT_ENT_VALID : RegField := ⟨0x10C, 17, 1, .ro, 1, 4, 0x0, false, false, false, []⟩
def Reg.PLACE_FRAMES_COUNT : RegField := ⟨0x110, 0, 18, .ro, 1, 4, 0x0, false, false, false, []⟩
def Reg.PLACE_CURSOR_SLOT : RegField := ⟨0x114, 0, 13, .ro, 1, 4, 0x0, false, false, false, []⟩
def Reg.PLACE_ENT_SEL_FRAME : RegField := ⟨0x120, 0, 22, .rw, 1, 4, 0x0, false, false, true, []⟩
def Reg.PLACE_ENT_ENTRY : RegField := ⟨0x140, 0, 32, .ro, 8, 4, 0x0, false, false, false, []⟩
def Reg.PLACE_CMD_BASE_LO_ADDR : RegField := ⟨0x160, 0, 32, .rw, 1, 4, 0x0, false, false, false, []⟩
def Reg.PLACE_CMD_BASE_HI_ADDR : RegField := ⟨0x164, 0, 20, .rw, 1, 4, 0x0, false, false, false, []⟩
def Reg.PLACE_CMD_FRAMES_FRAMES : RegField := ⟨0x168, 0, 22, .rw, 1, 4, 0x0, false, false, false, []⟩
def Reg.PLACE_CMD_ARG_VALUE : RegField := ⟨0x16C, 0, 16, .rw, 1, 4, 0x0, false, false, false, []⟩
def Reg.PLACE_CMD_ARG_LD : RegField := ⟨0x16C, 16, 6, .rw, 1, 4, 0x0, false, false, false, []⟩
def Reg.PLACE_CMD_CMD : RegField := ⟨0x170, 0, 4, .rw, 1, 4, 0x0, false, true, false, [(0, 9)]⟩
def Reg.PLACE_CMD_GO : RegField := ⟨0x170, 4, 1, .sc, 1, 4, 0x0, false, true, true, []⟩
def Reg.PLACE_CMD_STATUS_CODE : RegField := ⟨0x174, 0, 8, .ro, 1, 4, 0x0, false, false, false, []⟩
def Reg.PLACE_CMD_STATUS_VALID : RegField := ⟨0x174, 8, 1, .ro, 1, 4, 0x0, false, false, false, []⟩
def Reg.PLACE_PROMOTIONS_COUNT : RegField := ⟨0x180, 0, 32, .rw, 1, 4, 0x0, true, false, false, []⟩
def Reg.PLACE_HINT_RCVD_COUNT : RegField := ⟨0x184, 0, 32, .rw, 1, 4, 0x0, true, false, false, []⟩
def Reg.PLACE_HINT_DROP_COUNT : RegField := ⟨0x188, 0, 32, .rw, 1, 4, 0x0, true, false, false, []⟩
def Reg.PLACE_PROMO_DROP_COUNT : RegField := ⟨0x18C, 0, 32, .rw, 1, 4, 0x0, true, false, false, []⟩
def Reg.PLACE_NOVICTIM_COUNT : RegField := ⟨0x190, 0, 32, .rw, 1, 4, 0x0, true, false, false, []⟩
def Reg.PLACE_WR_HELD_COUNT : RegField := ⟨0x194, 0, 32, .rw, 1, 4, 0x0, true, false, false, []⟩
def Reg.PLACE_WR_HELD_TMO_COUNT : RegField := ⟨0x198, 0, 32, .rw, 1, 4, 0x0, true, false, false, []⟩
def Reg.PLACE_ZERO_READS_COUNT : RegField := ⟨0x19C, 0, 32, .rw, 1, 4, 0x0, true, false, false, []⟩
def Reg.PLACE_CTX_VIOL_COUNT : RegField := ⟨0x1A0, 0, 32, .rw, 1, 4, 0x0, true, false, false, []⟩
def Reg.PLACE_FROZEN_REF_COUNT : RegField := ⟨0x1A4, 0, 32, .rw, 1, 4, 0x0, true, false, false, []⟩
def Reg.PLACE_INPUT_REF_COUNT : RegField := ⟨0x1A8, 0, 32, .rw, 1, 4, 0x0, true, false, false, []⟩
def Reg.PLACE_TIER_ERR_COUNT : RegField := ⟨0x1AC, 0, 32, .rw, 1, 4, 0x0, true, false, false, []⟩
def Reg.PLACE_TIER_TMO_COUNT : RegField := ⟨0x1B0, 0, 32, .rw, 1, 4, 0x0, true, false, false, []⟩
def Reg.PLACE_MIG_POISON_COUNT : RegField := ⟨0x1B4, 0, 32, .rw, 1, 4, 0x0, true, false, false, []⟩

/-! Fields of R335, spec/12_carousel.md. -/

def Reg.CAR_CTRL_HINT_EN : RegField := ⟨0x100, 0, 1, .rw, 1, 4, 0x1, false, false, false, []⟩
def Reg.CAR_STAT_STATE : RegField := ⟨0x104, 0, 3, .ro, 1, 4, 0x0, false, false, false, []⟩
def Reg.CAR_STAT_INFLIGHT : RegField := ⟨0x104, 3, 4, .ro, 1, 4, 0x0, false, false, false, []⟩
def Reg.CAR_CTXID_CTXID : RegField := ⟨0x108, 0, 16, .rw, 1, 4, 0x0, false, true, false, []⟩
def Reg.CAR_SECT_ADDR_LO_ADDR : RegField := ⟨0x10C, 0, 32, .rw, 1, 4, 0x0, false, false, false, []⟩
def Reg.CAR_SECT_ADDR_HI_ADDR : RegField := ⟨0x110, 0, 20, .rw, 1, 4, 0x0, false, false, false, []⟩
def Reg.CAR_POS_RECORD : RegField := ⟨0x114, 0, 24, .ro, 1, 4, 0x0, false, false, false, []⟩
def Reg.CAR_POS_VALID : RegField := ⟨0x114, 31, 1, .ro, 1, 4, 0x0, false, false, false, []⟩
def Reg.CAR_FRONT_RECORD : RegField := ⟨0x118, 0, 24, .ro, 1, 4, 0x0, false, false, false, []⟩
def Reg.CAR_HINT_FRONT_RECORD : RegField := ⟨0x11C, 0, 24, .ro, 1, 4, 0x0, false, false, false, []⟩
def Reg.CAR_STAGED_COUNT : RegField := ⟨0x120, 0, 32, .rw, 1, 4, 0x0, true, false, false, []⟩
def Reg.CAR_LATE_COUNT : RegField := ⟨0x124, 0, 32, .rw, 1, 4, 0x0, true, false, false, []⟩
def Reg.CAR_CANCELLED_COUNT : RegField := ⟨0x128, 0, 32, .rw, 1, 4, 0x0, true, false, false, []⟩
def Reg.CAR_HINTS_COUNT : RegField := ⟨0x12C, 0, 32, .rw, 1, 4, 0x0, true, false, false, []⟩
def Reg.CAR_HINT_DROP_COUNT : RegField := ⟨0x130, 0, 32, .rw, 1, 4, 0x0, true, false, false, []⟩
def Reg.CAR_ERRORS_COUNT : RegField := ⟨0x134, 0, 32, .rw, 1, 4, 0x0, true, false, false, []⟩
def Reg.CAR_REFILLS_COUNT : RegField := ⟨0x138, 0, 32, .rw, 1, 4, 0x0, true, false, false, []⟩

/-! Fields of R336, spec/12_carousel.md. -/

def Reg.MV_STAT_MVR_SLOTS : RegField := ⟨0x100, 0, 4, .ro, 1, 4, 0x0, false, false, false, []⟩
def Reg.MV_STAT_RING_SLOTS : RegField := ⟨0x100, 4, 3, .ro, 1, 4, 0x0, false, false, false, []⟩
def Reg.MV_STAT_PIECES : RegField := ⟨0x100, 8, 5, .ro, 1, 4, 0x0, false, false, false, []⟩
def Reg.MV_DONE_COUNT : RegField := ⟨0x104, 0, 32, .rw, 1, 4, 0x0, true, false, false, []⟩
def Reg.MV_LATE_COUNT : RegField := ⟨0x108, 0, 32, .rw, 1, 4, 0x0, true, false, false, []⟩
def Reg.MV_ERRORS_COUNT : RegField := ⟨0x10C, 0, 32, .rw, 1, 4, 0x0, true, false, false, []⟩
def Reg.MV_BYTES_LO_COUNT : RegField := ⟨0x110, 0, 32, .ro, 1, 4, 0x0, false, false, false, []⟩
def Reg.MV_BYTES_HI_COUNT : RegField := ⟨0x114, 0, 32, .ro, 1, 4, 0x0, false, false, false, []⟩

/-! Fields of R365, spec/13_tier_n_stacked_dram.md. -/

def Reg.NS_CFG_SCRUB_EN : RegField := ⟨0x100, 0, 1, .rw, 1, 4, 0x1, false, false, false, []⟩
def Reg.NS_CFG_WCB_EN : RegField := ⟨0x100, 1, 1, .rw, 1, 4, 0x1, false, false, false, []⟩
def Reg.NS_CFG_WCB_AGE : RegField := ⟨0x100, 8, 8, .rw, 1, 4, 0x20, false, false, false, [(1, 255)]⟩
def Reg.NS_STAT_TRAINED : RegField := ⟨0x104, 0, 1, .ro, 1, 4, 0x0, false, false, false, []⟩
def Reg.NS_STAT_REF_2X : RegField := ⟨0x104, 1, 1, .ro, 1, 4, 0x0, false, false, false, []⟩
def Reg.NS_STAT_THROTTLE : RegField := ⟨0x104, 2, 1, .ro, 1, 4, 0x0, false, false, false, []⟩
def Reg.NS_STAT_CRIT : RegField := ⟨0x104, 3, 1, .ro, 1, 4, 0x0, true, false, false, []⟩
def Reg.NS_STAT_DEBT : RegField := ⟨0x104, 8, 8, .ro, 1, 4, 0x0, false, false, false, []⟩
def Reg.NS_STAT_WCB_OCC : RegField := ⟨0x104, 16, 6, .ro, 1, 4, 0x0, false, false, false, []⟩
def Reg.NS_TEMP_TSTACK : RegField := ⟨0x108, 0, 8, .ro, 1, 4, 0x0, false, false, false, []⟩
def Reg.NS_TEMP_HOTTEST : RegField := ⟨0x108, 8, 3, .ro, 1, 4, 0x0, false, false, false, []⟩
def Reg.NS_THERM_HOT_LIMIT : RegField := ⟨0x10C, 0, 8, .rw, 1, 4, 0x5F, false, true, false, [(86, 100)]⟩
def Reg.NS_THERM_CRIT_LIMIT : RegField := ⟨0x10C, 8, 8, .ro, 1, 4, 0x69, false, false, false, []⟩
def Reg.NS_CE_THR_THR : RegField := ⟨0x110, 0, 32, .rw, 1, 4, 0x10000, false, false, false, []⟩
def Reg.NS_CE_TOTAL_COUNT : RegField := ⟨0x114, 0, 32, .rw, 1, 4, 0x0, true, false, false, []⟩
def Reg.NS_UE_COUNT_COUNT : RegField := ⟨0x118, 0, 32, .rw, 1, 4, 0x0, true, false, false, []⟩
def Reg.NS_UE_ADDR_LO_ADDR : RegField := ⟨0x11C, 0, 32, .ro, 1, 4, 0x0, true, false, false, []⟩
def Reg.NS_UE_ADDR_HI_ADDR : RegField := ⟨0x120, 0, 2, .ro, 1, 4, 0x0, true, false, false, []⟩
def Reg.NS_UE_ADDR_HI_VALID : RegField := ⟨0x120, 31, 1, .w1c, 1, 4, 0x0, true, false, false, []⟩
def Reg.NS_POISON_WR_COUNT : RegField := ⟨0x124, 0, 32, .rw, 1, 4, 0x0, true, false, false, []⟩
def Reg.NS_STEAL_REF_COUNT : RegField := ⟨0x128, 0, 32, .rw, 1, 4, 0x0, true, false, false, []⟩
def Reg.NS_STEAL_ZQ_COUNT : RegField := ⟨0x12C, 0, 32, .rw, 1, 4, 0x0, true, false, false, []⟩
def Reg.NS_STEAL_SCRUB_COUNT : RegField := ⟨0x130, 0, 32, .rw, 1, 4, 0x0, true, false, false, []⟩
def Reg.NS_SCRUB_PASSES_COUNT : RegField := ⟨0x134, 0, 32, .ro, 1, 4, 0x0, true, false, false, []⟩
def Reg.NS_SCRUB_POS_LINE : RegField := ⟨0x138, 0, 27, .ro, 1, 4, 0x0, false, false, false, []⟩
def Reg.NS_SCRUB_AGE_SECONDS : RegField := ⟨0x13C, 0, 32, .ro, 1, 4, 0x0, false, false, false, []⟩
def Reg.NS_LANE_CE_THR_THR : RegField := ⟨0x140, 0, 16, .rw, 1, 4, 0x400, false, false, false, [(1, 65535)]⟩
def Reg.NS_LANE_FLAGGED_COUNT : RegField := ⟨0x144, 0, 32, .rw, 1, 4, 0x0, true, false, false, []⟩
def Reg.NS_CH_CE_COUNT : RegField := ⟨0x200, 0, 32, .rw, 16, 4, 0x0, true, false, false, []⟩
def Reg.NS_CH_SPARE_GROUPS_0_4 : RegField := ⟨0x240, 0, 30, .ro, 16, 8, 0x0, false, false, false, []⟩
def Reg.NS_CH_SPARE_GROUPS_5_CA : RegField := ⟨0x244, 0, 24, .ro, 16, 8, 0x0, false, false, false, []⟩

/-! Fields of R388, spec/14_tier_f_ddr5.md. -/

def Reg.FCHAN_CFG_SCRUB_EN : RegField := ⟨0x100, 0, 1, .rw, 1, 4, 0x1, false, false, false, []⟩
def Reg.FCHAN_CFG_WCB_EN : RegField := ⟨0x100, 1, 1, .rw, 1, 4, 0x1, false, false, false, []⟩
def Reg.FCHAN_CFG_REF_SB : RegField := ⟨0x100, 2, 1, .rw, 1, 4, 0x1, false, false, false, []⟩
def Reg.FCHAN_CFG_PD_EN : RegField := ⟨0x100, 3, 1, .rw, 1, 4, 0x1, false, false, false, []⟩
def Reg.FCHAN_CFG_WCB_AGE : RegField := ⟨0x100, 8, 8, .rw, 1, 4, 0x20, false, false, false, [(1, 255)]⟩
def Reg.FCHAN_STAT_STATE : RegField := ⟨0x104, 0, 3, .ro, 1, 4, 0x0, false, false, false, []⟩
def Reg.FCHAN_STAT_REF_2X : RegField := ⟨0x104, 3, 1, .ro, 1, 4, 0x0, false, false, false, []⟩
def Reg.FCHAN_STAT_THROTTLE : RegField := ⟨0x104, 4, 1, .ro, 1, 4, 0x0, false, false, false, []⟩
def Reg.FCHAN_STAT_CRIT : RegField := ⟨0x104, 5, 1, .ro, 1, 4, 0x0, true, false, false, []⟩
def Reg.FCHAN_STAT_SCRUB_PRIO : RegField := ⟨0x104, 6, 1, .ro, 1, 4, 0x0, false, false, false, []⟩
def Reg.FCHAN_STAT_WCB_OCC : RegField := ⟨0x104, 8, 5, .ro, 1, 4, 0x0, false, false, false, []⟩
def Reg.FCHAN_DIMM_PRESENT : RegField := ⟨0x108, 0, 1, .ro, 2, 4, 0x0, false, false, false, []⟩
def Reg.FCHAN_DIMM_IN_SERVICE : RegField := ⟨0x108, 1, 1, .ro, 2, 4, 0x0, false, false, false, []⟩
def Reg.FCHAN_DIMM_CAP : RegField := ⟨0x108, 2, 2, .ro, 2, 4, 0x0, false, false, false, []⟩
def Reg.FCHAN_DIMM_RANKS : RegField := ⟨0x108, 4, 1, .ro, 2, 4, 0x0, false, false, false, []⟩
def Reg.FCHAN_DIMM_WIDTH : RegField := ⟨0x108, 5, 1, .ro, 2, 4, 0x0, false, false, false, []⟩
def Reg.FCHAN_DIMM_DENSITY : RegField := ⟨0x108, 6, 2, .ro, 2, 4, 0x0, false, false, false, []⟩
def Reg.FCHAN_DIMM_FAIL : RegField := ⟨0x108, 8, 4, .ro, 2, 4, 0x0, false, false, false, []⟩
def Reg.FCHAN_SPEED_RATE : RegField := ⟨0x110, 0, 2, .ro, 1, 4, 0x0, false, false, false, []⟩
def Reg.FCHAN_SPEED_DOWNBIN : RegField := ⟨0x110, 2, 1, .ro, 1, 4, 0x0, false, false, false, []⟩
def Reg.FCHAN_SPEED_CAP_GIB : RegField := ⟨0x110, 16, 9, .ro, 1, 4, 0x0, false, false, false, []⟩
def Reg.FCHAN_TEMP_TDIMM : RegField := ⟨0x114, 0, 8, .ro, 1, 4, 0x0, false, false, false, []⟩
def Reg.FCHAN_TEMP_SENSOR_VALID : RegField := ⟨0x114, 8, 1, .ro, 1, 4, 0x0, false, false, false, []⟩
def Reg.FCHAN_THERM_HOT_LIMIT : RegField := ⟨0x118, 0, 8, .rw, 1, 4, 0x5A, false, true, false, [(86, 94)]⟩
def Reg.FCHAN_THERM_CRIT_LIMIT : RegField := ⟨0x118, 8, 8, .ro, 1, 4, 0x5F, false, false, false, []⟩
def Reg.FCHAN_CE_THR_THR : RegField := ⟨0x11C, 0, 32, .rw, 1, 4, 0x10000, false, false, false, []⟩
def Reg.FCHAN_CE_TOTAL_COUNT : RegField := ⟨0x120, 0, 32, .rw, 1, 4, 0x0, true, false, false, []⟩
def Reg.FCHAN_UE_COUNT_COUNT : RegField := ⟨0x124, 0, 32, .rw, 1, 4, 0x0, true, false, false, []⟩
def Reg.FCHAN_UE_ADDR_LO_ADDR : RegField := ⟨0x128, 0, 32, .ro, 1, 4, 0x0, true, false, false, []⟩
def Reg.FCHAN_UE_ADDR_HI_ADDR : RegField := ⟨0x12C, 0, 6, .ro, 1, 4, 0x0, true, false, false, []⟩
def Reg.FCHAN_UE_ADDR_HI_VALID : RegField := ⟨0x12C, 31, 1, .w1c, 1, 4, 0x0, true, false, false, []⟩
def Reg.FCHAN_POISON_WR_COUNT : RegField := ⟨0x130, 0, 32, .rw, 1, 4, 0x0, true, false, false, []⟩
def Reg.FCHAN_CRC_RETRY_COUNT : RegField := ⟨0x134, 0, 32, .rw, 1, 4, 0x0, true, false, false, []⟩
def Reg.FCHAN_CAPAR_RETRY_COUNT : RegField := ⟨0x138, 0, 32, .rw, 1, 4, 0x0, true, false, false, []⟩
def Reg.FCHAN_RETRAINS_COUNT : RegField := ⟨0x13C, 0, 32, .rw, 1, 4, 0x0, true, false, false, []⟩
def Reg.FCHAN_SCRUB_PASSES_COUNT : RegField := ⟨0x140, 0, 32, .ro, 1, 4, 0x0, true, false, false, []⟩
def Reg.FCHAN_SCRUB_POS_LINE : RegField := ⟨0x144, 0, 31, .ro, 1, 4, 0x0, false, false, false, []⟩
def Reg.FCHAN_SCRUB_AGE_SECONDS : RegField := ⟨0x148, 0, 32, .ro, 1, 4, 0x0, false, false, false, []⟩
def Reg.FCHAN_SCRUB_PRIO_COUNT : RegField := ⟨0x14C, 0, 32, .rw, 1, 4, 0x0, true, false, false, []⟩
def Reg.FCHAN_DEV_CE_THR_THR : RegField := ⟨0x150, 0, 16, .rw, 1, 4, 0x400, false, false, false, [(1, 65535)]⟩
def Reg.FCHAN_ERASE_DEVICES : RegField := ⟨0x160, 0, 20, .ro, 4, 4, 0x0, true, false, false, []⟩
def Reg.FCHAN_CE_RANK_COUNT : RegField := ⟨0x200, 0, 32, .rw, 4, 4, 0x0, true, false, false, []⟩

/-! Fields of R412, spec/15_address_translation.md. -/

def Reg.XLATE_CFG_CTX_EN : RegField := ⟨0x100, 0, 1, .rw, 1, 4, 0x0, false, true, false, []⟩
def Reg.XLATE_CFG_RID_EN : RegField := ⟨0x100, 1, 4, .rw, 1, 4, 0x0, false, true, false, []⟩
def Reg.XLATE_CTX_BASE_LO_ADDR : RegField := ⟨0x104, 0, 32, .rw, 1, 4, 0x0, false, true, false, []⟩
def Reg.XLATE_CTX_BASE_HI_ADDR : RegField := ⟨0x108, 0, 20, .rw, 1, 4, 0x0, false, true, false, []⟩
def Reg.XLATE_RID_BASE_LO : RegField := ⟨0x110, 0, 32, .rw, 4, 8, 0x0, false, true, false, []⟩
def Reg.XLATE_RID_BASE_HI : RegField := ⟨0x114, 0, 20, .rw, 4, 8, 0x0, false, true, false, []⟩
def Reg.XLATE_CMD_CMD : RegField := ⟨0x130, 0, 3, .rw, 1, 4, 0x0, false, false, false, [(0, 3)]⟩
def Reg.XLATE_CMD_GO : RegField := ⟨0x130, 4, 1, .sc, 1, 4, 0x0, false, false, true, []⟩
def Reg.XLATE_CMD_PORT : RegField := ⟨0x130, 5, 2, .rw, 1, 4, 0x0, false, false, false, []⟩
def Reg.XLATE_CMD_CTXID : RegField := ⟨0x130, 16, 16, .rw, 1, 4, 0x0, false, false, false, []⟩
def Reg.XLATE_CMD_STATUS_CODE : RegField := ⟨0x134, 0, 8, .ro, 1, 4, 0x0, false, false, false, []⟩
def Reg.XLATE_CMD_STATUS_VALID : RegField := ⟨0x134, 8, 1, .ro, 1, 4, 0x0, false, false, false, []⟩
def Reg.XLATE_EPOCH_SEL_CTXID : RegField := ⟨0x138, 0, 16, .rw, 1, 4, 0x0, false, false, false, []⟩
def Reg.XLATE_EPOCH_LO_EPOCH : RegField := ⟨0x13C, 0, 32, .ro, 1, 4, 0x0, false, false, false, []⟩
def Reg.XLATE_EPOCH_HI_EPOCH : RegField := ⟨0x140, 0, 32, .ro, 1, 4, 0x0, false, false, false, []⟩
def Reg.XLATE_WALKS_LO_COUNT : RegField := ⟨0x144, 0, 32, .ro, 1, 4, 0x0, false, false, false, []⟩
def Reg.XLATE_WALKS_HI_COUNT : RegField := ⟨0x148, 0, 32, .ro, 1, 4, 0x0, false, false, false, []⟩
def Reg.XLATE_FAULTS_COUNT : RegField := ⟨0x14C, 0, 32, .rw, 1, 4, 0x0, true, false, false, []⟩
def Reg.XLATE_RETRANS_COUNT : RegField := ⟨0x150, 0, 32, .rw, 1, 4, 0x0, true, false, false, []⟩
def Reg.XLATE_FLT_INFO_CTXID : RegField := ⟨0x160, 0, 16, .ro, 1, 4, 0x0, true, false, false, []⟩
def Reg.XLATE_FLT_INFO_CAUSE : RegField := ⟨0x160, 16, 4, .ro, 1, 4, 0x0, true, false, false, []⟩
def Reg.XLATE_FLT_INFO_STAGE : RegField := ⟨0x160, 20, 2, .ro, 1, 4, 0x0, true, false, false, []⟩
def Reg.XLATE_FLT_INFO_LEVEL : RegField := ⟨0x160, 22, 3, .ro, 1, 4, 0x0, true, false, false, []⟩
def Reg.XLATE_FLT_INFO_CLASS : RegField := ⟨0x160, 25, 4, .ro, 1, 4, 0x0, true, false, false, []⟩
def Reg.XLATE_FLT_INFO_WRITE : RegField := ⟨0x160, 29, 1, .ro, 1, 4, 0x0, true, false, false, []⟩
def Reg.XLATE_FLT_INFO_VALID : RegField := ⟨0x160, 31, 1, .w1c, 1, 4, 0x0, true, false, false, []⟩
def Reg.XLATE_FLT_VA_LO_VA : RegField := ⟨0x164, 0, 32, .ro, 1, 4, 0x0, true, false, false, []⟩
def Reg.XLATE_FLT_VA_HI_VA : RegField := ⟨0x168, 0, 25, .ro, 1, 4, 0x0, true, false, false, []⟩
def Reg.XLATE_FLT_REQ_TAG : RegField := ⟨0x16C, 0, 32, .ro, 1, 4, 0x0, true, false, false, []⟩

/-! Fields of R441, spec/16_command_rings.md. -/

def Reg.CMDQ_CTRL_FLUSH : RegField := ⟨0x100, 0, 1, .sc, 1, 4, 0x0, false, false, true, []⟩
def Reg.CMDQ_STAT_STATE : RegField := ⟨0x104, 0, 3, .ro, 1, 4, 0x0, false, false, false, []⟩
def Reg.CMDQ_STAT_SQ_PHASE : RegField := ⟨0x104, 3, 1, .ro, 1, 4, 0x1, false, false, false, []⟩
def Reg.CMDQ_STAT_CQ_PHASE : RegField := ⟨0x104, 4, 1, .ro, 1, 4, 0x1, false, false, false, []⟩
def Reg.CMDQ_SQ_BASE_LO_ADDR : RegField := ⟨0x108, 0, 32, .rw, 1, 4, 0x0, false, true, false, []⟩
def Reg.CMDQ_SQ_BASE_HI_ADDR : RegField := ⟨0x10C, 0, 20, .rw, 1, 4, 0x0, false, true, false, []⟩
def Reg.CMDQ_CQ_BASE_LO_ADDR : RegField := ⟨0x110, 0, 32, .rw, 1, 4, 0x0, false, true, false, []⟩
def Reg.CMDQ_CQ_BASE_HI_ADDR : RegField := ⟨0x114, 0, 20, .rw, 1, 4, 0x0, false, true, false, []⟩
def Reg.CMDQ_SIZE_SQ_SIZE : RegField := ⟨0x118, 0, 5, .rw, 1, 4, 0x4, false, true, false, [(4, 16)]⟩
def Reg.CMDQ_SIZE_CQ_SIZE : RegField := ⟨0x118, 8, 5, .rw, 1, 4, 0x4, false, true, false, [(4, 16)]⟩
def Reg.CMDQ_CTXID_CTXID : RegField := ⟨0x11C, 0, 16, .rw, 1, 4, 0x0, false, true, false, []⟩
def Reg.CMDQ_SEQ_BASE_SEQ : RegField := ⟨0x120, 0, 32, .rw, 1, 4, 0x0, false, false, false, []⟩
def Reg.CMDQ_NEXT_SEQ_SEQ : RegField := ⟨0x124, 0, 32, .ro, 1, 4, 0x0, false, false, false, []⟩
def Reg.CMDQ_MIRROR_ADDR_LO_ADDR : RegField := ⟨0x128, 0, 32, .rw, 1, 4, 0x0, false, true, false, []⟩
def Reg.CMDQ_MIRROR_ADDR_HI_ADDR : RegField := ⟨0x12C, 0, 20, .rw, 1, 4, 0x0, false, true, false, []⟩
def Reg.CMDQ_SQ_HEAD_SLOT : RegField := ⟨0x130, 0, 16, .ro, 1, 4, 0x0, false, false, false, []⟩
def Reg.CMDQ_CQ_TAIL_SLOT : RegField := ⟨0x134, 0, 16, .ro, 1, 4, 0x0, false, false, false, []⟩
def Reg.CMDQ_CQ_HEAD_COUNT : RegField := ⟨0x138, 0, 17, .rw, 1, 4, 0x0, false, false, false, []⟩
def Reg.CMDQ_DOORBELL_ANY : RegField := ⟨0x13C, 0, 32, .wo, 1, 4, 0x0, false, false, true, []⟩
def Reg.CMDQ_OUTSTANDING_COUNT : RegField := ⟨0x140, 0, 17, .ro, 1, 4, 0x0, false, false, false, []⟩
def Reg.CMDQ_IRQ_COAL_COUNT : RegField := ⟨0x144, 0, 8, .rw, 1, 4, 0x1, false, false, false, [(1, 255)]⟩
def Reg.CMDQ_IRQ_COAL_TIME_US : RegField := ⟨0x144, 8, 16, .rw, 1, 4, 0x0, false, false, false, []⟩
def Reg.CMDQ_STALL_SEQ_SEQ : RegField := ⟨0x148, 0, 32, .ro, 1, 4, 0x0, true, false, false, []⟩
def Reg.CMDQ_PROGRESS_DROP_COUNT : RegField := ⟨0x14C, 0, 32, .rw, 1, 4, 0x0, true, false, false, []⟩
def Reg.CMDQ_ACCEPTED_LO_COUNT : RegField := ⟨0x150, 0, 32, .ro, 1, 4, 0x0, false, false, false, []⟩
def Reg.CMDQ_ACCEPTED_HI_COUNT : RegField := ⟨0x154, 0, 32, .ro, 1, 4, 0x0, false, false, false, []⟩

/-! Fields of R468, spec/17_cpu_complex.md. -/

def Reg.CPUCL_HART_CTRL_RUN0 : RegField := ⟨0x100, 0, 1, .w1s, 1, 4, 0x0, false, false, true, []⟩
def Reg.CPUCL_HART_CTRL_RUN1 : RegField := ⟨0x100, 1, 1, .w1s, 1, 4, 0x0, false, false, true, []⟩
def Reg.CPUCL_HART_STAT_STATE0 : RegField := ⟨0x104, 0, 3, .ro, 1, 4, 0x0, false, false, false, []⟩
def Reg.CPUCL_HART_STAT_STATE1 : RegField := ⟨0x104, 3, 3, .ro, 1, 4, 0x0, false, false, false, []⟩
def Reg.CPUCL_HART_STAT_CAUSE0 : RegField := ⟨0x104, 8, 4, .ro, 1, 4, 0x0, true, false, false, []⟩
def Reg.CPUCL_HART_STAT_CAUSE1 : RegField := ⟨0x104, 12, 4, .ro, 1, 4, 0x0, true, false, false, []⟩
def Reg.CPUCL_BOOT_ADDR_LO_ADDR : RegField := ⟨0x108, 0, 32, .rw, 1, 4, 0x0, false, true, false, []⟩
def Reg.CPUCL_BOOT_ADDR_HI_ADDR : RegField := ⟨0x10C, 0, 20, .rw, 1, 4, 0x0, false, true, false, []⟩
def Reg.CPUCL_CMD_CMD : RegField := ⟨0x110, 0, 2, .rw, 1, 4, 0x0, false, true, false, [(0, 1)]⟩
def Reg.CPUCL_CMD_CORE : RegField := ⟨0x110, 4, 1, .rw, 1, 4, 0x0, false, true, false, []⟩
def Reg.CPUCL_CMD_GO : RegField := ⟨0x110, 8, 1, .sc, 1, 4, 0x0, false, true, true, []⟩
def Reg.CPUCL_WDOG_MS : RegField := ⟨0x114, 0, 16, .rw, 1, 4, 0x3E8, false, false, false, []⟩
def Reg.CPUCL_MTIMECMP0_LO_CMP : RegField := ⟨0x118, 0, 32, .rw, 1, 4, 0xFFFFFFFF, false, false, false, []⟩
def Reg.CPUCL_MTIMECMP0_HI_CMP : RegField := ⟨0x11C, 0, 32, .rw, 1, 4, 0xFFFFFFFF, false, false, false, []⟩
def Reg.CPUCL_MTIMECMP1_LO_CMP : RegField := ⟨0x120, 0, 32, .rw, 1, 4, 0xFFFFFFFF, false, false, false, []⟩
def Reg.CPUCL_MTIMECMP1_HI_CMP : RegField := ⟨0x124, 0, 32, .rw, 1, 4, 0xFFFFFFFF, false, false, false, []⟩
def Reg.CPUCL_MSI_SEND_HART : RegField := ⟨0x128, 0, 7, .wo, 1, 4, 0x0, false, false, true, []⟩
def Reg.CPUCL_MSI_SEND_FILE : RegField := ⟨0x128, 8, 4, .wo, 1, 4, 0x0, false, false, true, []⟩
def Reg.CPUCL_MSI_SEND_IDENTITY : RegField := ⟨0x128, 16, 8, .wo, 1, 4, 0x0, false, false, true, []⟩
def Reg.CPUCL_MSI_DROP_COUNT : RegField := ⟨0x12C, 0, 32, .rw, 1, 4, 0x0, true, false, false, []⟩
def Reg.CPUCL_APLIC_SEL_DOMAIN : RegField := ⟨0x130, 0, 1, .rw, 1, 4, 0x0, false, false, true, []⟩
def Reg.CPUCL_APLIC_SEL_OFFSET : RegField := ⟨0x130, 2, 14, .rw, 1, 4, 0x0, false, false, true, []⟩
def Reg.CPUCL_APLIC_DATA_DATA : RegField := ⟨0x134, 0, 32, .rw, 1, 4, 0x0, false, false, true, []⟩
def Reg.CPUCL_INT_MCORE_REQ : RegField := ⟨0x138, 0, 17, .ro, 1, 4, 0x0, false, false, false, []⟩
def Reg.CPUCL_INT_TCACHE_REQ : RegField := ⟨0x13C, 0, 17, .ro, 1, 4, 0x0, false, false, false, []⟩
def Reg.CPUCL_INT_MOVER_REQ : RegField := ⟨0x140, 0, 4, .ro, 1, 4, 0x0, false, false, false, []⟩
def Reg.CPUCL_L1_CE_COUNT : RegField := ⟨0x144, 0, 32, .rw, 1, 4, 0x0, true, false, false, []⟩
def Reg.CPUCL_L2_CE0_COUNT : RegField := ⟨0x148, 0, 32, .rw, 1, 4, 0x0, true, false, false, []⟩
def Reg.CPUCL_L2_CE1_COUNT : RegField := ⟨0x14C, 0, 32, .rw, 1, 4, 0x0, true, false, false, []⟩
def Reg.CPUCL_L3_CE_COUNT : RegField := ⟨0x150, 0, 32, .rw, 1, 4, 0x0, true, false, false, []⟩
def Reg.CPUCL_CE_THR_THR : RegField := ⟨0x154, 0, 32, .rw, 1, 4, 0x1000, false, false, false, []⟩
def Reg.CPUCL_MEM_ERR_COUNT : RegField := ⟨0x158, 0, 32, .rw, 1, 4, 0x0, true, false, false, []⟩

/-! Fields of R489, spec/18_coherence.md. -/

def Reg.HOME_CFG_SNP_TMO_US : RegField := ⟨0x100, 0, 10, .rw, 1, 4, 0x64, false, false, false, [(1, 1000)]⟩
def Reg.HOME_STAT_DIR_READY : RegField := ⟨0x104, 0, 1, .ro, 1, 4, 0x0, false, false, false, []⟩
def Reg.HOME_STAT_SWEEP_HOLD : RegField := ⟨0x104, 1, 1, .ro, 1, 4, 0x0, false, false, false, []⟩
def Reg.HOME_STAT_HELD : RegField := ⟨0x104, 8, 8, .ro, 1, 4, 0x0, false, false, false, []⟩
def Reg.HOME_DIR_OCC_ENTRIES : RegField := ⟨0x108, 0, 21, .ro, 1, 4, 0x0, false, false, false, []⟩
def Reg.HOME_LOOKUP_LO_ADDR : RegField := ⟨0x10C, 0, 32, .rw, 1, 4, 0x0, false, false, false, []⟩
def Reg.HOME_LOOKUP_HI_ADDR : RegField := ⟨0x110, 0, 20, .rw, 1, 4, 0x0, false, false, false, []⟩
def Reg.HOME_LOOKUP_RES_HOME_LD : RegField := ⟨0x114, 0, 6, .ro, 1, 4, 0x3F, false, false, false, []⟩
def Reg.HOME_LOOKUP_RES_AGENT_LD : RegField := ⟨0x114, 8, 6, .ro, 1, 4, 0x3F, false, false, false, []⟩
def Reg.HOME_LOOKUP_RES_VALID : RegField := ⟨0x114, 31, 1, .ro, 1, 4, 0x0, false, false, false, []⟩
def Reg.HOME_CROSSINGS_COUNT : RegField := ⟨0x120, 0, 32, .rw, 1, 4, 0x0, true, false, false, []⟩
def Reg.HOME_BACKINV_COUNT : RegField := ⟨0x124, 0, 32, .rw, 1, 4, 0x0, true, false, false, []⟩
def Reg.HOME_GRANT_REF_COUNT : RegField := ⟨0x128, 0, 32, .rw, 1, 4, 0x0, true, false, false, []⟩
def Reg.HOME_SWEEP_HELD_COUNT : RegField := ⟨0x12C, 0, 32, .rw, 1, 4, 0x0, true, false, false, []⟩
def Reg.HOME_SNP_TMO_COUNT : RegField := ⟨0x130, 0, 32, .rw, 1, 4, 0x0, true, false, false, []⟩
def Reg.HOME_DIR_CE_COUNT : RegField := ⟨0x134, 0, 32, .rw, 1, 4, 0x0, true, false, false, []⟩
def Reg.HOME_DIR_UE_COUNT : RegField := ⟨0x138, 0, 32, .rw, 1, 4, 0x0, true, false, false, []⟩
def Reg.HOME_POISONED_COUNT : RegField := ⟨0x13C, 0, 32, .rw, 1, 4, 0x0, true, false, false, []⟩
def Reg.HOME_CE_THR_THR : RegField := ⟨0x140, 0, 32, .rw, 1, 4, 0x1000, false, false, false, []⟩

/-! Fields of R523, spec/19_jallyn_links.md. -/

def Reg.JP_CTRL_TRAIN : RegField := ⟨0x100, 0, 1, .sc, 1, 4, 0x0, false, false, true, []⟩
def Reg.JP_CTRL_LP_REQ : RegField := ⟨0x100, 1, 1, .rw, 1, 4, 0x0, false, false, true, []⟩
def Reg.JP_CTRL_FORCE_DOWN : RegField := ⟨0x100, 2, 1, .rw, 1, 4, 0x0, false, false, true, []⟩
def Reg.JP_CTRL_SPARE_EN : RegField := ⟨0x100, 3, 1, .rw, 1, 4, 0x1, false, false, false, []⟩
def Reg.JP_STAT_STATE : RegField := ⟨0x104, 0, 4, .ro, 1, 4, 0x0, false, false, false, []⟩
def Reg.JP_STAT_DOWN_CAUSE : RegField := ⟨0x104, 4, 4, .ro, 1, 4, 0x0, false, false, false, []⟩
def Reg.JP_STAT_SPARE_TX : RegField := ⟨0x104, 8, 4, .ro, 1, 4, 0xF, false, false, false, []⟩
def Reg.JP_STAT_SPARE_RX : RegField := ⟨0x104, 12, 4, .ro, 1, 4, 0xF, false, false, false, []⟩
def Reg.JP_STAT_TRIES : RegField := ⟨0x104, 16, 2, .ro, 1, 4, 0x0, false, false, false, []⟩
def Reg.JP_STAT_FROM_STORE : RegField := ⟨0x104, 18, 1, .ro, 1, 4, 0x0, false, false, false, []⟩
def Reg.JP_STAT_DEGRADED : RegField := ⟨0x104, 19, 1, .ro, 1, 4, 0x0, false, false, false, []⟩
def Reg.JP_PARTNER_DEVICE : RegField := ⟨0x108, 0, 16, .ro, 1, 4, 0x0, false, false, false, []⟩
def Reg.JP_PARTNER_PORT : RegField := ⟨0x108, 16, 3, .ro, 1, 4, 0x0, false, false, false, []⟩
def Reg.JP_PARTNER_VALID : RegField := ⟨0x108, 31, 1, .ro, 1, 4, 0x0, false, false, false, []⟩
def Reg.JP_LAT_TOKEN_NS : RegField := ⟨0x10C, 0, 10, .ro, 1, 4, 0x0, false, false, false, []⟩
def Reg.JP_PART_CFG_XM1 : RegField := ⟨0x110, 0, 3, .rw, 1, 4, 0x0, false, true, false, []⟩
def Reg.JP_PART_CFG_YM1 : RegField := ⟨0x110, 3, 3, .rw, 1, 4, 0x0, false, true, false, []⟩
def Reg.JP_PART_CFG_ZM1 : RegField := ⟨0x110, 6, 3, .rw, 1, 4, 0x0, false, true, false, []⟩
def Reg.JP_PART_CFG_J6_EN : RegField := ⟨0x110, 9, 1, .rw, 1, 4, 0x0, false, true, false, []⟩
def Reg.JP_PART_CFG_J7_EN : RegField := ⟨0x110, 10, 1, .rw, 1, 4, 0x0, false, true, false, []⟩
def Reg.JP_PART_COORD_X : RegField := ⟨0x114, 0, 3, .rw, 1, 4, 0x0, false, true, false, []⟩
def Reg.JP_PART_COORD_Y : RegField := ⟨0x114, 3, 3, .rw, 1, 4, 0x0, false, true, false, []⟩
def Reg.JP_PART_COORD_Z : RegField := ⟨0x114, 6, 3, .rw, 1, 4, 0x0, false, true, false, []⟩
def Reg.JP_PART_ID_ID : RegField := ⟨0x118, 0, 32, .rw, 1, 4, 0x0, false, true, false, []⟩
def Reg.JP_FORM_GO : RegField := ⟨0x11C, 0, 1, .sc, 1, 4, 0x0, false, false, true, []⟩
def Reg.JP_FORM_DISSOLVE : RegField := ⟨0x11C, 1, 1, .sc, 1, 4, 0x0, false, false, true, []⟩
def Reg.JP_FORM_STATE : RegField := ⟨0x11C, 4, 3, .ro, 1, 4, 0x0, false, false, false, []⟩
def Reg.JP_FORM_CAUSE : RegField := ⟨0x11C, 8, 4, .ro, 1, 4, 0x0, false, false, false, []⟩
def Reg.JP_HOLD_HELD : RegField := ⟨0x120, 0, 1, .ro, 1, 4, 0x0, false, false, false, []⟩
def Reg.JP_HOLD_CAUSE : RegField := ⟨0x120, 4, 4, .ro, 1, 4, 0x0, false, false, false, []⟩
def Reg.JP_HOLD_ORIGIN : RegField := ⟨0x120, 16, 16, .ro, 1, 4, 0x0, false, false, false, []⟩
def Reg.JP_FEC_CW_CE_COUNT : RegField := ⟨0x124, 0, 32, .rw, 1, 4, 0x0, true, false, false, []⟩
def Reg.JP_FEC_SYM_COUNT : RegField := ⟨0x128, 0, 32, .rw, 1, 4, 0x0, true, false, false, []⟩
def Reg.JP_FEC_UE_COUNT : RegField := ⟨0x12C, 0, 32, .rw, 1, 4, 0x0, true, false, false, []⟩
def Reg.JP_TX_FLITS_LO_COUNT : RegField := ⟨0x130, 0, 32, .ro, 1, 4, 0x0, false, false, false, []⟩
def Reg.JP_TX_FLITS_HI_COUNT : RegField := ⟨0x134, 0, 32, .ro, 1, 4, 0x0, false, false, false, []⟩
def Reg.JP_RX_FLITS_LO_COUNT : RegField := ⟨0x138, 0, 32, .ro, 1, 4, 0x0, false, false, false, []⟩
def Reg.JP_RX_FLITS_HI_COUNT : RegField := ⟨0x13C, 0, 32, .ro, 1, 4, 0x0, false, false, false, []⟩
def Reg.JP_GUARD_HOLDS_COUNT : RegField := ⟨0x140, 0, 32, .rw, 1, 4, 0x0, true, false, false, []⟩
def Reg.JP_RECOVERIES_COUNT : RegField := ⟨0x144, 0, 32, .rw, 1, 4, 0x0, true, false, false, []⟩
def Reg.JP_LANE_CE_THR_THR : RegField := ⟨0x148, 0, 16, .rw, 1, 4, 0x1000, false, false, false, [(1, 65535)]⟩
def Reg.JP_LANE_CE_COUNT : RegField := ⟨0x200, 0, 16, .ro, 9, 4, 0x0, true, false, false, []⟩

/-! Fields of R529, spec/20_fault_containment.md. -/

def Reg.MCORE_FLT_STAT_VALID : RegField := ⟨0x300, 0, 1, .w1c, 1, 4, 0x0, true, false, false, []⟩
def Reg.MCORE_FLT_STAT_KIND : RegField := ⟨0x300, 8, 8, .ro, 1, 4, 0x0, true, false, false, []⟩
def Reg.MCORE_FLT_STAT_OUTCOME : RegField := ⟨0x300, 16, 3, .ro, 1, 4, 0x0, true, false, false, []⟩
def Reg.MCORE_CKPT_STAT_CUR : RegField := ⟨0x304, 0, 1, .ro, 1, 4, 0x0, false, false, false, []⟩
def Reg.MCORE_CKPT_STAT_VALID0 : RegField := ⟨0x304, 1, 1, .ro, 1, 4, 0x0, false, false, false, []⟩
def Reg.MCORE_CKPT_STAT_VALID1 : RegField := ⟨0x304, 2, 1, .ro, 1, 4, 0x0, false, false, false, []⟩
def Reg.MCORE_CKPT_STAT_CAPTURING : RegField := ⟨0x304, 3, 1, .ro, 1, 4, 0x0, false, false, false, []⟩
def Reg.MCORE_CKPT_CE_COUNT : RegField := ⟨0x308, 0, 32, .rw, 1, 4, 0x0, true, false, false, []⟩
def Reg.MCORE_FLT_REC_RECORD : RegField := ⟨0x320, 0, 32, .ro, 12, 4, 0x0, true, false, false, []⟩

/-! Fields of R549, spec/20_fault_containment.md. -/

def Reg.EV_FLT_CFG_REPLAY_MAX : RegField := ⟨0x100, 0, 3, .rw, 1, 4, 0x3, false, true, false, []⟩
def Reg.EV_FLT_CFG_SUBST_EN : RegField := ⟨0x100, 3, 1, .rw, 1, 4, 0x1, false, true, false, []⟩
def Reg.EV_STAT_OCC : RegField := ⟨0x104, 0, 14, .ro, 1, 4, 0x0, false, false, false, []⟩
def Reg.EV_STAT_FLT_STATE : RegField := ⟨0x104, 16, 3, .ro, 1, 4, 0x0, false, false, false, []⟩
def Reg.EV_WRITTEN_LO_COUNT : RegField := ⟨0x108, 0, 32, .ro, 1, 4, 0x0, false, false, false, []⟩
def Reg.EV_WRITTEN_HI_COUNT : RegField := ⟨0x10C, 0, 32, .ro, 1, 4, 0x0, false, false, false, []⟩
def Reg.EV_CONSUMED_LO_COUNT : RegField := ⟨0x110, 0, 32, .rw, 1, 4, 0x0, false, false, false, []⟩
def Reg.EV_CONSUMED_HI_COUNT : RegField := ⟨0x114, 0, 32, .rw, 1, 4, 0x0, false, false, false, []⟩
def Reg.EV_DROP_COUNT : RegField := ⟨0x118, 0, 32, .rw, 1, 4, 0x0, true, false, false, []⟩
def Reg.EV_SRC_DROP_COUNT : RegField := ⟨0x11C, 0, 32, .rw, 1, 4, 0x0, true, false, false, []⟩
def Reg.EV_RD_SEQ_LO_SEQ : RegField := ⟨0x120, 0, 32, .rw, 1, 4, 0x0, false, false, false, []⟩
def Reg.EV_RD_SEQ_HI_SEQ : RegField := ⟨0x124, 0, 32, .rw, 1, 4, 0x0, false, false, false, []⟩
def Reg.EV_RD_STAT_VALID : RegField := ⟨0x128, 0, 1, .ro, 1, 4, 0x0, false, false, false, []⟩
def Reg.EV_RD_STAT_GONE : RegField := ⟨0x128, 1, 1, .ro, 1, 4, 0x0, false, false, false, []⟩
def Reg.EV_RD_STAT_NOT_YET : RegField := ⟨0x128, 2, 1, .ro, 1, 4, 0x0, false, false, false, []⟩
def Reg.EV_OCC_THR_THR : RegField := ⟨0x12C, 0, 14, .rw, 1, 4, 0x1000, false, false, false, [(1, 8192)]⟩
def Reg.EV_FLT_SUBST_COUNT : RegField := ⟨0x130, 0, 32, .ro, 1, 4, 0x0, true, false, false, []⟩
def Reg.EV_ENTRY_ENTRY : RegField := ⟨0x140, 0, 32, .ro, 8, 4, 0x0, false, false, false, []⟩

/-! Fields of R585, spec/21_power_thermal.md. -/

def Reg.RM_CTRL_MODE : RegField := ⟨0x100, 0, 1, .rw, 1, 4, 0x0, false, true, true, []⟩
def Reg.RM_CTRL_FILL_EN : RegField := ⟨0x100, 1, 1, .rw, 1, 4, 0x1, false, false, false, []⟩
def Reg.RM_CTRL_ATTR_EN : RegField := ⟨0x100, 2, 1, .rw, 1, 4, 0x1, false, false, false, []⟩
def Reg.RM_CTRL_FORCE_EN : RegField := ⟨0x100, 3, 1, .rw, 1, 4, 0x0, false, false, false, []⟩
def Reg.RM_CTRL_FORCE : RegField := ⟨0x100, 4, 2, .rw, 1, 4, 0x0, false, false, false, []⟩
def Reg.RM_CTRL_STOP_REQ : RegField := ⟨0x100, 6, 1, .w1s, 1, 4, 0x0, false, true, false, []⟩
def Reg.RM_STAT_STOP_CAUSE : RegField := ⟨0x104, 0, 3, .ro, 1, 4, 0x0, true, false, false, []⟩
def Reg.RM_STAT_REQ : RegField := ⟨0x104, 3, 2, .ro, 1, 4, 0x0, false, false, false, []⟩
def Reg.RM_STAT_REASON : RegField := ⟨0x104, 5, 4, .ro, 1, 4, 0x0, false, false, false, []⟩
def Reg.RM_STAT_PLAN_OVER : RegField := ⟨0x104, 9, 1, .ro, 1, 4, 0x0, false, false, false, []⟩
def Reg.RM_STAT_DIVERGE : RegField := ⟨0x104, 10, 1, .ro, 1, 4, 0x0, false, false, false, []⟩
def Reg.RM_STAT_SAFE_ANY : RegField := ⟨0x104, 11, 1, .ro, 1, 4, 0x0, false, false, false, []⟩
def Reg.RM_PEAK_CAP_WATTS : RegField := ⟨0x108, 0, 13, .rw, 1, 4, 0x1518, false, true, false, [(1000, 5400)]⟩
def Reg.RM_SUST_CAP_WATTS : RegField := ⟨0x10C, 0, 13, .rw, 1, 4, 0x12C0, false, true, false, [(1000, 5400)]⟩
def Reg.RM_PKG_POWER_P1MS : RegField := ⟨0x110, 0, 13, .ro, 1, 4, 0x0, false, false, false, []⟩
def Reg.RM_PKG_POWER_P1S : RegField := ⟨0x110, 16, 13, .ro, 1, 4, 0x0, false, false, false, []⟩
def Reg.RM_ENERGY_PKG_LO_UJ : RegField := ⟨0x114, 0, 32, .ro, 1, 4, 0x0, false, false, false, []⟩
def Reg.RM_ENERGY_PKG_HI_UJ : RegField := ⟨0x118, 0, 32, .ro, 1, 4, 0x0, false, false, false, []⟩
def Reg.RM_RATIO_CFG_GATE_UP : RegField := ⟨0x11C, 0, 6, .rw, 1, 4, 0x4, false, false, false, [(1, 63)]⟩
def Reg.RM_RATIO_CFG_LOWER_PCT : RegField := ⟨0x11C, 8, 7, .rw, 1, 4, 0x5A, false, false, false, [(50, 99)]⟩
def Reg.RM_RATIO_CFG_HOLD_MS : RegField := ⟨0x11C, 16, 8, .rw, 1, 4, 0xA, false, false, false, [(1, 255)]⟩
def Reg.RM_FILL_CFG_STEP_BEATS : RegField := ⟨0x120, 0, 16, .rw, 1, 4, 0x1770, false, false, false, [(1, 65535)]⟩
def Reg.RM_FILL_CFG_HOLD_FILL_US : RegField := ⟨0x120, 16, 16, .rw, 1, 4, 0x3E8, false, false, false, []⟩
def Reg.RM_FILL_LEVELS_LO_LEVEL0_3 : RegField := ⟨0x124, 0, 32, .rw, 1, 4, 0x9FBFDFFF, false, false, false, []⟩
def Reg.RM_FILL_LEVELS_HI_LEVEL4_7 : RegField := ⟨0x128, 0, 32, .rw, 1, 4, 0x1F3F5F7F, false, false, false, []⟩
def Reg.RM_THERM_DIE_HOT : RegField := ⟨0x12C, 0, 8, .rw, 1, 4, 0x5F, false, true, false, [(85, 100)]⟩
def Reg.RM_THERM_DIE_CRIT : RegField := ⟨0x12C, 8, 8, .ro, 1, 4, 0x69, false, false, false, []⟩
def Reg.RM_THERM_DIE_TRIP : RegField := ⟨0x12C, 16, 8, .ro, 1, 4, 0x73, false, false, false, []⟩
def Reg.RM_THERM_STACK_TRIP : RegField := ⟨0x12C, 24, 8, .ro, 1, 4, 0x6E, false, false, false, []⟩
def Reg.RM_TEMP_DIE_MAX : RegField := ⟨0x130, 0, 8, .ro, 1, 4, 0x0, false, false, false, []⟩
def Reg.RM_TEMP_DIE_MAX_PD : RegField := ⟨0x130, 8, 6, .ro, 1, 4, 0x0, false, false, false, []⟩
def Reg.RM_TEMP_STACK_MAX : RegField := ⟨0x130, 16, 8, .ro, 1, 4, 0x0, false, false, false, []⟩
def Reg.RM_TEMP_STACK_MAX_PD : RegField := ⟨0x130, 24, 6, .ro, 1, 4, 0x0, false, false, false, []⟩
def Reg.RM_CMD_CMD : RegField := ⟨0x134, 0, 2, .rw, 1, 4, 0x0, false, true, false, [(0, 2)]⟩
def Reg.RM_CMD_GO : RegField := ⟨0x134, 2, 1, .sc, 1, 4, 0x0, false, true, true, []⟩
def Reg.RM_CMD_STATUS_CODE : RegField := ⟨0x138, 0, 8, .ro, 1, 4, 0x0, false, false, false, []⟩
def Reg.RM_CMD_STATUS_VALID : RegField := ⟨0x138, 8, 1, .ro, 1, 4, 0x0, false, false, false, []⟩
def Reg.RM_ATTR_SEL_SLOT : RegField := ⟨0x140, 0, 6, .rw, 1, 4, 0x0, false, false, false, []⟩
def Reg.RM_ATTR_CTXID_CTXID : RegField := ⟨0x144, 0, 16, .rw, 1, 4, 0x0, false, false, true, []⟩
def Reg.RM_ATTR_CTXID_VALID : RegField := ⟨0x144, 16, 1, .rw, 1, 4, 0x0, false, false, true, []⟩
def Reg.RM_ATTR_ENERGY_LO_UJ : RegField := ⟨0x148, 0, 32, .ro, 1, 4, 0x0, false, false, false, []⟩
def Reg.RM_ATTR_ENERGY_HI_UJ : RegField := ⟨0x14C, 0, 32, .ro, 1, 4, 0x0, false, false, false, []⟩
def Reg.RM_ATTR_MODEL_LO_UJ : RegField := ⟨0x150, 0, 32, .ro, 1, 4, 0x0, false, false, false, []⟩
def Reg.RM_ATTR_MODEL_HI_UJ : RegField := ⟨0x154, 0, 32, .ro, 1, 4, 0x0, false, false, false, []⟩
def Reg.RM_ATTR_BUDGET_LO_UJ : RegField := ⟨0x158, 0, 32, .rw, 1, 4, 0xFFFFFFFF, false, false, true, []⟩
def Reg.RM_ATTR_BUDGET_HI_UJ : RegField := ⟨0x15C, 0, 32, .rw, 1, 4, 0xFFFFFFFF, false, false, true, []⟩
def Reg.RM_COEF_SEL_CLASS : RegField := ⟨0x160, 0, 4, .rw, 1, 4, 0x0, false, false, false, [(0, 9)]⟩
def Reg.RM_COEF_FJ : RegField := ⟨0x164, 0, 32, .rw, 1, 4, 0x0, false, false, true, []⟩
def Reg.RM_STATIC_FULL_MW : RegField := ⟨0x168, 0, 16, .rw, 1, 4, 0x1900, false, false, false, []⟩
def Reg.RM_STATIC_IO_MW : RegField := ⟨0x168, 16, 16, .rw, 1, 4, 0x320, false, false, false, []⟩
def Reg.RM_ZR6_ILIM_DA : RegField := ⟨0x180, 0, 16, .rw, 8, 4, 0x1C20, false, false, false, [(1, 65535)]⟩
def Reg.RM_ZR6_ILIM8_DA : RegField := ⟨0x1A0, 0, 16, .rw, 1, 4, 0xFA0, false, false, false, [(1, 65535)]⟩
def Reg.RM_ZR6_ILIM9_DA : RegField := ⟨0x1A4, 0, 16, .rw, 1, 4, 0x1770, false, false, false, [(1, 65535)]⟩
def Reg.RM_FRAC_STAGED : RegField := ⟨0x200, 0, 16, .rw, 56, 4, 0x0, false, true, false, []⟩
def Reg.RM_FRAC_ACTIVE : RegField := ⟨0x200, 16, 16, .ro, 56, 4, 0x0, false, false, false, []⟩

/-! Fields of R587, spec/21_power_thermal.md. -/

def Reg.PA_GATE_CFG_STACK_DUTY : RegField := ⟨0x100, 0, 4, .rw, 1, 4, 0x4, false, true, false, [(1, 15)]⟩
def Reg.PA_STAT_DUTY : RegField := ⟨0x104, 0, 4, .ro, 1, 4, 0x0, false, false, false, []⟩
def Reg.PA_STAT_REASON : RegField := ⟨0x104, 4, 5, .ro, 1, 4, 0x0, false, false, false, []⟩
def Reg.PA_STAT_SAFE : RegField := ⟨0x104, 9, 1, .ro, 1, 4, 0x0, false, false, false, []⟩
def Reg.PA_STAT_SENSOR_VALID : RegField := ⟨0x104, 10, 1, .ro, 1, 4, 0x1, false, false, false, []⟩
def Reg.PA_STAT_HB_OK : RegField := ⟨0x104, 11, 1, .ro, 1, 4, 0x0, false, false, false, []⟩
def Reg.PA_BUDGET_PEAK_DW : RegField := ⟨0x108, 0, 16, .ro, 1, 4, 0x0, false, false, false, []⟩
def Reg.PA_BUDGET_ILIM_DA : RegField := ⟨0x108, 16, 16, .ro, 1, 4, 0x0, false, false, false, []⟩
def Reg.PA_POWER_P1MS_DW : RegField := ⟨0x10C, 0, 16, .ro, 1, 4, 0x0, false, false, false, []⟩
def Reg.PA_POWER_P10US_DW : RegField := ⟨0x10C, 16, 16, .ro, 1, 4, 0x0, false, false, false, []⟩
def Reg.PA_TEMP_TDIE : RegField := ⟨0x110, 0, 8, .ro, 1, 4, 0x0, false, false, false, []⟩
def Reg.PA_TEMP_SENSOR : RegField := ⟨0x110, 8, 4, .ro, 1, 4, 0x0, false, false, false, []⟩
def Reg.PA_TEMP_TSTACK : RegField := ⟨0x110, 16, 8, .ro, 1, 4, 0x0, false, false, false, []⟩
def Reg.PA_CAL_FACTOR : RegField := ⟨0x114, 0, 13, .ro, 1, 4, 0x1000, false, false, false, []⟩
def Reg.PA_GATED_LO_BEATS : RegField := ⟨0x118, 0, 32, .ro, 1, 4, 0x0, false, false, false, []⟩
def Reg.PA_GATED_HI_BEATS : RegField := ⟨0x11C, 0, 32, .ro, 1, 4, 0x0, false, false, false, []⟩
def Reg.PA_GATE_RUNS_COUNT : RegField := ⟨0x120, 0, 32, .rw, 1, 4, 0x0, true, false, false, []⟩
def Reg.PA_ENERGY_LO_UJ : RegField := ⟨0x124, 0, 32, .ro, 1, 4, 0x0, false, false, false, []⟩
def Reg.PA_ENERGY_HI_UJ : RegField := ⟨0x128, 0, 32, .ro, 1, 4, 0x0, false, false, false, []⟩
def Reg.PA_ACT_SEL_CLASS : RegField := ⟨0x130, 0, 4, .rw, 1, 4, 0x0, false, false, false, [(0, 9)]⟩
def Reg.PA_ACT_SEL_SLOT : RegField := ⟨0x130, 4, 6, .rw, 1, 4, 0x0, false, false, false, []⟩
def Reg.PA_ACT_LO_COUNT : RegField := ⟨0x134, 0, 32, .ro, 1, 4, 0x0, false, false, false, []⟩
def Reg.PA_ACT_HI_COUNT : RegField := ⟨0x138, 0, 32, .ro, 1, 4, 0x0, false, false, false, []⟩

/-! Fields of R619, spec/23_pcie_management.md. -/

def Reg.PRP_CTRL_PERST_ASSERT : RegField := ⟨0x100, 0, 1, .rw, 1, 4, 0x0, false, true, false, []⟩
def Reg.PRP_CTRL_LINK_DISABLE : RegField := ⟨0x100, 1, 1, .rw, 1, 4, 0x0, false, false, false, []⟩
def Reg.PRP_CTRL_RETRAIN : RegField := ⟨0x100, 2, 1, .sc, 1, 4, 0x0, false, false, true, []⟩
def Reg.PRP_STAT_STATE : RegField := ⟨0x104, 0, 3, .ro, 1, 4, 0x0, false, false, false, []⟩
def Reg.PRP_STAT_SPEED : RegField := ⟨0x104, 3, 3, .ro, 1, 4, 0x0, false, false, false, []⟩
def Reg.PRP_STAT_WIDTH : RegField := ⟨0x104, 6, 5, .ro, 1, 4, 0x0, false, false, false, []⟩
def Reg.PRP_STAT_FLIT : RegField := ⟨0x104, 11, 1, .ro, 1, 4, 0x0, false, false, false, []⟩
def Reg.PRP_OB_BASE_LO_ADDR : RegField := ⟨0x108, 0, 32, .rw, 1, 4, 0x0, false, true, false, []⟩
def Reg.PRP_OB_BASE_HI_ADDR : RegField := ⟨0x10C, 0, 32, .rw, 1, 4, 0x0, false, true, false, []⟩
def Reg.PRP_MSI_ADDR_LO_ADDR : RegField := ⟨0x110, 0, 32, .rw, 1, 4, 0xFFFFF000, false, true, false, []⟩
def Reg.PRP_MSI_ADDR_HI_ADDR : RegField := ⟨0x114, 0, 32, .rw, 1, 4, 0x0, false, true, false, []⟩
def Reg.PRP_MSI_TAB_LO_ADDR : RegField := ⟨0x118, 0, 32, .rw, 1, 4, 0x0, false, true, false, []⟩
def Reg.PRP_MSI_TAB_HI_ADDR : RegField := ⟨0x11C, 0, 20, .rw, 1, 4, 0x0, false, true, false, []⟩
def Reg.PRP_MSI_SIZE_ENTRIES : RegField := ⟨0x120, 0, 13, .rw, 1, 4, 0x0, false, true, false, [(0, 4096)]⟩
def Reg.PRP_CPL_TMO_US : RegField := ⟨0x124, 0, 24, .rw, 1, 4, 0x2710, false, false, false, [(50, 16000000)]⟩
def Reg.PRP_CMD_CMD : RegField := ⟨0x128, 0, 2, .rw, 1, 4, 0x0, false, false, false, [(0, 1)]⟩
def Reg.PRP_CMD_GO : RegField := ⟨0x128, 2, 1, .sc, 1, 4, 0x0, false, false, true, []⟩
def Reg.PRP_CMD_STATUS_CODE : RegField := ⟨0x12C, 0, 8, .ro, 1, 4, 0x0, false, false, false, []⟩
def Reg.PRP_CMD_STATUS_VALID : RegField := ⟨0x12C, 8, 1, .ro, 1, 4, 0x0, false, false, false, []⟩
def Reg.PRP_IN_REFUSED_COUNT : RegField := ⟨0x130, 0, 32, .rw, 1, 4, 0x0, true, false, false, []⟩
def Reg.PRP_IN_READ_ERR_COUNT : RegField := ⟨0x134, 0, 32, .rw, 1, 4, 0x0, true, false, false, []⟩
def Reg.PRP_MSI_DROP_COUNT : RegField := ⟨0x138, 0, 32, .rw, 1, 4, 0x0, true, false, false, []⟩
def Reg.PRP_OB_TMO_COUNT : RegField := ⟨0x13C, 0, 32, .rw, 1, 4, 0x0, true, false, false, []⟩
def Reg.PRP_OB_ERR_COUNT : RegField := ⟨0x140, 0, 32, .rw, 1, 4, 0x0, true, false, false, []⟩
def Reg.PRP_LINK_DOWN_COUNT : RegField := ⟨0x144, 0, 32, .rw, 1, 4, 0x0, true, false, false, []⟩
def Reg.PRP_CORR_COUNT : RegField := ⟨0x148, 0, 32, .rw, 1, 4, 0x0, true, false, false, []⟩
def Reg.PRP_INTX_DROP_COUNT : RegField := ⟨0x14C, 0, 32, .rw, 1, 4, 0x0, true, false, false, []⟩

/-! Fields of R659, spec/24_clocks_bringup.md. -/

def Reg.TB_TIME_LO_TIME : RegField := ⟨0x100, 0, 32, .ro, 1, 4, 0x0, false, false, false, []⟩
def Reg.TB_TIME_HI_TIME : RegField := ⟨0x104, 0, 32, .ro, 1, 4, 0x0, false, false, false, []⟩
def Reg.TB_STAT_REF_OK : RegField := ⟨0x108, 0, 1, .ro, 1, 4, 0x0, false, false, false, []⟩
def Reg.TB_STAT_RPLL_LOCK : RegField := ⟨0x108, 1, 1, .ro, 1, 4, 0x0, false, false, false, []⟩
def Reg.TB_STAT_ON_SOSC : RegField := ⟨0x108, 2, 1, .ro, 1, 4, 0x0, false, false, false, []⟩
def Reg.TB_STAT_SYNCED : RegField := ⟨0x108, 3, 1, .ro, 1, 4, 0x0, false, false, false, []⟩
def Reg.TB_STAT_CLK_LOST : RegField := ⟨0x108, 4, 1, .ro, 1, 4, 0x0, true, false, false, []⟩
def Reg.TB_SYNC_CTRL_MODE : RegField := ⟨0x10C, 0, 2, .rw, 1, 4, 0x0, false, true, false, [(0, 2)]⟩
def Reg.TB_SYNC_CTRL_ARM : RegField := ⟨0x10C, 2, 1, .rw, 1, 4, 0x0, false, false, false, []⟩
def Reg.TB_SYNC_CTRL_FIRE : RegField := ⟨0x10C, 3, 1, .sc, 1, 4, 0x0, false, false, true, []⟩
def Reg.TB_SYNC_VAL_LO_VAL : RegField := ⟨0x110, 0, 32, .rw, 1, 4, 0x0, false, false, false, []⟩
def Reg.TB_SYNC_VAL_HI_VAL : RegField := ⟨0x114, 0, 32, .rw, 1, 4, 0x0, false, false, false, []⟩
def Reg.TB_SYNC_COUNT_COUNT : RegField := ⟨0x118, 0, 32, .rw, 1, 4, 0x0, true, false, false, []⟩
def Reg.TB_STAGE_STAGE : RegField := ⟨0x11C, 0, 3, .ro, 1, 4, 0x0, false, false, false, []⟩
def Reg.TB_STAGE_READY : RegField := ⟨0x11C, 3, 1, .ro, 1, 4, 0x0, false, false, false, []⟩
def Reg.TB_STAGE_FAIL : RegField := ⟨0x11C, 4, 4, .ro, 1, 4, 0x0, false, false, false, []⟩
def Reg.TB_STAGE_RETURNS : RegField := ⟨0x11C, 8, 3, .ro, 1, 4, 0x0, false, false, false, []⟩
def Reg.TB_STAGE_POWER : RegField := ⟨0x11C, 12, 2, .ro, 1, 4, 0x0, false, false, false, []⟩
def Reg.TB_RESET_CAUSE_CAUSE : RegField := ⟨0x120, 0, 3, .ro, 1, 4, 0x0, false, false, false, []⟩
def Reg.TB_PWR_REQ_ON : RegField := ⟨0x124, 0, 1, .w1s, 1, 4, 0x0, false, true, true, []⟩
def Reg.TB_PWR_REQ_OFF : RegField := ⟨0x124, 1, 1, .w1s, 1, 4, 0x0, false, true, true, []⟩
def Reg.TB_CTRL_SYS_RESET_REQ : RegField := ⟨0x128, 0, 1, .w1s, 1, 4, 0x0, false, true, true, []⟩

/-! Fields of R660, spec/24_clocks_bringup.md. -/

def Reg.PS_STAT_ACTIVE : RegField := ⟨0x100, 0, 1, .ro, 1, 4, 0x0, false, false, false, []⟩
def Reg.PS_STAT_VALID0 : RegField := ⟨0x100, 1, 1, .ro, 1, 4, 0x0, false, false, false, []⟩
def Reg.PS_STAT_VALID1 : RegField := ⟨0x100, 2, 1, .ro, 1, 4, 0x0, false, false, false, []⟩
def Reg.PS_STAT_FALLBACK : RegField := ⟨0x100, 3, 1, .ro, 1, 4, 0x0, false, false, false, []⟩
def Reg.PS_STAT_BUSY : RegField := ⟨0x100, 4, 1, .ro, 1, 4, 0x0, false, false, false, []⟩
def Reg.PS_STAT_PENDING : RegField := ⟨0x100, 5, 1, .ro, 1, 4, 0x0, false, false, false, []⟩
def Reg.PS_STAT_ENDURANCE : RegField := ⟨0x100, 6, 1, .ro, 1, 4, 0x0, false, false, false, []⟩
def Reg.PS_SEQ_SEQ : RegField := ⟨0x104, 0, 32, .ro, 1, 4, 0x0, false, false, false, []⟩
def Reg.PS_CMD_CMD : RegField := ⟨0x108, 0, 4, .rw, 1, 4, 0x0, false, true, false, [(0, 6)]⟩
def Reg.PS_CMD_GO : RegField := ⟨0x108, 4, 1, .sc, 1, 4, 0x0, false, true, true, []⟩
def Reg.PS_CMD_ARG : RegField := ⟨0x108, 8, 8, .rw, 1, 4, 0x0, false, false, false, []⟩
def Reg.PS_CMD_STATUS_CODE : RegField := ⟨0x10C, 0, 8, .ro, 1, 4, 0x0, false, false, false, []⟩
def Reg.PS_CMD_STATUS_VALID : RegField := ⟨0x10C, 8, 1, .ro, 1, 4, 0x0, false, false, false, []⟩
def Reg.PS_CMD_STATUS_REASON : RegField := ⟨0x10C, 16, 8, .ro, 1, 4, 0x0, false, false, false, []⟩
def Reg.PS_ADDR_LO_ADDR : RegField := ⟨0x110, 0, 32, .rw, 1, 4, 0x0, false, false, false, []⟩
def Reg.PS_ADDR_HI_ADDR : RegField := ⟨0x114, 0, 20, .rw, 1, 4, 0x0, false, false, false, []⟩
def Reg.PS_LEN_BYTES : RegField := ⟨0x118, 0, 25, .rw, 1, 4, 0x0, false, false, false, []⟩
def Reg.PS_REC_TYPE_TYPE : RegField := ⟨0x11C, 0, 16, .rw, 1, 4, 0x0, false, false, false, []⟩
def Reg.PS_FH_COUNT_COUNT : RegField := ⟨0x120, 0, 13, .ro, 1, 4, 0x0, false, false, false, []⟩
def Reg.PS_FH_DROP_COUNT : RegField := ⟨0x124, 0, 32, .rw, 1, 4, 0x0, true, false, false, []⟩
def Reg.PS_COMMITS_COUNT : RegField := ⟨0x128, 0, 32, .rw, 1, 4, 0x0, true, false, false, []⟩
def Reg.PS_ERASES0_COUNT : RegField := ⟨0x12C, 0, 32, .ro, 1, 4, 0x0, false, false, false, []⟩
def Reg.PS_ERASES1_COUNT : RegField := ⟨0x130, 0, 32, .ro, 1, 4, 0x0, false, false, false, []⟩

/-! Fields of R703, spec/26_test_debug.md. -/

def Reg.DBG_CTRL_EN : RegField := ⟨0x100, 0, 1, .rw, 1, 4, 0x0, false, true, false, []⟩
def Reg.DBG_CTRL_FREEZE : RegField := ⟨0x100, 1, 1, .rw, 1, 4, 0x0, false, false, false, []⟩
def Reg.DBG_CORE_SEL_SLOT : RegField := ⟨0x104, 0, 5, .rw, 1, 4, 0x0, false, false, false, [(0, 16)]⟩
def Reg.DBG_CORE_CMD_HALT : RegField := ⟨0x108, 0, 1, .w1s, 1, 4, 0x0, false, false, false, []⟩
def Reg.DBG_CORE_CMD_RESUME : RegField := ⟨0x108, 1, 1, .w1s, 1, 4, 0x0, false, false, false, []⟩
def Reg.DBG_CORE_CMD_STEP : RegField := ⟨0x108, 2, 1, .w1s, 1, 4, 0x0, false, false, true, []⟩
def Reg.DBG_CORE_STAT_DHALTED : RegField := ⟨0x10C, 0, 1, .ro, 1, 4, 0x0, false, false, false, []⟩
def Reg.DBG_CORE_STAT_FROZEN : RegField := ⟨0x10C, 1, 1, .ro, 1, 4, 0x0, false, false, false, []⟩
def Reg.DBG_CORE_STAT_PC : RegField := ⟨0x10C, 4, 14, .ro, 1, 4, 0x0, false, false, false, []⟩
def Reg.DBG_TS_SEL_INDEX : RegField := ⟨0x110, 0, 12, .rw, 1, 4, 0x0, false, false, false, []⟩
def Reg.DBG_TS_SEL_POOL : RegField := ⟨0x110, 12, 1, .rw, 1, 4, 0x0, false, false, false, []⟩
def Reg.DBG_TS_SEL_SLOT : RegField := ⟨0x110, 13, 5, .rw, 1, 4, 0x0, false, false, false, []⟩
def Reg.DBG_TS_VALUE_VALUE : RegField := ⟨0x114, 0, 31, .rw, 1, 4, 0x0, false, false, true, []⟩
def Reg.DBG_TS_FLAG_STICKY : RegField := ⟨0x118, 0, 1, .w1c, 1, 4, 0x0, false, false, true, []⟩
def Reg.DBG_TS_FLAG_WAITING : RegField := ⟨0x118, 1, 1, .ro, 1, 4, 0x0, false, false, false, []⟩
def Reg.DBG_MEM_ADDR_LO_ADDR : RegField := ⟨0x120, 0, 32, .rw, 1, 4, 0x0, false, false, false, []⟩
def Reg.DBG_MEM_ADDR_HI_ADDR : RegField := ⟨0x124, 0, 20, .rw, 1, 4, 0x0, false, false, false, []⟩
def Reg.DBG_MEM_ADDR_HI_SPACE : RegField := ⟨0x124, 31, 1, .rw, 1, 4, 0x0, false, false, false, []⟩
def Reg.DBG_MEM_DATA_DATA : RegField := ⟨0x128, 0, 32, .rw, 1, 4, 0x0, false, false, false, []⟩
def Reg.DBG_MEM_CMD_OP : RegField := ⟨0x12C, 0, 2, .rw, 1, 4, 0x0, false, false, false, [(1, 2)]⟩
def Reg.DBG_MEM_CMD_GO : RegField := ⟨0x12C, 2, 1, .sc, 1, 4, 0x0, false, false, true, []⟩
def Reg.DBG_MEM_STATUS_CODE : RegField := ⟨0x130, 0, 8, .ro, 1, 4, 0x0, false, false, false, []⟩
def Reg.DBG_MEM_STATUS_VALID : RegField := ⟨0x130, 8, 1, .ro, 1, 4, 0x0, false, false, false, []⟩
def Reg.DBG_TRC_CTRL_MODE : RegField := ⟨0x140, 0, 2, .rw, 1, 4, 0x0, false, false, false, [(0, 2)]⟩
def Reg.DBG_TRC_CTRL_SRC_DISP : RegField := ⟨0x140, 2, 1, .rw, 1, 4, 0x0, false, false, false, []⟩
def Reg.DBG_TRC_CTRL_SRC_TS : RegField := ⟨0x140, 3, 1, .rw, 1, 4, 0x0, false, false, false, []⟩
def Reg.DBG_TRC_CTRL_SLOT : RegField := ⟨0x140, 4, 5, .rw, 1, 4, 0x0, false, false, false, [(0, 16), (31, 31)]⟩
def Reg.DBG_TRC_START_LO_STEP : RegField := ⟨0x144, 0, 32, .rw, 1, 4, 0x0, false, false, false, []⟩
def Reg.DBG_TRC_START_HI_STEP : RegField := ⟨0x148, 0, 32, .rw, 1, 4, 0x0, false, false, false, []⟩
def Reg.DBG_TRC_STAT_COUNT : RegField := ⟨0x14C, 0, 15, .ro, 1, 4, 0x0, false, false, false, []⟩
def Reg.DBG_TRC_STAT_FULL : RegField := ⟨0x14C, 15, 1, .ro, 1, 4, 0x0, false, false, false, []⟩
def Reg.DBG_TRC_STAT_ACTIVE : RegField := ⟨0x14C, 16, 1, .ro, 1, 4, 0x0, false, false, false, []⟩
def Reg.DBG_TRC_DROP_COUNT : RegField := ⟨0x150, 0, 32, .rw, 1, 4, 0x0, true, false, false, []⟩
def Reg.DBG_TRC_RD_INDEX : RegField := ⟨0x154, 0, 14, .rw, 1, 4, 0x0, false, false, false, []⟩
def Reg.DBG_TRC_ENTRY_ENTRY : RegField := ⟨0x160, 0, 32, .ro, 4, 4, 0x0, false, false, false, []⟩
def Reg.DBG_RB_SEL_UNIT : RegField := ⟨0x170, 0, 1, .rw, 1, 4, 0x0, false, false, false, []⟩
def Reg.DBG_RB_SEL_MOVER : RegField := ⟨0x170, 1, 2, .rw, 1, 4, 0x0, false, false, false, []⟩
def Reg.DBG_RB_SEL_SLOT : RegField := ⟨0x170, 3, 4, .rw, 1, 4, 0x0, false, false, false, []⟩
def Reg.DBG_RB_SEL_VALID : RegField := ⟨0x170, 31, 1, .ro, 1, 4, 0x0, false, false, false, []⟩
def Reg.DBG_RB_BLOCK : RegField := ⟨0x200, 0, 32, .ro, 36, 4, 0x0, false, false, false, []⟩

/-! The fields of each page. -/

def headerFields : List RegField :=
  [Reg.BLK_VER_STEPPING, Reg.BLK_CTRL_ENABLE, Reg.BLK_CTRL_SOFT_RESET, Reg.BLK_CTRL_FENCE, Reg.BLK_STAT_READY, Reg.BLK_STAT_BUSY, Reg.BLK_STAT_FENCED, Reg.BLK_STAT_ERR, Reg.BLK_INT_STAT_CAUSES, Reg.BLK_INT_EN_ENABLES, Reg.BLK_INT_SET_CAUSES, Reg.BLK_SYNC_WRITE_COUNT, Reg.BLK_ERR_INFO0_INFO, Reg.BLK_ERR_INFO1_INFO, Reg.BLK_ERR_INFO2_INFO, Reg.BLK_ERR_INFO3_INFO, Reg.BLK_LOCK_ARMED, Reg.BLK_LOCK_UNLOCKED]

def familyParamFields : List RegField :=
  [Reg.FP_GENERATION, Reg.FP_MEMBER, Reg.FP_SPEED_GRADE, Reg.FP_STEPPING, Reg.FP_PHYS_DIES, Reg.FP_LOGICAL_DIES, Reg.FP_ROWS, Reg.FP_COLS, Reg.FP_PHYS_MC_PER_DIE, Reg.FP_LOGICAL_MC_PER_DIE, Reg.FP_LOGICAL_MC, Reg.FP_HARTS_PER_DIE, Reg.FP_HARTS, Reg.FP_JPORTS, Reg.FP_JLANES, Reg.FP_FCHANS, Reg.FP_PCIE_PORTS, Reg.FP_ARRAY_DIM, Reg.FP_STRIPES, Reg.FP_STRIPE_COLS, Reg.FP_S_BANKS, Reg.FP_S_BANK_KIB, Reg.FP_N_GIB_PER_DIE, Reg.FP_F_GIB] ++
  [Reg.FP_MEM_TOP_LO, Reg.FP_MEM_TOP_HI, Reg.FP_MCLK_MHZ, Reg.FP_RPLL_MHZ, Reg.FP_TS_CORE, Reg.FP_TS_POOL, Reg.FP_STEP_MAX_BEATS, Reg.FP_DIE_MAP_VALID, Reg.FP_TIER_F_VALID, Reg.FP_SPARE_SHORT, Reg.FP_FULL_MAP_LO, Reg.FP_FULL_MAP_HI, Reg.FP_LD_MAP]

def dieCfgFields : List RegField :=
  [Reg.DC_ROLE, Reg.DC_SPARE, Reg.DC_SPARE_IN_USE, Reg.DC_EDGE, Reg.DC_MGMT_CAPABLE, Reg.DC_MGMT_ACTIVE, Reg.DC_LDIE, Reg.DC_ROW, Reg.DC_COL, Reg.DC_F_BONDED, Reg.DC_J_BONDED, Reg.DC_P_BONDED, Reg.DC_M_BONDED, Reg.DC_F_ABSENT, Reg.DC_J_ABSENT, Reg.DC_P_ABSENT, Reg.DC_F_NUM, Reg.DC_J_NUM, Reg.DC_P_NUM, Reg.DC_ROUTER_ON, Reg.DC_CONTROL_ON, Reg.DC_IO_ON, Reg.DC_COMPUTE_ON, Reg.DC_HART_BASE] ++
  [Reg.DC_MC_MAP, Reg.DC_MC_FREE, Reg.DC_SUBSTITUTED, Reg.DC_DIE_TEST_FAIL, Reg.DC_IO_TEST_FAIL]

def mcoreFields : List RegField :=
  [Reg.MCORE_CTRL_TRAP_NAN, Reg.MCORE_CTRL_HALT_REQ, Reg.MCORE_STAT_STATE, Reg.MCORE_STAT_LQ_OCC, Reg.MCORE_STAT_SQ_OCC, Reg.MCORE_STAT_DQ_OCC, Reg.MCORE_STAT_VQ_OCC, Reg.MCORE_STAT_MQ_OCC, Reg.MCORE_STAT_BANK0_VALID, Reg.MCORE_STAT_BANK1_VALID, Reg.MCORE_PC_PC, Reg.MCORE_LCORE_LC, Reg.MCORE_LCORE_LC_VALID, Reg.MCORE_PROG_ADDR_LO_ADDR, Reg.MCORE_PROG_ADDR_HI_ADDR, Reg.MCORE_PROG_LEN_LEN, Reg.MCORE_CTX_ADDR_LO_ADDR, Reg.MCORE_CTX_ADDR_HI_ADDR, Reg.MCORE_CMD_CMD, Reg.MCORE_CMD_GO, Reg.MCORE_CMD_STATUS_CODE, Reg.MCORE_CMD_STATUS_VALID, Reg.MCORE_CTXID_CTXID, Reg.MCORE_ENTRY_PC] ++
  [Reg.MCORE_ACC_CE_COUNT, Reg.MCORE_ACC_CE_THR_THR, Reg.MCORE_CHK_SKIP_COUNT, Reg.NF_STAT_LAST_NAN, Reg.NF_STAT_LAST_INF, Reg.NF_STAT_LAST_VALID, Reg.NF_STAT_STICKY_NAN, Reg.NF_STAT_STICKY_INF, Reg.NF_STAT_FIRST_VALID, Reg.NF_STAT_TRAP_VALID, Reg.NF_LAST_NAN_POS_ROW, Reg.NF_LAST_NAN_POS_CHAN, Reg.NF_LAST_NAN_POS_VALID, Reg.NF_LAST_INF_POS_ROW, Reg.NF_LAST_INF_POS_CHAN, Reg.NF_LAST_INF_POS_VALID, Reg.NF_LAST_TILE_TILE_ID, Reg.NF_LAST_TILE_ACC_BASE, Reg.NF_FLAGGED_COUNT, Reg.NF_FIRST_RECORD, Reg.NF_TRAP_RECORD, Reg.MCORE_FLT_STAT_VALID, Reg.MCORE_FLT_STAT_KIND, Reg.MCORE_FLT_STAT_OUTCOME] ++
  [Reg.MCORE_CKPT_STAT_CUR, Reg.MCORE_CKPT_STAT_VALID0, Reg.MCORE_CKPT_STAT_VALID1, Reg.MCORE_CKPT_STAT_CAPTURING, Reg.MCORE_CKPT_CE_COUNT, Reg.MCORE_FLT_REC_RECORD]

def tcacheFields : List RegField :=
  [Reg.TCACHE_CFG_BUDGET, Reg.TCACHE_CFG_PACE, Reg.TCACHE_CFG_PF_EN, Reg.TCACHE_CFG_BYPASS_REQ, Reg.TCACHE_CFG_WAY_THR, Reg.TCACHE_STAT_WAY_DIS, Reg.TCACHE_STAT_BYPASS, Reg.TCACHE_STAT_MB_OCC, Reg.TCACHE_STAT_SB_OCC, Reg.TCACHE_LFSR_STATE, Reg.TCACHE_INV_INV_ALL, Reg.TCACHE_WAY_REEN_WAYS, Reg.TCACHE_HITS_LO_COUNT, Reg.TCACHE_HITS_HI_COUNT, Reg.TCACHE_MISSES_LO_COUNT, Reg.TCACHE_MISSES_HI_COUNT, Reg.TCACHE_LATE_COUNT, Reg.TCACHE_PF_DROP_COUNT, Reg.TCACHE_WAY_ERR_COUNT]

def schedFields : List RegField :=
  [Reg.SCHED_CTRL_LOAD, Reg.SCHED_CTRL_ARM, Reg.SCHED_STAT_STATE, Reg.SCHED_STAT_LEAD, Reg.SCHED_STAT_DEVIATED, Reg.SCHED_STAT_DEBUG_TOUCHED, Reg.SCHED_IMG_ADDR_LO_ADDR, Reg.SCHED_IMG_ADDR_HI_ADDR, Reg.SCHED_JOB_JOB, Reg.SCHED_PART_DEVICE, Reg.SCHED_PART_XM1, Reg.SCHED_PART_YM1, Reg.SCHED_PART_ZM1, Reg.SCHED_STEP_LO_STEP, Reg.SCHED_STEP_HI_STEP, Reg.SCHED_JSTEP_LO_JSTEP, Reg.SCHED_JSTEP_HI_JSTEP, Reg.SCHED_BEAT_BEAT, Reg.SCHED_LEN_LEN, Reg.SCHED_CWIN_CWIN, Reg.SCHED_STRETCH_S_D, Reg.SCHED_SLIP_M, Reg.SCHED_RATIO_CUR, Reg.SCHED_RATIO_NEXT] ++
  [Reg.SCHED_RATIO_NEXT_VALID, Reg.SCHED_RATIO_REQ, Reg.SCHED_DEV_THROTTLE_COUNT, Reg.SCHED_DEV_MAINT_COUNT, Reg.SCHED_DEV_LATE_COUNT, Reg.SCHED_DEV_REPLAY_COUNT, Reg.SCHED_DEV_SLIP_COUNT, Reg.SCHED_PROT_CUR_RANGES, Reg.SCHED_PROT_NEXT_RANGES]

def tstileFields : List RegField :=
  [Reg.TS_SEL_INDEX, Reg.TS_SEL_POOL, Reg.TS_SEL_SLOT, Reg.TS_VALUE_VALUE, Reg.TS_FLAG_STICKY, Reg.TS_FLAG_WAITING, Reg.TS_TAG_SBEAT, Reg.TS_STICKY_NEXT_INDEX, Reg.TS_STICKY_NEXT_POOL, Reg.TS_STICKY_NEXT_SLOT, Reg.TS_STICKY_NEXT_NONE, Reg.TS_EVT_COUNT_COUNT, Reg.TS_CTX_ADDR_LO_ADDR, Reg.TS_CTX_ADDR_HI_ADDR, Reg.TS_CMD_CMD, Reg.TS_CMD_GO, Reg.TS_CMD_STATUS_CODE, Reg.TS_CMD_STATUS_VALID, Reg.TS_CTXID_CTXID]

def tsramFields : List RegField :=
  [Reg.TSRAM_CFG_SCRUB_EN, Reg.TSRAM_STAT_POOL_BANKS, Reg.TSRAM_STAT_POISON, Reg.TSRAM_POOL_MASK_LO_MASK, Reg.TSRAM_POOL_MASK_HI_MASK, Reg.TSRAM_SLAB_SEL_SLAB, Reg.TSRAM_SLAB_STATE_STATE, Reg.TSRAM_CMD_CMD, Reg.TSRAM_CMD_GO, Reg.TSRAM_CMD_STATUS_CODE, Reg.TSRAM_CMD_STATUS_VALID, Reg.TSRAM_CE_THR_THR, Reg.TSRAM_UE_COUNT_COUNT, Reg.TSRAM_UE_ADDR_LO_ADDR, Reg.TSRAM_UE_ADDR_HI_ADDR, Reg.TSRAM_UE_ADDR_HI_VALID, Reg.TSRAM_HOLD_COUNT_COUNT, Reg.TSRAM_RO_REFUSED_COUNT, Reg.TSRAM_SCRUB_PASSES_COUNT, Reg.TSRAM_REPAIR_SPARED0, Reg.TSRAM_REPAIR_SPARED1, Reg.TSRAM_BANK_MAP_MAP, Reg.TSRAM_CE_COUNT]

def placeFields : List RegField :=
  [Reg.PLACE_CFG_MIG_EN, Reg.PLACE_CFG_HINT_EN, Reg.PLACE_CFG_ENGINES, Reg.PLACE_THR_HOT_THR, Reg.PLACE_THR_COLD_THR, Reg.PLACE_TMO_TMO_US, Reg.PLACE_STAT_ENG_BUSY, Reg.PLACE_STAT_HINTQ_OCC, Reg.PLACE_STAT_PROMQ_OCC, Reg.PLACE_STAT_TABLE_READY, Reg.PLACE_STAT_ENT_VALID, Reg.PLACE_FRAMES_COUNT, Reg.PLACE_CURSOR_SLOT, Reg.PLACE_ENT_SEL_FRAME, Reg.PLACE_ENT_ENTRY, Reg.PLACE_CMD_BASE_LO_ADDR, Reg.PLACE_CMD_BASE_HI_ADDR, Reg.PLACE_CMD_FRAMES_FRAMES, Reg.PLACE_CMD_ARG_VALUE, Reg.PLACE_CMD_ARG_LD, Reg.PLACE_CMD_CMD, Reg.PLACE_CMD_GO, Reg.PLACE_CMD_STATUS_CODE, Reg.PLACE_CMD_STATUS_VALID] ++
  [Reg.PLACE_PROMOTIONS_COUNT, Reg.PLACE_HINT_RCVD_COUNT, Reg.PLACE_HINT_DROP_COUNT, Reg.PLACE_PROMO_DROP_COUNT, Reg.PLACE_NOVICTIM_COUNT, Reg.PLACE_WR_HELD_COUNT, Reg.PLACE_WR_HELD_TMO_COUNT, Reg.PLACE_ZERO_READS_COUNT, Reg.PLACE_CTX_VIOL_COUNT, Reg.PLACE_FROZEN_REF_COUNT, Reg.PLACE_INPUT_REF_COUNT, Reg.PLACE_TIER_ERR_COUNT, Reg.PLACE_TIER_TMO_COUNT, Reg.PLACE_MIG_POISON_COUNT]

def carouselFields : List RegField :=
  [Reg.CAR_CTRL_HINT_EN, Reg.CAR_STAT_STATE, Reg.CAR_STAT_INFLIGHT, Reg.CAR_CTXID_CTXID, Reg.CAR_SECT_ADDR_LO_ADDR, Reg.CAR_SECT_ADDR_HI_ADDR, Reg.CAR_POS_RECORD, Reg.CAR_POS_VALID, Reg.CAR_FRONT_RECORD, Reg.CAR_HINT_FRONT_RECORD, Reg.CAR_STAGED_COUNT, Reg.CAR_LATE_COUNT, Reg.CAR_CANCELLED_COUNT, Reg.CAR_HINTS_COUNT, Reg.CAR_HINT_DROP_COUNT, Reg.CAR_ERRORS_COUNT, Reg.CAR_REFILLS_COUNT]

def moverFields : List RegField :=
  [Reg.MV_STAT_MVR_SLOTS, Reg.MV_STAT_RING_SLOTS, Reg.MV_STAT_PIECES, Reg.MV_DONE_COUNT, Reg.MV_LATE_COUNT, Reg.MV_ERRORS_COUNT, Reg.MV_BYTES_LO_COUNT, Reg.MV_BYTES_HI_COUNT]

def nstackFields : List RegField :=
  [Reg.NS_CFG_SCRUB_EN, Reg.NS_CFG_WCB_EN, Reg.NS_CFG_WCB_AGE, Reg.NS_STAT_TRAINED, Reg.NS_STAT_REF_2X, Reg.NS_STAT_THROTTLE, Reg.NS_STAT_CRIT, Reg.NS_STAT_DEBT, Reg.NS_STAT_WCB_OCC, Reg.NS_TEMP_TSTACK, Reg.NS_TEMP_HOTTEST, Reg.NS_THERM_HOT_LIMIT, Reg.NS_THERM_CRIT_LIMIT, Reg.NS_CE_THR_THR, Reg.NS_CE_TOTAL_COUNT, Reg.NS_UE_COUNT_COUNT, Reg.NS_UE_ADDR_LO_ADDR, Reg.NS_UE_ADDR_HI_ADDR, Reg.NS_UE_ADDR_HI_VALID, Reg.NS_POISON_WR_COUNT, Reg.NS_STEAL_REF_COUNT, Reg.NS_STEAL_ZQ_COUNT, Reg.NS_STEAL_SCRUB_COUNT, Reg.NS_SCRUB_PASSES_COUNT] ++
  [Reg.NS_SCRUB_POS_LINE, Reg.NS_SCRUB_AGE_SECONDS, Reg.NS_LANE_CE_THR_THR, Reg.NS_LANE_FLAGGED_COUNT, Reg.NS_CH_CE_COUNT, Reg.NS_CH_SPARE_GROUPS_0_4, Reg.NS_CH_SPARE_GROUPS_5_CA]

def fchanFields : List RegField :=
  [Reg.FCHAN_CFG_SCRUB_EN, Reg.FCHAN_CFG_WCB_EN, Reg.FCHAN_CFG_REF_SB, Reg.FCHAN_CFG_PD_EN, Reg.FCHAN_CFG_WCB_AGE, Reg.FCHAN_STAT_STATE, Reg.FCHAN_STAT_REF_2X, Reg.FCHAN_STAT_THROTTLE, Reg.FCHAN_STAT_CRIT, Reg.FCHAN_STAT_SCRUB_PRIO, Reg.FCHAN_STAT_WCB_OCC, Reg.FCHAN_DIMM_PRESENT, Reg.FCHAN_DIMM_IN_SERVICE, Reg.FCHAN_DIMM_CAP, Reg.FCHAN_DIMM_RANKS, Reg.FCHAN_DIMM_WIDTH, Reg.FCHAN_DIMM_DENSITY, Reg.FCHAN_DIMM_FAIL, Reg.FCHAN_SPEED_RATE, Reg.FCHAN_SPEED_DOWNBIN, Reg.FCHAN_SPEED_CAP_GIB, Reg.FCHAN_TEMP_TDIMM, Reg.FCHAN_TEMP_SENSOR_VALID, Reg.FCHAN_THERM_HOT_LIMIT] ++
  [Reg.FCHAN_THERM_CRIT_LIMIT, Reg.FCHAN_CE_THR_THR, Reg.FCHAN_CE_TOTAL_COUNT, Reg.FCHAN_UE_COUNT_COUNT, Reg.FCHAN_UE_ADDR_LO_ADDR, Reg.FCHAN_UE_ADDR_HI_ADDR, Reg.FCHAN_UE_ADDR_HI_VALID, Reg.FCHAN_POISON_WR_COUNT, Reg.FCHAN_CRC_RETRY_COUNT, Reg.FCHAN_CAPAR_RETRY_COUNT, Reg.FCHAN_RETRAINS_COUNT, Reg.FCHAN_SCRUB_PASSES_COUNT, Reg.FCHAN_SCRUB_POS_LINE, Reg.FCHAN_SCRUB_AGE_SECONDS, Reg.FCHAN_SCRUB_PRIO_COUNT, Reg.FCHAN_DEV_CE_THR_THR, Reg.FCHAN_ERASE_DEVICES, Reg.FCHAN_CE_RANK_COUNT]

def xlateFields : List RegField :=
  [Reg.XLATE_CFG_CTX_EN, Reg.XLATE_CFG_RID_EN, Reg.XLATE_CTX_BASE_LO_ADDR, Reg.XLATE_CTX_BASE_HI_ADDR, Reg.XLATE_RID_BASE_LO, Reg.XLATE_RID_BASE_HI, Reg.XLATE_CMD_CMD, Reg.XLATE_CMD_GO, Reg.XLATE_CMD_PORT, Reg.XLATE_CMD_CTXID, Reg.XLATE_CMD_STATUS_CODE, Reg.XLATE_CMD_STATUS_VALID, Reg.XLATE_EPOCH_SEL_CTXID, Reg.XLATE_EPOCH_LO_EPOCH, Reg.XLATE_EPOCH_HI_EPOCH, Reg.XLATE_WALKS_LO_COUNT, Reg.XLATE_WALKS_HI_COUNT, Reg.XLATE_FAULTS_COUNT, Reg.XLATE_RETRANS_COUNT, Reg.XLATE_FLT_INFO_CTXID, Reg.XLATE_FLT_INFO_CAUSE, Reg.XLATE_FLT_INFO_STAGE, Reg.XLATE_FLT_INFO_LEVEL, Reg.XLATE_FLT_INFO_CLASS] ++
  [Reg.XLATE_FLT_INFO_WRITE, Reg.XLATE_FLT_INFO_VALID, Reg.XLATE_FLT_VA_LO_VA, Reg.XLATE_FLT_VA_HI_VA, Reg.XLATE_FLT_REQ_TAG]

def cmdqFields : List RegField :=
  [Reg.CMDQ_CTRL_FLUSH, Reg.CMDQ_STAT_STATE, Reg.CMDQ_STAT_SQ_PHASE, Reg.CMDQ_STAT_CQ_PHASE, Reg.CMDQ_SQ_BASE_LO_ADDR, Reg.CMDQ_SQ_BASE_HI_ADDR, Reg.CMDQ_CQ_BASE_LO_ADDR, Reg.CMDQ_CQ_BASE_HI_ADDR, Reg.CMDQ_SIZE_SQ_SIZE, Reg.CMDQ_SIZE_CQ_SIZE, Reg.CMDQ_CTXID_CTXID, Reg.CMDQ_SEQ_BASE_SEQ, Reg.CMDQ_NEXT_SEQ_SEQ, Reg.CMDQ_MIRROR_ADDR_LO_ADDR, Reg.CMDQ_MIRROR_ADDR_HI_ADDR, Reg.CMDQ_SQ_HEAD_SLOT, Reg.CMDQ_CQ_TAIL_SLOT, Reg.CMDQ_CQ_HEAD_COUNT, Reg.CMDQ_DOORBELL_ANY, Reg.CMDQ_OUTSTANDING_COUNT, Reg.CMDQ_IRQ_COAL_COUNT, Reg.CMDQ_IRQ_COAL_TIME_US, Reg.CMDQ_STALL_SEQ_SEQ, Reg.CMDQ_PROGRESS_DROP_COUNT] ++
  [Reg.CMDQ_ACCEPTED_LO_COUNT, Reg.CMDQ_ACCEPTED_HI_COUNT]

def cpuclFields : List RegField :=
  [Reg.CPUCL_HART_CTRL_RUN0, Reg.CPUCL_HART_CTRL_RUN1, Reg.CPUCL_HART_STAT_STATE0, Reg.CPUCL_HART_STAT_STATE1, Reg.CPUCL_HART_STAT_CAUSE0, Reg.CPUCL_HART_STAT_CAUSE1, Reg.CPUCL_BOOT_ADDR_LO_ADDR, Reg.CPUCL_BOOT_ADDR_HI_ADDR, Reg.CPUCL_CMD_CMD, Reg.CPUCL_CMD_CORE, Reg.CPUCL_CMD_GO, Reg.CPUCL_WDOG_MS, Reg.CPUCL_MTIMECMP0_LO_CMP, Reg.CPUCL_MTIMECMP0_HI_CMP, Reg.CPUCL_MTIMECMP1_LO_CMP, Reg.CPUCL_MTIMECMP1_HI_CMP, Reg.CPUCL_MSI_SEND_HART, Reg.CPUCL_MSI_SEND_FILE, Reg.CPUCL_MSI_SEND_IDENTITY, Reg.CPUCL_MSI_DROP_COUNT, Reg.CPUCL_APLIC_SEL_DOMAIN, Reg.CPUCL_APLIC_SEL_OFFSET, Reg.CPUCL_APLIC_DATA_DATA, Reg.CPUCL_INT_MCORE_REQ] ++
  [Reg.CPUCL_INT_TCACHE_REQ, Reg.CPUCL_INT_MOVER_REQ, Reg.CPUCL_L1_CE_COUNT, Reg.CPUCL_L2_CE0_COUNT, Reg.CPUCL_L2_CE1_COUNT, Reg.CPUCL_L3_CE_COUNT, Reg.CPUCL_CE_THR_THR, Reg.CPUCL_MEM_ERR_COUNT]

def homeFields : List RegField :=
  [Reg.HOME_CFG_SNP_TMO_US, Reg.HOME_STAT_DIR_READY, Reg.HOME_STAT_SWEEP_HOLD, Reg.HOME_STAT_HELD, Reg.HOME_DIR_OCC_ENTRIES, Reg.HOME_LOOKUP_LO_ADDR, Reg.HOME_LOOKUP_HI_ADDR, Reg.HOME_LOOKUP_RES_HOME_LD, Reg.HOME_LOOKUP_RES_AGENT_LD, Reg.HOME_LOOKUP_RES_VALID, Reg.HOME_CROSSINGS_COUNT, Reg.HOME_BACKINV_COUNT, Reg.HOME_GRANT_REF_COUNT, Reg.HOME_SWEEP_HELD_COUNT, Reg.HOME_SNP_TMO_COUNT, Reg.HOME_DIR_CE_COUNT, Reg.HOME_DIR_UE_COUNT, Reg.HOME_POISONED_COUNT, Reg.HOME_CE_THR_THR]

def jportFields : List RegField :=
  [Reg.JP_CTRL_TRAIN, Reg.JP_CTRL_LP_REQ, Reg.JP_CTRL_FORCE_DOWN, Reg.JP_CTRL_SPARE_EN, Reg.JP_STAT_STATE, Reg.JP_STAT_DOWN_CAUSE, Reg.JP_STAT_SPARE_TX, Reg.JP_STAT_SPARE_RX, Reg.JP_STAT_TRIES, Reg.JP_STAT_FROM_STORE, Reg.JP_STAT_DEGRADED, Reg.JP_PARTNER_DEVICE, Reg.JP_PARTNER_PORT, Reg.JP_PARTNER_VALID, Reg.JP_LAT_TOKEN_NS, Reg.JP_PART_CFG_XM1, Reg.JP_PART_CFG_YM1, Reg.JP_PART_CFG_ZM1, Reg.JP_PART_CFG_J6_EN, Reg.JP_PART_CFG_J7_EN, Reg.JP_PART_COORD_X, Reg.JP_PART_COORD_Y, Reg.JP_PART_COORD_Z, Reg.JP_PART_ID_ID] ++
  [Reg.JP_FORM_GO, Reg.JP_FORM_DISSOLVE, Reg.JP_FORM_STATE, Reg.JP_FORM_CAUSE, Reg.JP_HOLD_HELD, Reg.JP_HOLD_CAUSE, Reg.JP_HOLD_ORIGIN, Reg.JP_FEC_CW_CE_COUNT, Reg.JP_FEC_SYM_COUNT, Reg.JP_FEC_UE_COUNT, Reg.JP_TX_FLITS_LO_COUNT, Reg.JP_TX_FLITS_HI_COUNT, Reg.JP_RX_FLITS_LO_COUNT, Reg.JP_RX_FLITS_HI_COUNT, Reg.JP_GUARD_HOLDS_COUNT, Reg.JP_RECOVERIES_COUNT, Reg.JP_LANE_CE_THR_THR, Reg.JP_LANE_CE_COUNT]

def evlogFields : List RegField :=
  [Reg.EV_FLT_CFG_REPLAY_MAX, Reg.EV_FLT_CFG_SUBST_EN, Reg.EV_STAT_OCC, Reg.EV_STAT_FLT_STATE, Reg.EV_WRITTEN_LO_COUNT, Reg.EV_WRITTEN_HI_COUNT, Reg.EV_CONSUMED_LO_COUNT, Reg.EV_CONSUMED_HI_COUNT, Reg.EV_DROP_COUNT, Reg.EV_SRC_DROP_COUNT, Reg.EV_RD_SEQ_LO_SEQ, Reg.EV_RD_SEQ_HI_SEQ, Reg.EV_RD_STAT_VALID, Reg.EV_RD_STAT_GONE, Reg.EV_RD_STAT_NOT_YET, Reg.EV_OCC_THR_THR, Reg.EV_FLT_SUBST_COUNT, Reg.EV_ENTRY_ENTRY]

def rmstrFields : List RegField :=
  [Reg.RM_CTRL_MODE, Reg.RM_CTRL_FILL_EN, Reg.RM_CTRL_ATTR_EN, Reg.RM_CTRL_FORCE_EN, Reg.RM_CTRL_FORCE, Reg.RM_CTRL_STOP_REQ, Reg.RM_STAT_STOP_CAUSE, Reg.RM_STAT_REQ, Reg.RM_STAT_REASON, Reg.RM_STAT_PLAN_OVER, Reg.RM_STAT_DIVERGE, Reg.RM_STAT_SAFE_ANY, Reg.RM_PEAK_CAP_WATTS, Reg.RM_SUST_CAP_WATTS, Reg.RM_PKG_POWER_P1MS, Reg.RM_PKG_POWER_P1S, Reg.RM_ENERGY_PKG_LO_UJ, Reg.RM_ENERGY_PKG_HI_UJ, Reg.RM_RATIO_CFG_GATE_UP, Reg.RM_RATIO_CFG_LOWER_PCT, Reg.RM_RATIO_CFG_HOLD_MS, Reg.RM_FILL_CFG_STEP_BEATS, Reg.RM_FILL_CFG_HOLD_FILL_US, Reg.RM_FILL_LEVELS_LO_LEVEL0_3] ++
  [Reg.RM_FILL_LEVELS_HI_LEVEL4_7, Reg.RM_THERM_DIE_HOT, Reg.RM_THERM_DIE_CRIT, Reg.RM_THERM_DIE_TRIP, Reg.RM_THERM_STACK_TRIP, Reg.RM_TEMP_DIE_MAX, Reg.RM_TEMP_DIE_MAX_PD, Reg.RM_TEMP_STACK_MAX, Reg.RM_TEMP_STACK_MAX_PD, Reg.RM_CMD_CMD, Reg.RM_CMD_GO, Reg.RM_CMD_STATUS_CODE, Reg.RM_CMD_STATUS_VALID, Reg.RM_ATTR_SEL_SLOT, Reg.RM_ATTR_CTXID_CTXID, Reg.RM_ATTR_CTXID_VALID, Reg.RM_ATTR_ENERGY_LO_UJ, Reg.RM_ATTR_ENERGY_HI_UJ, Reg.RM_ATTR_MODEL_LO_UJ, Reg.RM_ATTR_MODEL_HI_UJ, Reg.RM_ATTR_BUDGET_LO_UJ, Reg.RM_ATTR_BUDGET_HI_UJ, Reg.RM_COEF_SEL_CLASS, Reg.RM_COEF_FJ] ++
  [Reg.RM_STATIC_FULL_MW, Reg.RM_STATIC_IO_MW, Reg.RM_ZR6_ILIM_DA, Reg.RM_ZR6_ILIM8_DA, Reg.RM_ZR6_ILIM9_DA, Reg.RM_FRAC_STAGED, Reg.RM_FRAC_ACTIVE]

def pagentFields : List RegField :=
  [Reg.PA_GATE_CFG_STACK_DUTY, Reg.PA_STAT_DUTY, Reg.PA_STAT_REASON, Reg.PA_STAT_SAFE, Reg.PA_STAT_SENSOR_VALID, Reg.PA_STAT_HB_OK, Reg.PA_BUDGET_PEAK_DW, Reg.PA_BUDGET_ILIM_DA, Reg.PA_POWER_P1MS_DW, Reg.PA_POWER_P10US_DW, Reg.PA_TEMP_TDIE, Reg.PA_TEMP_SENSOR, Reg.PA_TEMP_TSTACK, Reg.PA_CAL_FACTOR, Reg.PA_GATED_LO_BEATS, Reg.PA_GATED_HI_BEATS, Reg.PA_GATE_RUNS_COUNT, Reg.PA_ENERGY_LO_UJ, Reg.PA_ENERGY_HI_UJ, Reg.PA_ACT_SEL_CLASS, Reg.PA_ACT_SEL_SLOT, Reg.PA_ACT_LO_COUNT, Reg.PA_ACT_HI_COUNT]

def pcierpFields : List RegField :=
  [Reg.PRP_CTRL_PERST_ASSERT, Reg.PRP_CTRL_LINK_DISABLE, Reg.PRP_CTRL_RETRAIN, Reg.PRP_STAT_STATE, Reg.PRP_STAT_SPEED, Reg.PRP_STAT_WIDTH, Reg.PRP_STAT_FLIT, Reg.PRP_OB_BASE_LO_ADDR, Reg.PRP_OB_BASE_HI_ADDR, Reg.PRP_MSI_ADDR_LO_ADDR, Reg.PRP_MSI_ADDR_HI_ADDR, Reg.PRP_MSI_TAB_LO_ADDR, Reg.PRP_MSI_TAB_HI_ADDR, Reg.PRP_MSI_SIZE_ENTRIES, Reg.PRP_CPL_TMO_US, Reg.PRP_CMD_CMD, Reg.PRP_CMD_GO, Reg.PRP_CMD_STATUS_CODE, Reg.PRP_CMD_STATUS_VALID, Reg.PRP_IN_REFUSED_COUNT, Reg.PRP_IN_READ_ERR_COUNT, Reg.PRP_MSI_DROP_COUNT, Reg.PRP_OB_TMO_COUNT, Reg.PRP_OB_ERR_COUNT] ++
  [Reg.PRP_LINK_DOWN_COUNT, Reg.PRP_CORR_COUNT, Reg.PRP_INTX_DROP_COUNT]

def timebaseFields : List RegField :=
  [Reg.TB_TIME_LO_TIME, Reg.TB_TIME_HI_TIME, Reg.TB_STAT_REF_OK, Reg.TB_STAT_RPLL_LOCK, Reg.TB_STAT_ON_SOSC, Reg.TB_STAT_SYNCED, Reg.TB_STAT_CLK_LOST, Reg.TB_SYNC_CTRL_MODE, Reg.TB_SYNC_CTRL_ARM, Reg.TB_SYNC_CTRL_FIRE, Reg.TB_SYNC_VAL_LO_VAL, Reg.TB_SYNC_VAL_HI_VAL, Reg.TB_SYNC_COUNT_COUNT, Reg.TB_STAGE_STAGE, Reg.TB_STAGE_READY, Reg.TB_STAGE_FAIL, Reg.TB_STAGE_RETURNS, Reg.TB_STAGE_POWER, Reg.TB_RESET_CAUSE_CAUSE, Reg.TB_PWR_REQ_ON, Reg.TB_PWR_REQ_OFF, Reg.TB_CTRL_SYS_RESET_REQ]

def pstoreFields : List RegField :=
  [Reg.PS_STAT_ACTIVE, Reg.PS_STAT_VALID0, Reg.PS_STAT_VALID1, Reg.PS_STAT_FALLBACK, Reg.PS_STAT_BUSY, Reg.PS_STAT_PENDING, Reg.PS_STAT_ENDURANCE, Reg.PS_SEQ_SEQ, Reg.PS_CMD_CMD, Reg.PS_CMD_GO, Reg.PS_CMD_ARG, Reg.PS_CMD_STATUS_CODE, Reg.PS_CMD_STATUS_VALID, Reg.PS_CMD_STATUS_REASON, Reg.PS_ADDR_LO_ADDR, Reg.PS_ADDR_HI_ADDR, Reg.PS_LEN_BYTES, Reg.PS_REC_TYPE_TYPE, Reg.PS_FH_COUNT_COUNT, Reg.PS_FH_DROP_COUNT, Reg.PS_COMMITS_COUNT, Reg.PS_ERASES0_COUNT, Reg.PS_ERASES1_COUNT]

def dbgFields : List RegField :=
  [Reg.DBG_CTRL_EN, Reg.DBG_CTRL_FREEZE, Reg.DBG_CORE_SEL_SLOT, Reg.DBG_CORE_CMD_HALT, Reg.DBG_CORE_CMD_RESUME, Reg.DBG_CORE_CMD_STEP, Reg.DBG_CORE_STAT_DHALTED, Reg.DBG_CORE_STAT_FROZEN, Reg.DBG_CORE_STAT_PC, Reg.DBG_TS_SEL_INDEX, Reg.DBG_TS_SEL_POOL, Reg.DBG_TS_SEL_SLOT, Reg.DBG_TS_VALUE_VALUE, Reg.DBG_TS_FLAG_STICKY, Reg.DBG_TS_FLAG_WAITING, Reg.DBG_MEM_ADDR_LO_ADDR, Reg.DBG_MEM_ADDR_HI_ADDR, Reg.DBG_MEM_ADDR_HI_SPACE, Reg.DBG_MEM_DATA_DATA, Reg.DBG_MEM_CMD_OP, Reg.DBG_MEM_CMD_GO, Reg.DBG_MEM_STATUS_CODE, Reg.DBG_MEM_STATUS_VALID, Reg.DBG_TRC_CTRL_MODE] ++
  [Reg.DBG_TRC_CTRL_SRC_DISP, Reg.DBG_TRC_CTRL_SRC_TS, Reg.DBG_TRC_CTRL_SLOT, Reg.DBG_TRC_START_LO_STEP, Reg.DBG_TRC_START_HI_STEP, Reg.DBG_TRC_STAT_COUNT, Reg.DBG_TRC_STAT_FULL, Reg.DBG_TRC_STAT_ACTIVE, Reg.DBG_TRC_DROP_COUNT, Reg.DBG_TRC_RD_INDEX, Reg.DBG_TRC_ENTRY_ENTRY, Reg.DBG_RB_SEL_UNIT, Reg.DBG_RB_SEL_MOVER, Reg.DBG_RB_SEL_SLOT, Reg.DBG_RB_SEL_VALID, Reg.DBG_RB_BLOCK]

/-- The block-specific fields of a page of each type. -/
def blkFields : Blk → List RegField
  | .dieCfg => dieCfgFields
  | .familyParam => familyParamFields
  | .mcore => mcoreFields
  | .tcache => tcacheFields
  | .tsram => tsramFields
  | .tstile => tstileFields
  | .carousel => carouselFields
  | .place => placeFields
  | .nstack => nstackFields
  | .fchan => fchanFields
  | .xlate => xlateFields
  | .mover => moverFields
  | .cmdq => cmdqFields
  | .home => homeFields
  | .cpucl => cpuclFields
  | .jport => jportFields
  | .sched => schedFields
  | .rmstr => rmstrFields
  | .pagent => pagentFields
  | .pcierp => pcierpFields
  | .timebase => timebaseFields
  | .evlog => evlogFields
  | .pstore => pstoreFields
  | .dbg => dbgFields

/-- The _LO offsets of the 64-bit pairs of each page (R47); _HI lies 4 above. -/
def pairLos : Blk → List Nat
  | .dieCfg => []
  | .familyParam => [0x120, 0x138]
  | .mcore => [0x110, 0x11C]
  | .tcache => [0x114, 0x11C]
  | .tsram => [0x108, 0x128]
  | .tstile => [0x118]
  | .carousel => [0x10C]
  | .place => [0x160]
  | .nstack => [0x11C]
  | .fchan => [0x128]
  | .xlate => [0x104, 0x110, 0x118, 0x120, 0x128, 0x13C, 0x144, 0x164]
  | .mover => [0x110]
  | .cmdq => [0x108, 0x110, 0x128, 0x150]
  | .home => [0x10C]
  | .cpucl => [0x108, 0x118, 0x120]
  | .jport => [0x130, 0x138]
  | .sched => [0x108, 0x118, 0x120]
  | .rmstr => [0x114, 0x124, 0x148, 0x150, 0x158]
  | .pagent => [0x118, 0x124, 0x134]
  | .pcierp => [0x108, 0x110, 0x118]
  | .timebase => [0x100, 0x110]
  | .evlog => [0x108, 0x110, 0x120]
  | .pstore => [0x110]
  | .dbg => [0x120, 0x144]

end Sys2Proof.Machine
end

