-- ==== Sys2Proof/Machine/StBase.lean ====
section
/-!
DEFINITION. The state common to every block: register pages, clocks, events and answers
(spec/00_scope.md R13, spec/02_register_pages.md R46 to R64, spec/20_fault_containment.md R546, R547,
spec/24_clocks_bringup.md R626, R631).
-/
namespace Sys2Proof.Machine

/-- Lock state of a page (R64). -/
inductive Lock where
  | locked
  | armed (by_ : Requester)
  | unlocked (by_ : Requester)
deriving DecidableEq, Repr

/-- A staged _LO half (R47): the offset of the _LO register, the value and the requester's tag (none once committed). -/
structure Staged where
  off : Nat
  value : Word
  tag : Option Requester
deriving DecidableEq, Repr

/-- A snapshot taken by a read of _LO (R48). -/
structure Snap where
  off : Nat
  who : Requester
  hi : Word
deriving DecidableEq, Repr

/-- What a page holds beside its registers. wedged: writes pending at a BLK_SYNC time-out, whose outcome R51 leaves
undefined until a soft reset completes; disabled: ENABLE was written from 1 to 0 (R56). -/
structure PageSt where
  staged : List Staged := []
  snaps : List Snap := []
  lock : Lock := .locked
  resetting : Bool := false
  wedged : Bool := false
  disabled : Bool := false
deriving DecidableEq, Repr

/-- One entry of the event log (R13). -/
structure Event where
  timestamp : DWord
  step : BitVec 48
  beat : BitVec 18
  stepValid : Bool
  deviation : Bool
  pdie : Nat
  blkType : Nat
  inst : Nat
  code : Half
  data : DWord
deriving DecidableEq, Repr

/-- A source's queue of events waiting to be sent, at most 16, and its lost count (R546). -/
structure SrcQ where
  q : List Event := []
  lost : Word := 0
deriving DecidableEq, Repr

/-- The clocks (R626, R631): the time base in ticks of 10 ns, the RPLL cycles counted into the running tick (48 to a
tick) and the free-running MCLK beats (R242). -/
structure Clock where
  time : DWord := 0
  rpll : Nat := 0
  beats : DWord := 0
deriving DecidableEq, Repr

/-- The answer of the last command that reads (a register read, a management response, a TAP capture): data that
leaves the package. -/
inductive Reply where
  | word (w : Word)
  | bytes (bs : List Byte)
  | accessFault
  | loadFault (xtval : DWord)
  | fetchFault (xtval : DWord)
  | storeFault (xtval : DWord)
  | misaligned (xtval : DWord)
  | translation (xtval : DWord)
  | illegal
  | virtualInstr
deriving DecidableEq, Repr

end Sys2Proof.Machine
end

