-- ==== Sys2Proof/Machine/StBoot.lean ====
section
/-!
DEFINITION. The die map of the running package: roles, numbering and core repair (spec/01_architecture.md R17 to R24,
spec/02_register_pages.md R40, R41, R66), the pins and stages (spec/24_clocks_bringup.md R626 to R648,
spec/25_package_signals.md R668, R674) and the firmware (spec/22_barker_firmware.md R588 to R601).
-/
namespace Sys2Proof.Machine

/-- The role of a die (R18). -/
inductive Role where
  | off | ioOnly | full
deriving DecidableEq, Repr

/-- The die map in force, loaded at stage 2: the role of each die (off where unlisted), the physical core carrying
each local index (key PD × 16 + index; the index itself where unlisted), and the straps sampled at stage 0. -/
structure DieMap where
  roles : List (Nat × Role) := []
  mcMap : List (Nat × Nat) := []
  mgmtBackup : Bool := false
  boardId : BitVec 4 := 0
deriving DecidableEq, Repr

/-- Pins of the management and control set and every PERST_N (R668). Inputs: PWR_OK high, SYS_RESET_N high, COOLANT_FAULT_N
low, REFCLK100 present. Outputs: THERMTRIP_N and ALERT_N asserted, time ticks for which SYNC_OUT stays high, PERST_N by port,
low where true. -/
structure Pins where
  pwrOk : Bool := false
  sysResetN : Bool := true
  coolantN : Bool := false
  refclk : Bool := false
  thermtrip : Bool := false
  alert : Bool := false
  syncOut : Nat := 0
  perst : List (Nat × Bool) := []
deriving DecidableEq, Repr

/-- The staged start (R635 to R648): the pins, VSTBY in regulation, whether the Ringmaster runs, rail steps commanded on and
in regulation (R674), and the package's test mode (R691). -/
structure BootSt where
  pins : Pins := {}
  vstby : Bool := true
  rmRuns : Bool := false
  rails : Nat := 0
  good : Nat := 0
  testMode : Bool := false
deriving DecidableEq, Repr

/-- The firmware as the Ringmaster holds it (R590 to R601): the status fields of the load frame, the request taken, the
verified images with their entries and watchdog limits, and clusters by PD: 0 held in reset, 1 starting, 2 running. -/
structure FwSt where
  state : Nat := 0
  code : Nat := 0
  reason : Nat := 0
  ver : Nat := 0
  ifv : Nat := 0
  build : Nat := 0
  starts : Nat := 0
  failPd : Nat := 0xFF
  failCore : Nat := 0xFF
  ack : Nat := 0
  taken : Option Nat := none
  op : Nat := 0
  drvIf : Nat := 0
  len : Nat := 0
  takenAt : Nat := 0
  barker : List Byte := []
  agent : List Byte := []
  wdog0 : Nat := 10
  wdog1 : Nat := 10
  clusters : List (Nat × Nat) := []
deriving DecidableEq, Repr

end Sys2Proof.Machine
end

