-- ==== Sys2Proof/Machine/StCore.lean ====
section
/-!
DEFINITION. The state of a matrix core, its operand cache and its checkpoint (spec/04_matrix_array.md R96, R100,
R110, R114, spec/05_matrix_core_programming.md R130, R146, R154, spec/06_vector_matrix_path.md R172, R175 to R180,
spec/07_numeric_exceptions.md R187 to R190, spec/20_fault_containment.md R530).
-/
namespace Sys2Proof.Machine

/-- MCORE_STAT.STATE (R154). -/
inductive CoreStatus where
  | idle | armed | running | waitTs | waitStep | halted | stoppedTrap | stoppedFault | stoppedError | cmdBusy | stoppedReq
deriving DecidableEq, Repr

/-- Work in one of the five queues, with the operands read at dispatch (R136, R146). seen: a load of the stream's bank
stands earlier in program order (R143). -/
inductive QOp where
  | wld (bank : Bool) (t : BitVec 128) (k : DWord)
  | str (bank : Bool) (t : BitVec 128) (set wide : Bool) (accBase tileId : Nat) (seen : Bool)
  | drn (t : BitVec 128) (ofmt : Nat) (sat rsEn csEn : Bool) (rs cs : DWord) (dst : Bool) (vd tileId accBase : Nat)
  | vmv (vd vs ntok : Nat) (t : BitVec 128) (src : Bool) (addr : DWord) (wfmt : Nat)
  | vld (v : Nat) (space : Bool) (t : BitVec 128) (addr : DWord) (fmt : Nat)
  | vst (v : Nat) (space : Bool) (t : BitVec 128) (addr : DWord) (fmt : Nat) (sat : Bool)
  | vop (func vd va vb vc : Nat) (bf16 bcast : Bool)
  | mvr (mover : Nat) (addr : DWord) (cpl : Bool) (cts : Nat)
deriving DecidableEq, Repr

/-- A queue entry: the PC and dispatch beat of its instruction, its place in program order, its operation, and for a
drain with scales the beat H at which it became the head of DQ (R272). -/
structure QEnt where
  pc : Nat
  d : Nat
  seq : Nat
  op : QOp
  h : Option Nat := none
deriving DecidableEq, Repr

/-- What holds dispatch (R138 to R141, R147, R178): a SYNCB, a Turnstile wait, an ALT with COUNT, an SFENCE dispatched
at d as instruction seq, a STEP, a HALT. -/
inductive DHold where
  | none
  | sync (beat : Nat)
  | wait
  | alt (count : Nat)
  | sfence (d seq : Nat)
  | step
  | halt
deriving DecidableEq, Repr

/-- A weight bank (R99, R100): its bytes by row × 256 + byte, its attributes, the beat of the load that set its
contents (R105), F_b of R102, and a cell with a parity error if one is held (R98). -/
structure WBank where
  w : List (Nat × Byte) := []
  modeMask : BitVec 16 := 0
  wtag : BitVec 48 := 0
  valid : Bool := false
  loadL : Option Nat := none
  fb : Option Nat := none
deriving DecidableEq, Repr

/-- The beats that the issue rules look back on within the step (R148, R158, R159, R171, R272): the last load's L, the
beat the next stream may start, the beat all entries of earlier streams are readable, the beat a wide stream's last
entry is readable, the drain port, the vector queue, the VMP, the weight reads of a VMV, the mover queue, per entry row
the beat it is readable and the last drain read of it, per vector register its last write and read, the beat the last
Tier S write is performed, the beat all issued work is done, the beat of the last checker decision, the last beat a
write entered the merging buffer, per queue the beat from which its freed place counts, and the beat of the last
calendar hold. -/
structure IssueHist where
  lastL : Option Nat := none
  strNext : Nat := 0
  strReadable : Nat := 0
  wideUntil : Nat := 0
  drnNext : Nat := 0
  dqFree : Nat := 0
  vqNext : Nat := 0
  vmpFree : Nat := 0
  vmvRead : Nat := 0
  mqNext : Nat := 0
  accReady : List (Nat × Nat) := []
  accRead : List (Nat × Nat) := []
  vWr : List (Nat × Nat) := []
  vRd : List (Nat × Nat) := []
  tsDone : Nat := 0
  allDone : Nat := 0
  chkDone : Nat := 0
  mbLast : Nat := 0
  qFree : List (Nat × Nat) := []
  holdBeat : Option Nat := none
deriving DecidableEq, Repr

/-- A numeric-flag record of eight words (R190). -/
abbrev NfRec := List Word

/-- Numeric flags (R187 to R189). -/
structure NumFlags where
  lastNan : Bool := false
  lastInf : Bool := false
  lastValid : Bool := false
  lastNanPos : Option (Nat × Nat) := none
  lastInfPos : Option (Nat × Nat) := none
  lastTile : Nat := 0
  lastAcc : Nat := 0
  stickyNan : Bool := false
  stickyInf : Bool := false
  flagged : Word := 0
  firstRec : Option NfRec := none
  trapRec : Option NfRec := none
deriving DecidableEq, Repr

/-- The part of a core's state that the context image and a checkpoint slot hold (R130, R156, R530). -/
structure CoreCtx where
  pc : BitVec 14 := 0
  a : List (Nat × DWord) := []
  l : List (Nat × Word) := []
  t : List (Nat × BitVec 128) := []
  k : List (Nat × DWord) := []
  lastW : Bool := true
  lastS : Bool := true
  v : List (Nat × Word) := []
  bank0 : WBank := {}
  bank1 : WBank := {}
  acc : List (Nat × Word) := []
  accMask : List (Nat × BitVec 16) := []
deriving DecidableEq, Repr

/-- One step's alternative being run, checked at its join (R239). -/
structure AltRun where
  joinPc : Nat
  due : Nat
deriving DecidableEq, Repr

/-- The first NaN of a drained row (R185, R193): the beat its row was read, its position, and what its records say. -/
structure NanRow where
  d : Nat
  row : Nat
  chan : Nat
  pc : Nat
  tile : Nat
  rec_ : NfRec
deriving DecidableEq, Repr

/-- A core fault on its way to being decided at the end of a beat (R126, R282, R527). -/
structure FaultPend where
  beat : Nat
  kind : Nat
  index : Nat := 0
  index2 : Nat := 0
  bank : Bool := false
  p : DWord := 0
  q : DWord := 0
  pc : Nat := 0
  tile : Nat := 0
deriving DecidableEq, Repr

/-- A stop with SCHED_ERROR to be taken at the first instruction boundary from a beat on (R151). -/
structure StopPend where
  beat : Nat
  pc : Nat
  reason : Nat
deriving DecidableEq, Repr

/-- A VLD or VMV through the operand cache that waits for its lines (R170, R174): its place in program order, PC and
operation, a VMV's source tokens, the beat of its first lines, the period and count of lines per row, its lines in
ascending order, those sampled by place, and the beats lost so far. -/
structure TcAccess where
  seq : Nat
  pc : Nat
  op : QOp
  src : List (List Word)
  due : Nat
  q : Nat
  per : Nat
  lines : List Nat
  got : List (Nat × List Byte)
  late : Nat := 0
deriving DecidableEq, Repr

/-- A matrix core (R130). nextD: the earliest beat of the next dispatch (R147); stall: the stall count (R208); nanRows
and trapOn: NaNs of the step's drains and the writes of TRAP_NAN in it (R193); dhalt: debug-halted, with the status it
held (R695). -/
structure CoreSt where
  status : CoreStatus := .idle
  before : CoreStatus := .idle
  prog : List (Nat × DWord) := []
  progLen : Nat := 0
  x : CoreCtx := {}
  lq : List QEnt := []
  sq : List QEnt := []
  dq : List QEnt := []
  vq : List QEnt := []
  mq : List QEnt := []
  seq : Nat := 0
  nextD : Nat := 0
  hold : DHold := .none
  stall : Nat := 0
  hist : IssueHist := {}
  nanRows : List NanRow := []
  trapOn : List (Nat × Bool) := []
  faultPend : Option FaultPend := none
  stopPend : Option StopPend := none
  altRun : Option AltRun := none
  wldSeen0 : Bool := false
  wldSeen1 : Bool := false
  nf : NumFlags := {}
  cmdRun : Nat := 0
  cmdCode : Nat := 0
  cmdReason : Nat := 0
  cmdAddr : Nat := 0
  cmdLen : Nat := 0
  tcAcc : List TcAccess := []
  mqWait : Option Nat := none
  heldBy : Option Nat := none
  heldRun : Nat := 0
  dhalt : Option CoreStatus := none
  dstep : Bool := false
deriving DecidableEq, Repr

/-- A line of the operand cache (R172): its address's tag and its bytes. -/
structure TcLine where
  tag : Nat
  bytes : List Byte
deriving DecidableEq, Repr

/-- A merging-buffer entry (R177): line address, bytes by offset, beat of its last write. -/
structure MbEnt where
  line : Nat
  bytes : List (Nat × Byte)
  last : Nat
deriving DecidableEq, Repr

/-- A demand fill or prefetch in flight (R175, R176); dropInst: an invalidation crossed it (R179). -/
structure TcFill where
  line : Nat
  demand : Bool
  dropInst : Bool := false
deriving DecidableEq, Repr

/-- An operand cache (R172): lines by set × 16 + way, side buffer oldest first, merging buffer oldest first, fills in
order, the translation cache newest first (virtual frame, with system frame × 4 + R × 2 + W), whether the last way failed
(R180), and a CTXID that waits for the merging buffer (R173). -/
structure TCache where
  lines : List (Nat × Option TcLine) := []
  side : List TcLine := []
  mb : List MbEnt := []
  fills : List TcFill := []
  xlate : List (Nat × Nat) := []
  lastWay : Bool := false
  ctxPending : Option Half := none
deriving DecidableEq, Repr

/-- A checkpoint slot: the captured context and flags, and the beat-0 snapshot of the core-private Turnstiles
(R530, R533), with the core's state as captured. -/
structure Ckpt where
  valid : Bool := false
  st : CoreStatus := .idle
  x : CoreCtx := {}
  nf : NumFlags := {}
deriving DecidableEq, Repr

/-- The checkpoint store of one logical core (R530 to R532): which slot is current, the slots, whether a capture runs and
the beat it began, whether the running step's capture is complete, and whether the core was captured in HALTED. -/
structure CkptPair where
  cur : Bool := false
  s0 : Ckpt := {}
  s1 : Ckpt := {}
  capturing : Bool := false
  capAt : Nat := 0
  captured : Bool := false
  halted : Bool := false
deriving DecidableEq, Repr

end Sys2Proof.Machine
end

