-- ==== Sys2Proof/Machine/StDbg.lean ====
section
/-!
DEFINITION. Trace buffers (spec/26_test_debug.md R700).
-/
namespace Sys2Proof.Machine

/-- A die's trace buffer: entries by place, records taken so far, and how many were taken in the beat last seen. -/
structure TraceSt where
  buf : List (Nat × BitVec 128) := []
  written : Nat := 0
  beat : Nat := 0
  count : Nat := 0
deriving DecidableEq, Repr

end Sys2Proof.Machine
end

