-- ==== Sys2Proof/Machine/StHart.lean ====
section
/-!
DEFINITION. Harts and the interrupt controller (spec/17_cpu_complex.md R443 to R468).
-/
namespace Sys2Proof.Machine

/-- CPUCL_HART_STAT.STATEc (R468). -/
inductive HartState where
  | reset | running | wfi | debugHalt | removing | removed
deriving DecidableEq, Repr

/-- A hart: its state and removal cause, zctxid, the architectural state that reset, boot and debug name (pc, privilege,
integer, floating-point and vector registers and CSRs by
number), pending interrupt identities by file × 256 + identity, its reservation's 64 B line,
and the M-level timer interrupt. -/
structure HartSt where
  state : HartState := .reset
  cause : Nat := 0
  zctxid : Half := 0
  pc : DWord := 0
  priv : Nat := 3
  virt : Bool := false
  x : List (Nat × DWord) := []
  f : List (Nat × DWord) := []
  v : List (Nat × BitVec 512) := []
  csr : List (Nat × DWord) := []
  eip : List (Nat × Bool) := []
  resv : Option Nat := none
  mtip : Bool := false
deriving DecidableEq, Repr

/-- One APLIC domain (R460): interrupt enable, and by source its sourcecfg, target, pending and enable bits. -/
structure AplicDom where
  ie : Bool := false
  cfg : List (Nat × Nat) := []
  target : List (Nat × Nat) := []
  ip : List (Nat × Bool) := []
  en : List (Nat × Bool) := []
  genmsi : Nat := 0
deriving DecidableEq, Repr

/-- The CPU complex: harts, the APLIC's two domains, the window selections by requester, and what each hart's last memory
access brought it. -/
structure CpuSt where
  harts : List (Nat × HartSt) := []
  root : AplicDom := {}
  sup : AplicDom := {}
  sel : List (Nat × Nat) := []
  answers : List (Nat × Reply) := []
deriving DecidableEq, Repr

end Sys2Proof.Machine
end

