-- ==== Sys2Proof/Machine/StJal.lean ====
section
/-!
DEFINITION. The state of the Jallyn ports: transfers of the running step, tokens, formation
(spec/19_jallyn_links.md R490 to R523).
-/
namespace Sys2Proof.Machine

/-- A receive entry with data in the landing buffer (R511, R514): its slot, and its flits with the beat-in-step each
came in. -/
structure Landing where
  slot : Nat
  flits : List (Nat × BitVec 5120) := []
deriving DecidableEq, Repr

/-- A port: the state it left for low power or recovery; transmit entries begun in the step, the beat of the last one's
first read and its flits, the beat the last flit leaves; receive entries landed whole or in part, entries written, those
written and not posted with their done beat, and the last y; whether it discards flits (R514); the lane replaced while it
recovers; whether the partner's IDENT passed the checks of the formation. -/
structure PortSt where
  before : Nat := 0
  tx : Nat := 0
  txAt : Nat := 0
  txFlits : Nat := 0
  txEnd : Nat := 0
  land : List Landing := []
  rxIn : Nat := 0
  rxWr : Nat := 0
  rxDone : List (Nat × Nat) := []
  rxEnd : Nat := 0
  bad : Bool := false
  silentStep : Bool := false
  identOk : Bool := false
deriving DecidableEq, Repr

/-- The ports by number, tokens and DATA flits sent by port, flooded tokens seen in the step by (TTYPE, ORIGIN, STEP),
FORM_GATHER sums of children by port, whether this device's own has gone up the tree, the time of GO, and the parity in
force for the receive buffers (R234) with the beat of its next flip. -/
structure JalSt where
  ports : List (Nat × PortSt) := []
  out : List (Nat × Tok) := []
  flits : List (Nat × Flit) := []
  seen : List (Nat × Nat × Nat) := []
  formKids : List (Nat × Nat) := []
  formSent : Bool := false
  formAt : Option Nat := none
  parity : Bool := false
  flipAt : Option Nat := none
deriving DecidableEq, Repr

end Sys2Proof.Machine
end

