-- ==== Sys2Proof/Machine/StMem.lean ====
section
/-!
DEFINITION. The state of the memory system: the DRAM of Tier N and Tier F with its write-combining buffers and
controllers, the placement table with its engines and queues, coherence and translation
(spec/11_memory_placement.md, spec/13_tier_n_stacked_dram.md, spec/14_tier_f_ddr5.md, spec/15_address_translation.md,
spec/18_coherence.md).
-/
namespace Sys2Proof.Machine

/-- A write-combining buffer entry (R346): its line, byte mask and bytes by offset. -/
structure WcbEnt where
  line : Nat
  mask : Nat
  bytes : List (Nat × Byte)
deriving DecidableEq, Repr

/-- DRAM: bytes by DRAM address, poisoned lines (address ÷ 128), and the write-combining entries of each channel in
allocation order (R346, R347). -/
structure Dram where
  mem : List Host.Cell := []
  poison : List (Nat × Bool) := []
  wcb : List (Nat × List WcbEnt) := []
deriving DecidableEq, Repr

/-- A die's stack controller (R345, R354 to R363): the refresh debt, corrected counts by channel × 320 + lane, flagged
lanes, whether calibration is due and the temperature at the last one, the last beat and the kinds of the latest window,
the beat up to which that window's maintenance runs, and the beat at which the latest steal ends. -/
structure StackSt where
  debt : Int := 0
  laneCe : List (Nat × Nat) := []
  flagged : List (Nat × Bool) := []
  zqTemp : Int := 0
  zqDue : Bool := false
  windowEnd : Nat := 0
  windowKinds : Nat := 0
  windowBusy : Nat := 0
  stealEnd : Nat := 0
deriving DecidableEq, Repr

/-- A DDR5 channel's controller (R373 to R386): corrected counts by rank × 32 + device, replays in a row, failed retrains
in a row, times of recent retrains, postponed refreshes and power-down by rank, and failed sensor readings in a
row. -/
structure ChanSt where
  devCe : List (Nat × Nat) := []
  replays : Nat := 0
  failedRetrains : Nat := 0
  retrainAt : List Nat := []
  postponed : List (Nat × Nat) := []
  powerDown : List (Nat × Bool) := []
  sensorMiss : Nat := 0
deriving DecidableEq, Repr

/-- A placement entry (R290). -/
structure PEntry where
  exchanging : Bool := false
  tier : Bool := false
  unit : Nat := 0
  slot : Nat := 0
  frozen : Bool := false
  pin : Bool := false
  keep : Bool := false
  owner : Nat := 0
  count : Nat := 0
  zmap : Nat := 0xFFFFFFFF
  moved : Nat := 0
  partner : Nat := 0
  flightValid : Bool := false
  flight : Nat := 0
  ntier : Bool := false
  nunit : Nat := 0
  nslot : Nat := 0
  prefLd : Nat := 0x3F
  keepUntil : Nat := 0
deriving DecidableEq, Repr

/-- Where an engine stands (R295, R306): a victim chosen, CAPTURE, COMMIT. -/
inductive EngPhase where
  | scanned | capture | commit
deriving DecidableEq, Repr

/-- An engine's buffer for one frame (R295): whether the side was captured, its bytes and its poisoned lines. -/
structure EngBuf where
  live : Bool := false
  bytes : List (Nat × Byte) := []
  poison : List (Nat × Bool) := []
deriving DecidableEq, Repr

/-- An exchange engine at work (R295): frames A and B, the chunk, whether a hint or command drives it, whether it
scanned twice, and whether a commit retry was recorded. -/
structure Engine where
  a : Nat
  b : Nat
  k : Nat := 0
  phase : EngPhase := .scanned
  hint : Bool
  rescanned : Bool := false
  retried : Bool := false
  bufA : EngBuf := {}
  bufB : EngBuf := {}
deriving DecidableEq, Repr

/-- A request that an agent forwarded to a tier (R302): the DRAM address of its line, and its answer once performed. -/
structure Fwd where
  req : AReq
  loc : Nat
  answer : Option (Nat × List Byte) := none
deriving DecidableEq, Repr

/-- A zero fill in progress (R294), with the writes that wait for it. -/
structure ZFill where
  frame : Nat
  chunk : Nat
  waiting : List AReq
deriving DecidableEq, Repr

/-- A PLACE command in progress (R309): the page it was given to, the command and its operands. -/
structure PlaceCmd where
  page : Nat
  kind : Nat
  value : Nat
  ld : Nat
  base : Nat
  frames : Nat
deriving DecidableEq, Repr

/-- Placement (R287 to R313): the initial placement's numbers, table entries by frame, reverse maps by die × 8192 + slot
and channel × 2^17 + slot, engines by die × 4 + engine, hint and promotion queues by die, forwarded requests, held writes,
requests waiting behind one, zero fills, commands, and the ends of requests. -/
structure PlaceSt where
  ready : Bool := false
  ldies : Nat := 0
  caps : List Nat := []
  entries : List (Nat × PEntry) := []
  revN : List (Nat × Nat) := []
  revF : List (Nat × Nat) := []
  engines : List (Nat × Option Engine) := []
  hintQ : List (Nat × List Nat) := []
  promoQ : List (Nat × List Nat) := []
  fwd : List Fwd := []
  held : List AReq := []
  waitQ : List AReq := []
  fills : List ZFill := []
  cmds : List PlaceCmd := []
deriving DecidableEq, Repr

/-- The end of a request: its tag, completion code and data (R10). -/
structure Answer where
  tag : Nat
  code : Nat
  data : List Byte
deriving DecidableEq, Repr

/-- A participant of coherence (R469): a core with its L2 and combining buffer, a root port, an
operand cache by its core's key. -/
inductive Part where
  | l2 (hart : Nat)
  | rport (p : Nat)
  | tc (key : Nat)
deriving DecidableEq, Repr

inductive Moesi where
  | i | s | e | o | m
deriving DecidableEq, Repr

/-- A line held by an L2 or a root port (R470): its state, its data, the CTXID of its grant. -/
structure CLine where
  st : Moesi
  data : List Byte
  ctx : Nat
deriving DecidableEq, Repr

/-- A line in an L3 slice (R472). -/
structure L3Line where
  data : List Byte
  dirty : Bool
  ctx : Nat
  poison : Bool := false
deriving DecidableEq, Repr

/-- A combining-buffer entry (R456): 64 B line, mask, bytes, CTXID. -/
structure CbEnt where
  hart : Nat
  line : Nat
  mask : Nat
  bytes : List (Nat × Byte)
  ctx : Nat
deriving DecidableEq, Repr

/-- DSTATE (R473). -/
inductive DState where
  | uncached | shared | owned
deriving DecidableEq, Repr

/-- A directory entry (R473). -/
structure DirEnt where
  line : Nat
  st : DState := .uncached
  owner : Nat := 0
  sharers : Nat := 0
  tcdies : Nat := 0
deriving DecidableEq, Repr

/-- A directory set (R473): entries by way and the tree pseudo-LRU bits. -/
structure DirSet where
  ways : List (Nat × Option DirEnt) := []
  plru : Nat := 0
deriving DecidableEq, Repr

/-- Requests to a home (R474). -/
inductive HReq where
  | readS | readX | upgrade | claim | fillS | read | write
deriving DecidableEq, Repr

/-- Snoop kinds (R475). -/
inductive Snoop where
  | share | inval | cur
deriving DecidableEq, Repr

/-- A holder's answer to a snoop (R475). -/
inductive SnpAns where
  | data (d : List Byte) (ctx : Nat)
  | clean
  | notPresent
  | wbInFlight
  | evictingClean
deriving DecidableEq, Repr

/-- A transaction at a home (R476): the line, the request, who sent it (none for an uncached requester), its tag, CTXID,
mask and data, the snoop kind, holders to answer, answers on their way, dirty data returned, what the owner holds after its
answer (0 nothing, 1 a shared copy, 2 ownership), and whether a grant waits for COMP_ACK. -/
structure Txn where
  line : Nat
  req : HReq
  who : Option Part
  tag : Nat
  sid : Nat := 0xFFFF
  ctx : Nat
  mask : Nat := 0
  data : List Byte := []
  snp : Snoop := .cur
  pend : List Part := []
  answers : List (Part × SnpAns) := []
  got : Option (List Byte × Nat) := none
  own : Nat := 0
  granted : Bool := false
deriving DecidableEq, Repr

/-- A line in a write-back buffer on its way to its home (R481). -/
structure WbEnt where
  who : Part
  line : Nat
  dirty : Bool
  data : List Byte
  ctx : Nat
  accepted : Bool := false
deriving DecidableEq, Repr

/-- Coherence: L2 lines by hart × 2^46 + line, root-port lines by port × 2^46 + line, combining entries, write-back
buffers, L3 lines, directory sets by home × 65536 + set, open and waiting transactions, requests held by a sweep, and the
next input set while its sweep holds (R478). -/
structure HomeSt where
  l2 : List (Nat × Option CLine) := []
  rp : List (Nat × Option CLine) := []
  cb : List CbEnt := []
  wb : List WbEnt := []
  l3 : List (Nat × Option L3Line) := []
  dir : List (Nat × DirSet) := []
  open_ : List Txn := []
  queue : List Txn := []
  sweepHeld : List Txn := []
  sweep : Bool := false
deriving DecidableEq, Repr

/-- A translated region (R401). -/
structure Region where
  vframe : Nat
  r : Bool
  w : Bool
  sframe : Nat
  frames : Nat
deriving DecidableEq, Repr

/-- A region block (R401). -/
structure RegBlock where
  epoch : Nat := 0
  ctx : Nat := 0
  regions : List Region := []
deriving DecidableEq, Repr

/-- An XLATE command in progress (R405, R409): the page, and what it waits for. -/
structure XlateCmd where
  page : Nat
  kind : Nat
  ctx : Nat
  port : Nat
deriving DecidableEq, Repr

/-- Translation (R402 to R409): epochs by CTXID (one count for the rises of ADVANCE_ALL), the cached page keys of the DTUs
and root ports, and the command in progress. -/
structure XlateSt where
  epochs : List (Nat × Nat) := []
  epochAll : Nat := 0
  cmd : Option XlateCmd := none
deriving DecidableEq, Repr

/-- The memory system of the package: Tier N and its channels (R337), Tier F, placement (R287), coherence homes (R469),
translation (R389) and the answers of ended requests (R10). -/
structure MemSt where
  dram : Dram := {}
  nstacks : List (Nat × StackSt) := []
  chans : List (Nat × ChanSt) := []
  place : PlaceSt := {}
  home : HomeSt := {}
  xlate : XlateSt := {}
  answers : List Answer := []
deriving DecidableEq, Repr

end Sys2Proof.Machine
end

