-- ==== Sys2Proof/Machine/StJob.lean ====
section
/-!
DEFINITION. The state of the command rings and of jobs (spec/16_command_rings.md R415 to R441).
-/
namespace Sys2Proof.Machine

/-- Where an accepted descriptor stands: not started, running, ended with its code and DETAIL. -/
inductive ReqSt where
  | waiting
  | running
  | ended (code : Nat) (detail : List Byte)
deriving DecidableEq, Repr

/-- An accepted descriptor without its FINAL completion (R424, R436): its SEQ, its 256 B slot as a number, its state,
the records it reserves, its translation, the mover and slot that run a MOVE, and for an inline transfer the lines
performed. -/
structure Req where
  seq : Nat
  slot : Nat
  st : ReqSt := .waiting
  resv : Nat := 1
  blk : Option RegBlock := none
  mover : Option (Nat × Nat) := none
deriving DecidableEq, Repr

/-- A ring: records posted since it was enabled, accepted descriptors in sequence order, records posted since CPL was
last set, and the time of the first of them. -/
structure RingSt where
  posted : Nat := 0
  reqs : List Req := []
  unsig : Nat := 0
  unsigAt : Option Nat := none
deriving DecidableEq, Repr

/-- A job (R426): its ring and SEQ, the ring's CTXID, the image's system address, JOB, PROGRESS and TRAP, steps posted
DONE_DEVIATED, and whether a flush ends it at the next commit. -/
structure Job where
  ring : Nat
  seq : Nat
  ctx : Nat
  image : Nat
  job : Nat
  progress : Nat
  trap : Bool
  dev : Nat := 0
  progressDue : Bool := false
  flushed : Bool := false
deriving DecidableEq, Repr

/-- Rings by number, jobs waiting in order of acceptance, the job that runs, and the OP of the JOB_CTL that reruns its
trapped step. -/
structure JobSt where
  rings : List (Nat × RingSt) := []
  queue : List Job := []
  cur : Option Job := none
  rerun : Option Nat := none
deriving DecidableEq, Repr

end Sys2Proof.Machine
end

