-- ==== Sys2Proof/Machine/StMgmt.lean ====
section
/-!
DEFINITION. The state of the management sideband, of the test access ports and of the hart debug module
(spec/23_pcie_management.md R621 to R625, spec/26_test_debug.md R685 to R702).
-/
namespace Sys2Proof.Machine

/-- A pending platform event (R624): the sensor, whether it is a state sensor, and its present and previous value. -/
structure PlatEvent where
  sensor : Nat
  state : Bool
  now : Nat
  was : Nat
deriving DecidableEq, Repr

/-- The MCTP endpoint (R621 to R625): the bus in use (I3C if true), the dynamic address, endpoint and terminus IDs, the event
receiver, pending events oldest first, overflow, whether this device asserts ALERT_N for a cause other than a pending event,
and messages sent. -/
structure MgmtSt where
  bus : Option Bool := none
  dynAddr : Option Nat := none
  eid : Nat := 0
  tid : Nat := 0
  receiver : Option Nat := none
  events : List PlatEvent := []
  overflow : Bool := false
deriving DecidableEq, Repr

/-- A TAP (R686, R689, R690): its instruction register, boundary and wrapper registers, and what it drives in test mode. -/
structure Tap where
  ir : Nat := 3
  bound : Nat := 0
  wrap : Nat := 0
  drives : Bool := false
  hiz : Bool := false
  wrapDrives : Bool := false
  isolated : Bool := false
deriving DecidableEq, Repr

/-- The hart debug module (R701): dmcontrol's fields, per hart the resume acknowledgement, havereset as cleared and the
halt-on-reset request, the abstract command, data, program buffer, cmderr, autoexec. -/
structure DmSt where
  active : Bool := false
  hartsel : Nat := 0
  haltReq : Bool := false
  resumeAck : List (Nat × Bool) := []
  ackReset : List (Nat × Bool) := []
  resetHalt : List (Nat × Bool) := []
  command : Nat := 0
  data : List (Nat × Word) := []
  progbuf : List (Nat × Word) := []
  cmderr : Nat := 0
  auto : Nat := 0
deriving DecidableEq, Repr

/-- Test access: the package TAP, die TAPs by PD, CHAIN_CFG, the REG_ACCESS register's status, address and data, and the
debug module. -/
structure TapSt where
  pkg : Tap := {}
  dies : List (Nat × Tap) := []
  chain : Nat := 0
  raStatus : Nat := 0
  raAddr : Nat := 0
  raData : Word := 0
  dm : DmSt := {}
deriving DecidableEq, Repr

end Sys2Proof.Machine
end

