-- ==== Sys2Proof/Machine/StMover.lean ====
section
/-!
DEFINITION. The state of the movers and of Carousel (spec/12_carousel.md R318 to R333).
-/
namespace Sys2Proof.Machine

/-- What a transfer moves, in units of 128 B (R316, R329): planes of rows of seg units. A system side is linear in a row;
on a Tier S side the units of a row lie in consecutive banks. sPlane: bytes between planes of the source; dPlane: banks
between planes of the destination. -/
structure XGeom where
  planes : Nat := 1
  rows : Nat := 0
  seg : Nat := 0
  sSys : Bool := false
  sAddr : Nat := 0
  sPitch : Nat := 0
  sPlane : Nat := 0
  dSys : Bool := false
  dAddr : Nat := 0
  dPitch : Nat := 0
  dPlane : Nat := 0
deriving DecidableEq, Repr

/-- A transfer being made: its geometry, whether it is a SELECT, the CTXID, tag and spans of its translation and the
region block, the pieces performed (per mover for a record of Carousel), the first failure's code, a SELECT's value, and
the absolute beat of its last write. -/
structure Xfer where
  geom : XGeom := {}
  select : Bool := false
  ctx : Nat := 0
  tag : Nat := 0
  spans : List Span := []
  blk : Option RegBlock := none
  pos : List Nat := [0]
  fail : Option Nat := none
  value : Nat := 0
  done : Option Nat := none
deriving DecidableEq, Repr

/-- An MVR slot in use (R330, R331): the core, the MVR's PC, the absolute beat E, its beat in the step less the stall
count, LEN as it bounds E + BUDGET, the descriptor's scratch address, the CPL post, and once fetched the post and the
transfer. bad: the descriptor could not be used (R333). -/
structure Mvr where
  pd : PD
  mc : MC
  pc : Nat
  e : Nat
  sbeat : Nat
  room : Nat
  addr : Nat
  cpl : Bool
  cts : Nat
  ctx : Nat
  fetched : Bool := false
  bad : Bool := false
  budget : Nat := 0
  cls : Nat := 0
  ld : Nat := 0
  index : Nat := 0
  value : Nat := 0
  x : Xfer := {}
deriving DecidableEq, Repr

/-- A ring MOVE in a mover's ring slot (R429): its ring and SEQ, its transfer, and whether it has been started. -/
structure RingMv where
  ring : Nat
  seq : Nat
  x : Xfer
  go : Bool := false
deriving DecidableEq, Repr

/-- A die's mover channels: its MVR slots and its ring slots (R329, R429). -/
structure MoverSt where
  mvr : List (Nat × Option Mvr) := []
  ring : List (Nat × Option RingMv) := []
deriving DecidableEq, Repr

/-- Where an occurrence of a layer record stands (R321 to R327). -/
inductive CarPhase where
  | inflight | done | posted | cancelled
deriving DecidableEq, Repr

/-- An occurrence of a record that has begun or was cancelled: its due job step and record number, its phase, its slabs,
its transfer, the code it failed with, the absolute beat at which it was done, whether its fill is a repetition (R328), and
whether its slabs are held. -/
structure CarOcc where
  job : Nat
  rec_ : Nat
  phase : CarPhase
  slabs : List Nat := []
  x : Xfer := {}
  code : Nat := 0
  doneAt : Nat := 0
  refill : Bool := false
  held : Bool := false
deriving DecidableEq, Repr

/-- A resolved site (R325, R326): its job step, its ALTERNATIVES record and the alternative; rerun: resolved in an earlier
attempt of the step (R328). -/
structure SiteRes where
  job : Nat
  site : Nat
  alt : Nat
  rerun : Bool := false
deriving DecidableEq, Repr

/-- A Carousel (R318, R321): the position p, the last record begun, occurrences begun or cancelled, sites, positions hinted
newest first, and the beat of ARM. A position is a job step and a record. -/
structure CarSt where
  first : Nat × Nat := (0, 0)
  front : Nat := 0
  occs : List CarOcc := []
  sites : List SiteRes := []
  hinted : List (Nat × Nat) := []
  armAt : Nat := 0
deriving DecidableEq, Repr

/-- Movers by die × 4 + instance and the Carousel of each die. -/
structure MvSt where
  movers : List (Nat × MoverSt) := []
  cars : List (Nat × CarSt) := []
deriving DecidableEq, Repr

end Sys2Proof.Machine
end

