-- ==== Sys2Proof/Machine/StPcie.lean ====
section
/-!
DEFINITION. The state of the PCIe root ports (spec/15_address_translation.md R408, R409,
spec/23_pcie_management.md R605 to R619).
-/
namespace Sys2Proof.Machine

/-- What an outbound request is. -/
inductive TlpKind where
  | memRead | memWrite | cfgRead | cfgWrite | cplOk | cplUr | cplCa | cplPoison
deriving DecidableEq, Repr

/-- A request that left a root port towards its link: port, kind, PCIe address (or ECAM offset), length and data. -/
structure Tlp where
  port : Nat
  kind : TlpKind
  addr : Nat
  len : Nat
  data : List Byte
deriving DecidableEq, Repr

/-- An outbound non-posted request that waits for its completion: port, hart, virtual address, system address, bytes, and
whether it is a configuration request and a write. -/
structure NpReq where
  port : Nat
  hart : Nat
  va : Nat
  addr : Nat
  len : Nat
  cfg : Bool
  write : Bool
deriving DecidableEq, Repr

/-- A root port: AER uncorrectable and correctable status, Root Error Status, whether a PME is pending and DPC has
triggered, the requester entries and MSI table entries it caches, oldest first, and the bytes of its configuration space
that differ from their reset. -/
structure RportSt where
  aer : Nat := 0
  aerCor : Nat := 0
  rootErr : Nat := 0
  pme : Bool := false
  dpc : Bool := false
  rids : List (Nat × Nat) := []
  msis : List (Nat × Nat) := []
  cfg : List (Nat × Byte) := []
deriving DecidableEq, Repr

/-- What left the ports, the ports, outbound requests that wait for a completion. -/
structure PcieSt where
  out : List Tlp := []
  ports : List (Nat × RportSt) := []
  np : List NpReq := []
deriving DecidableEq, Repr

end Sys2Proof.Machine
end

