-- ==== Sys2Proof/Machine/StPower.lean ====
section
/-!
DEFINITION. The state of the Ringmaster's power, thermal and energy control and of the power agents
(spec/21_power_thermal.md R552 to R583, spec/25_package_signals.md R677).
-/
namespace Sys2Proof.Machine

/-- A gated run in progress (R560): the step and attempt it belongs to (0 outside a schedule), the beats held so far, and
whether it is recorded. -/
structure GateRun where
  key : Nat
  held : Nat
  done : Bool
deriving DecidableEq, Repr

/-- A power agent (R552 to R562, R571, R578, R580): measured power of the last 1000 samples in mW newest first, currents of
the last ten samples (VCORE, VSRAM, VDRAM) in 0.1 A newest first, the duties of its controllers in sixteenths, whether the
die or its stack is held at its critical temperature, evaluations in a row above DIE_HOT and in throttle, the gated run in
progress, beats gated since the last ratio evaluation, measured energy below 1 µJ in nJ, and activity by slot × 16 + class. -/
structure AgentSt where
  power : List Nat := []
  cur : List (Nat × Nat × Nat) := []
  peak : Nat := 0
  zr6 : Nat := 0
  therm : Nat := 0
  critDie : Bool := false
  critStack : Bool := false
  hotMs : Nat := 0
  thrMs : Nat := 0
  run : Option GateRun := none
  gated : Nat := 0
  nj : Nat := 0
  act : List (Nat × Nat) := []
deriving DecidableEq, Repr

/-- An attribution slot (R579 to R582): the mapping in force and the one written since the last interval, energy in µJ,
model energy in fJ, budget in µJ, whether it was reached. -/
structure AttrSlot where
  ctx : Nat := 0
  valid : Bool := false
  newMap : Option (Nat × Bool) := none
  energy : Nat := 0
  model : Nat := 0
  budget : Nat := 0xFFFFFFFFFFFFFFFF
  reached : Bool := false
deriving DecidableEq, Repr

/-- Ringmaster control: agents by PD, attribution slots, coefficients by class in fJ where not the default, package power of
the last 1000 ms in mW newest first, whether the interval of R563 saw the 1 ms average above PEAK_CAP or P_S at or above the
lower bound, the beat of the last ratio evaluation, the ratio whose voltage VCORE is set to (R565), the floor of R567,
energies of the last second as (measured µJ, model fJ) newest first, activity by slot × 16 + class and package energy at the
last attribution, per rail missed reads in a row and the last good power in mW, and how far an emergency stop has come: 0
none, 1 gated, 2 held, 3 agents stopped, 4 links parked, 5 clocks stopped, 6 rails off. -/
structure PowerSt where
  agents : List (Nat × AgentSt) := []
  slots : List (Nat × AttrSlot) := []
  coef : List (Nat × Nat) := []
  pkg : List Nat := []
  sawPeak : Bool := false
  sawHigh : Bool := false
  evalBeat : Nat := 0
  volt : Nat := 0
  floor : Nat := 0
  ratios : List (Nat × Nat) := []
  attrLast : List (Nat × Nat) := []
  attrEnergy : Nat := 0
  misses : List (Nat × Nat) := []
  lastGood : List (Nat × Nat) := []
  stop : Nat := 0
deriving DecidableEq, Repr

end Sys2Proof.Machine
end

