-- ==== Sys2Proof/Machine/StSched.lean ====
section
/-!
DEFINITION. The schedule state of the device: the loaded image, the running job, the step boundary and the fault
hold (spec/08_static_schedule.md R207 to R250, spec/20_fault_containment.md R535 to R540).
-/
namespace Sys2Proof.Machine

/-- SCHED_STAT.STATE (R250). -/
inductive SchedState where
  | idle | loading | loaded | armed | running | commit | held | replay | trapped | ended
deriving DecidableEq, Repr

/-- States in which a step of a schedule is in progress, so that events carry STEP and BEAT (log entry 5). -/
def SchedState.inStep : SchedState → Bool
  | .running | .commit | .held | .replay => true
  | _ => false

/-- A logical core's program in the image (R217). -/
structure TileProg where
  lc : Nat
  entry : Nat
  len : Nat
  code : Nat
deriving DecidableEq, Repr

/-- A step descriptor of the image (R218). -/
structure StepDesc where
  len : Nat
  inCount : Nat
  mwCount : Nat
  inFirst : Nat
  mwFirst : Nat
  actFirst : Nat
  actCount : Nat
deriving DecidableEq, Repr

/-- An entry of the step sequence: a descriptor and how often it repeats (R219). -/
structure SeqEntry where
  desc : Nat
  times : Nat
deriving DecidableEq, Repr

/-- An input range of the image (R220). -/
structure FrameRange where
  base : Nat
  frames : Nat
deriving DecidableEq, Repr

/-- An ALT site of the image (R221). -/
structure AltRec where
  lc : Nat
  altPc : Nat
  joinPc : Nat
  n : Nat
  topk : Nat
  length : Nat
  selClass : Nat
  selIndex : Nat
  layerFirst : Nat
  layerStride : Nat
  prio : List Nat
deriving DecidableEq, Repr

/-- A Turnstile's initial value (R222). -/
structure TsInitRec where
  cls : Nat
  owner : Nat
  index : Nat
  value : Nat
deriving DecidableEq, Repr

/-- A reservation on a Midway link (R223). -/
structure MidwaySlot where
  ld : Nat
  dir : Nat
  period : Nat
  offset : Nat
  width : Nat
deriving DecidableEq, Repr

/-- The load declared for a die in a step descriptor (R224). -/
structure ActRec where
  desc : Nat
  ld : Nat
  barrier : Bool
  arrayAvg : Nat
  arrayPeak : Nat
  nAvg : Nat
  fAvg : Nat
  jAvg : Nat
  idleBegin : Nat
  idleEnd : Nat
deriving DecidableEq, Repr

/-- A maintenance window of Tier N (R225). -/
structure MaintWin where
  ld : Nat
  kinds : Nat
  begin_ : Nat
  length : Nat
deriving DecidableEq, Repr

/-- A run of frames frozen for the job (R226, R308). -/
structure FrozenRec where
  base : Nat
  frames : Nat
  stageS : Bool
deriving DecidableEq, Repr

/-- A layer record of the image (R316). -/
structure LayerRec where
  ld : Nat
  kind : Nat
  hint : Bool
  demote : Bool
  alt : Bool
  altK : Nat
  altSite : Nat
  seg : Nat
  bankStep : Nat
  src : Nat
  srcPitch : Nat
  planeStride : Nat
  dst : Nat
  dstPitch : Nat
  rows : Nat
  planes : Nat
  postClass : Nat
  postIndex : Nat
  postLc : Nat
  postValue : Nat
  due : Nat
  earlySteps : Nat
  relSteps : Nat
  earlyBeat : Nat
deriving DecidableEq, Repr

/-- The CAROUSEL_LAYERS section (R315): pool masks by logical die, (FIRST, COUNT) by descriptor, records. -/
structure CarSect where
  pool : List Nat := []
  index : List (Nat × Nat) := []
  recs : List LayerRec := []
deriving DecidableEq, Repr

/-- A slot-table entry (R510). -/
structure SlotEnt where
  rx : Bool
  guard : Bool
  post : Bool
  tsOnly : Bool
  beat : Nat
  addr0 : Nat
  addr1 : Nat
  rowBytes : Nat
  rows : Nat
  pitch : Nat
  tsLd : Nat
  tsIndex : Nat
  tsValue : Nat
deriving DecidableEq, Repr

/-- The JALLYN_SLOTS section (R509): PORTS, partner device and port by port, (FIRST, TX, RX) by descriptor × 8 + port,
entries. -/
structure JalSect where
  ports : Nat := 0
  partners : List (Nat × Nat) := []
  index : List (Nat × Nat × Nat) := []
  entries : List SlotEnt := []
deriving DecidableEq, Repr

/-- A loaded Flifold image (R213 to R226), records parsed. -/
structure Image where
  addr : Nat := 0
  size : Nat := 0
  buildId : Nat := 0
  device : Nat := 0
  px : Nat := 1
  py : Nat := 1
  pz : Nat := 1
  diameter : Nat := 0
  ldiesReq : Nat := 1
  ratioInit : Nat := 0
  cwin : Nat := 0
  jobSteps : Nat := 0
  hdrCrc : Nat := 0
  descCrc : Nat := 0
  progs : List TileProg := []
  descs : List StepDesc := []
  seqs : List SeqEntry := []
  inputs : List FrameRange := []
  alts : List AltRec := []
  tsInit : List TsInitRec := []
  midway : List MidwaySlot := []
  acts : List ActRec := []
  maint : List MaintWin := []
  frozen : List FrozenRec := []
  car : Option CarSect := none
  jal : Option JalSect := none
deriving DecidableEq, Repr

/-- An error of the running step (R232, R249): the reason, where it arose, and the code its job ends with. -/
structure StepErr where
  reason : Nat
  lc : Nat
  pc : Nat
  code : Nat
deriving DecidableEq, Repr

/-- A trap key (R196, R197): (STEP, SBEAT, LC, device). -/
structure TrapKey where
  step : Nat
  sbeat : Nat
  lc : Nat
  device : Nat
deriving DecidableEq, Repr

/-- The fields a gather report or a release carries (R230). m: stretch, or the slip M in a release. -/
structure Report where
  m : Nat := 0
  cats : Nat := 0
  trap : Option TrapKey := none
  traps : Nat := 0
  err : Option (Nat × Nat) := none
  ratio : Nat := 0
  fault : Bool := false
  hold : Bool := false
  contrib : Nat := 1
deriving DecidableEq, Repr

/-- Values exchanged before a job's first step (R229, R508). -/
structure StartVals where
  buildId : Nat
  jobSteps : Nat
  descCrc : Nat
  hdrCrc : Nat
  contrib : Nat
deriving DecidableEq, Repr

/-- A recovery report (R538). -/
structure Recovery where
  step : Nat
  stretch : Nat
  cats : Nat
  stop : Bool
  reason : Nat
  contrib : Nat
deriving DecidableEq, Repr

/-- Beats, absolute, in which every core of a die holds dispatch and issue (R208, R358, R558). -/
structure DieHold where
  pd : Nat
  start : Nat
  stop : Nat
deriving DecidableEq, Repr

/-- Bytes of tiered memory that the step in progress wrote: after a stop of the partition they are undefined (R542). -/
structure StepWrite where
  ctx : Nat
  addr : Nat
  len : Nat
deriving DecidableEq, Repr

/-- The schedule. sd, slip: of the last step that reached its commit interval; ratioNext: agreed in the last commit;
ratioDue: agreed in the one before, in effect at the next opening (R243); attempt, isReplay: of the running step; own,
children, release: gather reports and the release of the running step; committed: it committed before the hold;
trapRec: the partition's earliest trap record as a number; startOwn, startKids, startAt: the start exchange; openAt: T0 of
a RESUME; recoveryOwn, recoveryKids: recovery reports by port; captureEnd: the beat the step's last capture ended;
noContinue: the code for which this device cannot continue; subst: cores that wait for MC16 (die, core); lastFault: the
code of the last fault; wrote: what the step that has not committed wrote to tiered memory. -/
structure Sched where
  state : SchedState := .idle
  step : DWord := 0
  jstep : DWord := 0
  beat : Nat := 0
  len : Nat := 0
  cwin : Nat := 0
  sd : Nat := 0
  slip : Nat := 0
  cats : Nat := 0
  deviated : Bool := false
  ratioCur : Nat := 0
  ratioNext : Option Nat := none
  ratioDue : Option Nat := none
  image : Option Image := none
  attempt : Nat := 1
  isReplay : Bool := false
  stepErr : Option StepErr := none
  own : Option Report := none
  children : List (Nat × Report) := []
  release : Option Report := none
  committed : Bool := false
  trapRec : Option Nat := none
  inputCur : List FrameRange := []
  inputNext : List FrameRange := []
  startOwn : Option StartVals := none
  startKids : List (Nat × StartVals) := []
  startAt : Option Nat := none
  openAt : Option Nat := none
  recoveryOwn : Option Recovery := none
  recoveryKids : List (Nat × Recovery) := []
  heldSince : Nat := 0
  holdCause : Option Nat := none
  captureEnd : Nat := 0
  noContinue : Option Nat := none
  subst : List (Nat × Nat) := []
  lastFault : Nat := 0
  resumed : Bool := false
  dieHolds : List DieHold := []
  wrote : List StepWrite := []
deriving DecidableEq, Repr

end Sys2Proof.Machine
end

