-- ==== Sys2Proof/Machine/StStore.lean ====
section
/-!
DEFINITION. The persistent store: records, banks and fault history (spec/24_clocks_bringup.md R649 to R657).
-/
namespace Sys2Proof.Machine

/-- A fault-history entry (R655). -/
structure HistEnt where
  time : DWord
  boot : Nat
  kind : Nat
  pd : Nat
  unit : Nat
  resolved : Bool := false
  index : Nat
  aux : Nat
  tag : Nat := 0
deriving DecidableEq, Repr

/-- The records of a bank (R652): identity bytes, keys, die map bytes by PD, link parameters by port × 18 + lane, fault
history, boot configuration. -/
structure StoreRec where
  identity : List Byte := []
  keys : List Byte := []
  revoked : Nat := 0
  minRm : Nat := 0
  minFw : Nat := 0
  minHb : Nat := 0
  dieMap : List (Nat × Nat) := []
  link : List (Nat × List Byte) := []
  history : List HistEnt := []
  dropped : Nat := 0
  boots : Nat := 0
  autoOn : Bool := false
deriving DecidableEq, Repr

/-- An image entry of a bank header (R650, R651). -/
structure ImgEnt where
  bank : Bool := false
  len : Nat := 0
  ver : Nat := 0
deriving DecidableEq, Repr

/-- A bank: whether it is valid (R653), its header and records, and its two image slots. -/
structure Bank where
  valid : Bool := false
  seq : Nat := 0
  imgRm : ImgEnt := {}
  imgHb : ImgEnt := {}
  rec_ : StoreRec := {}
  slotRm : List Byte := []
  slotHb : List Byte := []
deriving DecidableEq, Repr

/-- The store: two banks, the active one, the erases of their record sectors, the records as they stand with the entries not
yet committed (pending: of a boot kind or link parameters; pendingInfo: others), and the command in progress: CMD and ARG. -/
structure Store where
  bank0 : Bank := {}
  bank1 : Bank := {}
  active : Bool := false
  erases0 : Nat := 0
  erases1 : Nat := 0
  cur : StoreRec := {}
  pending : Bool := false
  pendingInfo : Bool := false
  busy : Option (Nat × Nat) := none
deriving DecidableEq, Repr

end Sys2Proof.Machine
end

