-- ==== Sys2Proof/Machine/StTierS.lean ====
section
/-!
DEFINITION. Tier S: bytes by scratch address, poisoned words, slab states and the bank calendar
(spec/10_tier_s_scratch.md).
-/
namespace Sys2Proof.Machine

/-- Slab states of R279. -/
inductive SlabState where
  | static | free | allocated | imageRo
deriving DecidableEq, Repr

/-- A run of bank-beats reserved by one access stream of an issued instruction (R274): count accesses, the first at
absolute beat b0 and each stride beats after the one before, each using banks bank0 … bank0 + nb - 1 at line
line0 + i × pitch. -/
structure CalRun where
  ld : Nat
  bank0 : Nat
  nb : Nat
  b0 : Nat
  stride : Nat
  count : Nat
  line0 : Nat
  pitch : Nat
  write : Bool
  lc : Nat
deriving DecidableEq, Repr

/-- Tier S of the device: bytes by scratch address, poisoned words and words whose poison was detected (by address
÷ 16), slab states by logical die × 1536 + slab, the bank calendar, the scrubber's line per die and the beat each die's
running ZERO completes, and the slabs other than STATIC written since the step opened by others than Carousel (R328). -/
structure TierS where
  mem : List Host.Cell := []
  poison : List (Nat × Bool) := []
  detected : List (Nat × Bool) := []
  slabs : List (Nat × SlabState) := []
  cal : List CalRun := []
  scrubPos : List (Nat × Nat) := []
  zeroDue : List (Nat × Nat) := []
  wrote : List (Nat × Bool) := []
deriving DecidableEq, Repr

end Sys2Proof.Machine
end

