-- ==== Sys2Proof/Machine/StTile.lean ====
section
/-!
DEFINITION. Turnstiles: values, flags, tags, operations on their way and pending waits (spec/09_turnstiles.md).
-/
namespace Sys2Proof.Machine

/-- A Turnstile (R251, R257): its value and sticky flag, the scheduled effect beat of its last change, the step of its
last change, its value before the first change of that step, the changes of that step newest first as (value, tag),
the beat of a page write that waits judge only from the next beat on (R261), and the adds of that step newest first as
(absolute beat, k) (R325). -/
structure TsCell where
  v : Nat := 0
  sticky : Bool := false
  tag : Nat := 0
  step : Nat := 0
  base : Nat := 0
  hist : List (Nat × Nat) := []
  poke : Option Nat := none
  adds : List (Nat × Nat) := []
deriving DecidableEq, Repr

/-- An add or subtract on its way (R254, R255): the absolute beat at which it takes effect, its class in the order of
R255, the requester's key within that class, and what its event would carry (R260). -/
structure TsOp where
  key : Nat
  y : Nat
  sub : Bool
  ring : Bool
  who : Nat
  k : Nat
  sbeat : Nat
  lc : Nat
  src : Nat
deriving DecidableEq, Repr

/-- What a pending requester waits for (R252, R138). -/
inductive WaitKind where
  | atLeast | thenSub | alt
deriving DecidableEq, Repr

/-- A pending wait or ALT of a core (R252): the Turnstile, N, the actual and scheduled dispatch beats. -/
structure TsWait where
  key : Nat
  kind : WaitKind
  n : Nat
  pd : PD
  mc : MC
  d : Nat
  w : Nat
deriving DecidableEq, Repr

/-- All Turnstiles of the package, the operations on their way, those still on Midway, the pending waits, the beat-0
snapshot (R533), and by die the TSTILE command that runs (R265). -/
structure Tiles where
  cells : List (Nat × TsCell) := []
  ops : List TsOp := []
  remote : List TsOp := []
  waits : List TsWait := []
  snap : List (Nat × TsCell) := []
  run : List (Nat × Nat) := []
deriving DecidableEq, Repr

end Sys2Proof.Machine
end

