-- ==== Sys2Proof/Machine/State.lean ====
section
/-!
DEFINITION. The state of one ZR9-P56 package, and the reasons a step can stop.
-/
namespace Sys2Proof.Machine

/-- Reasons for which the machine stops. None is raised: every error of the spec is an effect on State (safe). -/
inductive Fault where
  /-- Raised by no command: the type has no fault to name (safe). -/
  | none
deriving DecidableEq, Repr

/-- Reasons for which a command is refused. -/
inductive Refusal where
  /-- Raised by exec for a command that has no meaning in this model yet, by its name (safe). -/
  | notModelled (mnemonic : String)
deriving DecidableEq, Repr

/-- The state of the package: the queue of waiting commands (the model's own), the clocks, the registers by address and
the pages beside them (R29 to R72), the last answer, the event log and its queues (R546), the count of free values
given (the model's own), the die map (R17), the schedule (R197 to R250), matrix cores, operand caches and checkpoint
SRAM by core, the Turnstile tiles (R251), Tier S (R278), the traces (R699), whether cores are frozen (R688), the memory
system (R281 to R480), the persistent store (R649), the host CPU, movers, ports, Jallyn, jobs, bring-up, firmware,
power, management and test access. -/
structure State where
  pending : List Instr := []
  clock : Clock := {}
  regs : List (Nat × Word) := []
  pages : List (Nat × PageSt) := []
  reply : Option Reply := none
  evq : List (Nat × SrcQ) := []
  evlog : List (Nat × Event) := []
  freeCtr : Nat := 0
  dies : DieMap := {}
  sched : Sched := {}
  cores : List (Nat × CoreSt) := []
  tcs : List (Nat × TCache) := []
  ckpts : List (Nat × CkptPair) := []
  ts : Tiles := {}
  tierS : TierS := {}
  traces : List (Nat × TraceSt) := []
  frozen : Bool := false
  memsys : MemSt := {}
  store : Store := {}
  cpu : CpuSt := {}
  mv : MvSt := {}
  pcie : PcieSt := {}
  jal : JalSt := {}
  jobs : JobSt := {}
  boot : BootSt := {}
  fw : FwSt := {}
  power : PowerSt := {}
  mgmt : MgmtSt := {}
  tap : TapSt := {}
deriving DecidableEq, Repr

/-- The package right after a system reset. -/
def State.reset : State := {}

end Sys2Proof.Machine
end

