-- ==== Sys2Proof/Machine/RegOps.lean ====
section
/-!
DEFINITION. Bit fields, register fields, pages and their presence, device addresses (spec/00_scope.md R4, R6,
spec/01_architecture.md R17 to R24, spec/02_register_pages.md R36 to R44).
-/
namespace Sys2Proof.Machine

/-! Bit fields and byte order (R4). -/

/-- Bits [lo + w - 1 : lo] of n. -/
def bitsOf (n lo w : Nat) : Nat := n / 2 ^ lo % 2 ^ w

/-- n with bits [lo + w - 1 : lo] replaced by v. -/
def withBits (n lo w v : Nat) : Nat := n - bitsOf n lo w * 2 ^ lo + v % 2 ^ w * 2 ^ lo

def bitOf (n i : Nat) : Bool := n / 2 ^ i % 2 == 1

def b2n (b : Bool) : Nat := if b then 1 else 0

/-- The signed value of a w-bit field. -/
def signedOf (n w : Nat) : Int := if n < 2 ^ (w - 1) then (n : Int) else (n : Int) - 2 ^ w

/-- Little-endian bytes of n, count of them (R4). -/
def leBytes (n : Nat) : Nat → List Byte
  | 0 => []
  | k + 1 => BitVec.ofNat 8 n :: leBytes (n / 256) k

/-- The number whose little-endian bytes these are (R4). -/
def leNat : List Byte → Nat
  | [] => 0
  | b :: bs => b.toNat + 256 * leNat bs

/-! Pages and register keys (R39 to R44). -/

/-- Type codes of R44. -/
def blkCode : Blk → Nat
  | .dieCfg => 1 | .familyParam => 2 | .mcore => 3 | .tcache => 4 | .tsram => 5 | .tstile => 6 | .carousel => 7
  | .place => 8 | .nstack => 9 | .fchan => 10 | .xlate => 11 | .mover => 12 | .cmdq => 13 | .home => 14 | .cpucl => 15
  | .jport => 16 | .sched => 17 | .rmstr => 18 | .pagent => 19 | .pcierp => 20 | .timebase => 21 | .evlog => 22
  | .pstore => 23 | .dbg => 24

def blkOfCode : Nat → Option Blk
  | 1 => some .dieCfg | 2 => some .familyParam | 3 => some .mcore | 4 => some .tcache | 5 => some .tsram
  | 6 => some .tstile | 7 => some .carousel | 8 => some .place | 9 => some .nstack | 10 => some .fchan
  | 11 => some .xlate | 12 => some .mover | 13 => some .cmdq | 14 => some .home | 15 => some .cpucl
  | 16 => some .jport | 17 => some .sched | 18 => some .rmstr | 19 => some .pagent | 20 => some .pcierp
  | 21 => some .timebase | 22 => some .evlog | 23 => some .pstore | 24 => some .dbg | _ => none

/-- The key of a page: block type, die and instance. -/
def pageKey (p : Page) : Nat := (blkCode p.blk * 64 + p.pd.val) * 64 + p.inst.val

/-- The key of a register: its page's key and its offset. -/
def regKey (p : Page) (off : Nat) : Nat := pageKey p * 4096 + off

def isPackage : Blk → Bool
  | .familyParam | .cmdq | .rmstr | .timebase | .evlog | .pstore => true
  | _ => false

def diePage (b : Blk) (pd : PD) : Page := ⟨b, pd, 0⟩
def pkgPage (b : Blk) : Page := ⟨b, 0, 0⟩
def mcorePage (pd : PD) (mc : MC) : Page := ⟨.mcore, pd, ⟨mc.val, by omega⟩⟩
def tcachePage (pd : PD) (mc : MC) : Page := ⟨.tcache, pd, ⟨mc.val, by omega⟩⟩
def moverPage (pd : PD) (i : MoverIx) : Page := ⟨.mover, pd, ⟨i.val, by omega⟩⟩
def cmdqPage (r : RingId) : Page := ⟨.cmdq, 0, r⟩

/-! Register fields (R6). -/

/-- The field covers the register at this offset. -/
def RegField.covers (f : RegField) (off : Nat) : Bool :=
  decide (f.off ≤ off) && decide ((off - f.off) % f.stride = 0) && decide ((off - f.off) / f.stride < f.n)

/-- Every field of the register at an offset of a page type: header fields first (R52). -/
def fieldsAt (b : Blk) (off : Nat) : List RegField :=
  if off < 0x100 then headerFields.filter (·.covers off) else (blkFields b).filter (·.covers off)

/-- The reset value of a register: the Reset column of its fields. -/
def resetWord (b : Blk) (off : Nat) : Nat := (fieldsAt b off).foldl (fun n f => withBits n f.lo f.w f.reset) 0

/-- What an unlisted register reads as: its reset value. -/
def regReset (k : Nat) : Word :=
  match blkOfCode (k / 0x1000000) with
  | some b => BitVec.ofNat 32 (resetWord b (k % 4096))
  | none => 0

def State.reg (s : State) (p : Page) (off : Nat) : Word := mget regReset s.regs (regKey p off)

def State.setReg (s : State) (p : Page) (off : Nat) (v : Word) : State :=
  { s with regs := mput regReset s.regs (regKey p off) v }

/-- Field f of a page (element i of an array of registers). -/
def State.fld (s : State) (p : Page) (f : RegField) (i : Nat := 0) : Nat :=
  bitsOf (s.reg p (f.off + f.stride * i)).toNat f.lo f.w

def State.setFld (s : State) (p : Page) (f : RegField) (v : Nat) (i : Nat := 0) : State :=
  let off := f.off + f.stride * i
  s.setReg p off (BitVec.ofNat 32 (withBits (s.reg p off).toNat f.lo f.w v))

def State.flag (s : State) (p : Page) (f : RegField) (i : Nat := 0) : Bool := s.fld p f i == 1

def State.setFlag (s : State) (p : Page) (f : RegField) (b : Bool) (i : Nat := 0) : State := s.setFld p f (b2n b) i

/-- A 64-bit pair of registers read as one value, _LO at lo and _HI 4 above (R47). -/
def State.reg64 (s : State) (p : Page) (lo : Nat) : Nat := (s.reg p lo).toNat + (s.reg p (lo + 4)).toNat * 2 ^ 32

def State.setReg64 (s : State) (p : Page) (lo v : Nat) : State :=
  (s.setReg p lo (BitVec.ofNat 32 v)).setReg p (lo + 4) (BitVec.ofNat 32 (v / 2 ^ 32))

/-- The page-common state of a page. -/
def State.page (s : State) (p : Page) : PageSt := mget (fun _ => {}) s.pages (pageKey p)

def State.setPage (s : State) (p : Page) (v : PageSt) : State :=
  { s with pages := mput (fun _ => {}) s.pages (pageKey p) v }

/-! Die roles and presence (R17 to R24, R42). -/

def bondF : List Nat := [1, 2, 3, 4, 5, 6, 7, 15, 23, 31, 39, 47, 54, 53, 52, 51, 50, 49, 48, 40, 32, 24, 16, 8]
def bondJ : List Nat := [31, 24, 52, 3, 23, 16, 39, 32]
def bondP : List Nat := [2, 5, 50, 53]
def bondM : List Nat := [0, 55]

def pdOf (n : Nat) : PD := ⟨n % 56, Nat.mod_lt _ (by decide)⟩

def fchanPd (c : FChan) : PD := pdOf (bondF.getD c.val 0)
def jportPd (j : JPort) : PD := pdOf (bondJ.getD j.val 0)
def rportPd (r : RPort) : PD := pdOf (bondP.getD r.val 0)
def jportPage (j : JPort) : Page := diePage .jport (jportPd j)
def fchanPage (c : FChan) : Page := diePage .fchan (fchanPd c)
def rportPage (r : RPort) : Page := diePage .pcierp (rportPd r)

/-- The die whose management partition is in use (R24). -/
def State.mgmtPd (s : State) : PD := if s.dies.mgmtBackup then 55 else 0

def State.role (s : State) (pd : PD) : Role := mget (fun _ => .off) s.dies.roles pd.val

def State.isFull (s : State) (pd : PD) : Bool := s.role pd == .full

/-- The full dies in ascending position (R22). -/
def State.fullDies (s : State) : List PD := (List.finRange 56).filter s.isFull

/-- The physical die of logical die n (R22). -/
def State.pdOfLd (s : State) (n : Nat) : Option PD := s.fullDies[n]?

/-- The logical number of a full die (R22). -/
def State.ldOf (s : State) (pd : PD) : Option Nat := s.fullDies.findIdx? (· == pd)

/-- The physical core carrying local index i of a die (R41, R66). -/
def State.mcOf (s : State) (pd : PD) (i : Nat) : MC :=
  ⟨(mget (fun k => k % 16) s.dies.mcMap (pd.val * 16 + i % 16)) % 17, Nat.mod_lt _ (by decide)⟩

/-- The local index a physical core carries, if any. -/
def State.localOf (s : State) (pd : PD) (mc : MC) : Option Nat :=
  (List.range 16).find? (fun i => s.mcOf pd i == mc)

/-- The physical core of a die that carries no logical identity (R41, MC_FREE of R66). -/
def State.mcFree (s : State) (pd : PD) : MC := ((List.finRange 17).find? (fun m => (s.localOf pd m).isNone)).getD 16

/-- The logical core a physical core carries (R16). -/
def State.lcOf (s : State) (pd : PD) (mc : MC) : Option Nat :=
  match s.ldOf pd, s.localOf pd mc with
  | some l, some i => some (l * 16 + i)
  | _, _ => none

/-- The physical die and core that carry a logical core. -/
def State.coreOfLc (s : State) (lc : Nat) : Option (PD × MC) :=
  (s.pdOfLd (lc / 16)).map (fun pd => (pd, s.mcOf pd (lc % 16)))

/-- The lead controller's die, LD0 (R250). -/
def State.leadPd (s : State) : PD := (s.pdOfLd 0).getD 0

def inCompute : Blk → Bool
  | .cpucl | .mcore | .tcache | .tsram | .tstile | .carousel | .place | .nstack | .xlate | .mover | .home | .sched => true
  | _ => false

/-- The interface of an I/O block is bonded at the die and not marked absent (R17, R23, R42). -/
def State.bonded (s : State) (b : Blk) (pd : PD) : Bool :=
  match b with
  | .fchan => bondF.contains pd.val && !s.flag (diePage .dieCfg pd) Reg.DC_F_ABSENT
  | .jport => bondJ.contains pd.val && !s.flag (diePage .dieCfg pd) Reg.DC_J_ABSENT
  | .pcierp => bondP.contains pd.val && !s.flag (diePage .dieCfg pd) Reg.DC_P_ABSENT
  | _ => false

def instances : Blk → Nat
  | .mcore | .tcache => 17
  | .mover => 4
  | .cmdq => 64
  | _ => 1

/-- The page answers accesses (R42): its partition is powered and its block exists there. -/
def State.present (s : State) (p : Page) : Bool :=
  decide (p.inst.val < instances p.blk) &&
  (if isPackage p.blk then true
   else if inCompute p.blk then s.role p.pd == .full
   else if p.blk == .dieCfg || p.blk == .pagent || p.blk == .dbg then s.role p.pd != .off
   else s.role p.pd != .off && s.bonded p.blk p.pd)

/-- The block-specific registers of the page are accessible: no fence in effect, no soft reset running (R60, R62). -/
def State.accessible (s : State) (p : Page) : Bool :=
  s.present p && !s.flag p Reg.BLK_STAT_FENCED && !(s.page p).resetting

/-- The block's work is stopped: it is fenced or in a soft reset (R60, R62). -/
def State.fenced (s : State) (p : Page) : Bool := s.flag p Reg.BLK_STAT_FENCED || (s.page p).resetting

/-- The block takes new work: it is neither fenced, nor in a soft reset, nor disabled by a 1 to 0 write of ENABLE (R56). -/
def State.takesWork (s : State) (p : Page) : Bool := !s.fenced p && !(s.page p).disabled

/-! Device addresses (R36, R39 to R41). -/

/-- The block and instance at a page offset of a die window, or of the package range (R44). -/
def pageAt (pkg : Bool) (po : Nat) : Option (Blk × Nat) :=
  let n := po / 0x1000
  if pkg then
    match n with
    | 0 => some (.familyParam, 0) | 1 => some (.timebase, 0) | 2 => some (.evlog, 0) | 3 => some (.rmstr, 0)
    | 4 => some (.pstore, 0)
    | _ => if 0x10 ≤ n ∧ n < 0x50 then some (.cmdq, n - 0x10) else none
  else
    match n with
    | 0 => some (.dieCfg, 0) | 1 => some (.pagent, 0) | 2 => some (.dbg, 0) | 3 => some (.sched, 0) | 4 => some (.tsram, 0)
    | 5 => some (.tstile, 0) | 6 => some (.carousel, 0) | 7 => some (.place, 0) | 8 => some (.nstack, 0)
    | 9 => some (.xlate, 0) | 10 => some (.home, 0) | 11 => some (.cpucl, 0) | 12 => some (.fchan, 0)
    | 13 => some (.jport, 0) | 14 => some (.pcierp, 0)
    | _ =>
      if 0x10 ≤ n ∧ n < 0x14 then some (.mover, n - 0x10)
      else if 0x20 ≤ n ∧ n < 0x31 then some (.mcore, n - 0x20)
      else if 0x40 ≤ n ∧ n < 0x51 then some (.tcache, n - 0x40)
      else none

def mkPage (b : Blk) (pd : PD) (i : Nat) : Page := ⟨b, pd, ⟨i % 64, Nat.mod_lt _ (by decide)⟩⟩

/-- The page and offset a device address reaches; none where R37 makes the address reserved. -/
def State.decodeReg (s : State) (a : Nat) : Option (Page × Nat) :=
  let off := a % 0x1000
  if 0xF00000000000 ≤ a ∧ a < 0xF00038000000 then
    let r := a - 0xF00000000000
    (pageAt false (r % 0x1000000)).map (fun (b, i) => (mkPage b (pdOf (r / 0x1000000)) i, off))
  else if 0xF00040000000 ≤ a ∧ a < 0xF00041000000 then
    (pageAt true (a - 0xF00040000000)).map (fun (b, i) => (mkPage b 0 i, off))
  else if 0xF00100000000 ≤ a ∧ a < 0xF00140000000 then
    let r := a - 0xF00100000000
    match s.pdOfLd (r / 0x1000000) with
    | none => none
    | some pd =>
      (pageAt false (r % 0x1000000)).map fun (b, i) =>
        let j := if b == .mcore || b == .tcache then (if i < 16 then (s.mcOf pd i).val else (s.mcFree pd).val) else i
        (mkPage b pd j, off)
  else none

end Sys2Proof.Machine
end

