-- ==== Sys2Proof/Machine/Irq.lean ====
section
/-!
DEFINITION. Interrupts: BLK_INT_STAT, the lines of pages, the APLIC and the interrupt files of harts
(spec/02_register_pages.md R58, spec/17_cpu_complex.md R459 to R462).
-/
namespace Sys2Proof.Machine

def cpuclPageOf (s : State) (h : Nat) : Page := diePage .cpucl ((s.pdOfLd (h / 2)).getD 0)

/-- The COUNTER_SAT bit of BLK_INT_STAT, where the page has one (R551 and the chapters). -/
def satBit : Blk → Option Nat
  | .tstile => some 2
  | .carousel | .mover | .xlate | .timebase => some 3
  | .cmdq | .pstore | .dbg => some 4
  | .tsram | .place | .cpucl | .home | .evlog | .pagent => some 5
  | .sched => some 6
  | .jport | .pcierp => some 7
  | .nstack | .rmstr => some 8
  | .fchan => some 10
  | _ => none

def State.hart (s : State) (h : Nat) : HartSt := mget (fun _ => {}) s.cpu.harts h

def State.setHart (s : State) (h : Nat) (v : HartSt) : State :=
  { s with cpu := { s.cpu with harts := mput (fun _ => {}) s.cpu.harts h v } }

def HartState.code : HartState → Nat
  | .reset => 0 | .running => 1 | .wfi => 2 | .debugHalt => 3 | .removing => 4 | .removed => 5

/-- A hart changes its state, shown in CPUCL_HART_STAT. -/
def State.hartTo (s : State) (h : Nat) (st : HartState) : State :=
  (s.setHart h { s.hart h with state := st }).setFld (cpuclPageOf s h)
    (if h % 2 = 0 then Reg.CPUCL_HART_STAT_STATE0 else Reg.CPUCL_HART_STAT_STATE1) st.code

def HartSt.gone (h : HartSt) : Bool := h.state == .removing || h.state == .removed

/-- Harts of the package (R22). -/
def State.hartCount (s : State) : Nat := 2 * s.fullDies.length

def State.aplic (s : State) (sup : Bool) : AplicDom := if sup then s.cpu.sup else s.cpu.root

def State.setAplic (s : State) (sup : Bool) (d : AplicDom) : State :=
  { s with cpu := if sup then { s.cpu with sup := d } else { s.cpu with root := d } }

def AplicDom.srcCfg (d : AplicDom) (i : Nat) : Nat := mget (fun _ => 0) d.cfg i

/-- A source the domain serves: active, and in the supervisor domain delegated by the root. -/
def State.aplicActive (s : State) (sup : Bool) (i : Nat) : Bool :=
  decide (0 < i) && decide (i < 1024) && decide ((s.aplic sup).srcCfg i ≠ 0) && !bitOf ((s.aplic sup).srcCfg i) 10 &&
  (!sup || bitOf (s.cpu.root.srcCfg i) 10)

/-- The source a page's interrupt drives (R461). -/
def aplicSource (p : Page) : Nat :=
  let cls : Nat := match p.blk with
    | .mcore => 0 | .tcache => 1 | .tsram => 2 | .tstile => 3 | .carousel => 4 | .place => 5 | .nstack => 6 | .fchan => 7
    | .xlate => 8 | .mover => 9 | .home => 10 | .cpucl => 11 | .jport => 12 | .sched => 13 | .pagent => 14 | .pcierp => 15
    | .dbg => 16 | _ => 0
  match p.blk with
  | .cmdq => 1 + p.inst.val
  | .evlog => 65 | .rmstr => 66 | .timebase => 67 | .pstore => 68
  | .dieCfg | .familyParam => 0
  | _ => 72 + p.pd.val * 17 + cls



/-- A page requests an interrupt (R58). -/
def State.requests (s : State) (p : Page) : Bool := (s.reg p 0x010 &&& s.reg p 0x014) != 0

/-- The level of the source that a page drives: the request of any instance of its class (R461). -/
def State.srcLevel (s : State) (p : Page) : Bool :=
  match p.blk with
  | .mcore | .tcache | .mover =>
    (List.range (if p.blk = .mover then 4 else 17)).any fun i => s.requests (mkPage p.blk p.pd i)
  | _ => s.requests p

/-- A write of BLK_INT_STAT or BLK_INT_EN without its interrupt. -/
def State.orInt (s : State) (p : Page) (bits : Nat) : State := s.setReg p 0x010 (s.reg p 0x010 ||| BitVec.ofNat 32 bits)

/-- A dropped message, counted (R462). -/
def State.msiDropRaw (s : State) (p : Page) : State :=
  let n := s.fld p Reg.CPUCL_MSI_DROP_COUNT
  let m := min (n + 1) 0xFFFFFFFF
  (s.setFld p Reg.CPUCL_MSI_DROP_COUNT m).orInt p (2 ^ 4 + (if n < m ∧ m = 0xFFFFFFFF then 2 ^ 5 else 0))

/-- Delivers an identity to an interrupt file of a hart, or drops it, counted on page p (R462). again: what an interrupt
of that page does. -/
def State.msiWith (again : State → Nat → State) (s : State) (p : Page) (h file ident : Nat) : State :=
  if s.hartCount ≤ h ∨ ident = 0 ∨ 255 < ident ∨ 8 < file ∨ (s.hart h).gone then
    let s1 := s.msiDropRaw p
    if !s.srcLevel p && s1.srcLevel p then again s1 (aplicSource p) else s1
  else
    let v := s.hart h
    let s1 := s.setHart h { v with eip := mput (fun _ => false) v.eip (file * 256 + ident) true }
    if v.state = .wfi then s1.hartTo h .running else s1

/-- A pending and enabled source of an enabled domain is sent to its target's file, and its pending bit clears. -/
def State.aplicSendWith (again : State → Nat → State) (s : State) (sup : Bool) (i : Nat) : State :=
  let d := s.aplic sup
  if d.ie && mget (fun _ => false) d.ip i && mget (fun _ => false) d.en i && s.aplicActive sup i then
    let t := mget (fun _ => 0) d.target i
    let h := t / 2 ^ 18
    let file := if sup then 1 + bitsOf t 12 6 else 0
    (s.setAplic sup { d with ip := mput (fun _ => false) d.ip i false }).msiWith again (cpuclPageOf s h) h file (t % 2048)
  else s

/-- Sets a source pending. -/
def State.aplicPendWith (again : State → Nat → State) (s : State) (sup : Bool) (i : Nat) : State :=
  let d := s.aplic sup
  if s.aplicActive sup i then
    (s.setAplic sup { d with ip := mput (fun _ => false) d.ip i true }).aplicSendWith again sup i
  else s

/-- The level of a source rises: a domain whose source is Level1 sees it pending. The bound counts how often a dropped
message may itself interrupt; each drop sets a bit that is then already set. -/
def State.aplicRaise : Nat → State → Nat → State
  | 0, s, _ => s
  | n + 1, s, i =>
    let up (s : State) (sup : Bool) : State :=
      if (s.aplic sup).srcCfg i = 6 then s.aplicPendWith (fun t j => State.aplicRaise n t j) sup i else s
    up (up s false) true

/-- What follows a change of a page's interrupt registers: a source that rises is raised. -/
def State.irqEdge (s : State) (p : Page) (old : Bool) : State :=
  if !old && s.srcLevel p then s.aplicRaise 4 (aplicSource p) else s

/-- Sets bit i of BLK_INT_STAT (R58). -/
def State.setInt (s : State) (p : Page) (i : Nat) : State := (s.orInt p (2 ^ i)).irqEdge p (s.srcLevel p)

def State.msiTo (s : State) (p : Page) (h file ident : Nat) : State :=
  s.msiWith (fun t j => t.aplicRaise 4 j) p h file ident

def State.aplicSend (s : State) (sup : Bool) (i : Nat) : State := s.aplicSendWith (fun t j => t.aplicRaise 4 j) sup i

def State.aplicPend (s : State) (sup : Bool) (i : Nat) : State := s.aplicPendWith (fun t j => t.aplicRaise 4 j) sup i

/-- 32 bits of a bit array, word n. -/
def bits32 (m : List (Nat × Bool)) (n : Nat) : Nat :=
  (List.range 32).foldl (fun v b => v + b2n (mget (fun _ => false) m (n * 32 + b)) * 2 ^ b) 0

/-- Bits of a word, as the numbers of sources. -/
def srcsOf (n v : Nat) : List Nat := ((List.range 32).filter (bitOf v ·)).map (n * 32 + ·)

/-- A read of a domain register. -/
def State.aplicRead (s : State) (sup : Bool) (off : Nat) : Nat :=
  let d := s.aplic sup
  if off = 0 then 0x80000004 + b2n d.ie * 2 ^ 8
  else if off < 0x1000 then d.srcCfg (off / 4)
  else if 0x1C00 ≤ off ∧ off < 0x1C80 then bits32 d.ip ((off - 0x1C00) / 4)
  else if 0x1E00 ≤ off ∧ off < 0x1E80 then bits32 d.en ((off - 0x1E00) / 4)
  else if off = 0x3000 then d.genmsi
  else if 0x3004 ≤ off ∧ off < 0x4000 then mget (fun _ => 0) d.target ((off - 0x3000) / 4)
  else 0

/-- The sourcecfg value that a write leaves: Inactive, Detached and Level1, and in the root domain a delegation. -/
def srcCfgOf (sup : Bool) (v : Nat) : Nat :=
  if bitOf v 10 then (if sup then 0 else 2 ^ 10) else if v % 8 = 1 ∨ v % 8 = 6 then v % 8 else 0

/-- A write of a domain register. -/
def State.aplicWrite (s : State) (sup : Bool) (off v : Nat) : State :=
  let d := s.aplic sup
  let setEn (is : List Nat) (b : Bool) : State :=
    let s1 := s.setAplic sup { d with en := (is.filter (s.aplicActive sup ·)).foldl (fun m i => mput (fun _ => false) m i b) d.en }
    if b then is.foldl (fun t i => t.aplicSend sup i) s1 else s1
  let setIp (is : List Nat) : State := is.foldl (fun t i => t.aplicPend sup i) s
  let clrIp (is : List Nat) : State :=
    s.setAplic sup { d with ip := is.foldl (fun m i => mput (fun _ => false) m i false) d.ip }
  if off = 0 then
    let s1 := s.setAplic sup { d with ie := bitOf v 8 }
    if bitOf v 8 then (List.range 1024).foldl (fun t i => t.aplicSend sup i) s1 else s1
  else if off < 0x1000 then s.setAplic sup { d with cfg := mput (fun _ => 0) d.cfg (off / 4) (srcCfgOf sup v) }
  else if 0x1C00 ≤ off ∧ off < 0x1C80 then setIp (srcsOf ((off - 0x1C00) / 4) v)
  else if off = 0x1CDC ∨ off = 0x2000 then setIp [v % 1024]
  else if 0x1D00 ≤ off ∧ off < 0x1D80 then clrIp (srcsOf ((off - 0x1D00) / 4) v)
  else if off = 0x1DDC then clrIp [v % 1024]
  else if 0x1E00 ≤ off ∧ off < 0x1E80 then setEn (srcsOf ((off - 0x1E00) / 4) v) true
  else if off = 0x1EDC then setEn [v % 1024] true
  else if 0x1F00 ≤ off ∧ off < 0x1F80 then setEn (srcsOf ((off - 0x1F00) / 4) v) false
  else if off = 0x1FDC then setEn [v % 1024] false
  else if off = 0x3000 then
    let h := v / 2 ^ 18
    (s.setAplic sup { d with genmsi := withBits (v % 2048) 18 14 h }).msiTo (cpuclPageOf s h) h (b2n sup) (v % 2048)
  else if 0x3004 ≤ off ∧ off < 0x4000 then
    s.setAplic sup { d with target := mput (fun _ => 0) d.target ((off - 0x3000) / 4) (v % 2 ^ 32) }
  else s

end Sys2Proof.Machine
end

