-- ==== Sys2Proof/Machine/Ops.lean ====
section
/-!
DEFINITION. The operations every family shares: counters, events, errors, locks and the writing of registers
(spec/00_scope.md R6 to R15, spec/02_register_pages.md R46 to R64, spec/20_fault_containment.md R546, R548, R551).
-/
namespace Sys2Proof.Machine

/-! Interrupts, counters and errors. -/

/-- Adds n to a saturating counter; reaching its maximum raises COUNTER_SAT (R551). -/
def State.bump (s : State) (p : Page) (f : RegField) (n : Nat := 1) (i : Nat := 0) : State :=
  let top := 2 ^ f.w - 1
  let old := s.fld p f i
  let s' := s.setFld p f (min (old + n) top) i
  if old < top ∧ top ≤ old + n then
    match satBit p.blk with
    | some b => s'.setInt p b
    | none => s'
  else s'

/-- Adds n to a saturating counter whose saturation raises bit b of its page (R153). -/
def State.bumpBit (s : State) (p : Page) (f : RegField) (n b : Nat) : State :=
  let top := 2 ^ f.w - 1
  let old := s.fld p f
  let s' := s.setFld p f (min (old + n) top)
  if old < top ∧ top ≤ old + n then s'.setInt p b else s'

/-- Adds n to a 64-bit counter pair, which does not wrap in service life (R550). -/
def State.bump64 (s : State) (p : Page) (lo : Nat) (n : Nat := 1) : State := s.setReg64 p lo (s.reg64 p lo + n)

/-- The schedule is running, so that events carry STEP and BEAT (R14; log entry 5). -/
def State.inStep (s : State) : Bool := s.sched.state.inStep

/-- The key of an event source: type code, die, instance. -/
def srcKey (code pd inst : Nat) : Nat := (code * 64 + pd) * 64 + inst

/-- A source stamps an event and queues it; a full queue of 16 discards it and counts it lost (R546). beat: the beat of
the event where it is not this one. -/
def State.reportAs (s : State) (blk pd inst num : Nat) (data : Nat) (deviation : Bool := false)
    (beat : Option Nat := none) : State :=
  let k := srcKey blk pd inst
  let e : Event :=
    { timestamp := s.clock.time
      step := if s.inStep then BitVec.ofNat 48 s.sched.step.toNat else 0
      beat := if s.inStep then BitVec.ofNat 18 (beat.getD s.sched.beat) else 0
      stepValid := s.inStep, deviation := deviation, pdie := pd, blkType := blk, inst := inst
      code := BitVec.ofNat 16 (blk * 256 + num), data := BitVec.ofNat 64 data }
  let q := mget (fun _ => {}) s.evq k
  let q' : SrcQ := if q.q.length < 16 then { q with q := q.q ++ [e] }
    else { q with lost := if q.lost = 0xFFFFFFFF then q.lost else q.lost + 1 }
  { s with evq := mput (fun _ => {}) s.evq k q' }

/-- The physical die an event of the page reports: the management die for a package-wide block (R14). -/
def State.hostPd (s : State) (p : Page) : PD := if isPackage p.blk then s.mgmtPd else p.pd

/-- An event of a page's block (R546, R548). -/
def State.report (s : State) (p : Page) (num data : Nat) (deviation : Bool := false) (beat : Option Nat := none) : State :=
  s.reportAs (blkCode p.blk) (s.hostPd p).val p.inst.val num data deviation beat

/-- An event whose DATA the spec does not lay out: a free value (log entry 10). -/
def State.reportOpen (s : State) (p : Page) (num : Nat) : State :=
  { s.report p num (Config.freeDWord s.freeCtr 0).toNat with freeCtr := s.freeCtr + 1 }

/-- The stream identifier of a register requester (R483). -/
def sidOf : Requester → Nat
  | .hart h => 0x1000 + h.val
  | .cluster pd c => 0x6000 + pd.val * 4 + c.val
  | .debug pd => 0x7000 + pd.val

/-- Captures the first error after BLK_STAT.ERR was last clear and raises the ERR interrupt (R58, R61). -/
def State.capture (s : State) (p : Page) (code off source data : Nat) (info2 : Nat := 0) (info3 : Nat := 0) : State :=
  if s.flag p Reg.BLK_STAT_ERR then s
  else
    ((((((s.setFlag p Reg.BLK_STAT_ERR true).setReg p 0x020 (BitVec.ofNat 32 (code + off * 2 ^ 16 + source * 2 ^ 28))).setReg
      p 0x024 (BitVec.ofNat 32 data)).setReg p 0x028 (BitVec.ofNat 32 info2)).setReg p 0x02C (BitVec.ofNat 32 info3)).setInt p 0)

/-- A block-internal error, SOURCE 0 (R61). -/
def State.blockErr (s : State) (p : Page) (num data info2 info3 : Nat) : State :=
  s.capture p (blkCode p.blk * 256 + num) 0 0 data info2 info3

/-- A header error with SOURCE 1 to 4: captured and recorded (R61, R705). -/
def State.headerError (s : State) (p : Page) (source off : Nat) (who : Requester) (value : Word) : State :=
  let v := if source = 4 then 0 else value.toNat
  (s.capture p (blkCode p.blk * 256 + 0xF0 + source) off source v).report p (0xF0 + source)
    (off % 4096 + source * 2 ^ 12 + sidOf who * 2 ^ 16 + v * 2 ^ 32)

/-! Locks (R63, R64) and the write of a register's fields. -/

/-- One more write performed at the page (R59). -/
def State.countWrite (s : State) (p : Page) : State :=
  s.setFld p Reg.BLK_SYNC_WRITE_COUNT ((s.fld p Reg.BLK_SYNC_WRITE_COUNT + 1) % 2 ^ 31)

def State.setLock (s : State) (p : Page) (l : Lock) : State := s.setPage p { s.page p with lock := l }

def State.unlockedFor (s : State) (p : Page) (who : Requester) : Bool := (s.page p).lock == .unlocked who

/-- A write by the recorded requester to another register between the two keys clears ARMED (R64 item 3). -/
def State.disarm (s : State) (p : Page) (who : Requester) : State :=
  if (s.page p).lock = .armed who then s.setLock p .locked else s

/-- The value a written field holds, by its access code (R6). -/
def RegField.written (f : RegField) (old v : Nat) : Nat :=
  match f.acc with
  | .ro | .sc => old
  | .rw | .wo => v
  | .w1c => old &&& (2 ^ f.w - 1 - v)
  | .w1s => old ||| v

/-- The value is one the field's encoding permits (R9). -/
def RegField.permits (f : RegField) (v : Nat) : Bool := f.ok.isEmpty || f.ok.any (fun (a, b) => decide (a ≤ v) && decide (v ≤ b))

/-- The next free value of the spec's undefined results: the counter that picks it, advanced. -/
def State.nextFree (s : State) : State := { s with freeCtr := s.freeCtr + 1 }

end Sys2Proof.Machine
end

