-- ==== Sys2Proof/Machine/CoreIsa.lean ====
section
/-!
DEFINITION. The instructions of tile programs and their decoding from 64-bit words
(spec/05_matrix_core_programming.md R134 to R136, R144, R151 reasons 0x01 and 0x02).
-/
namespace Sys2Proof.Machine

/-- A tile-program instruction with its fields (R136). -/
inductive TInstr where
  | nop | halt | step | sfence
  | lset (n count : Nat)
  | lbnz (n : Nat) (off : Int)
  | jmp (off : Int)
  | alt (cls index count : Nat)
  | syncb (beat : Nat)
  | amovi (d imm : Nat)
  | aaddi (d s : Nat) (imm : Int)
  | aadd (d s t : Nat)
  | aidx (d s n : Nat) (imm : Int)
  | tsetb (n s : Nat)
  | tsetg (n fmt width rows pitch : Nat)
  | tadv (n : Nat) (delta : Int)
  | kset (k : Nat) (half : Bool) (imm : Nat)
  | wld (bsel t k : Nat)
  | str (bsel t : Nat) (set wide : Bool) (accBase tileId : Nat)
  | drn (t ofmt : Nat) (sat rsEn csEn : Bool) (rs cs : Nat) (dst : Bool) (vd tileId accBase : Nat)
  | vmv (vd vs ntok t : Nat) (src : Bool) (a wfmt : Nat)
  | vld (v : Nat) (space : Bool) (t a fmt : Nat)
  | vst (v : Nat) (space : Bool) (t a fmt : Nat) (sat : Bool)
  | vop (func vd va vb vc : Nat) (bf16 bcast : Bool)
  | tsop (op cls ldie index value : Nat)
  | mvr (mover a : Nat) (cpl : Bool) (cts : Nat)
deriving DecidableEq, Repr

/-- Every bit of [57:0] outside the listed fields (low bit, width) is 0 (R134). -/
def onlyFields (n : Nat) (fs : List (Nat × Nat)) : Bool := fs.foldl (fun m f => withBits m f.1 f.2 0) (n % 2 ^ 58) == 0

/-- An instruction whose reserved bits are 0 and whose fields are legal, or reason 0x02. -/
def legal (n : Nat) (fs : List (Nat × Nat)) (ok : Bool) (i : TInstr) : Except Nat TInstr :=
  if onlyFields n fs && ok then .ok i else .error 0x02

/-- The fields that every pool or private Turnstile selector obeys (R136, R253). -/
def tsFieldOk (cls index : Nat) : Bool := decide (cls < 2) && (cls != 0 || decide (index < 64))

/-- Opcode of a word. -/
def opcodeOf (w : DWord) : Nat := bitsOf w.toNat 58 6

/-- An instruction word decoded (R134 to R136): reason 0x01 for a reserved opcode, 0x02 for a reserved bit or field
value. ldies is the number of logical dies (R253). -/
def decodeT (ldies : Nat) (w : DWord) : Except Nat TInstr :=
  let n := w.toNat
  let f (lo wd : Nat) := bitsOf n lo wd
  let b (i : Nat) := bitOf n i
  let sg (wd : Nat) := signedOf (f 0 wd) wd
  match opcodeOf w with
  | 0x00 => legal n [] true .nop
  | 0x01 => legal n [] true .halt
  | 0x02 => legal n [(54, 4), (0, 32)] true (.lset (f 54 4) (f 0 32))
  | 0x03 => legal n [(54, 4), (0, 16)] true (.lbnz (f 54 4) (sg 16))
  | 0x04 => legal n [(0, 16)] true (.jmp (sg 16))
  | 0x05 => legal n [(56, 2), (44, 12), (40, 4)] (tsFieldOk (f 56 2) (f 44 12)) (.alt (f 56 2) (f 44 12) (f 40 4))
  | 0x06 => legal n [(0, 18)] (decide (f 0 18 < 240000)) (.syncb (f 0 18))
  | 0x07 => legal n [] true .step
  | 0x10 => legal n [(53, 5), (0, 53)] true (.amovi (f 53 5) (f 0 53))
  | 0x11 => legal n [(53, 5), (48, 5), (0, 32)] true (.aaddi (f 53 5) (f 48 5) (sg 32))
  | 0x12 => legal n [(53, 5), (48, 5), (43, 5)] true (.aadd (f 53 5) (f 48 5) (f 43 5))
  | 0x13 => legal n [(53, 5), (48, 5), (44, 4), (0, 24)] true (.aidx (f 53 5) (f 48 5) (f 44 4) (sg 24))
  | 0x18 => legal n [(54, 4), (49, 5)] true (.tsetb (f 54 4) (f 49 5))
  | 0x19 =>
    legal n [(54, 4), (51, 3), (49, 2), (38, 11), (0, 16)]
      (decide (f 51 3 < 4) && decide (1 ≤ f 38 11) && decide (f 38 11 ≤ 1024) && f 0 16 != 0)
      (.tsetg (f 54 4) (f 51 3) (f 49 2) (f 38 11) (f 0 16))
  | 0x1A => legal n [(54, 4), (0, 32)] true (.tadv (f 54 4) (sg 32))
  | 0x1B => legal n [(56, 2), (55, 1), (0, 32)] true (.kset (f 56 2) (b 55) (f 0 32))
  | 0x20 => legal n [(56, 2), (52, 4), (50, 2)] (f 56 2 != 3) (.wld (f 56 2) (f 52 4) (f 50 2))
  | 0x21 =>
    legal n [(56, 2), (52, 4), (51, 1), (50, 1), (32, 10), (16, 16)] (f 56 2 != 3)
      (.str (f 56 2) (f 52 4) (b 51) (b 50) (f 32 10) (f 16 16))
  | 0x22 =>
    legal n [(54, 4), (51, 3), (50, 1), (49, 1), (48, 1), (43, 5), (38, 5), (37, 1), (32, 5), (16, 16), (0, 10)]
      (decide (f 51 3 < 4))
      (.drn (f 54 4) (f 51 3) (b 50) (b 49) (b 48) (f 43 5) (f 38 5) (b 37) (f 32 5) (f 16 16) (f 0 10))
  | 0x23 => legal n [] true .sfence
  | 0x28 =>
    legal n [(53, 5), (48, 5), (44, 3), (40, 4), (39, 1), (34, 5), (31, 3)] true
      (.vmv (f 53 5) (f 48 5) (f 44 3) (f 40 4) (b 39) (f 34 5) (f 31 3))
  | 0x29 =>
    legal n [(53, 5), (52, 1), (48, 4), (43, 5), (40, 3)] (decide (f 40 3 < 4)) (.vld (f 53 5) (b 52) (f 48 4) (f 43 5) (f 40 3))
  | 0x2A =>
    legal n [(53, 5), (52, 1), (48, 4), (43, 5), (40, 3), (39, 1)] (decide (f 40 3 < 4))
      (.vst (f 53 5) (b 52) (f 48 4) (f 43 5) (f 40 3) (b 39))
  | 0x2B =>
    legal n [(52, 6), (47, 5), (42, 5), (37, 5), (32, 5), (31, 1), (30, 1)] (decide (f 52 6 < 14))
      (.vop (f 52 6) (f 47 5) (f 42 5) (f 37 5) (f 32 5) (b 31) (b 30))
  | 0x30 =>
    legal n [(56, 2), (54, 2), (48, 6), (36, 12), (0, 32)]
      (!b 31 && f 54 2 != 3 && (f 54 2 != 0 || decide (f 36 12 < 64)) &&
        (f 54 2 != 2 || (decide (f 56 2 < 2) && decide (f 48 6 < ldies))))
      (.tsop (f 56 2) (f 54 2) (f 48 6) (f 36 12) (f 0 32))
  | 0x34 => legal n [(56, 2), (51, 5), (50, 1), (44, 6)] true (.mvr (f 56 2) (f 51 5) (b 50) (f 44 6))
  | _ => .error 0x01

/-! Tile descriptors (R131, R132). -/

def tdBase (t : BitVec 128) : Nat := bitsOf t.toNat 0 33
def tdPitch (t : BitVec 128) : Nat := bitsOf t.toNat 64 16
def tdRows (t : BitVec 128) : Nat := bitsOf t.toNat 80 11
def tdFmt (t : BitVec 128) : Nat := bitsOf t.toNat 91 3
/-- Row width in bytes. -/
def tdWidth (t : BitVec 128) : Nat := 128 * 2 ^ bitsOf t.toNat 94 2

/-- BASE replaced (TSETB, TADV). -/
def tdSetBase (t : BitVec 128) (b : Nat) : BitVec 128 := BitVec.ofNat 128 (withBits t.toNat 0 33 b)

/-- A descriptor's row geometry set (TSETG). -/
def tdSetGeom (t : BitVec 128) (fmt width rows pitch : Nat) : BitVec 128 :=
  BitVec.ofNat 128 (withBits (withBits (withBits (withBits t.toNat 91 3 fmt) 94 2 width) 80 11 rows) 64 16 pitch)

/-- The reason an invalid descriptor stops the core, none where it meets R132. -/
def tdCheck (ld : Nat) (t : BitVec 128) : Option Nat :=
  let a := tdBase t
  let bank := bitsOf a 21 6
  let off := bitsOf a 0 21
  if tdRows t = 0 then some 0x04
  else if bitsOf a 27 6 ≠ ld ∨ a % 128 ≠ 0 ∨ 63 < bank + tdWidth t / 128 - 1 ∨
      1572864 ≤ off + (tdRows t - 1) * tdPitch t * 128 + 127 then some 0x0D
  else none

/-- The scratch address of segment j of row r (R131). -/
def tdSeg (t : BitVec 128) (r j : Nat) : Nat := tdBase t + j * 2 ^ 21 + r * tdPitch t * 128

/-! Stripe configurations (R133, R81). -/

def kMask (k : DWord) : BitVec 16 := k.setWidth 16
def kTags (k : DWord) : BitVec 48 := (k >>> 16).setWidth 48
def tagOf (t : BitVec 48) (stripe : Nat) : Nat := bitsOf t.toNat (3 * stripe) 3

/-- The weight tags of a load obey R81 for its mask. -/
def tagsOk (mask : BitVec 16) (t : BitVec 48) : Bool :=
  (List.range 16).all fun s => decide (tagOf t s < 2) || (tagOf t s == 2 && mask.getLsbD s)

end Sys2Proof.Machine
end

