-- ==== Sys2Proof/Machine/Fp.lean ====
section
/-!
DEFINITION. The arithmetic of the matrix cores: formats, exact operations with one rounding to nearest even, and
conversions (spec/03_number_formats.md R67 to R94; the functions of spec/06_vector_matrix_path.md R160 to R163).
A finite value is held exactly as sign, significand and binary exponent.
-/
namespace Sys2Proof.Machine

/-- A value of any format: NaN, an infinity, or (-1)^neg × m × 2^e exactly. -/
inductive Fv where
  | nan
  | inf (neg : Bool)
  | fin (neg : Bool) (m : Nat) (e : Int)
deriving DecidableEq, Repr

/-- A binary format: mantissa bits, bias, largest exponent of a finite value. -/
structure Fmt where
  mb : Nat
  bias : Int
  emax : Int
deriving DecidableEq, Repr

def fE4M3 : Fmt := ⟨3, 7, 8⟩
def fE5M2 : Fmt := ⟨2, 15, 15⟩
def fBF16 : Fmt := ⟨7, 127, 127⟩
def fFP32 : Fmt := ⟨23, 127, 127⟩
/-- binary64, the checker lane's format (R123). -/
def fFP64 : Fmt := ⟨52, 1023, 1023⟩

def fvZero (neg : Bool) : Fv := .fin neg 0 0

/-- m × 2^k for a non-negative shift, else the truncated quotient. -/
def shiftI (m : Nat) (k : Int) : Nat := if 0 ≤ k then m * 2 ^ k.toNat else m / 2 ^ (-k).toNat

/-- Round to nearest, ties to even, at quantum 2^q (R73). -/
def rneAt (m : Nat) (e q : Int) : Nat :=
  if q ≤ e then shiftI m (e - q)
  else
    let k := (q - e).toNat
    let t := m / 2 ^ k
    let r := m % 2 ^ k
    let h := 2 ^ (k - 1)
    if r < h then t else if h < r then t + 1 else t + t % 2

/-- Rounds a value once to a format; a magnitude beyond the largest finite value becomes an infinity (R78, R88). -/
def rnd (f : Fmt) : Fv → Fv
  | .nan => .nan
  | .inf n => .inf n
  | .fin n m e =>
    if m = 0 then fvZero n
    else
      let top : Int := e + (Nat.log2 m : Int)
      let q : Int := max (top - f.mb) (1 - f.bias - f.mb)
      let r := rneAt m e q
      let q' : Int := if r = 2 ^ (f.mb + 1) then q + 1 else q
      let r' : Nat := if r = 2 ^ (f.mb + 1) then 2 ^ f.mb else r
      if r' = 0 then fvZero n
      else if f.emax - f.mb < q' then .inf n else .fin n r' q'

def fneg : Fv → Fv
  | .nan => .nan
  | .inf n => .inf !n
  | .fin n m e => .fin (!n) m e

def fabs : Fv → Fv
  | .nan => .nan
  | .inf _ => .inf false
  | .fin _ m e => .fin false m e

/-- The exact product (R76, R78, R79). -/
def fmul : Fv → Fv → Fv
  | .nan, _ => .nan
  | _, .nan => .nan
  | .inf a, .inf b => .inf (a != b)
  | .inf a, .fin b m _ => if m = 0 then .nan else .inf (a != b)
  | .fin a m _, .inf b => if m = 0 then .nan else .inf (a != b)
  | .fin a m e, .fin b n g => .fin (a != b) (m * n) (e + g)

/-- The exact sum, with the zero signs of R79. -/
def fadd : Fv → Fv → Fv
  | .nan, _ => .nan
  | _, .nan => .nan
  | .inf a, .inf b => if a = b then .inf a else .nan
  | .inf a, .fin _ _ _ => .inf a
  | .fin _ _ _, .inf b => .inf b
  | .fin a m e, .fin b n g =>
    if m = 0 ∧ n = 0 then fvZero (a && b)
    else
      let q := min e g
      let x : Int := (if a then -1 else 1) * (shiftI m (e - q) : Int)
      let y : Int := (if b then -1 else 1) * (shiftI n (g - q) : Int)
      let z := x + y
      if z = 0 then fvZero false else .fin (decide (z < 0)) z.natAbs q

/-- Decodes a format's bits (R68 to R70): mb mantissa bits, eb exponent bits; ofp is E4M3's rule that only the
all-ones mantissa is NaN and nothing is infinite. -/
def decodeFv (f : Fmt) (eb : Nat) (ofp : Bool) (w : Nat) : Fv :=
  let m := w % 2 ^ f.mb
  let e := w / 2 ^ f.mb % 2 ^ eb
  let n := w / 2 ^ (f.mb + eb) % 2 == 1
  if e = 2 ^ eb - 1 ∧ ofp = false then (if m = 0 then .inf n else .nan)
  else if e = 2 ^ eb - 1 ∧ m = 2 ^ f.mb - 1 then .nan
  else if e = 0 then (if m = 0 then fvZero n else .fin n m (1 - f.bias - f.mb))
  else .fin n (2 ^ f.mb + m) ((e : Int) - f.bias - f.mb)

/-- Encodes a rounded finite value, mantissa and exponent fields. -/
def encodeFin (f : Fmt) (eb : Nat) (n : Bool) (m : Nat) (e : Int) : Nat :=
  let s := if n then 2 ^ (f.mb + eb) else 0
  if m = 0 then s
  else
    let q : Int := max (e + (Nat.log2 m : Int) - f.mb) (1 - f.bias - f.mb)
    let m' := shiftI m (e - q)
    if m' < 2 ^ f.mb then s + m' else s + ((q + f.mb + f.bias).toNat * 2 ^ f.mb + (m' - 2 ^ f.mb))

/-- Format codes of R67. -/
abbrev FmtCode := Nat

def fmtWidth (c : FmtCode) : Nat := if c ≤ 1 then 1 else if c = 2 then 2 else 4

/-- The value of an encoding under a format code (R68 to R72, R87); reserved codes read as FP32. -/
def decodeFmt (c : FmtCode) (w : Nat) : Fv :=
  match c with
  | 0 => decodeFv fE4M3 4 true w
  | 1 => decodeFv fE5M2 5 false w
  | 2 => decodeFv fBF16 8 false w
  | _ => decodeFv fFP32 8 false w

def decode32 (w : Word) : Fv := decodeFv fFP32 8 false w.toNat
def decode16 (w : Nat) : Fv := decodeFv fBF16 8 false w

/-- The FP32 encoding of a value already rounded to FP32; NaN is canonical (R72). -/
def encode32 : Fv → Word
  | .nan => 0x7FC00000
  | .inf n => if n then 0xFF800000 else 0x7F800000
  | .fin n m e => BitVec.ofNat 32 (encodeFin fFP32 8 n m e)

/-- The binary64 encoding of a value rounded to binary64. -/
def encode64 : Fv → DWord
  | .nan => 0x7FF8000000000000
  | .inf n => if n then 0xFFF0000000000000 else 0x7FF0000000000000
  | .fin n m e => BitVec.ofNat 64 (encodeFin fFP64 11 n m e)

/-- Narrows an FP32 value to a drain format with one rounding (R88 to R90). -/
def narrow (c : FmtCode) (sat : Bool) (x : Fv) : Nat :=
  match c with
  | 0 =>
    match x with
    | .nan => 0x7F
    | .inf n => if sat then (if n then 0xFE else 0x7E) else 0x7F
    | .fin n m e =>
      match rnd ⟨3, 7, 1000⟩ (.fin n m e) with
      | .fin n' m' e' =>
        if m' = 0 then (if n' then 0x80 else 0)
        else if 448 < shiftI m' e' ∨ (0 ≤ e' ∧ 448 < m' * 2 ^ e'.toNat) then
          (if sat then (if n' then 0xFE else 0x7E) else 0x7F)
        else encodeFin fE4M3 4 n' m' e'
      | _ => 0x7F
  | 1 =>
    match rnd fE5M2 x with
    | .nan => 0x7E
    | .inf n => if n then 0xFC else 0x7C
    | .fin n m e => encodeFin fE5M2 5 n m e
  | 2 =>
    match rnd fBF16 x with
    | .nan => 0x7FC0
    | .inf n => if n then 0xFF80 else 0x7F80
    | .fin n m e => encodeFin fBF16 8 n m e
  | _ => (encode32 x).toNat

/-- The encoding is a NaN of the format (R68 to R70). -/
def isNanCode (c : FmtCode) (w : Nat) : Bool := match decodeFmt c w with | .nan => true | _ => false
/-- The encoding is an infinity of the format. -/
def isInfCode (c : FmtCode) (w : Nat) : Bool := match decodeFmt c w with | .inf _ => true | _ => false

def isSpecial : Fv → Bool
  | .fin _ _ _ => false
  | _ => true

/-- Rounded FP32 operations. -/
def add32 (a b : Fv) : Fv := rnd fFP32 (fadd a b)
def mul32 (a b : Fv) : Fv := rnd fFP32 (fmul a b)
def fma32 (a b c : Fv) : Fv := rnd fFP32 (fadd (fmul a b) c)

/-- x ≤ y for finite and infinite values. -/
def fle : Fv → Fv → Bool
  | .nan, _ => false
  | _, .nan => false
  | .inf a, .inf b => a || !b
  | .inf a, .fin _ _ _ => a
  | .fin _ _ _, .inf b => !b
  | x, y =>
    match fadd x (fneg y) with
    | .fin n m _ => n || m == 0
    | _ => false

/-- VMAX and VMIN of R161. -/
def fmax (a b : Fv) : Fv :=
  match a, b with
  | .nan, _ => .nan
  | _, .nan => .nan
  | .fin na ma _, .fin nb mb _ => if ma = 0 ∧ mb = 0 then fvZero (na && nb) else if fle a b then b else a
  | _, _ => if fle a b then b else a

def fmin (a b : Fv) : Fv :=
  match a, b with
  | .nan, _ => .nan
  | _, .nan => .nan
  | .fin na ma _, .fin nb mb _ => if ma = 0 ∧ mb = 0 then fvZero (na || nb) else if fle a b then a else b
  | _, _ => if fle a b then a else b

/-- A positive value known to lie strictly between m × 2^e and (m + 1) × 2^e, or to equal the first when exact: one
more bit holds which, so that one rounding gives the exact result's rounding. -/
def sticky (n : Bool) (m : Nat) (e : Int) (exact : Bool) : Fv := .fin n (2 * m + (if exact then 0 else 1)) (e - 1)

/-- 1 ÷ x, exact but for a sticky bit (R161). -/
def frcp : Fv → Fv
  | .nan => .nan
  | .inf n => fvZero n
  | .fin n m e =>
    if m = 0 then .inf n
    else
      let k := Nat.log2 m + 64
      sticky n (2 ^ k / m) (-e - k) (2 ^ k % m == 0)

/-- Integer square root, rounded down, by bits from 2^b on. -/
def isqrtAt (n : Nat) : Nat → Nat → Nat
  | 0, r => if (r + 1) * (r + 1) ≤ n then r + 1 else r
  | b + 1, r =>
    let t := r + 2 ^ (b + 1)
    isqrtAt n b (if t * t ≤ n then t else r)

def isqrt (n : Nat) : Nat := isqrtAt n (Nat.log2 n / 2 + 1) 0

/-- 1 ÷ √x (R161). -/
def frsqrt : Fv → Fv
  | .nan => .nan
  | .inf n => if n then .nan else fvZero false
  | .fin n m e =>
    if m = 0 then .inf n
    else if n then .nan
    else
      let odd := e % 2 ≠ 0
      let m' := if odd then 2 * m else m
      let h : Int := (if odd then e - 1 else e) / 2
      let k := Nat.log2 m' + 64
      let r := isqrt (2 ^ (2 * k) / m')
      sticky false r (-h - k) (r * r * m' == 2 ^ (2 * k))

/-- Fraction bits carried while 2^f is formed (log entry 6). -/
def exp2Bits : Nat := 320

/-- The product of 2^(2^-i) over the set bits i of the fraction num ÷ 2^n, in fixed point: root is 2^(2^-i). -/
def exp2Loop (num n : Nat) : Nat → Nat → Nat → Nat → Nat
  | 0, _, _, acc => acc
  | fuel + 1, i, root, acc =>
    let bit := if i ≤ n then num / 2 ^ (n - i) % 2 else 0
    let acc' := if bit = 1 then acc * root / 2 ^ exp2Bits else acc
    exp2Loop num n fuel (i + 1) (isqrt (root * 2 ^ exp2Bits)) acc'

/-- 2^x (R161): the integer part sets the exponent, the fraction is formed bit by bit. -/
def fexp2 : Fv → Fv
  | .nan => .nan
  | .inf n => if n then fvZero false else .inf false
  | .fin n m e =>
    if m = 0 then .fin false 1 0
    else if 20 < e + (Nat.log2 m : Int) then (if n then .fin false 1 (-400) else .inf false)
    else if 0 ≤ e then .fin false 1 ((if n then -1 else 1) * (shiftI m e : Int))
    else
      let d := (-e).toNat
      let ip := m / 2 ^ d
      let fr := m % 2 ^ d
      if fr = 0 then .fin false 1 ((if n then -1 else 1) * (ip : Int))
      else
        let num := if n then 2 ^ d - fr else fr
        let i : Int := if n then -(ip : Int) - 1 else (ip : Int)
        sticky false (exp2Loop num d d 1 (isqrt (2 * 2 ^ (2 * exp2Bits))) (2 ^ exp2Bits)) (i - exp2Bits) false

/-- The rounding of a VOP result: FP32, or BF16 precision held as FP32 (R160). -/
def vopRound (bf16 : Bool) (x : Fv) : Word :=
  if bf16 then encode32 (rnd fBF16 x) else encode32 (rnd fFP32 x)

/-! Checker-lane arithmetic in binary64 (R123, R124). -/

def add64 (a b : Fv) : Fv := rnd fFP64 (fadd a b)
def mul64 (a b : Fv) : Fv := rnd fFP64 (fmul a b)

end Sys2Proof.Machine
end

