-- ==== Sys2Proof/Machine/CoreNum.lean ====
section
/-!
DEFINITION. What the array, the checker lane, the drain and the vector unit compute, as functions of their inputs
(spec/03_number_formats.md R76 to R91, spec/04_matrix_array.md R99, R104, R114 to R117, R123 to R126,
spec/06_vector_matrix_path.md R160 to R167).
-/
namespace Sys2Proof.Machine

/-! The weights of a bank (R99). -/

/-- Stripe s of a mask is in BF16 mode. -/
def bf16Stripe (mask : BitVec 16) (s : Nat) : Bool := mask.getLsbD s

/-- The columns that deliver a sum, ascending: every column of an FP8 stripe, the carrying columns of a BF16 one
(R114, R117). -/
def outCols (mask : BitVec 16) : List Nat :=
  (List.range 256).filter fun c => !bf16Stripe mask (c / 16) || decide (c % 4 = 3)

def WBank.byte (b : WBank) (r x : Nat) : Nat := (mget (fun _ => (0 : Byte)) b.w (r * 256 + x)).toNat

/-- The weight in the multiplier for row r of delivering column c (R99). -/
def WBank.weight (b : WBank) (r c : Nat) : Fv :=
  let s := c / 16
  let t := tagOf b.wtag s
  if bf16Stripe b.modeMask s then
    let j := c % 16 / 4
    if t = 2 then decode16 (b.byte r (16 * s + 2 * j) + 256 * b.byte r (16 * s + 2 * j + 1))
    else decodeFmt t (b.byte r (16 * s + j))
  else decodeFmt t (b.byte r c)

/-- Element r of an activation row of format fmt. -/
def actElem (fmt : Nat) (row : List Byte) (r : Nat) : Fv :=
  if fmtWidth fmt = 1 then decodeFmt fmt (row.getD r 0).toNat
  else decodeFmt fmt ((row.getD (2 * r) 0).toNat + 256 * (row.getD (2 * r + 1) 0).toNat)

/-- One cell (R76): the exact product added to the sum from above, rounded once. -/
def cell (w a psum : Fv) : Fv := rnd fFP32 (fadd psum (fmul w a))

/-- The sum of products over rows 0 to 255 in ascending order, from +0 (R76). -/
def columnSum (w a : Nat → Fv) : Fv := (List.range 256).foldl (fun p r => cell (w r) (a r) p) (fvZero false)

/-- The column sums of one activation row: (column, sum) for every delivering column (R107, R117). -/
def rowSums (b : WBank) (fmt : Nat) (row : List Byte) : List (Nat × Fv) :=
  (outCols b.modeMask).map fun c => (c, columnSum (fun r => b.weight r c) (actElem fmt row))

/-- A fault in the array: the column sum of row i, column c, has the bits of mask flipped (R123, the example after
R127). -/
structure SumFlip where
  i : Nat
  c : Nat
  mask : Word
deriving DecidableEq, Repr

def applyFlip (f : Option SumFlip) (i : Nat) (sums : List (Nat × Fv)) : List (Nat × Fv) :=
  match f with
  | none => sums
  | some x => if x.i = i then sums.map fun (c, v) => (c, if c = x.c then decode32 (encode32 v ^^^ x.mask) else v) else sums

/-- A sum entering its accumulator entry (R77, R104). -/
def accumulate (set : Bool) (old : Word) (sum : Fv) : Word :=
  encode32 (add32 (if set then fvZero false else decode32 old) sum)

/-! The checker lane, in binary64 with ascending order (R123, R124; log entry 7). -/

def sum64 (l : List Fv) : Fv := l.foldl add64 (fvZero false)

def dot64 (x y : List Fv) : Fv := (List.zip x y).foldl (fun p q => add64 p (mul64 q.1 q.2)) (fvZero false)

/-- |p - q| ≤ 2^-16 × m + 2^-k (R124). -/
def within (p q m : Fv) (k : Nat) : Bool :=
  fle (fabs (add64 p (fneg q))) (add64 (mul64 (.fin false 1 (-16)) m) (.fin false 1 (-(k : Int))))

/-- The outcome of one check (R124, R125). -/
inductive CheckRes where
  | pass | skip
  | fail (p q : DWord)
deriving DecidableEq, Repr

def check (p q m : Fv) (sums : List Fv) (k : Nat) : CheckRes :=
  if isSpecial p || isSpecial q || isSpecial m || sums.any isSpecial then .skip
  else if within p q m k then .pass
  else .fail (encode64 p) (encode64 q)

def actRow (fmt : Nat) (row : List Byte) : List Fv := (List.range 256).map (actElem fmt row)

/-- The row check of one activation row (R123). -/
def rowCheck (b : WBank) (a : List Fv) (sums : List (Nat × Fv)) : CheckRes :=
  let ws := (List.range 256).map fun r => sum64 ((outCols b.modeMask).map (b.weight r))
  let wm := (List.range 256).map fun r => sum64 ((outCols b.modeMask).map fun c => fabs (b.weight r c))
  check (dot64 a ws) (sum64 (sums.map (·.2))) (dot64 (a.map fabs) wm) (sums.map (·.2)) 130

/-- The column check of column c over the rows of a stream (R123). -/
def colCheck (b : WBank) (as : List (List Fv)) (sums : List (List (Nat × Fv))) (c : Nat) : CheckRes :=
  let t := (List.range 256).map fun r => sum64 (as.map fun a => a.getD r (fvZero false))
  let tm := (List.range 256).map fun r => sum64 (as.map fun a => fabs (a.getD r (fvZero false)))
  let col := sums.flatMap fun l => (l.filter fun x => x.1 == c).map (·.2)
  let w := (List.range 256).map fun r => b.weight r c
  check (dot64 t w) (sum64 col) (dot64 tm (w.map fabs)) col 120

/-- What a stream delivers: the column sums of its rows, the row checks and the column checks. -/
structure StreamOut where
  sums : List (List (Nat × Fv))
  rowRes : List CheckRes
  colRes : List (Nat × CheckRes)

def streamOut (b : WBank) (fmt : Nat) (rows : List (List Byte)) (flip : Option SumFlip) : StreamOut :=
  let sums := rows.zipIdx.map fun (row, i) => applyFlip flip i (rowSums b fmt row)
  let as := rows.map (actRow fmt)
  { sums := sums
    rowRes := (List.zip as sums).map fun (a, s) => rowCheck b a s
    colRes := (outCols b.modeMask).map fun c => (c, colCheck b as sums c) }

/-! Drains (R91, R184). -/

/-- One drained element (R91): row and channel scale, then narrowing. -/
def drainElem (ofmt : Nat) (sat : Bool) (rs cs : Option Fv) (acc : Word) : Nat :=
  let one : Fv := .fin false 1 0
  narrow ofmt sat (mul32 (mul32 (decode32 acc) (rs.getD one)) (cs.getD one))

/-! The vector unit (R160 to R163). -/

def lanes (f : Nat → Word) : List Word := (List.range 256).map f

/-- One stage of the reduction tree (R162). -/
def pairUp (f : Fv → Fv → Fv) : List Fv → List Fv
  | x :: y :: l => f x y :: pairUp f l
  | l => l

def reduceTree (f : Fv → Fv → Fv) : Nat → List Fv → List Fv
  | 0, l => l
  | n + 1, l => reduceTree f n (pairUp f l)

/-- A VOP's result lanes (R160 to R163): FUNC with operands a, b, c by lane. -/
def vopLanes (func : Nat) (bf16 bcast : Bool) (a b c : List Word) : List Word :=
  let la := a.map decode32
  let opb (i : Nat) : Fv := decode32 (b.getD (if bcast then 0 else i) 0)
  let el (l : List Word) (i : Nat) : Fv := decode32 (l.getD i 0)
  let each (g : Nat → Fv) : List Word := lanes fun i => vopRound bf16 (g i)
  let rf : Fv → Fv := fun x => if bf16 then rnd fBF16 x else rnd fFP32 x
  let one (l : List Fv) : List Word :=
    lanes fun i => if i = 0 then vopRound bf16 (l.headD (fvZero false)) else 0
  match func with
  | 0x00 => each fun i => fadd (el a i) (opb i)
  | 0x01 => each fun i => fadd (el a i) (fneg (opb i))
  | 0x02 => each fun i => fmul (el a i) (opb i)
  | 0x03 => each fun i => fadd (fmul (el a i) (opb i)) (el c i)
  | 0x04 => each fun i => fmax (el a i) (opb i)
  | 0x05 => each fun i => fmin (el a i) (opb i)
  | 0x06 => each fun i => fexp2 (el a i)
  | 0x07 => each fun i => frcp (el a i)
  | 0x08 => each fun i => frsqrt (el a i)
  | 0x09 => one (reduceTree (fun x y => rf (fadd x y)) 8 la)
  | 0x0A => one (reduceTree (fun x y => rf (fmax x y)) 8 la)
  | 0x0B =>
    let code := (b.getD 0 0).toNat
    let fmt := if 3 < code % 8 then 3 else code % 8
    lanes fun i => encode32 (decodeFmt fmt (narrow fmt (bitOf code 3) (el a i)))
  | 0x0C => each (el a)
  | _ => each fun _ => el a 0

/-- Beats from issue to a VOP's result (R159). -/
def vopLatency (func : Nat) : Nat := if func ≤ 5 then 4 else if func ≤ 8 then 8 else if func ≤ 10 then 12 else 4

/-- A source lane narrowed to BF16 (R86, R167). -/
def toBf16 (w : Word) : Fv := decode16 (narrow 2 false (decode32 w))

/-- The weight of column n in a row of a VMV tile (R166). -/
def vmvWeight (wfmt : Nat) (row : List Byte) (n : Nat) : Fv := actElem wfmt row n

/-- A VMV's result for one token (R167): the column sums over rows in ascending order, added to VD. -/
def vmvToken (wfmt : Nat) (tile : List (List Byte)) (src vd : List Word) : List Word :=
  lanes fun n =>
    encode32 (add32 (decode32 (vd.getD n 0))
      (columnSum (fun r => vmvWeight wfmt (tile.getD r []) n) (fun r => toBf16 (src.getD r 0))))

end Sys2Proof.Machine
end

