-- ==== Sys2Proof/Machine/Trace.lean ====
section
/-!
DEFINITION. Trace capture, deviation records and schedule errors (spec/26_test_debug.md R700,
spec/08_static_schedule.md R206, R246, R247, R249).
-/
namespace Sys2Proof.Machine

/-- Capture is on for die pd: a mode other than off, and beat 0 of step DBG_TRC_START passed (R700). -/
def State.traceOn (s : State) (pd : PD) : Bool :=
  let p := diePage .dbg pd
  let start := s.reg64 p 0x144
  s.fld p Reg.DBG_TRC_CTRL_MODE != 0 && (start == 0 || (s.inStep && decide (start ≤ s.sched.step.toNat)))

/-- One trace record taken on die pd (R700): at most two a beat; the buffer holds 16,384 entries. -/
def State.traceRec (s : State) (pd : PD) (w : Nat) : State :=
  let p := diePage .dbg pd
  let t := mget (fun _ => {}) s.traces pd.val
  let n := if t.beat = s.clock.beats.toNat then t.count else 0
  if !s.traceOn pd then s
  else if 2 ≤ n then s.bump p Reg.DBG_TRC_DROP_COUNT
  else if 16384 ≤ t.written ∧ s.fld p Reg.DBG_TRC_CTRL_MODE = 1 then s
  else
    let t' : TraceSt :=
      { buf := mput (fun _ => 0) t.buf (t.written % 16384) (BitVec.ofNat 128 w), written := t.written + 1,
        beat := s.clock.beats.toNat, count := n + 1 }
    let s1 := { s with traces := mput (fun _ => {}) s.traces pd.val t' }
    if t.written + 1 = 16384 then s1.setInt p 2 else s1

/-- A dispatch record (R700). -/
def State.traceDispatch (s : State) (pd : PD) (mc : MC) (pc op stall : Nat) : State :=
  let p := diePage .dbg pd
  let slot := s.fld p Reg.DBG_TRC_CTRL_SLOT
  if s.flag p Reg.DBG_TRC_CTRL_SRC_DISP && (slot == 31 || slot == mc.val) then
    s.traceRec pd (bitsOf s.sched.step.toNat 0 32 + s.sched.beat % 2 ^ 18 * 2 ^ 32 + mc.val * 2 ^ 51 + pc * 2 ^ 64 + op * 2 ^ 78
      + stall % 2 ^ 18 * 2 ^ 84)
  else s

/-- The lead controller's SCHED page (R228). -/
def State.leadPage (s : State) : Page := diePage .sched s.leadPd

/-- Deviation categories, as CATS bits (R205, R247). -/
inductive DevCat where
  | throttle | maint | late | replay | slip
deriving DecidableEq, Repr

def DevCat.bit : DevCat → Nat
  | .throttle => 1 | .maint => 2 | .late => 4 | .replay => 8 | .slip => 0

def DevCat.counter : DevCat → RegField
  | .throttle => Reg.SCHED_DEV_THROTTLE_COUNT
  | .maint => Reg.SCHED_DEV_MAINT_COUNT
  | .late => Reg.SCHED_DEV_LATE_COUNT
  | .replay => Reg.SCHED_DEV_REPLAY_COUNT
  | .slip => Reg.SCHED_DEV_SLIP_COUNT

/-- A deviation event (R246, R247, R250): its record, its counter, and the step's category and DEVIATED mark. -/
def State.deviate (s : State) (p : Page) (num : Nat) (cat : DevCat) (kind beats : Nat) (pc : Nat := 0) (lc : Nat := 0x3FF)
    (aux : Nat := 0) : State :=
  let s1 := s.report p num
    (min beats 0xFFFFF + pc * 2 ^ 20 + lc * 2 ^ 34 + aux * 2 ^ 44 + kind * 2 ^ 60) (deviation := true)
  let s2 := s1.bump s.leadPage cat.counter
  if !s.inStep then s2
  else
    let s3 := if s.sched.deviated then s2 else s2.setInt s.leadPage 2
    { s3 with sched := { s3.sched with cats := s3.sched.cats ||| cat.bit, deviated := true } }

/-- A schedule error of the running step (R232, R249): the first is captured and kept; its job ends with code. -/
def State.schedError (s : State) (reason lc pc code : Nat) : State :=
  let s1 := (s.blockErr s.leadPage 4 0 (lc + pc * 2 ^ 16) reason).report s.leadPage 4 (reason + lc * 2 ^ 8 + pc * 2 ^ 18)
  if s.sched.stepErr.isSome then s1
  else { s1 with sched := { s1.sched with stepErr := some ⟨reason, lc, pc, code⟩ } }

/-- The descriptor of a job step (R218, R219). -/
def descOf (ds : List StepDesc) : List SeqEntry → Nat → Option StepDesc
  | [], _ => none
  | e :: es, j => if j < e.times then ds[e.desc]? else descOf ds es (j - e.times)

/-- The running step's descriptor. -/
def State.curDesc (s : State) : Option StepDesc :=
  s.sched.image.bind fun i => descOf i.descs i.seqs s.sched.jstep.toNat

/-- A step of a schedule runs: R355 names RUNNING, COMMIT and REPLAY. -/
def State.schedRuns (s : State) : Bool :=
  s.sched.state == .running || s.sched.state == .commit || s.sched.state == .replay

/-- Every core of the die holds dispatch and issue at this beat (R358, R558). -/
def State.dieHeld (s : State) (pd : PD) : Bool :=
  let now := s.clock.beats.toNat
  s.sched.dieHolds.any fun h => h.pd == pd.val && decide (h.start ≤ now) && decide (now < h.stop)

/-- A state change by the debug block (R206). -/
def State.debugTouch (s : State) (pd : PD) : State :=
  if s.sched.state = .running ∨ s.sched.state = .commit ∨ s.sched.state = .replay then
    s.setFlag (diePage .sched pd) Reg.SCHED_STAT_DEBUG_TOUCHED true
  else s

end Sys2Proof.Machine
end

