-- ==== Sys2Proof/Machine/PowerBase.lean ====
section
/-!
DEFINITION. What other blocks share with the Ringmaster: agents, activity counts, ALERT_N, platform events, temperatures
and the plan of a job (spec/21_power_thermal.md R567, R571, R572, R579, R580, spec/23_pcie_management.md R623, R624).
-/
namespace Sys2Proof.Machine

def rmPage : Page := pkgPage .rmstr
def tbPage : Page := pkgPage .timebase
def pagentPage (pd : PD) : Page := diePage .pagent pd

def State.agent (s : State) (pd : PD) : AgentSt := mget (fun _ => {}) s.power.agents pd.val

def State.setAgent (s : State) (pd : PD) (a : AgentSt) : State :=
  { s with power := { s.power with agents := mput (fun _ => {}) s.power.agents pd.val a } }

def State.attrSlot (s : State) (i : Nat) : AttrSlot := mget (fun _ => {}) s.power.slots i

def State.setAttrSlot (s : State) (i : Nat) (v : AttrSlot) : State :=
  { s with power := { s.power with slots := mput (fun _ => {}) s.power.slots i v } }

/-! Activity (R579, R580). -/

/-- The slot that a context's activity goes to; 62 for a context no slot names and for activity without one. -/
def State.slotFor (s : State) (ctx : Option Nat) : Nat :=
  match ctx with
  | none => 62
  | some c => ((List.range 62).find? fun i => (s.attrSlot i).valid && (s.attrSlot i).ctx == c).getD 62

/-- n events of a class counted by the agent of a die. -/
def State.actAdd (s : State) (pd : PD) (ctx : Option Nat) (cls n : Nat) : State :=
  if n = 0 then s
  else
    let a := s.agent pd
    let k := s.slotFor ctx * 16 + cls
    s.setAgent pd { a with act := mput (fun _ => 0) a.act k ((mget (fun _ => 0) a.act k + n) % 2 ^ 64) }

/-- n Tier S lines accessed on a logical die. -/
def State.actTierS (s : State) (ld : Nat) (ctx : Option Nat) (n : Nat) : State :=
  match s.pdOfLd ld with
  | some pd => s.actAdd pd ctx 4 n
  | none => s

/-- Default energies of the classes, in fJ. -/
def coefReset (c : Nat) : Nat := [45, 45, 60, 150, 153600, 460800, 10400000, 13000000, 5000000, 1666667].getD c 0

def State.coef (s : State) (c : Nat) : Nat := mget coefReset s.power.coef c

/-! ALERT_N and platform events (R621, R624). -/

def State.assertAlert (s : State) : State := { s with boot := { s.boot with pins := { s.boot.pins with alert := true } } }

/-- A platform event waits for the event receiver; the 65th replaces the oldest. -/
def State.platEvent (s : State) (e : PlatEvent) : State :=
  let l := s.mgmt.events
  { s with mgmt := { s.mgmt with
      events := (if l.length < 64 then l else l.tail) ++ [e], overflow := s.mgmt.overflow || decide (64 ≤ l.length) } }

/-- An ALERT_N cause for which the spec names no sensor: the sensor of its event is a free value. -/
def State.alertCause (s : State) : State :=
  (s.assertAlert.platEvent ⟨Config.freeNat s.freeCtr 0 16, false, Config.freeNat s.freeCtr 1 32, Config.freeNat s.freeCtr 2 32⟩).nextFree

/-- A state sensor changes. -/
def State.stateEvent (s : State) (sensor now was : Nat) : State := if now = was then s else s.platEvent ⟨sensor, true, now, was⟩

/-- A temperature sensor's reading and its critical threshold (R623). -/
def State.tempSensor (s : State) (id : Nat) : Nat × Nat :=
  if id = 4 then (s.fld rmPage Reg.RM_TEMP_DIE_MAX, 105)
  else if id = 5 then (s.fld rmPage Reg.RM_TEMP_STACK_MAX, 105)
  else if id < 72 then (s.fld (pagentPage (pdOf (id - 16))) Reg.PA_TEMP_TDIE, 105)
  else if id < 136 then (s.fld (pagentPage (pdOf (id - 80))) Reg.PA_TEMP_TSTACK, 105)
  else (s.fld (diePage .fchan (pdOf (bondF.getD (id - 144) 0))) Reg.FCHAN_TEMP_TDIMM, 95)

def State.sensorCrit (s : State) (id : Nat) : Bool := decide ((s.tempSensor id).2 ≤ signedOf (s.tempSensor id).1 8)

/-- Events of the sensors that went over their critical thresholds between two states. -/
def State.crossings (s was : State) (ids : List Nat) : State :=
  ids.foldl (fun (t : State) id =>
    if s.sensorCrit id = was.sensorCrit id then t else t.platEvent ⟨id, false, (s.tempSensor id).1, (was.tempSensor id).1⟩) s

/-- The hottest of the dies by a temperature field, with its position; the lowest position among equals. -/
def State.hottest (s : State) (f : RegField) (dies : List PD) : Int × Nat :=
  match dies with
  | [] => (0, 0)
  | d :: ds => ds.foldl (fun (b : Int × Nat) pd =>
      let t := signedOf (s.fld (pagentPage pd) f) 8
      if b.1 < t then (t, pd.val) else b) (signedOf (s.fld (pagentPage d) f) 8, d.val)

/-- RM_TEMP after a temperature changed, and the events of crossed thresholds. -/
def State.tempsSeen (s was : State) (pd : PD) : State :=
  let d := s.hottest Reg.PA_TEMP_TDIE ((List.finRange 56).filter fun p => s.role p != .off)
  let k := s.hottest Reg.PA_TEMP_TSTACK s.fullDies
  let s1 := ((((s.setFld rmPage Reg.RM_TEMP_DIE_MAX (d.1 % 256).toNat).setFld rmPage Reg.RM_TEMP_DIE_MAX_PD d.2).setFld rmPage
    Reg.RM_TEMP_STACK_MAX (k.1 % 256).toNat).setFld rmPage Reg.RM_TEMP_STACK_MAX_PD k.2)
  s1.crossings was [4, 5, 16 + pd.val, 80 + pd.val]

/-- A stack temperature at its die's agent (R572): from the critical temperature on until 100 °C the die is held. -/
def State.stackSeen (s : State) (pd : PD) (t : BitVec 8) : State :=
  let a := s.agent pd
  let s1 := s.setFld (pagentPage pd) Reg.PA_TEMP_TSTACK t.toNat
  let s2 := s1.tempsSeen s pd
  if 105 ≤ t.toInt ∧ !a.critStack then ((s2.setAgent pd { a with critStack := true }).setInt rmPage 6).assertAlert
  else if t.toInt ≤ 100 then s2.setAgent pd { a with critStack := false }
  else s2

/-- A DIMM temperature (R573): at its critical temperature ALERT_N is asserted and the channel reported. -/
def State.dimmSeen (s was : State) (c : Nat) : State :=
  let s1 := s.crossings was [144 + c]
  if s.sensorCrit (144 + c) && !was.sensorCrit (144 + c) then s1.assertAlert else s1

/-! The plan of a job (R567). -/

/-- The divider of a ratio code (R242). -/
def ratioDiv (r : Nat) : Nat := [4, 5, 6, 8].getD r 4

/-- The active fraction of a die (R556). -/
def State.frac (s : State) (pd : PD) : Nat := s.fld rmPage Reg.RM_FRAC_ACTIVE pd.val

/-- The record that declares a die's load in a descriptor: its own, else the 0xFF record (R224, R567). -/
def Image.actOf (img : Image) (desc ld : Nat) : Option ActRec :=
  match img.acts.find? fun r => r.desc == desc && r.ld == ld with
  | some r => some r
  | none => img.acts.find? fun r => r.desc == desc && r.ld == 0xFF

/-- Declared dynamic power of a record at a ratio, in µW: array cells at MCLK, lines of Tier N at 3.2 TB/s, of a channel at
51.2 GB/s, flits of a port at 200 GB/s (log entry 31). -/
def State.dynUw (s : State) (r : ActRec) (ratio : Nat) : Nat :=
  let f := 4800 / ratioDiv ratio
  (r.arrayPeak * 1048576 * f * s.coef 0 / 1000 + r.nAvg * 25 * s.coef 5 + r.fAvg * 400 * s.coef 6 / 1000 +
    r.jAvg * 3125 * s.coef 7 / 10000) / 1024

/-- Declared peak power at a ratio of an image whose figures hold at another, in µW. -/
def State.declUw (s : State) (r : ActRec) (init ratio : Nat) : Nat :=
  s.fld rmPage Reg.RM_STATIC_FULL_MW * 1000 + s.dynUw r init * ratioDiv init / ratioDiv ratio

/-- Some die's declared peak exceeds its budget at a ratio: the first such descriptor, logical die and power. -/
def State.planExcess (s : State) (img : Image) (ratio : Nat) : Option (Nat × Nat × Nat) :=
  (List.range img.descs.length).findSome? fun d =>
    (List.range s.fullDies.length).findSome? fun ld =>
      match img.actOf d ld, s.pdOfLd ld with
      | some r, some pd =>
        let p := s.declUw r img.ratioInit ratio
        if s.frac pd * s.fld rmPage Reg.RM_PEAK_CAP_WATTS * 1000000 < p * 65536 then some (d, ld, p) else none
      | _, _ => none

/-- The ratio request moves (R563): written to the lead controller, recorded, with its interrupt. reason: its reasons. -/
def State.ratioRequest (s : State) (new reason : Nat) : State :=
  let old := s.fld rmPage Reg.RM_STAT_REQ
  let s0 := s.setFld rmPage Reg.RM_STAT_REASON reason
  if new = old then s0
  else ((((s0.setFld rmPage Reg.RM_STAT_REQ new).setFld s.leadPage Reg.SCHED_RATIO_REQ new).report rmPage 2
    (new + old * 4 + reason * 16))).setInt rmPage 3

/-- At ARM, declared peaks are held against the budgets (R567). -/
def State.planCheck (s : State) (img : Image) : State :=
  match s.planExcess img img.ratioInit with
  | none => s
  | some (d, ld, p) =>
    let fit := ((List.range 4).find? fun r => decide (img.ratioInit ≤ r) && (s.planExcess img r).isNone).getD 3
    let s1 := (s.setFlag rmPage Reg.RM_STAT_PLAN_OVER true).report rmPage 3 (d + ld * 2 ^ 16 + p / 100000 % 2 ^ 16 * 2 ^ 32)
    let s2 := { s1 with power := { s1.power with floor := fit } }
    if s2.fld rmPage Reg.RM_STAT_REQ < fit then s2.ratioRequest fit (s2.fld rmPage Reg.RM_STAT_REASON) else s2

/-- The job reached ENDED (R566, R567): the floor goes, and the request applies directly. -/
def State.planDone (s : State) : State :=
  let s1 := s.setFlag rmPage Reg.RM_STAT_PLAN_OVER false
  { s1 with
    power := { s1.power with floor := 0 }
    sched := { s1.sched with ratioCur := s1.fld s1.leadPage Reg.SCHED_RATIO_REQ, ratioNext := none, ratioDue := none } }

/-! Gated runs (R560). -/

/-- A gated run ends or reaches the gather report: it is recorded where it lay in a step. -/
def State.recordRun (s : State) (pd : PD) : State :=
  let a := s.agent pd
  match a.run with
  | none => s
  | some r =>
    let s1 := if r.done || r.key == 0 then s else s.deviate (pagentPage pd) 1 .throttle 2 r.held
    s1.setAgent pd { s1.agent pd with run := some { r with done := true } }

/-- At the gather report every run of the step is recorded. -/
def State.recordRuns (s : State) : State := s.power.agents.foldl (fun (t : State) (x : Nat × AgentSt) => t.recordRun (pdOf x.1)) s

end Sys2Proof.Machine
end

