-- ==== Sys2Proof/Machine/TierSOps.lean ====
section
/-!
DEFINITION. Tier S: scratch addresses, reads and writes with poison and image protection, the bank calendar
(spec/10_tier_s_scratch.md R267 to R282).
-/
namespace Sys2Proof.Machine

/-- Fields of a scratch address (R269). -/
def saDie (a : Nat) : Nat := bitsOf a 27 6
def saBank (a : Nat) : Nat := bitsOf a 21 6
def saOff (a : Nat) : Nat := bitsOf a 0 21
def saOf (ld bank off : Nat) : Nat := ld * 2 ^ 27 + bank * 2 ^ 21 + off

def bankSize : Nat := 1572864

/-- A scratch address of an existing die with a valid offset (R269). -/
def State.saOk (s : State) (a : Nat) : Bool :=
  decide (a < 2 ^ 33) && decide (saDie a < s.fullDies.length) && decide (saOff a < bankSize)

/-- What a byte of Tier S that nothing has written reads as (log entry 3). -/
def tierSReset (_ : Nat) : Byte := 0

def State.tsramPage (s : State) (ld : Nat) : Page := diePage .tsram ((s.pdOfLd ld).getD 0)

def State.sRead (s : State) (a n : Nat) : List Byte := mgets tierSReset s.tierS.mem a n

/-- Slab number of a scratch address (R267). -/
def slabOf (a : Nat) : Nat := saBank a * 24 + saOff a / 65536

def slabKey (ld slab : Nat) : Nat := ld * 1536 + slab

def State.slab (s : State) (ld slab : Nat) : SlabState := mget (fun _ => .static) s.tierS.slabs (slabKey ld slab)

def State.setSlab (s : State) (ld slab : Nat) (v : SlabState) : State :=
  { s with tierS := { s.tierS with slabs := mput (fun _ => .static) s.tierS.slabs (slabKey ld slab) v } }

/-- The slab of an address is an image that writes do not change (R280). -/
def State.imageRo (s : State) (a : Nat) : Bool := s.slab (saDie a) (slabOf a) == .imageRo

/-- The addresses ÷ 16 of the 16 B words that n bytes from a touch. -/
def wordsOf (a n : Nat) : List Nat := if n = 0 then [] else (List.range ((a + n - 1) / 16 - a / 16 + 1)).map (a / 16 + ·)

/-- Bytes written, poison of wholly covered words cleared (R282). -/
def State.sPut (s : State) (a : Nat) (bs : List Byte) : State :=
  let full := (wordsOf a bs.length).filter (fun w => decide (a ≤ w * 16) && decide (w * 16 + 16 ≤ a + bs.length))
  let clr (m : List (Nat × Bool)) := full.foldl (fun m w => mput (fun _ => false) m w false) m
  { s with tierS := { s.tierS with
      mem := mputs tierSReset s.tierS.mem a bs
      poison := clr s.tierS.poison
      detected := clr s.tierS.detected
      wrote := if s.slab (saDie a) (slabOf a) = .static then s.tierS.wrote
        else mput (fun _ => false) s.tierS.wrote (slabKey (saDie a) (slabOf a)) true } }

/-- A write by a requester other than the debug block: refused on an IMAGE_RO slab, where it is counted (R280). The
flag says whether it was performed. -/
def State.sWrite (s : State) (a : Nat) (bs : List Byte) : Bool × State :=
  if s.imageRo a then
    let p := s.tsramPage (saDie a)
    (false, (s.bump p Reg.TSRAM_RO_REFUSED_COUNT).setInt p 4)
  else (true, s.sPut a bs)

/-- The first poisoned word that n bytes from a touch. -/
def State.poisonIn (s : State) (a n : Nat) : Option Nat :=
  (wordsOf a n).find? (fun w => mget (fun _ => false) s.tierS.poison w)

/-- First detection of a poisoned word (R282): event, count, captures. cls: 0 scheduled, 1 mover, 2 Carousel,
3 scrubber. -/
def State.sDetect (s : State) (w cls : Nat) : State :=
  if mget (fun _ => false) s.tierS.detected w then s
  else
    let a := w * 16
    let p := s.tsramPage (saDie a)
    let s1 := { s with tierS := { s.tierS with detected := mput (fun _ => false) s.tierS.detected w true } }
    let s2 := (((s1.setFlag p Reg.TSRAM_STAT_POISON true).report p 2 (a + cls * 2 ^ 40)).bump p Reg.TSRAM_UE_COUNT_COUNT).setInt p 2
    let s3 := if s2.flag p Reg.TSRAM_UE_ADDR_HI_VALID then s2
      else (s2.setReg p 0x128 (BitVec.ofNat 32 a)).setReg p 0x12C (BitVec.ofNat 32 (a / 2 ^ 32 + 2 ^ 31))
    s3.blockErr p 2 0 a (a / 2 ^ 32 % 2 + cls * 2 ^ 8)

/-- A double-bit error found in a word (R282). -/
def State.sPoison (s : State) (w : Nat) : State :=
  { s with tierS := { s.tierS with poison := mput (fun _ => false) s.tierS.poison w true } }

/-- n single-bit errors corrected on reads of a bank (R282). -/
def State.sCorrected (s : State) (ld bank n : Nat) : State :=
  let p := s.tsramPage ld
  let old := s.fld p Reg.TSRAM_CE_COUNT bank
  let s1 := s.bump p Reg.TSRAM_CE_COUNT n bank
  let thr := s.fld p Reg.TSRAM_CE_THR_THR
  if old < thr ∧ thr ≤ old + n then s1.setInt p 1 else s1

/-! The bank calendar (R274, R275). -/

/-- The index of the access that run r makes at beat b, if any. -/
def CalRun.at (r : CalRun) (b : Nat) : Option Nat :=
  if b < r.b0 then none
  else if r.stride = 0 then (if b = r.b0 then some 0 else none)
  else if (b - r.b0) % r.stride = 0 ∧ (b - r.b0) / r.stride < r.count then some ((b - r.b0) / r.stride) else none

/-- Two accesses of one bank-beat conflict: a write with anything, reads of different lines (R275). -/
def calClash (r t : CalRun) (i j : Nat) : Bool := r.write || t.write || (r.line0 + i * r.pitch != t.line0 + j * t.pitch)

/-- Two runs claim some bank-beat in conflict. -/
def CalRun.conflicts (r t : CalRun) : Bool :=
  decide (r.ld = t.ld) && decide (r.bank0 < t.bank0 + t.nb) && decide (t.bank0 < r.bank0 + r.nb) &&
  (List.range r.count).any fun i =>
    match t.at (r.b0 + i * r.stride) with
    | some j => calClash r t i j
    | none => false

/-- The last beat a run claims. -/
def CalRun.last (r : CalRun) : Nat := r.b0 + (r.count - 1) * r.stride

/-- The run already reserved that the new runs conflict with, if any. -/
def State.calHolder (s : State) (rs : List CalRun) : Option CalRun :=
  s.tierS.cal.find? (fun t => rs.any (fun r => r.conflicts t))

/-- Reserves runs; those wholly past are dropped. -/
def State.calReserve (s : State) (rs : List CalRun) : State :=
  let now := s.clock.beats.toNat
  { s with tierS := { s.tierS with cal := s.tierS.cal.filter (fun t => decide (now ≤ t.last)) ++ rs } }

end Sys2Proof.Machine
end

