-- ==== Sys2Proof/Machine/TsOps.lean ====
section
/-!
DEFINITION. Turnstiles: keys, values, posts and their effects, saturation, page access
(spec/09_turnstiles.md R251 to R261).
-/
namespace Sys2Proof.Machine

/-- Key of die-pool Turnstile i of physical die pd (R251). -/
def poolKey (pd : PD) (i : Nat) : Nat := pd.val * 4096 + i % 4096

/-- Key of core-private Turnstile i of a physical core. -/
def privKey (pd : PD) (mc : MC) (i : Nat) : Nat := 229376 + (pd.val * 17 + mc.val) * 64 + i % 64

/-- A key is a die pool's. -/
def keyIsPool (k : Nat) : Bool := decide (k < 229376)

/-- The physical die a Turnstile lies on. -/
def keyPd (k : Nat) : PD := if k < 229376 then pdOf (k / 4096) else pdOf ((k - 229376) / 64 / 17)

def keyMc (k : Nat) : MC := ⟨(k - 229376) / 64 % 17, Nat.mod_lt _ (by decide)⟩

def keyIndex (k : Nat) : Nat := if k < 229376 then k % 4096 else (k - 229376) % 64

/-- The slot of a physical core: its local index, or 16 for the core without a logical identity (R41). -/
def State.slotOf (s : State) (pd : PD) (mc : MC) : Nat := (s.localOf pd mc).getD 16

/-- The physical core at a slot (R41). -/
def State.mcAt (s : State) (pd : PD) (slot : Nat) : MC := if slot < 16 then s.mcOf pd slot else s.mcFree pd

def State.tsCell (s : State) (k : Nat) : TsCell := mget (fun _ => {}) s.ts.cells k

def State.setTsCell (s : State) (k : Nat) (c : TsCell) : State :=
  { s with ts := { s.ts with cells := mput (fun _ => {}) s.ts.cells k c } }

/-- The largest value of a Turnstile (R251). -/
def tsMax : Nat := 2 ^ 31 - 1

/-- Index, POOL and SLOT of a Turnstile, packed as in TS_SEL (R260, R266). -/
def State.tsSel (s : State) (k : Nat) : Nat :=
  keyIndex k + (if keyIsPool k then 2 ^ 12 else s.slotOf (keyPd k) (keyMc k) * 2 ^ 13)

/-- A Turnstile record of the trace, for a change of the one that DBG_TS_SEL selects (R700). -/
def State.traceTs (s : State) (k v : Nat) : State :=
  let p := diePage .dbg (keyPd k)
  let sel := (s.reg p 0x110).toNat % 2 ^ 18
  if s.flag p Reg.DBG_TRC_CTRL_SRC_TS && s.tsSel k == sel then
    s.traceRec (keyPd k) (bitsOf s.sched.step.toNat 0 32 + s.sched.beat % 2 ^ 18 * 2 ^ 32 + 2 ^ 50
      + (if keyIsPool k then 31 else s.slotOf (keyPd k) (keyMc k)) * 2 ^ 51 + keyIndex k * 2 ^ 64
      + b2n (keyIsPool k) * 2 ^ 76 + v * 2 ^ 78)
  else s

/-- A new value of a Turnstile with its scheduled effect beat (R257). -/
def State.tsStore (s : State) (k v tag : Nat) : State :=
  let c := s.tsCell k
  let step := s.sched.step.toNat
  let c1 := if c.step = step then c else { c with step := step, base := c.v, hist := [], adds := [] }
  let c2 := { c1 with v := v, tag := tag, hist := (v, tag) :: c1.hist }
  let s1 := s.setTsCell k c2
  if v = c.v then s1 else s1.traceTs k v

/-- Saturation or contention (R259, R260): the sticky flag, and the event or its count. kind: 0 SAT_HIGH, 1 SAT_LOW,
2 CONTENDED. -/
def State.tsMisuse (s : State) (k kind v lc src : Nat) : State :=
  let p := diePage .tstile (keyPd k)
  if (s.tsCell k).sticky then s.bump p Reg.TS_EVT_COUNT_COUNT
  else
    ((s.setTsCell k { s.tsCell k with sticky := true }).report p (kind + 1)
      (s.tsSel k + kind * 2 ^ 18 + v * 2 ^ 21 + lc * 2 ^ 52 + src * 2 ^ 62)).setInt p 1

/-- An add or a subtract of n taking effect (R252, R258, R259). -/
def State.tsApply (s : State) (k : Nat) (sub : Bool) (n tag lc src : Nat) : State :=
  let v := (s.tsCell k).v
  let v' := if sub then v - n else min (v + n) tsMax
  let s1 := s.tsStore k v' tag
  let c := s1.tsCell k
  let s2 := if sub then s1 else s1.setTsCell k { c with adds := (s.clock.beats.toNat, n) :: c.adds }
  if sub then (if v < n then s2.tsMisuse k 1 v lc src else s2)
  else if tsMax < v + n then s2.tsMisuse k 0 v lc src else s2

/-- The place of an operation in R255's order: ring operations, adds, subtracts, each by requester. -/
def TsOp.rank (o : TsOp) : Nat := ((if o.ring then 0 else if o.sub then 2 else 1) * 2 ^ 32) + o.who

/-- Inserts an operation behind those that go before it or with it. -/
def insOp (o : TsOp) : List TsOp → List TsOp
  | [] => [o]
  | x :: xs => if o.rank < x.rank then o :: x :: xs else x :: insOp o xs

def sortOps : List TsOp → List TsOp
  | [] => []
  | o :: os => insOp o (sortOps os)

/-- Operations whose effect beat has come are applied in R255's order. -/
def State.tsDue (s : State) (now : Nat) : State :=
  let due := s.ts.ops.filter (fun o => decide (o.y ≤ now))
  let s1 := { s with ts := { s.ts with ops := s.ts.ops.filter (fun o => decide (now < o.y)) } }
  (sortOps due.reverse).foldl (fun t o => t.tsApply o.key o.sub o.k o.sbeat o.lc o.src) s1

/-- A post on its way, to take effect lat beats after this one (R254). -/
def State.tsPost (s : State) (o : TsOp) : State := { s with ts := { s.ts with ops := s.ts.ops ++ [o] } }

/-- Requester keys of R255: cores by LC, movers by die and number, Carousel by die, Jallyn by port and slot. -/
def whoCore (lc : Nat) : Nat := lc
def whoMover (ld i : Nat) : Nat := 0x10000 + ld * 4 + i
def whoCarousel (ld : Nat) : Nat := 0x20000 + ld
def whoJallyn (port slot : Nat) : Nat := 0x30000 + port * 0x10000 + slot

/-- The scheduled effect beat P of the change that first made v at least n (R257): 0 for a change of an earlier step. -/
def tsSince (step : Nat) (c : TsCell) (n : Nat) : Nat :=
  if c.step ≠ step then 0
  else
    let run := c.hist.takeWhile (fun h => decide (n ≤ h.1))
    if run.length = c.hist.length ∧ n ≤ c.base then 0 else (run.getLast?.map (·.2)).getD 0

/-- A write of a value through a page: it counts from the next beat on, with tag 0 (R261). -/
def State.tsPoke (s : State) (k v : Nat) : State :=
  let s1 := s.tsStore k (v % 2 ^ 31) 0
  (s1.setTsCell k { s1.tsCell k with poke := some s.clock.beats.toNat }).debugTouch (keyPd k)

/-- The Turnstile that a TS_SEL value selects. -/
def State.selKey (s : State) (pd : PD) (sel : Nat) : Nat :=
  if bitOf sel 12 then poolKey pd (bitsOf sel 0 12) else privKey pd (s.mcAt pd (bitsOf sel 13 5)) (bitsOf sel 0 12)

/-- A reserved combination of TS_SEL (R266). -/
def selReserved (sel : Nat) : Bool := !bitOf sel 12 && (decide (63 < bitsOf sel 0 12) || decide (16 < bitsOf sel 13 5))

/-- The lowest-numbered Turnstile of a die with its flag set, pool first, then slots (TS_STICKY_NEXT, R266). -/
def State.stickyNext (s : State) (pd : PD) : Nat :=
  let pool := ((List.range 4096).map (poolKey pd)).find? (fun k => (s.tsCell k).sticky)
  let priv := ((List.range 17).flatMap (fun sl => (List.range 64).map (privKey pd (s.mcAt pd sl)))).find?
    (fun k => (s.tsCell k).sticky)
  match pool.orElse (fun _ => priv) with
  | some k => s.tsSel k
  | none => 2 ^ 31

end Sys2Proof.Machine
end

