-- ==== Sys2Proof/Machine/CoreBase.lean ====
section
/-!
DEFINITION. What every core command shares: the core's record, its stops, and dispatch
(spec/05_matrix_core_programming.md R137, R146, R147, R151, R152, R154, spec/07_numeric_exceptions.md R192, R193,
spec/08_static_schedule.md R208, R239).
-/
namespace Sys2Proof.Machine

def coreKey (pd : PD) (mc : MC) : Nat := pd.val * 17 + mc.val

def State.core (s : State) (pd : PD) (mc : MC) : CoreSt := mget (fun _ => {}) s.cores (coreKey pd mc)

def State.setCore (s : State) (pd : PD) (mc : MC) (c : CoreSt) : State :=
  { s with cores := mput (fun _ => {}) s.cores (coreKey pd mc) c }

def State.modCore (s : State) (pd : PD) (mc : MC) (f : CoreSt → CoreSt) : State := s.setCore pd mc (f (s.core pd mc))

/-- All cores of the package, in order. -/
def allCores : List (PD × MC) := (List.finRange 56).flatMap fun pd => (List.finRange 17).map fun mc => (pd, mc)

/-- The logical core a physical core carries, 0x3FF for none (R247, R260). -/
def State.lcNo (s : State) (pd : PD) (mc : MC) : Nat := (s.lcOf pd mc).getD 0x3FF

def CoreStatus.stopped : CoreStatus → Bool
  | .stoppedTrap | .stoppedFault | .stoppedError | .stoppedReq => true
  | _ => false

/-- STATE's code (R154). -/
def CoreStatus.code : CoreStatus → Nat
  | .idle => 0 | .armed => 1 | .running => 2 | .waitTs => 3 | .waitStep => 4 | .halted => 5 | .stoppedTrap => 6
  | .stoppedFault => 7 | .stoppedError => 8 | .cmdBusy => 9 | .stoppedReq => 10

/-- The queues emptied (R151, R192, R526). -/
def CoreSt.discard (c : CoreSt) : CoreSt :=
  { c with lq := [], sq := [], dq := [], vq := [], mq := [], hold := .none, mqWait := none }

def CoreSt.queuesEmpty (c : CoreSt) : Bool :=
  c.lq.isEmpty && c.sq.isEmpty && c.dq.isEmpty && c.vq.isEmpty && c.mq.isEmpty && c.tcAcc.isEmpty

/-- Withdraws a core's pending wait (R153). -/
def State.dropWait (s : State) (pd : PD) (mc : MC) : State :=
  { s with ts := { s.ts with waits := s.ts.waits.filter fun w => !(w.pd == pd && w.mc == mc) } }

/-- A core enters a STOPPED state, with its interrupt (R153). -/
def State.enterStopped (s : State) (pd : PD) (mc : MC) (st : CoreStatus) : State :=
  ((s.dropWait pd mc).modCore pd mc fun c => { c with status := st }).setInt (mcorePage pd mc) 2

/-- A stop with SCHED_ERROR (R151): the queues are discarded, the error is captured and recorded, and the step carries
a schedule error, whose job ends with FROZEN_WRITE for reason 0x0E. -/
def State.coreStop (s : State) (pd : PD) (mc : MC) (pc reason : Nat) : State :=
  let p := mcorePage pd mc
  let lc := s.lcNo pd mc
  let s1 := (s.modCore pd mc fun c => { c.discard with stopPend := none }).enterStopped pd mc .stoppedError
  let s2 := (s1.blockErr p 1 0 pc reason).report p 1 (reason + lc * 2 ^ 8 + pc * 2 ^ 18)
  s2.schedError 0x0D lc pc (if reason = 0x0E then 0x14 else 0x30)

/-! Traps in force (R192, R193). -/

/-- TRAP_NAN as it applies to a row read at beat d. -/
def CoreSt.trapAt (c : CoreSt) (d : Nat) : Bool := ((c.trapOn.find? fun w => decide (w.1 ≤ d)).map (·.2)).getD false

/-- The first NaN row of the step that traps. -/
def CoreSt.trapRow (c : CoreSt) : Option NanRow :=
  (c.nanRows.filter fun r => c.trapAt r.d).foldl
    (fun b r => match b with | none => some r | some x => if r.d < x.d then some r else some x) none

/-- The beat x at whose end the trap is decided. -/
def CoreSt.trapX (c : CoreSt) : Option Nat := c.trapRow.map fun r => r.d + 6

/-- A beat after which the core neither dispatches nor issues has passed (R126, R192). -/
def CoreSt.cut (c : CoreSt) (now : Nat) : Bool :=
  (match c.trapX with | some x => decide (x < now) | none => false) ||
  (match c.faultPend with | some f => decide (f.beat < now) | none => false)

/-- The first place of an access whose line has not come. -/
def TcAccess.firstMissing (a : TcAccess) : Option Nat :=
  (List.range a.lines.length).find? fun k => !(a.got.any fun g => g.1 == k)

/-- The beat at which the line at a place is needed (R170, R174). -/
def TcAccess.need (a : TcAccess) (k : Nat) : Nat := a.due + k / a.per * a.q + a.late

/-- A line of the operand cache is late, so that the core stands still (R174). -/
def CoreSt.tcLate (c : CoreSt) (now : Nat) : Bool :=
  c.tcAcc.any fun a => match a.firstMissing with | some k => decide (a.need k ≤ now) | none => false

/-- The schedule lets cores dispatch and issue: a step is open and neither held nor frozen (R535, R696). -/
def State.coresGo (s : State) : Bool :=
  !s.frozen && (s.sched.state == .running || s.sched.state == .commit || s.sched.state == .replay)

/-- Beats of [b, b + n) in which the die is not held yet. -/
def State.unheld (s : State) (pd : PD) (b n : Nat) : Nat :=
  ((List.range n).filter fun i => !(s.sched.dieHolds.any fun h => h.pd == pd.val && decide (h.start ≤ b + i) && decide (b + i < h.stop))).length

/-- Every core of a die holds for n beats from absolute beat b on: the stall count of each running core rises by those in
which it is not held already (R208, R358, R558). -/
def State.holdDie (s : State) (pd : PD) (b n : Nat) : State :=
  let now := s.clock.beats.toNat
  let m := s.unheld pd b n
  let s1 := { s with sched := { s.sched with
    dieHolds := s.sched.dieHolds.filter (fun h => decide (now < h.stop)) ++ [⟨pd.val, b, b + n⟩] } }
  (List.finRange 17).foldl (fun t mc =>
    let c := t.core pd mc
    if c.status = .running ∨ c.status = .waitTs ∨ c.status = .waitStep then t.setCore pd mc { c with stall := c.stall + m } else t) s1

/-! Registers of the sequencer (R130). -/

def CoreCtx.rdA (x : CoreCtx) (n : Nat) : DWord := if n = 0 then 0 else mget (fun _ => 0) x.a n
def CoreCtx.wrA (x : CoreCtx) (n : Nat) (v : DWord) : CoreCtx :=
  if n = 0 then x else { x with a := mput (fun _ => 0) x.a n v }
def CoreCtx.rdL (x : CoreCtx) (n : Nat) : Word := mget (fun _ => 0) x.l n
def CoreCtx.wrL (x : CoreCtx) (n : Nat) (v : Word) : CoreCtx := { x with l := mput (fun _ => 0) x.l n v }
def CoreCtx.rdT (x : CoreCtx) (n : Nat) : BitVec 128 := mget (fun _ => 0) x.t n
def CoreCtx.wrT (x : CoreCtx) (n : Nat) (v : BitVec 128) : CoreCtx := { x with t := mput (fun _ => 0) x.t n v }
def CoreCtx.rdK (x : CoreCtx) (n : Nat) : DWord := mget (fun _ => 0) x.k n
def CoreCtx.wrK (x : CoreCtx) (n : Nat) (v : DWord) : CoreCtx := { x with k := mput (fun _ => 0) x.k n v }
/-- Vector register n, lane by lane. -/
def CoreCtx.rdV (x : CoreCtx) (n : Nat) : List Word := mgets (fun _ => 0) x.v (n * 256) 256
def CoreCtx.wrV (x : CoreCtx) (n : Nat) (l : List Word) : CoreCtx := { x with v := mputs (fun _ => 0) x.v (n * 256) l }
def CoreCtx.bank (x : CoreCtx) (b : Bool) : WBank := if b then x.bank1 else x.bank0
def CoreCtx.setBank (x : CoreCtx) (b : Bool) (w : WBank) : CoreCtx :=
  if b then { x with bank1 := w } else { x with bank0 := w }
def CoreCtx.rdAcc (x : CoreCtx) (m c : Nat) : Word := mget (fun _ => 0) x.acc (m * 256 + c)
def CoreCtx.wrAcc (x : CoreCtx) (m c : Nat) (v : Word) : CoreCtx :=
  { x with acc := mput (fun _ => 0) x.acc (m * 256 + c) v }

/-- The instruction word at a PC. -/
def CoreSt.fetch (c : CoreSt) (pc : Nat) : DWord := mget (fun _ => 0) c.prog pc

/-! Queues (R146). -/

/-- The five queues. -/
inductive QName where
  | lq | sq | dq | vq | mq
deriving DecidableEq, Repr

def QName.ix : QName → Nat
  | .lq => 0 | .sq => 1 | .dq => 2 | .vq => 3 | .mq => 4

def CoreSt.queue (c : CoreSt) : QName → List QEnt
  | .lq => c.lq | .sq => c.sq | .dq => c.dq | .vq => c.vq | .mq => c.mq

def CoreSt.setQueue (c : CoreSt) (q : QName) (l : List QEnt) : CoreSt :=
  match q with
  | .lq => { c with lq := l } | .sq => { c with sq := l } | .dq => { c with dq := l } | .vq => { c with vq := l }
  | .mq => { c with mq := l }

/-- A queue has a place at this beat: fewer than 8 entries, and not one that an issue of this beat freed. -/
def CoreSt.hasPlace (c : CoreSt) (q : QName) (now : Nat) : Bool :=
  decide ((c.queue q).length < 8) && decide (mget (fun _ => 0) c.hist.qFree q.ix ≤ now)

/-! Dispatch (R146, R147). -/

/-- Entries of a queue that write Tier S and stand before an instruction (R147). -/
def tierSWriters (q : List QEnt) (seq : Nat) : Bool :=
  q.any fun e => decide (e.seq < seq) &&
    (match e.op with
     | .drn _ _ _ _ _ _ _ dst _ _ _ => !dst
     | .vst _ _ _ _ _ _ => true
     | _ => false)

def State.tc (s : State) (pd : PD) (mc : MC) : TCache := mget (fun _ => {}) s.tcs (coreKey pd mc)

/-- TCACHE_CFG.BUDGET of a core. -/
def State.budget (s : State) (pd : PD) (mc : MC) : Nat := s.fld (tcachePage pd mc) Reg.TCACHE_CFG_BUDGET

/-- An SFENCE is satisfied (R147, R178). -/
def State.fenceDone (s : State) (pd : PD) (mc : MC) (d seq : Nat) : Bool :=
  let c := s.core pd mc
  !tierSWriters c.dq seq && !tierSWriters c.vq seq && (s.tc pd mc).mb.isEmpty &&
  decide (max (d + 1) (c.hist.tsDone + 1) ≤ s.sched.beat) &&
  (c.hist.mbLast == 0 || decide (c.hist.mbLast + s.budget pd mc + 1 ≤ s.sched.beat))

/-- Dispatch is possible at this beat. -/
def State.canDispatch (s : State) (pd : PD) (mc : MC) : Bool :=
  let c := s.core pd mc
  s.coresGo && !s.dieHeld pd && !c.tcLate s.sched.beat && s.accessible (mcorePage pd mc) && c.status == .running && decide (c.nextD ≤ s.sched.beat) &&
  !c.cut s.sched.beat &&
  (match c.hold with
   | .none => true
   | .sfence d seq => s.fenceDone pd mc d seq
   | _ => false)

/-- The schedule's check at JOIN_PC (R239). -/
def State.joinCheck (s : State) (pd : PD) (mc : MC) : State :=
  let c := s.core pd mc
  match c.altRun with
  | some r =>
    if c.x.pc.toNat = r.joinPc then
      let s1 := s.setCore pd mc { c with altRun := none }
      if s.sched.beat - c.stall = r.due then s1 else s1.schedError 0x0B (s.lcNo pd mc) c.x.pc.toNat 0x30
    else s
  | none => s

/-- A core becomes debug-halted, out of the status it has (R695). -/
def State.debugHalted (s : State) (pd : PD) (mc : MC) : State :=
  let st := (s.core pd mc).status
  ((s.enterStopped pd mc .stoppedReq).modCore pd mc fun c => { c with dhalt := some st, dstep := false }).setInt (diePage .dbg pd) 1

/-- A core single-stepped by the debug block halts again behind the instruction; STEP clears (R695, R703). -/
def State.afterStep (s : State) (pd : PD) (mc : MC) : State :=
  let c := s.core pd mc
  if c.dstep && c.status != .stoppedError then (s.debugHalted pd mc).setFlag (diePage .dbg pd) Reg.DBG_CORE_CMD_STEP false else s

/-- Dispatches the instruction at PC if it is one that want accepts, now; act is its effect. A word that does not
decode, a PC outside the program and a stop that is due stop the core (R134, R137, R151). op is the opcode want reads;
an instruction that waits for a place in queue q does not dispatch. -/
def State.dispatch (s : State) (pd : PD) (mc : MC) (op : Nat) (want : TInstr → Option (State → State))
    (q : Option QName := none) : State :=
  let c := s.core pd mc
  let pc := c.x.pc.toNat
  if !s.canDispatch pd mc then s
  else
    match c.stopPend with
    | some e => if e.beat ≤ s.sched.beat then s.coreStop pd mc e.pc e.reason else s
    | none =>
      if c.progLen ≤ pc then s.coreStop pd mc pc 0x03
      else
        match decodeT s.fullDies.length (c.fetch pc) with
        | .error r => if opcodeOf (c.fetch pc) = op then s.coreStop pd mc pc r else s
        | .ok i =>
          match want i with
          | none => s
          | some act =>
            if q.any (fun n => !c.hasPlace n s.sched.beat) then s
            else
            let s1 := (s.traceDispatch pd mc pc op c.stall).joinCheck pd mc
            (act (s1.modCore pd mc fun c => { c with hold := .none })).afterStep pd mc

/-- The core goes on with the next instruction at beat n. -/
def CoreSt.next (c : CoreSt) (n : Nat) : CoreSt := { c with x := { c.x with pc := c.x.pc + 1 }, nextD := n }

/-- An instruction that takes effect at dispatch and holds nothing: the next dispatches at D + 1 (R147). -/
def State.simple (s : State) (pd : PD) (mc : MC) (f : CoreCtx → CoreCtx) : State :=
  s.modCore pd mc fun c => { c with x := f c.x }.next (s.sched.beat + 1)

/-- A branch by off, which must stay in the program (R137). -/
def State.branch (s : State) (pd : PD) (mc : MC) (off : Int) (n : Nat) : State :=
  let c := s.core pd mc
  let t : Int := (c.x.pc.toNat : Int) + off
  if t < 0 ∨ (c.progLen : Int) ≤ t then s.coreStop pd mc c.x.pc.toNat 0x03
  else s.setCore pd mc { c with x := { c.x with pc := BitVec.ofNat 14 t.toNat }, nextD := n }

/-- Queues work with the operands read at dispatch (R146). -/
def State.enqueue (s : State) (pd : PD) (mc : MC) (q : QName) (f : CoreCtx → CoreCtx) (op : CoreCtx → QOp) : State :=
  let c := s.core pd mc
  let e : QEnt := { pc := c.x.pc.toNat, d := s.sched.beat, seq := c.seq, op := op c.x }
  s.setCore pd mc ({ c with x := f c.x, seq := c.seq + 1 }.setQueue q (c.queue q ++ [e]) |>.next (s.sched.beat + 1))

/-- Takes the head off a queue at issue: a full queue's place is free from the next beat on. -/
def CoreSt.popQueue (c : CoreSt) (q : QName) (now : Nat) : CoreSt :=
  let l := c.queue q
  let h := if 8 ≤ l.length then { c.hist with qFree := mput (fun _ => 0) c.hist.qFree q.ix (now + 1) } else c.hist
  { c.setQueue q l.tail with hist := h }

end Sys2Proof.Machine
end

