-- ==== Sys2Proof/Machine/History.lean ====
section
/-!
DEFINITION. The fault history of the persistent store (spec/24_clocks_bringup.md R655 to R657).
-/
namespace Sys2Proof.Machine

/-- A kind that only informs (R656). -/
def histInfo (k : Nat) : Bool := k == 6 || k == 7 || k == 9 || k == 10

/-- Drops the first entry that p accepts. -/
def dropFirst (p : HistEnt → Bool) : List HistEnt → Option (List HistEnt)
  | [] => none
  | h :: t => if p h then some t else (dropFirst p t).map (h :: ·)

/-- The history with a new entry: a full one gives up its oldest entry of an information kind, else its oldest resolved
one (R657); none where it keeps all. -/
def histInsert (l : List HistEnt) (e : HistEnt) : Option (List HistEnt) :=
  if l.length < 4096 then some (l ++ [e])
  else
    match dropFirst (fun h => histInfo h.kind) l with
    | some m => some (m ++ [e])
    | none => (dropFirst (·.resolved) l).map (· ++ [e])

/-- A new fault-history entry, pending its commit (R654, R656, R657). -/
def State.histAdd (s : State) (kind pd unit index aux : Nat) (tag : Nat := 0) : State :=
  let r := s.store.cur
  let e : HistEnt := { time := s.clock.time, boot := r.boots, kind := kind, pd := pd, unit := unit, index := index, aux := aux, tag := tag }
  let same (h : HistEnt) : Bool :=
    !h.resolved && h.kind == kind && h.pd == pd && h.unit == unit && h.index == index && h.tag == tag
  if r.history.any same then s
  else
    match histInsert r.history e with
    | some l =>
      let info := histInfo kind
      { s with store := { s.store with
          cur := { r with history := l }
          pending := s.store.pending || !info
          pendingInfo := s.store.pendingInfo || info } }
    | none =>
      let s1 := { s with store := { s.store with cur := { r with dropped := r.dropped + 1 } } }
      (s1.bump (pkgPage .pstore) Reg.PS_FH_DROP_COUNT).reportOpen (pkgPage .pstore) 3

end Sys2Proof.Machine
end

