-- ==== Sys2Proof/Machine/DramOps.lean ====
section
/-!
DEFINITION. DRAM lines, their protection and poison, and the write-combining buffers of Tier N and Tier F
(spec/13_tier_n_stacked_dram.md R338 to R349, spec/14_tier_f_ddr5.md R369 to R374).
-/
namespace Sys2Proof.Machine

/-- What a DRAM byte that nothing has written reads as (log entry 3). -/
def dramReset (_ : Nat) : Byte := 0

/-- The DRAM address of stack address a of logical die ld. -/
def locN (ld a : Nat) : Nat := ld * 2 ^ 34 + a

/-- The DRAM address of channel address a of channel c. -/
def locF (c a : Nat) : Nat := 2 ^ 41 + c * 2 ^ 39 + a

def locIsF (loc : Nat) : Bool := decide (2 ^ 41 ≤ loc)

/-- Die or channel of a DRAM address. -/
def locUnit (loc : Nat) : Nat := if locIsF loc then (loc - 2 ^ 41) / 2 ^ 39 else loc / 2 ^ 34

/-- Stack or channel address of a DRAM address. -/
def locAddr (loc : Nat) : Nat := if locIsF loc then (loc - 2 ^ 41) % 2 ^ 39 else loc % 2 ^ 34

/-- The channel of a stack address (R338). -/
def nChannel (a : Nat) : Nat := (bitsOf a 7 4).xor (bitsOf a 19 4)

/-- The channel whose buffers a DRAM address uses. -/
def chanKey (loc : Nat) : Nat := if locIsF loc then 4096 + locUnit loc else locUnit loc * 16 + nChannel (locAddr loc)

def fchanOf (c : Nat) : FChan := ⟨c % 24, Nat.mod_lt _ (by decide)⟩

/-- The controller page of a DRAM address. -/
def State.ctlPage (s : State) (loc : Nat) : Page :=
  if locIsF loc then fchanPage (fchanOf (locUnit loc)) else diePage .nstack ((s.pdOfLd (locUnit loc)).getD 0)

def State.wcbOn (s : State) (loc : Nat) : Bool :=
  s.flag (s.ctlPage loc) (if locIsF loc then Reg.FCHAN_CFG_WCB_EN else Reg.NS_CFG_WCB_EN)

/-- Entries of a write-combining buffer (R346, R370). -/
def wcbCap (loc : Nat) : Nat := if locIsF loc then 16 else 32

def State.wcb (s : State) (k : Nat) : List WcbEnt := mget (fun _ => []) s.memsys.dram.wcb k

def State.setDram (s : State) (d : Dram) : State := { s with memsys := { s.memsys with dram := d } }

/-- The highest occupancy among a stack's channels, or a channel's (R365, R388). -/
def State.occView (s : State) (loc : Nat) : State :=
  if locIsF loc then s.setFld (s.ctlPage loc) Reg.FCHAN_STAT_WCB_OCC (s.wcb (chanKey loc)).length
  else
    s.setFld (s.ctlPage loc) Reg.NS_STAT_WCB_OCC
      ((List.range 16).foldl (fun n c => max n (s.wcb (locUnit loc * 16 + c)).length) 0)

def State.setWcb (s : State) (loc : Nat) (l : List WcbEnt) : State :=
  (s.setDram { s.memsys.dram with wcb := mput (fun _ => []) s.memsys.dram.wcb (chanKey loc) l }).occView loc

/-- The mask of a whole line. -/
def fullMask : Nat := 2 ^ 128 - 1

/-- Bytes of new over old where the mask says so. -/
def overlay (mask : Nat) (old new : List Byte) : List Byte :=
  (List.zip old new).zipIdx.map fun ((o, n), i) => if bitOf mask i then n else o

def State.poisoned (s : State) (line : Nat) : Bool := mget (fun _ => false) s.memsys.dram.poison line

/-- The 128 bytes of a line as the array holds them. -/
def State.rawLine (s : State) (line : Nat) : List Byte := mgets dramReset s.memsys.dram.mem (line * 128) 128

def WcbEnt.lineBytes (e : WcbEnt) : List Byte := mgets (fun _ => 0) e.bytes 0 128

def State.wcbEnt (s : State) (line : Nat) : Option WcbEnt := (s.wcb (chanKey (line * 128))).find? (·.line == line)

/-- A line is written into the array, clean or poisoned. -/
def State.arrayWrite (s : State) (line : Nat) (bs : List Byte) (poison : Bool) : State :=
  let d := s.memsys.dram
  s.setDram { d with
    mem := mputs dramReset d.mem (line * 128) bs
    poison := mput (fun _ => false) d.poison line poison }

/-! Errors of a line read (R342 to R345, R372 to R374). -/

def State.stack (s : State) (ld : Nat) : StackSt := mget (fun _ => {}) s.memsys.nstacks ld

def State.setStack (s : State) (ld : Nat) (v : StackSt) : State :=
  { s with memsys := { s.memsys with nstacks := mput (fun _ => {}) s.memsys.nstacks ld v } }

/-- A maintenance window of the stack is in progress (R356). -/
def State.inWindow (s : State) (ld : Nat) : Bool :=
  let st := s.stack ld
  decide (0 < st.windowEnd) && decide (s.clock.beats.toNat ≤ st.windowEnd)

/-- Both lanes of the pair that carries symbol i (R341, R345). -/
def State.laneHit (s : State) (ld ch lane : Nat) : State :=
  let st := s.stack ld
  let k := ch * 320 + lane
  if mget (fun _ => false) st.flagged k then s
  else
    let p := diePage .nstack ((s.pdOfLd ld).getD 0)
    let n := min (mget (fun _ => 0) st.laneCe k + 1) 0xFFFF
    let hit := s.fld p Reg.NS_LANE_CE_THR_THR ≤ n
    let st' := { st with
      laneCe := mput (fun _ => 0) st.laneCe k n
      flagged := mput (fun _ => false) st.flagged k (decide hit) }
    let s1 := s.setStack ld st'
    if hit then
      (((s1.report p 4 (ch + lane * 2 ^ 8)).bump p Reg.NS_LANE_FLAGGED_COUNT).setInt p 7).histAdd 3 p.pd.val ch lane 0
    else s1

/-- Adds one to a total, and raises CE_THR as it reaches its threshold. -/
def State.ceTotal (s : State) (p : Page) (tot thr : RegField) : State :=
  let old := s.fld p tot
  let s1 := s.bump p tot
  if old < s.fld p thr ∧ s.fld p thr ≤ old + 1 then s1.setInt p 1 else s1

/-- A corrected line of a stack (R342, R345). -/
def State.ceN (s : State) (line : Nat) (syms : List Nat) : State :=
  let loc := line * 128
  let p := s.ctlPage loc
  let ch := nChannel (locAddr loc)
  let s1 := (s.bump p Reg.NS_CH_CE_COUNT 1 ch).ceTotal p Reg.NS_CE_TOTAL_COUNT Reg.NS_CE_THR_THR
  syms.foldl (fun t i => (t.laneHit (locUnit loc) ch (2 * i)).laneHit (locUnit loc) ch (2 * i + 1)) s1

/-- Fields of a channel address (R369): bank group, bank, rank, DIMM, row, for the DIMMs in service. -/
structure FAddr where
  bg : Nat
  bank : Nat
  rank : Nat
  dimm : Nat
  row : Nat
deriving DecidableEq, Repr

def State.dimmIn (s : State) (p : Page) (i : Nat) : Bool := s.flag p Reg.FCHAN_DIMM_IN_SERVICE i

def State.faddr (s : State) (c a : Nat) : FAddr :=
  let p := fchanPage (fchanOf c)
  let d := if s.dimmIn p 0 then 0 else 1
  let col := if s.flag p Reg.FCHAN_DIMM_WIDTH d then 6 else 7
  let rk := b2n (s.flag p Reg.FCHAN_DIMM_RANKS d)
  let two := b2n (s.dimmIn p 0 && s.dimmIn p 1)
  let q := a / 128
  let r0 := 5 + col
  let row := q / 2 ^ (r0 + rk + two)
  { bg := (q % 8).xor (row % 8), bank := bitsOf q (3 + col) 2, rank := bitsOf q r0 rk
    dimm := if two = 1 then bitsOf q (r0 + rk) 1 else d, row := row }

/-- The device of a symbol within its rank: ten x4 or five x8 devices on each subchannel (R371). -/
def deviceOf (x8 : Bool) (i : Nat) : Nat := if x8 then i / 80 * 5 + i % 80 / 16 else i / 80 * 10 + i % 80 / 8

def State.chan (s : State) (c : Nat) : ChanSt := mget (fun _ => {}) s.memsys.chans c

def State.setChan (s : State) (c : Nat) (v : ChanSt) : State :=
  { s with memsys := { s.memsys with chans := mput (fun _ => {}) s.memsys.chans c v } }

/-- A corrected symbol counts at its device; at the threshold the device is erased, one to a rank (R374). -/
def State.devHit (s : State) (c rank dev : Nat) : State :=
  let p := fchanPage (fchanOf c)
  let st := s.chan c
  let k := rank * 32 + dev
  let n := min (mget (fun _ => 0) st.devCe k + 1) 0xFFFF
  let s1 := s.setChan c { st with devCe := mput (fun _ => 0) st.devCe k n }
  if n = s.fld p Reg.FCHAN_DEV_CE_THR_THR ∧ s.fld p Reg.FCHAN_ERASE_DEVICES rank = 0 then
    (((s1.setFld p Reg.FCHAN_ERASE_DEVICES (2 ^ dev) rank).report p 3 (c + rank * 2 ^ 8 + dev * 2 ^ 16)).setInt p 8).histAdd 6
      p.pd.val c (rank * 32 + dev) 0
  else s1

/-- A corrected line of a channel (R372, R374). -/
def State.ceF (s : State) (line : Nat) (syms : List Nat) : State :=
  let loc := line * 128
  let c := locUnit loc
  let p := s.ctlPage loc
  let f := s.faddr c (locAddr loc)
  let rank := f.dimm * 2 + f.rank
  let x8 := s.flag p Reg.FCHAN_DIMM_WIDTH f.dimm
  let s1 := (s.ceTotal p Reg.FCHAN_CE_TOTAL_COUNT Reg.FCHAN_CE_THR_THR).bump p Reg.FCHAN_CE_RANK_COUNT 1 rank
  syms.foldl (fun t i => t.devHit c rank (deviceOf x8 i)) s1

/-- The symbols that a decoder meets as errors: those of an erased device are erasures (R374). -/
def State.liveSyms (s : State) (line : Nat) (syms : List Nat) : List Nat :=
  let loc := line * 128
  if locIsF loc then
    let p := s.ctlPage loc
    let f := s.faddr (locUnit loc) (locAddr loc)
    let er := s.fld p Reg.FCHAN_ERASE_DEVICES (f.dimm * 2 + f.rank)
    syms.filter fun i => !bitOf er (deviceOf (s.flag p Reg.FCHAN_DIMM_WIDTH f.dimm) i)
  else syms

/-- The errors can be corrected (R341, R372, R374). -/
def State.correctable (s : State) (line : Nat) (syms : List Nat) : Bool :=
  let loc := line * 128
  if locIsF loc then
    let p := s.ctlPage loc
    let f := s.faddr (locUnit loc) (locAddr loc)
    let x8 := s.flag p Reg.FCHAN_DIMM_WIDTH f.dimm
    let devs := (syms.map (deviceOf x8)).eraseDups
    if s.fld p Reg.FCHAN_ERASE_DEVICES (f.dimm * 2 + f.rank) = 0 then
      decide (syms.length ≤ 8) || (x8 && decide (devs.length ≤ 1))
    else decide (syms.length ≤ if x8 then 4 else 8)
  else decide (syms.length ≤ 4)

/-- First detection of an uncorrectable line: written back as poison, recorded and counted (R343, R373). -/
def State.ueLine (s : State) (line : Nat) : State :=
  let loc := line * 128
  let p := s.ctlPage loc
  let a := locAddr loc
  let s1 := s.setDram { s.memsys.dram with poison := mput (fun _ => false) s.memsys.dram.poison line true }
  if locIsF loc then
    let s2 := ((s1.report p 1 a).bump p Reg.FCHAN_UE_COUNT_COUNT).setInt p 2
    let s3 := if s2.flag p Reg.FCHAN_UE_ADDR_HI_VALID then s2
      else (s2.setReg p 0x128 (BitVec.ofNat 32 a)).setReg p 0x12C (BitVec.ofNat 32 (a / 2 ^ 32 + 2 ^ 31))
    let f := s.faddr (locUnit loc) a
    s3.histAdd 5 p.pd.val (locUnit loc)
      (f.dimm * 2 ^ 31 + f.rank * 2 ^ 30 + f.bg * 2 ^ 27 + f.bank * 2 ^ 25 + f.row % 2 ^ 25) 0
  else
    let s2 := ((s1.report p 2 a).bump p Reg.NS_UE_COUNT_COUNT).setInt p 2
    if s2.flag p Reg.NS_UE_ADDR_HI_VALID then s2
    else (s2.setReg p 0x11C (BitVec.ofNat 32 a)).setReg p 0x120 (BitVec.ofNat 32 (a / 2 ^ 32 + 2 ^ 31))

/-- A line read from the array, decoded: whether it is poisoned, and the state with the error dealt with. -/
def State.decodeLine (s : State) (line : Nat) (err : MemErr) : Bool × State :=
  if s.poisoned line then (true, s)
  else
    match err with
    | .none => (false, s)
    | .ue => (true, s.ueLine line)
    | .symbols l =>
      let syms := s.liveSyms line ((l.map (·.val)).eraseDups)
      if syms.isEmpty then (false, s)
      else if !s.correctable line syms then (true, s.ueLine line)
      else (false, if locIsF (line * 128) then s.ceF line syms else s.ceN line syms)

/-- A line as a read sees it (R348): whether it is poisoned, and its bytes with the buffered ones over them. -/
def State.readLine (s : State) (line : Nat) (err : MemErr) : Bool × List Byte × State :=
  match s.wcbEnt line with
  | some e =>
    if e.mask = fullMask then (false, e.lineBytes, s)
    else
      let (bad, s1) := s.decodeLine line err
      (bad, overlay e.mask (s1.rawLine line) e.lineBytes, s1)
  | none =>
    let (bad, s1) := s.decodeLine line err
    (bad, s1.rawLine line, s1)

/-- A read-modify-write of a line (R349). -/
def State.rmwLine (s : State) (line mask : Nat) (bs : List Byte) (err : MemErr) : State :=
  if mask = fullMask then s.arrayWrite line bs false
  else
    let (bad, s1) := s.decodeLine line err
    let s2 := s1.arrayWrite line (overlay mask (s1.rawLine line) bs) bad
    if bad then
      let p := s.ctlPage (line * 128)
      let a := locAddr (line * 128)
      if locIsF (line * 128) then (s2.bump p Reg.FCHAN_POISON_WR_COUNT).report p 2 a
      else (s2.bump p Reg.NS_POISON_WR_COUNT).report p 3 a
    else s2

/-- Retires the entry of a line (R347). -/
def State.retireLine (s : State) (line : Nat) (err : MemErr) : State :=
  match s.wcbEnt line with
  | none => s
  | some e =>
    (s.rmwLine line e.mask e.lineBytes err).setWcb (line * 128) ((s.wcb (chanKey (line * 128))).filter (·.line != line))

/-- Retirements wait: a maintenance window or steal of the stack, a retrain of the channel (R347, R370). -/
def State.retireWait (s : State) (loc : Nat) : Bool :=
  if locIsF loc then s.fld (s.ctlPage loc) Reg.FCHAN_STAT_STATE == 3
  else
    s.inWindow (locUnit loc) || decide (s.clock.beats.toNat < (s.stack (locUnit loc)).stealEnd)

/-- A write with a byte mask is performed at its controller (R340, R346, R347). -/
def State.writeLine (s : State) (line mask : Nat) (bs : List Byte) (err : MemErr) : State :=
  let loc := line * 128
  let l := s.wcb (chanKey loc)
  if mask = 0 then s
  else if mask = fullMask then
    (s.arrayWrite line bs false).setWcb loc (l.filter (·.line != line))
  else if !s.wcbOn loc && (s.wcbEnt line).isNone then s.rmwLine line mask bs err
  else
    match s.wcbEnt line with
    | some e =>
      let m := e.mask ||| mask
      let e' : WcbEnt := { e with mask := m, bytes := mputs (fun _ => 0) [] 0 (overlay mask e.lineBytes bs) }
      let s1 := s.setWcb loc (l.map fun x => if x.line == line then e' else x)
      if m = fullMask ∧ !s.retireWait loc then s1.retireLine line err else s1
    | none =>
      let s1 := if l.length < wcbCap loc then s
        else match l.head? with
          | some o => s.retireLine o.line err
          | none => s
      let e : WcbEnt := { line := line, mask := mask, bytes := mputs (fun _ => 0) [] 0 (overlay mask (List.replicate 128 0) bs) }
      s1.setWcb loc (s1.wcb (chanKey loc) ++ [e])

/-- The channel of the address has failed (R377). -/
def State.locFailed (s : State) (loc : Nat) : Bool := locIsF loc && s.fld (s.ctlPage loc) Reg.FCHAN_STAT_STATE == 4

/-- A range of lines is written with zeros (R294). -/
def State.zeroLines (s : State) (line n : Nat) : State :=
  let d := s.memsys.dram
  let inside (a : Nat) : Bool := decide (line * 128 ≤ a) && decide (a < (line + n) * 128)
  let keep : List (Nat × List WcbEnt) := d.wcb.map fun (k, l) => (k, l.filter fun e => !(decide (line ≤ e.line) && decide (e.line < line + n)))
  s.setDram { d with
    mem := d.mem.filter fun c => !inside c.1
    poison := d.poison.filter fun c => !(decide (line ≤ c.1) && decide (c.1 < line + n))
    wcb := keep.filter fun e => !e.2.isEmpty }

end Sys2Proof.Machine
end

