-- ==== Sys2Proof/Machine/PlaceOps.lean ====
section
/-!
DEFINITION. Placement: entries, the checks of a request, its route, exchanges and hints
(spec/11_memory_placement.md R287 to R313).
-/
namespace Sys2Proof.Machine

/-! Initial placement (R287 to R290). -/

/-- Frames dealt to the channels before round t. -/
def dealt (caps : List Nat) (t : Nat) : Nat := caps.foldl (fun n c => n + min c t) 0

/-- The round in which frame g of Tier F is dealt, found between lo and lo + 2^n. -/
def dealRound (caps : List Nat) (g : Nat) : Nat → Nat → Nat
  | 0, lo => lo
  | n + 1, lo => if dealt caps (lo + 2 ^ n) ≤ g then dealRound caps g n (lo + 2 ^ n) else dealRound caps g n lo

/-- The channel and slot of frame g of Tier F (R289). -/
def dealSlot (caps : List Nat) (g : Nat) : Nat × Nat :=
  let t := dealRound caps g 18 0
  let open_ := (caps.zipIdx.filter fun (c, _) => decide (t < c)).map (·.2)
  (open_.getD (g - dealt caps t) 0, t)

/-- The frame dealt to slot t of channel c. -/
def dealFrame (caps : List Nat) (c t : Nat) : Nat :=
  dealt caps t + ((caps.take c).filter fun x => decide (t < x)).length

/-- The entry of a frame after stage 3 (R289, R290). -/
def PlaceSt.initEntry (p : PlaceSt) (f : Nat) : PEntry :=
  let nf := 8192 * p.ldies
  if f < nf then { unit := f % p.ldies, slot := f / p.ldies }
  else
    let (c, t) := dealSlot p.caps (f - nf)
    { tier := true, unit := c, slot := t }

def PlaceSt.initRevN (p : PlaceSt) (k : Nat) : Nat := k % 8192 * p.ldies + k / 8192
def PlaceSt.initRevF (p : PlaceSt) (k : Nat) : Nat := 8192 * p.ldies + dealFrame p.caps (k / 2 ^ 17) (k % 2 ^ 17)

/-- Backed frames (R38, R288). -/
def PlaceSt.frames (p : PlaceSt) : Nat := if p.ready then 8192 * p.ldies + p.caps.foldl (· + ·) 0 else 0

abbrev State.place (s : State) : PlaceSt := s.memsys.place

def State.setPlace (s : State) (p : PlaceSt) : State := { s with memsys := { s.memsys with place := p } }

def State.entry (s : State) (f : Nat) : PEntry := mget s.place.initEntry s.place.entries f

def State.setEntry (s : State) (f : Nat) (e : PEntry) : State :=
  s.setPlace { s.place with entries := mput s.place.initEntry s.place.entries f e }

/-- The logical die whose agent holds frame f's entry (R287). -/
def State.agentLd (s : State) (f : Nat) : Nat := f % s.place.ldies

def State.ldPage (s : State) (b : Blk) (ld : Nat) : Page := diePage b ((s.pdOfLd ld).getD 0)

def State.agentPage (s : State) (f : Nat) : Page := s.ldPage .place (s.agentLd f)

def frameOfLine (line : Nat) : Nat := line / 2 ^ 14
def chunkOfLine (line : Nat) : Nat := line / 512 % 32

/-- The DRAM line of line off of a slot. -/
def slotLine (tier : Bool) (unit slot off : Nat) : Nat :=
  (if tier then locF unit (slot * 2 ^ 21) else locN unit (slot * 2 ^ 21)) / 128 + off

/-! The checks of a request (R292, R293). -/

def ownerOk (owner ctx : Nat) : Bool := ctx == owner || ctx == 0 || owner == 0xFFFF

def inRanges (l : List FrameRange) (f : Nat) : Bool := l.any fun r => decide (r.base ≤ f) && decide (f < r.base + r.frames)

/-- The code of the lowest failing check of a request to a frame, 0 where it passes. -/
def State.agentCode (s : State) (f ctx : Nat) (write : Bool) : Nat :=
  let e := s.entry f
  if !ownerOk e.owner ctx then 0x12
  else if write && e.frozen then 0x14
  else if write && inRanges s.sched.inputCur f then 0x31
  else 0

/-- A refused request adds one to the matching counter (R293). -/
def State.countRefusal (s : State) (f code : Nat) : State :=
  let p := s.agentPage f
  if code = 0x12 then
    let s1 := if s.fld p Reg.PLACE_CTX_VIOL_COUNT = 0 then s.setInt p 1 else s
    s1.bump p Reg.PLACE_CTX_VIOL_COUNT
  else if code = 0x14 then s.bump p Reg.PLACE_FROZEN_REF_COUNT
  else s.bump p Reg.PLACE_INPUT_REF_COUNT

/-- KEEP holds (R304). -/
def State.keepHolds (s : State) (e : PEntry) : Bool :=
  e.keep && (s.sched.state == .running || s.sched.state == .commit || s.sched.state == .replay || s.sched.state == .held) &&
  decide (0 < signedOf ((e.keepUntil + 2 ^ 32 - s.sched.jstep.toNat % 2 ^ 32) % 2 ^ 32) 32)

/-- Queues a frame whose count reached HOT_THR (R305). -/
def State.promote (s : State) (f : Nat) : State :=
  let p := s.agentPage f
  let e := s.entry f
  let ld := s.agentLd f
  let q := mget (fun _ => []) s.place.promoQ ld
  if s.flag p Reg.PLACE_CFG_MIG_EN && e.tier && !e.exchanging && !e.pin then
    if q.length < 16 then
      (s.setPlace { s.place with promoQ := mput (fun _ => []) s.place.promoQ ld (q ++ [f]) }).setFld p Reg.PLACE_STAT_PROMQ_OCC (q.length + 1)
    else s.bump p Reg.PLACE_PROMO_DROP_COUNT
  else s

/-- A counted access (R293 step 4, R303, R305). -/
def State.countAccess (s : State) (f : Nat) : State :=
  let e := s.entry f
  let n := min (e.count + 1) 0xFFFF
  let s1 := s.setEntry f { e with count := n }
  if n = s.fld (s.agentPage f) Reg.PLACE_THR_HOT_THR ∧ e.count < n then s1.promote f else s1

/-! The route of a request (R296). -/

/-- Where a line of a frame is. -/
inductive Route where
  | slot (line : Nat)
  | buffer
deriving DecidableEq, Repr

def PEntry.route (e : PEntry) (line : Nat) : Route :=
  let k := chunkOfLine line
  let off := line % 2 ^ 14
  if !e.exchanging then .slot (slotLine e.tier e.unit e.slot off)
  else if bitOf e.moved k then .slot (slotLine e.ntier e.nunit e.nslot off)
  else if e.flightValid && e.flight == k then .buffer
  else .slot (slotLine e.tier e.unit e.slot off)

/-- The engine that exchanges a frame: its key. -/
def State.engineOf (s : State) (f : Nat) : Option (Nat × Engine) :=
  s.place.engines.findSome? fun (k, e) => e.bind fun g => if (g.a == f || g.b == f) && g.phase != .scanned then some (k, g) else none

def State.engine (s : State) (k : Nat) : Option Engine := mget (fun _ => none) s.place.engines k

/-- Sets an engine, and its busy bit. -/
def State.setEngine (s : State) (k : Nat) (g : Option Engine) : State :=
  let p := s.ldPage .place (k / 4)
  let busy := s.fld p Reg.PLACE_STAT_ENG_BUSY
  (s.setPlace { s.place with engines := mput (fun _ => none) s.place.engines k g }).setFld p Reg.PLACE_STAT_ENG_BUSY
    (withBits busy (k % 4) 1 (b2n g.isSome))

def Engine.buf (g : Engine) (f : Nat) : EngBuf := if g.a = f then g.bufA else g.bufB
def Engine.setBuf (g : Engine) (f : Nat) (b : EngBuf) : Engine := if g.a = f then { g with bufA := b } else { g with bufB := b }

/-- A line of a chunk in a buffer: whether it is poisoned, and its bytes. -/
def EngBuf.read (b : EngBuf) (i : Nat) : Bool × List Byte := (mget (fun _ => false) b.poison i, mgets (fun _ => 0) b.bytes (i * 128) 128)

def EngBuf.write (b : EngBuf) (i mask : Nat) (bs : List Byte) : EngBuf :=
  let (bad, old) := b.read i
  { b with
    bytes := mputs (fun _ => 0) b.bytes (i * 128) (overlay mask old bs)
    poison := mput (fun _ => false) b.poison i (bad && mask != fullMask) }

def State.bufRead (s : State) (f line : Nat) : Bool × List Byte :=
  match s.engineOf f with
  | some (_, g) => (g.buf f).read (line % 512)
  | none => (false, List.replicate 128 0)

def State.bufWrite (s : State) (f line mask : Nat) (bs : List Byte) : State :=
  match s.engineOf f with
  | some (k, g) => s.setEngine k (some (g.setBuf f ((g.buf f).write (line % 512) mask bs)))
  | none => s

/-! Ends of requests (R302). -/

def State.answer (s : State) (tag code : Nat) (data : List Byte) : State :=
  { s with memsys := { s.memsys with answers := s.memsys.answers ++ [⟨tag, code, data⟩] } }

/-- A tier error of a request: counted and recorded with the system address (R302). -/
def State.tierErr (s : State) (f line : Nat) (timeout : Bool) : State :=
  let p := s.agentPage f
  let s1 := if timeout then (s.bump p Reg.PLACE_TIER_TMO_COUNT).reportOpen p 2
    else (s.bump p Reg.PLACE_TIER_ERR_COUNT).report p 1 (line * 128)
  s1.setInt p 2

/-! Requests at an agent (R293, R294, R298, R299). -/

def aBytes (r : AReq) : List Byte := leBytes r.data.toNat 128
def aFrame (r : AReq) : Nat := frameOfLine r.line.toNat
def aWrites (r : AReq) : Bool := r.kind != .read

/-- A later request of a held stream waits (R299). -/
def State.streamHeld (s : State) (r : AReq) : Bool :=
  r.sid != 0xFFFF && (s.place.held ++ s.place.waitQ).any fun h => h.sid == r.sid && s.agentLd (aFrame h) == s.agentLd (aFrame r)

/-- Sends an accepted request to its location (R296, R298). -/
def State.routeReq (s : State) (r : AReq) : State :=
  let f := aFrame r
  let line := r.line.toNat
  match (s.entry f).route line with
  | .slot dl => s.setPlace { s.place with fwd := s.place.fwd ++ [{ req := r, loc := dl * 128 }] }
  | .buffer =>
    if aWrites r then (s.setPlace { s.place with held := s.place.held ++ [r] }).bump (s.agentPage f) Reg.PLACE_WR_HELD_COUNT
    else
      let (bad, bs) := s.bufRead f line
      if bad then (s.tierErr f line false).answer r.tag.toNat 0x10 [] else s.answer r.tag.toNat 0 bs

/-- A request that passed its checks: never-written chunks, then the route (R293 steps 5, 6, R294). -/
def State.placeReq (s : State) (r : AReq) : State :=
  let f := aFrame r
  let k := chunkOfLine r.line.toNat
  let e := s.entry f
  if bitOf e.zmap k then
    if !(aWrites r) then (s.bump (s.agentPage f) Reg.PLACE_ZERO_READS_COUNT).answer r.tag.toNat 0 (List.replicate 128 0)
    else if (e.route r.line.toNat) = .buffer then
      (s.setPlace { s.place with held := s.place.held ++ [r] }).bump (s.agentPage f) Reg.PLACE_WR_HELD_COUNT
    else if s.place.fills.any (fun z => z.frame == f && z.chunk == k) then
      s.setPlace { s.place with fills := s.place.fills.map fun z =>
        if z.frame == f && z.chunk == k then { z with waiting := z.waiting ++ [r] } else z }
    else s.setPlace { s.place with fills := s.place.fills ++ [⟨f, k, [r]⟩] }
  else s.routeReq r

/-- A request reaches its agent (R293). -/
def State.agentTake (s : State) (r : AReq) : State :=
  let f := aFrame r
  if s.streamHeld r || !s.place.ready then s.setPlace { s.place with waitQ := s.place.waitQ ++ [r] }
  else
    let code := s.agentCode f r.ctx.toNat (r.kind == .write)
    if code ≠ 0 then (s.countRefusal f code).answer r.tag.toNat code []
    else (s.countAccess f).placeReq r

/-- Requests that waited behind a held write or for the table go on, in arrival order. -/
def State.wakeWaiting (s : State) : State :=
  (s.place.waitQ).foldl State.agentTake (s.setPlace { s.place with waitQ := [] })

/-! An access with nothing between its lookup and its performance: what a unit's own piece of work uses. -/

/-- Reads a line through its agent and tier: the code and the bytes. -/
def State.agentRead (s : State) (ctx line : Nat) : Nat × List Byte × State :=
  let f := frameOfLine line
  let code := s.agentCode f ctx false
  if code ≠ 0 then (code, [], s.countRefusal f code)
  else
    let s1 := s.countAccess f
    let e := s1.entry f
    if bitOf e.zmap (chunkOfLine line) then (0, List.replicate 128 0, s1.bump (s1.agentPage f) Reg.PLACE_ZERO_READS_COUNT)
    else
      match e.route line with
      | .buffer =>
        let (bad, bs) := s1.bufRead f line
        if bad then (0x10, [], s1.tierErr f line false) else (0, bs, s1)
      | .slot dl =>
        if s1.locFailed (dl * 128) then (0x11, [], s1.tierErr f line true)
        else
          let (bad, bs, s2) := s1.readLine dl .none
          if bad then (0x10, [], s2.tierErr f line false) else (0, bs, s2)

/-- The zero fill of a chunk is performed at its current location (R294). -/
def State.zeroFill (s : State) (f k : Nat) : State :=
  let e := s.entry f
  match e.route (f * 2 ^ 14 + k * 512) with
  | .slot dl =>
    let s1 := if s.locFailed (dl * 128) then s else s.zeroLines dl 512
    s1.setEntry f { e with zmap := withBits e.zmap k 1 0 }
  | .buffer => s

/-- Writes a line through its agent and tier. A chunk in its commit phase takes the bytes in the engine's buffer (R298). -/
def State.agentWrite (s : State) (ctx line mask : Nat) (bs : List Byte) (back : Bool := false) : Nat × State :=
  let f := frameOfLine line
  let code := s.agentCode f ctx (!back)
  if code ≠ 0 then (code, s.countRefusal f code)
  else
    let s1 := s.countAccess f
    let k := chunkOfLine line
    let s2 := if bitOf (s1.entry f).zmap k then s1.zeroFill f k else s1
    match (s2.entry f).route line with
    | .buffer => (0, s2.bufWrite f line mask bs)
    | .slot dl => (0, if s2.locFailed (dl * 128) then s2 else s2.writeLine dl mask bs .none)

/-! Exchanges (R295, R300, R306). -/

/-- A frame may enter an exchange (R300, R377). -/
def State.eligible (s : State) (f : Nat) (victim : Bool) : Bool :=
  let e := s.entry f
  !e.exchanging && !e.pin && !(victim && s.keepHolds e) &&
  !(e.tier && s.locFailed (locF e.unit 0)) && decide (f < s.place.frames)

def State.frameInSlot (s : State) (ld slot : Nat) : Nat := mget s.place.initRevN s.place.revN (ld * 8192 + slot)

/-- The victim of a promotion to die ld (R306): its slot. -/
def State.victim (s : State) (ld a : Nat) (hint : Bool) : Option Nat :=
  let p := s.ldPage .place ld
  let cur := s.fld p Reg.PLACE_CURSOR_SLOT
  let ok (i : Nat) : Bool := let f := s.frameInSlot ld ((cur + i) % 8192); f != a && s.eligible f true
  let cold (i : Nat) : Bool :=
    decide ((s.entry (s.frameInSlot ld ((cur + i) % 8192))).count ≤ s.fld (s.agentPage (s.frameInSlot ld ((cur + i) % 8192))) Reg.PLACE_THR_COLD_THR)
  let all := List.range 8192
  match all.find? (fun i => cold i && ok i) with
  | some i => some ((cur + i) % 8192)
  | none => if hint then (all.find? ok).map fun i => (cur + i) % 8192 else none

/-- The scan for a victim of frame a (R306), and the engine that holds the pair. -/
def State.scan (s : State) (k a : Nat) (hint rescanned : Bool) : State :=
  let e := s.entry a
  let ld := if e.prefLd = 0x3F then s.agentLd a else e.prefLd
  match s.victim ld a hint with
  | none => (s.bump (s.ldPage .place ld) Reg.PLACE_NOVICTIM_COUNT).setEngine k none
  | some slot =>
    (s.setFld (s.ldPage .place ld) Reg.PLACE_CURSOR_SLOT ((slot + 1) % 8192)).setEngine k
      (some { a := a, b := s.frameInSlot ld slot, hint := hint, rescanned := rescanned })

/-- Both entries take their new slots (R295 FINISH). -/
def State.finishExchange (s : State) (k : Nat) (g : Engine) : State :=
  let settle (s : State) (f : Nat) : State :=
    let e := s.entry f
    let s1 := s.setEntry f { e with
      tier := e.ntier, unit := e.nunit, slot := e.nslot, exchanging := false, moved := 0, partner := 0
      ntier := false, nunit := 0, nslot := 0, flightValid := false, flight := 0 }
    if e.ntier then s1.setPlace { s1.place with revF := mput s1.place.initRevF s1.place.revF (e.nunit * 2 ^ 17 + e.nslot) f }
    else s1.setPlace { s1.place with revN := mput s1.place.initRevN s1.place.revN (e.nunit * 8192 + e.nslot) f }
  ((settle (settle s g.a) g.b).setEngine k none).bump (s.ldPage .place (k / 4)) Reg.PLACE_PROMOTIONS_COUNT

/-- Marks chunk c of both frames moved (R295). -/
def State.markMoved (s : State) (g : Engine) (c : Nat) : State :=
  let one (s : State) (f : Nat) : State :=
    let e := s.entry f
    s.setEntry f { e with moved := withBits e.moved c 1 1, flightValid := false, flight := 0 }
  one (one s g.a) g.b

/-- Goes on from chunk c: chunks live on neither side are skipped; past the last the exchange finishes (R295). -/
def State.exchangeFrom (s : State) (k : Nat) (g : Engine) : Nat → Nat → State
  | 0, _ => s.finishExchange k g
  | n + 1, c =>
    if bitOf (s.entry g.a).zmap c && bitOf (s.entry g.b).zmap c then (s.markMoved g c).exchangeFrom k g n (c + 1)
    else s.setEngine k (some { g with phase := .capture, k := c, bufA := {}, bufB := {}, retried := false })

/-! Hints (R307). -/

def hintDrop (s : State) (p : Page) : State := s.bump p Reg.PLACE_HINT_DROP_COUNT

/-- PROMOTE (frame, LD, U). -/
def State.hintPromote (s : State) (f ld u : Nat) : State :=
  let e := s.entry f
  let p := s.agentPage f
  let s1 := s.setEntry f { e with prefLd := ld, keep := true, keepUntil := u % 2 ^ 32 }
  let h := s.agentLd f
  let q := mget (fun _ => []) s.place.hintQ h
  if !e.exchanging && e.tier && !e.pin then
    if q.length < 64 then
      (s1.setPlace { s1.place with hintQ := mput (fun _ => []) s1.place.hintQ h (q ++ [f]) }).setFld p Reg.PLACE_STAT_HINTQ_OCC (q.length + 1)
    else hintDrop s1 p
  else s1

def State.hintKeep (s : State) (f u : Nat) : State := s.setEntry f { s.entry f with keep := true, keepUntil := u % 2 ^ 32 }

def State.hintDemote (s : State) (f : Nat) : State := s.setEntry f { s.entry f with count := 0, keep := false }

/-- A hint that Carousel sends reaches the holding agent: counted, and acted on where HINT_EN allows (R307). -/
def State.hinted (s : State) (f : Nat) (act : State → State) : State :=
  let p := s.agentPage f
  let s1 := s.bump p Reg.PLACE_HINT_RCVD_COUNT
  if s.flag p Reg.PLACE_CFG_HINT_EN then act s1 else s1

end Sys2Proof.Machine
end

