-- ==== Sys2Proof/Machine/HomeOps.lean ====
section
/-!
DEFINITION. Coherence: homes, directory, snoops and the transactions of a line (spec/18_coherence.md R469 to R488,
spec/17_cpu_complex.md R453, R456, R457).
-/
namespace Sys2Proof.Machine

/-- The home of the line at a system address (R471). -/
def homeLd (addr ldies : Nat) : Nat :=
  let g := bitsOf addr 7 45
  ((bitsOf g 0 16).xor (bitsOf g 16 16)).xor (bitsOf g 32 13) % ldies

abbrev State.homeSt (s : State) : HomeSt := s.memsys.home

def State.setHome (s : State) (h : HomeSt) : State := { s with memsys := { s.memsys with home := h } }

def State.homeOf (s : State) (line : Nat) : Nat := homeLd (line * 64) (max 1 s.fullDies.length)

def State.homePage (s : State) (line : Nat) : Page := s.ldPage .home (s.homeOf line)

/-- The frame of a 64 B line. -/
def frameOf64 (line : Nat) : Nat := line / 2 ^ 15

/-! Directory (R473). -/

def State.dirKey (s : State) (line : Nat) : Nat := s.homeOf line * 65536 + line % 65536

def State.dirSet (s : State) (line : Nat) : DirSet := mget (fun _ => {}) s.homeSt.dir (s.dirKey line)

def DirSet.way (d : DirSet) (w : Nat) : Option DirEnt := mget (fun _ => none) d.ways w

def State.dirGet (s : State) (line : Nat) : Option DirEnt :=
  (s.dirSet line).ways.findSome? fun (_, e) => e.bind fun x => if x.line == line then some x else none

/-- The way a tree pseudo-LRU points at: bit n of the tree is node n, the root node 1 (R473). -/
def plruVictim (bits : Nat) : Nat :=
  (List.range 4).foldl (fun n _ => 2 * n + b2n (bitOf bits n)) 1 - 16

/-- The tree after a use of way w: every node on its path points away from it. -/
def plruTouch (bits w : Nat) : Nat :=
  (List.range 4).foldl (fun b i =>
    let node := (16 + w) / 2 ^ (4 - i)
    withBits b node 1 (b2n (!bitOf (16 + w) (3 - i)))) bits

/-- HOME_DIR_OCC after an entry came or went. -/
def State.dirCount (s : State) (line : Nat) (up : Bool) : State :=
  let p := s.homePage line
  let n := s.fld p Reg.HOME_DIR_OCC_ENTRIES
  s.setFld p Reg.HOME_DIR_OCC_ENTRIES (if up then n + 1 else n - 1)

def State.setDirSet (s : State) (line : Nat) (d : DirSet) : State :=
  s.setHome { s.homeSt with dir := mput (fun _ => {}) s.homeSt.dir (s.dirKey line) d }

/-- The entry of a line is dropped. -/
def State.dirErase (s : State) (line : Nat) : State :=
  let d := s.dirSet line
  match d.ways.find? (fun x => x.2.any (·.line == line)) with
  | some (w, _) => (s.setDirSet line { d with ways := mput (fun _ => none) d.ways w none }).dirCount line false
  | none => s

/-! Copies. -/

def lineKey (unit line : Nat) : Nat := unit * 2 ^ 46 + line

def State.l2Line (s : State) (h line : Nat) : Option CLine := mget (fun _ => none) s.homeSt.l2 (lineKey h line)
def State.setL2 (s : State) (h line : Nat) (c : Option CLine) : State :=
  s.setHome { s.homeSt with l2 := mput (fun _ => none) s.homeSt.l2 (lineKey h line) c }
def State.rpLine (s : State) (p line : Nat) : Option CLine := mget (fun _ => none) s.homeSt.rp (lineKey p line)
def State.setRp (s : State) (p line : Nat) (c : Option CLine) : State :=
  s.setHome { s.homeSt with rp := mput (fun _ => none) s.homeSt.rp (lineKey p line) c }
def State.l3Line (s : State) (line : Nat) : Option L3Line := mget (fun _ => none) s.homeSt.l3 line
def State.setL3 (s : State) (line : Nat) (c : Option L3Line) : State :=
  s.setHome { s.homeSt with l3 := mput (fun _ => none) s.homeSt.l3 line c }

/-- The operand cache loses a line (R179): out of the cache and the side buffer; a fill on its way is not installed. -/
def State.tcInval (s : State) (key line128 : Nat) : State :=
  let t := mget (fun _ => ({} : TCache)) s.tcs key
  let set := line128 % 512
  let tag := line128 / 512
  let lines := (List.range 16).foldl (fun m w =>
    let k := set * 16 + w
    if (mget (fun _ => none) m k).any (fun (l : TcLine) => l.tag == tag) then mput (fun _ => none) m k none else m) t.lines
  let t' := { t with
    lines := lines
    side := t.side.filter fun l => l.tag != line128
    fills := t.fills.map fun f => if f.line == line128 then { f with dropInst := true } else f }
  { s with tcs := mput (fun _ => {}) s.tcs key t' }

/-! Write-backs and drains. -/

/-- The first hart memory failure is captured (R468). kind: 0 load, 1 fetch, 2 store or AMO, 3 write-back, 4 drain. -/
def State.hartCapture (s : State) (h addr code kind : Nat) : State :=
  s.blockErr (cpuclPageOf s h) 0 0 (bitsOf addr 6 32) (bitsOf addr 38 14 + code * 2 ^ 16 + kind * 2 ^ 24 + h % 2 * 2 ^ 27)

/-- A write-back or drain that fails after its store retired (R453). -/
def State.asyncFail (s : State) (h addr code kind : Nat) : State :=
  let p := cpuclPageOf s h
  (((s.bump p Reg.CPUCL_MEM_ERR_COUNT).hartCapture h addr code kind).reportOpen p 2).setInt p 2

/-- A 64 B half of a 128 B line's mask and bytes. -/
def half128 (line mask : Nat) (bs : List Byte) : Nat × List Byte :=
  if line % 2 = 0 then (mask % 2 ^ 64, bs ++ List.replicate 64 0) else (mask % 2 ^ 64 * 2 ^ 64, List.replicate 64 0 ++ bs)

/-- Masked bytes of a 64 B line are written at the agent. -/
def State.lineToAgent (s : State) (ctx line mask : Nat) (bs : List Byte) (back : Bool) : Nat × State :=
  let (m, b) := half128 line mask bs
  s.agentWrite ctx (line / 2) m b back

/-- Combining entries of a hart that p names drain, oldest first, as masked writes to their agents (R457). -/
def State.cbDrain (s : State) (p : CbEnt → Bool) : State :=
  (s.homeSt.cb.filter p).foldl (fun t e =>
    let t1 := t.setHome { t.homeSt with cb := t.homeSt.cb.filter fun x => !(x.hart == e.hart && x.line == e.line) }
    let t2 := match t1.dirGet e.line with
      | some d => if d.st = DState.owned ∧ d.owner = e.hart then t1.dirErase e.line else t1
      | none => t1
    let (code, t3) := t2.lineToAgent e.ctx e.line e.mask (mgets (fun _ => 0) e.bytes 0 64) true
    if code = 0 then t3 else t3.asyncFail e.hart (e.line * 64) code 4) s

/-! Snoops (R475, R481). -/

/-- A hart's reservation ends when its line is invalidated (R446). -/
def State.resvLost (s : State) (h line : Nat) : State :=
  let v := s.hart h
  if v.resv = some line then s.setHart h { v with resv := none } else s

/-- The holder of a line answers a snoop: the answer, and its copy as the snoop leaves it. -/
def State.snoopHolder (s : State) (p : Part) (line : Nat) (k : Snoop) : SnpAns × State :=
  match s.homeSt.wb.find? (fun w => w.who == p && w.line == line) with
  | some w => (if w.dirty then .wbInFlight else .evictingClean, s)
  | none =>
    match p with
    | .l2 h =>
      if s.homeSt.cb.any (fun e => e.hart == h && e.line == line) then
        (.notPresent, s.cbDrain fun e => e.hart == h && e.line == line)
      else
        match s.l2Line h line with
        | none => (.notPresent, s)
        | some c =>
          let dirty := c.st = .m ∨ c.st = .o
          let ans : SnpAns := if dirty then .data c.data c.ctx else .clean
          match k with
          | .share => (ans, s.setL2 h line (some { c with st := if c.st = .m then .o else if c.st = .e then .s else c.st }))
          | .inval => (ans, (s.setL2 h line none).resvLost h line)
          | .cur => (ans, s)
    | .rport n =>
      match s.rpLine n line with
      | none => (.notPresent, s)
      | some c => (.data c.data c.ctx, if k = .cur then s else s.setRp n line none)
    | .tc key => (.clean, if k = .inval then s.tcInval key (line / 2) else s)

/-- The participants a directory entry records (R473). -/
def State.holders (s : State) (e : DirEnt) : List Part :=
  (if e.st = .owned then [if 0xF0 ≤ e.owner then Part.rport (e.owner - 0xF0) else Part.l2 e.owner] else []) ++
  ((List.range 100).filter fun h => bitOf e.sharers h && !(e.st == DState.owned && e.owner == h)).map Part.l2 ++
  ((List.range 50).filter (bitOf e.tcdies ·)).flatMap fun d =>
    match s.pdOfLd d with
    | some pd => (List.range 16).map fun i => Part.tc (coreKey pd (s.mcOf pd i))
    | none => []

/-- A write-back reaches its home: dirty data goes to the L3 slice, and the owner no longer holds the line (R472, R481). -/
def State.acceptWb (s : State) (w : WbEnt) : State :=
  let s1 := s.setHome { s.homeSt with wb := s.homeSt.wb.map fun x =>
    if x.who == w.who && x.line == w.line then { x with accepted := true } else x }
  let s2 := if w.dirty then s1.setL3 w.line (some { data := w.data, dirty := true, ctx := w.ctx }) else s1
  match s2.dirGet w.line with
  | some d =>
    let mine := match w.who with | .l2 h => d.owner == h | .rport n => d.owner == 0xF0 + n | .tc _ => false
    if d.st == DState.owned && mine then
      if d.sharers = 0 ∧ d.tcdies = 0 then s2.dirErase w.line
      else s2.setDirSet w.line { s2.dirSet w.line with
        ways := (s2.dirSet w.line).ways.map fun (i, e) => (i, if e == some d then some { d with st := .shared, owner := 0 } else e) }
    else s2
  | none => s2

/-- A line enters its owner's write-back buffer, and is accepted at once where nothing is open on it, or a pending snoop
targets its owner (R476, R481). -/
def State.sendWb (s : State) (w : WbEnt) : State :=
  let s1 := s.setHome { s.homeSt with wb := s.homeSt.wb ++ [w] }
  match s.homeSt.open_.find? (fun t => t.line == w.line) with
  | none => s1.acceptWb w
  | some t => if t.pend.contains w.who then s1.acceptWb w else s1

/-- Copies that a directory victim records are invalidated, dirty data written to the L3 slice (R473). -/
def State.invalAll (s : State) (e : DirEnt) : State :=
  (s.holders e).foldl (fun t p =>
    let (a, t1) := t.snoopHolder p e.line .inval
    match a with
    | .data d c => t1.setL3 e.line (some { data := d, dirty := true, ctx := c })
    | .wbInFlight | .evictingClean =>
      match t1.homeSt.wb.find? (fun w => w.who == p && w.line == e.line) with
      | some w => t1.acceptWb w
      | none => t1
    | _ => t1) s

/-- The way a new entry takes: a free one, else the pseudo-LRU victim without an open transaction (R473, R482). -/
def State.dirVictim (s : State) (d : DirSet) : Nat → Nat → Nat
  | 0, bits => plruVictim bits
  | n + 1, bits =>
    let w := plruVictim bits
    if (d.way w).any (fun e => s.homeSt.open_.any (·.line == e.line)) then s.dirVictim d n (plruTouch bits w) else w

/-- Records an entry for a line; a full set gives up a victim. -/
def State.dirPut (s : State) (e : DirEnt) : State :=
  if e.st = .uncached ∨ (e.st = .shared ∧ e.sharers = 0 ∧ e.tcdies = 0) then s.dirErase e.line
  else
    let d := s.dirSet e.line
    match d.ways.find? (fun x => x.2.any (·.line == e.line)) with
    | some (w, _) => s.setDirSet e.line { ways := mput (fun _ => none) d.ways w (some e), plru := plruTouch d.plru w }
    | none =>
      let w := ((List.range 16).find? fun i => (d.way i).isNone).getD (s.dirVictim d 16 d.plru)
      let s1 := match d.way w with
        | some v => ((s.invalAll v).bump (s.homePage e.line) Reg.HOME_BACKINV_COUNT).dirErase v.line
        | none => s
      let d1 := s1.dirSet e.line
      (s1.setDirSet e.line { ways := mput (fun _ => none) d1.ways w (some e), plru := plruTouch d1.plru w }).dirCount e.line true

/-! Transactions (R474 to R478). -/

def HReq.grantsWrite : HReq → Bool
  | .readX | .upgrade | .claim => true
  | _ => false

/-- The check of a request for write permission at the agent (R477): the code, and the refusal counted. -/
def State.grantCheck (s : State) (t : Txn) : Nat × State :=
  if t.req.grantsWrite then
    let f := frameOf64 t.line
    let code := s.agentCode f t.ctx true
    if code = 0 then (0, s) else (code, (s.countRefusal f code).bump (s.homePage t.line) Reg.HOME_GRANT_REF_COUNT)
  else (0, s)

/-- The snoop kind of a request (R475). -/
def HReq.snoop : HReq → Snoop
  | .readS | .fillS => .share
  | .read => .cur
  | _ => .inval

/-- An UPGRADE from a hart that the directory does not record is handled as READ_X (R482). -/
def State.upgradeReq (s : State) (t : Txn) : Txn :=
  match t.req, t.who with
  | .upgrade, some (.l2 h) =>
    let known := (s.dirGet t.line).any fun e => bitOf e.sharers h || (e.st == DState.owned && e.owner == h)
    if known && (s.l2Line h t.line).isSome then t else { t with req := .readX }
  | _, _ => t

/-- Whom the home snoops for a request (R475): the owner alone for reads, every holder but the requester for writes. -/
def State.targets (s : State) (t : Txn) : List Part :=
  match s.dirGet t.line with
  | none => []
  | some e =>
    let own := if e.st = .owned then (s.holders e).take 1 else []
    (match t.req.snoop with | .inval => s.holders e | _ => own).filter fun p => some p != t.who

/-- What the home makes of one holder's answer (R481). -/
def State.takeAnswer (s : State) (t : Txn) (p : Part) (a : SnpAns) : Txn × State :=
  let owner := match s.dirGet t.line with
    | some e => e.st == DState.owned && (s.holders e).head? == some p
    | none => false
  match a with
  | .data d c =>
    let keep := match p with | .rport _ => 0 | _ => 2
    let s1 := if t.req = .write ∨ (t.req.snoop = .share ∧ keep = 0) then s.setL3 t.line (some { data := d, dirty := true, ctx := c }) else s
    ({ t with got := some (d, c), own := if owner then (if t.req == HReq.read then 2 else keep) else t.own }, s1)
  | .clean => ({ t with own := if owner then (if t.req == HReq.read then 2 else 1) else t.own }, s)
  | .notPresent => (t, s)
  | .wbInFlight | .evictingClean =>
    let s1 := match s.homeSt.wb.find? (fun w => w.who == p && w.line == t.line && !w.accepted) with
      | some w => s.acceptWb w
      | none => s
    (t, s1.bump (s.homePage t.line) Reg.HOME_CROSSINGS_COUNT)

/-- A line's data where no owner supplied it: the L3 slice, else the agent (R472). -/
def State.homeData (s : State) (ctx line : Nat) : Nat × List Byte × State :=
  match s.l3Line line with
  | some l => if l.poison then (0x10, [], s) else (0, l.data, s)
  | none =>
    let (code, bs, s1) := s.agentRead ctx (line / 2)
    (code, if line % 2 = 0 then bs.take 64 else bs.drop 64, s1)

/-- Data of a transaction. -/
def State.txnData (s : State) (t : Txn) : Nat × List Byte × State :=
  match t.got with
  | some (d, _) => (0, d, s)
  | none => s.homeData t.ctx t.line

/-- The owner code of a participant (R473). -/
def Part.owner : Part → Nat
  | .l2 h => h
  | .rport n => 0xF0 + n
  | .tc _ => 0

/-- The participant takes write permission (R474, R477). -/
def State.giveM (s : State) (t : Txn) (data : List Byte) : State :=
  let c : CLine := { st := .m, data := data, ctx := t.ctx }
  let s1 := match t.who with
    | some (.l2 h) => s.setL2 h t.line (some c)
    | some (.rport n) => s.setRp n t.line (some c)
    | _ => s
  let s2 := s1.setL3 t.line none
  match t.who with
  | some p => s2.dirPut { line := t.line, st := .owned, owner := p.owner }
  | none => s2

/-- The request is served once every snoop is answered: its code and data. -/
def State.homeServe (s : State) (t : Txn) : Nat × List Byte × State :=
  let old : DirEnt := (s.dirGet t.line).getD { line := t.line }
  /- the entry as the owner's answer leaves it -/
  let kept : DirEnt :=
    if old.st = .owned ∧ t.own = 2 then old
    else if old.st = .owned ∧ t.own = 1 ∧ old.owner < 100 then
      { old with st := .shared, sharers := withBits old.sharers old.owner 1 1, owner := 0 }
    else if old.st = .owned then { old with st := .shared, owner := 0 }
    else old
  match t.req with
  | .readS =>
    let (code, d, s1) := s.txnData t
    if code ≠ 0 then (code, [], s1.dirPut kept)
    else
      let h := match t.who with | some (.l2 h) => h | _ => 0
      let alone := kept.st ≠ .owned ∧ kept.sharers = 0 ∧ kept.tcdies = 0
      let swept := s.homeSt.sweep && inRanges s.sched.inputNext (frameOf64 t.line)
      let s2 := if (s1.l3Line t.line).isNone && t.got.isNone then s1.setL3 t.line (some { data := d, dirty := false, ctx := t.ctx }) else s1
      if alone ∧ !swept then
        (0, d, (s2.setL2 h t.line (some { st := .e, data := d, ctx := t.ctx })).dirPut { line := t.line, st := .owned, owner := h })
      else
        (0, d, (s2.setL2 h t.line (some { st := .s, data := d, ctx := t.ctx })).dirPut
          { kept with st := if kept.st = .owned then .owned else .shared, sharers := withBits kept.sharers h 1 1 })
  | .readX =>
    let (code, d, s1) := s.txnData t
    if code ≠ 0 then (code, [], s1.dirErase t.line) else (0, d, s1.giveM t d)
  | .upgrade =>
    match t.who with
    | some (.l2 h) =>
      match s.l2Line h t.line with
      | some c => (0, c.data, s.giveM t c.data)
      | none => (0, [], s)
    | _ => (0, [], s)
  | .claim => (0, t.data, s.giveM t t.data)
  | .fillS =>
    let (code, d, s1) := s.txnData t
    let ld := match t.who with | some (.tc k) => (s.ldOf (pdOf (k / 17))).getD 0 | _ => 0
    if code ≠ 0 then (code, [], s1.dirPut kept)
    else
      (0, d, s1.dirPut { kept with st := if kept.st = .owned then .owned else .shared, tcdies := withBits kept.tcdies ld 1 1 })
  | .read =>
    let (code, d, s1) := s.txnData t
    (code, d, s1.dirPut kept)
  | .write =>
    let keepTc := match t.who with | some (.tc _) => old.tcdies | _ => 0
    let s1 := s.dirPut { line := t.line, st := .shared, tcdies := keepTc }
    let (code, s2) := s1.lineToAgent t.ctx t.line t.mask t.data false
    if code ≠ 0 then (code, [], s2)
    else
      match s2.l3Line t.line with
      | some l =>
        if t.mask = 2 ^ 64 - 1 then (0, [], s2.setL3 t.line none)
        else (0, [], s2.setL3 t.line (some { l with data := overlay t.mask l.data t.data }))
      | none => (0, [], s2)

/-- A whole transaction with nothing between its parts: what a unit's own accesses use. -/
def State.runTxn (s : State) (t0 : Txn) : Nat × List Byte × State :=
  let (code, s1) := s.grantCheck t0
  if code ≠ 0 then (code, [], s1)
  else
    let t := s1.upgradeReq t0
    let (t1, s2) := (s1.targets t).foldl (fun (t, s) p =>
      let (a, s') := s.snoopHolder p t.line t.req.snoop
      s'.takeAnswer t p a) (t, s1)
    s2.homeServe t1

/-- An uncached READ of a 64 B line. -/
def State.cohRead (s : State) (ctx line : Nat) : Nat × List Byte × State :=
  s.runTxn { line := line, req := .read, who := none, tag := 0, ctx := ctx }

/-- An uncached WRITE of a 64 B line; from: the operand cache whose own write-through it is. -/
def State.cohWrite (s : State) (ctx line mask : Nat) (bs : List Byte) (from_ : Option Nat := none) : Nat × State :=
  let (code, _, s1) := s.runTxn { line := line, req := .write, who := from_.map Part.tc, tag := 0, ctx := ctx, mask := mask, data := bs }
  (code, s1)

/-! Byte ranges of tiered memory. -/

/-- The system address lies in backed tiered memory (R37, R38). -/
def State.backed (s : State) (a : Nat) : Bool := decide (a / 2 ^ 21 < s.place.frames)

/-- Reads n lines from line on: the first failing code ends it. -/
def State.readLines (s : State) (ctx line : Nat) : Nat → Nat × List Byte × State
  | 0 => (0, [], s)
  | n + 1 =>
    let (code, bs, s1) := s.cohRead ctx line
    if code ≠ 0 then (code, [], s1)
    else
      let (c2, r, s2) := s1.readLines ctx (line + 1) n
      (c2, bs ++ r, s2)

/-- Reads n bytes of tiered memory: XLATE_FAULT where part of it is not backed. -/
def State.memRead (s : State) (ctx a n : Nat) : Nat × List Byte × State :=
  if n = 0 then (0, [], s)
  else if !s.backed a || !s.backed (a + n - 1) then (0x13, [], s)
  else
    let l0 := a / 64
    let (code, bs, s1) := s.readLines ctx l0 ((a + n - 1) / 64 - l0 + 1)
    (code, (bs.drop (a % 64)).take n, s1)

/-- Writes bytes into one line after another: each chunk ends at a line's end. -/
def State.writeLines (s : State) (ctx a : Nat) : Nat → List Byte → Nat × State
  | 0, _ => (0, s)
  | _, [] => (0, s)
  | n + 1, bs =>
    let off := a % 64
    let now := bs.take (64 - off)
    let mask := (2 ^ now.length - 1) * 2 ^ off
    let data := List.replicate off 0 ++ now ++ List.replicate (64 - off - now.length) 0
    let (code, s1) := s.cohWrite ctx (a / 64) mask data
    if code ≠ 0 then (code, s1) else s1.writeLines ctx (a + now.length) n (bs.drop (64 - off))

/-- Writes bytes to tiered memory, line by line; the first failing code ends it, earlier lines keep their effect. -/
def State.memWrite (s : State) (ctx a : Nat) (bs : List Byte) : Nat × State :=
  if bs.isEmpty then (0, s)
  else if !s.backed a || !s.backed (a + bs.length - 1) then (0x13, s)
  else s.writeLines ctx a (bs.length / 64 + 2) bs

/-! Protection sweeps (R478, R479). -/

/-- Every L2 gives up write permission for the frames of a set, and combining buffers drain theirs. -/
def State.sweepFrames (s : State) (p : Nat → Bool) : State :=
  let l2 := s.homeSt.l2.map fun (k, c) =>
    if p (frameOf64 (k % 2 ^ 46)) then
      (k, c.map fun (x : CLine) => { x with st := match x.st with | .m => .o | .e => .s | y => y })
    else (k, c)
  (s.setHome { s.homeSt with l2 := l2 }).cbDrain fun e => p (frameOf64 e.line)

end Sys2Proof.Machine
end

