-- ==== Sys2Proof/Machine/HartOps.lean ====
section
/-!
DEFINITION. Harts: removal and the lines they hold (spec/17_cpu_complex.md R451, R456, R465, R466).
-/
namespace Sys2Proof.Machine

/-- A hart's memory access brings it a value or an exception (R452). -/
def State.hartAnswer (s : State) (h : Nat) (r : Reply) : State :=
  { s with reply := some r, cpu := { s.cpu with answers := minsert s.cpu.answers h r } }

/-- An access that fails at a system address: the capture of R452 and the exception. kind: 0 load, 1 fetch, 2 store. -/
def State.hartFault (s : State) (h : Nat) (va : DWord) (addr code kind : Nat) : State :=
  (s.hartCapture h addr code kind).hartAnswer h (if kind = 0 then .loadFault va else if kind = 1 then .fetchFault va else .storeFault va)

/-- A core's removal begins (R465): it stops, and its reservation and pending interrupts are lost. -/
def State.hartRemove (s : State) (h cause : Nat) : State :=
  let v := s.hart h
  if v.gone then s
  else (s.setHart h { v with cause := cause, resv := none, eip := [], mtip := false }).hartTo h .removing

/-- A line is written to the L3 slice as poison, and counted (R486, R487). -/
def State.poisonL3 (s : State) (line ctx : Nat) : State :=
  let p := s.homePage line
  ((s.setL3 line (some { data := List.replicate 64 0, dirty := true, ctx := ctx, poison := true })).bump p
    Reg.HOME_POISONED_COUNT).setInt p 4

/-- The directory forgets a hart's copy of a line (R487). -/
def State.dirDrop (s : State) (h line : Nat) : State :=
  match s.dirGet line with
  | some d =>
    let d1 := { d with sharers := withBits d.sharers h 1 0 }
    s.dirPut (if d.st = DState.owned ∧ d.owner = h then { d1 with st := .shared, owner := 0 } else d1)
  | none => s

/-- A removed core's lines leave its caches (R465, R487): dirty ones are written back, or poisoned where the core's tags
failed; clean ones are dropped. The count of poisoned lines goes along. -/
def State.hartFlush (s : State) (h : Nat) (lost : Bool) : Nat × State :=
  let s0 := s.cbDrain fun e => e.hart == h
  let mine := s0.homeSt.l2.filterMap fun (k, c) => if k / 2 ^ 46 = h then c.map fun x => (k % 2 ^ 46, x) else none
  mine.foldl (fun ((n, t) : Nat × State) ((line, c) : Nat × CLine) =>
    let t1 := (t.setL2 h line none).dirDrop h line
    if c.st = .m ∨ c.st = .o then
      if lost then (n + 1, t1.poisonL3 line c.ctx)
      else (n, t1.setL3 line (some { data := c.data, dirty := true, ctx := c.ctx }))
    else (n, t1)) (0, s0)

/-- zctxid of a hart's access (R392, R393): 0 in M-mode. -/
def HartSt.ctxid (v : HartSt) : Nat := if v.priv = 3 then 0 else v.zctxid.toNat

/-- A hart's own copy of a line with the permission it asks for (R474, R476): the code and the bytes. -/
def State.hartLine (s : State) (h line : Nat) (write : Bool) : Nat × List Byte × State :=
  let ctx := (s.hart h).ctxid
  let s0 := s.cbDrain fun e => e.hart == h && e.line == line
  let get (r : HReq) := s0.runTxn { line := line, req := r, who := some (.l2 h), tag := 0, ctx := ctx }
  match s0.l2Line h line with
  | some c =>
    if !write || c.st == .m then (0, c.data, s0)
    else if c.st == .e then (0, c.data, s0.setL2 h line (some { c with st := .m }))
    else get .upgrade
  | none => get (if write then .readX else .readS)

/-- Other harts' reservations of a line end when it is written (R446). -/
def State.dropResv (s : State) (line : Nat) : State :=
  { s with cpu := { s.cpu with harts := s.cpu.harts.map fun (k, v) => (k, if v.resv = some line then { v with resv := none } else v) } }

/-- A hart's line takes new bytes where the mask says. -/
def State.hartPut (s : State) (h line mask : Nat) (bs : List Byte) : State :=
  match s.l2Line h line with
  | some c => (s.setL2 h line (some { c with data := overlay mask c.data bs })).dropResv line
  | none => s

end Sys2Proof.Machine
end

