-- ==== Sys2Proof/Machine/XlateOps.lean ====
section
/-!
DEFINITION. Translation: contexts, walks, region blocks, epochs and translation faults
(spec/15_address_translation.md R389 to R414).
-/
namespace Sys2Proof.Machine

/-- A failed translation (R397): cause, stage, level, the tier code of a walk read. -/
structure XFail where
  cause : Nat
  stage : Nat := 2
  level : Nat := 7
  code : Nat := 0
deriving DecidableEq, Repr

/-- A translated page: its system address, R and W as granted, and the log2 of its size. -/
structure XPage where
  spa : Nat
  r : Bool
  w : Bool
  size : Nat
deriving DecidableEq, Repr

def xCode : XClass → Nat
  | .tcache => 0 | .mvr => 1 | .ringMove => 2 | .ringInline => 3 | .carousel => 4 | .pcie => 5

/-- Leaf levels a class accepts (R392). -/
def xAccepts (c : XClass) (level : Nat) : Bool :=
  match c with
  | .pcie => decide (level ≤ 2)
  | _ => level == 1 || level == 2

abbrev State.xl (s : State) : XlateSt := s.memsys.xlate

def State.setXl (s : State) (x : XlateSt) : State := { s with memsys := { s.memsys with xlate := x } }

/-- The current epoch of a context (R403). -/
def State.epoch (s : State) (ctx : Nat) : Nat := mget (fun _ => 0) s.xl.epochs ctx + s.xl.epochAll

/-- The XLATE page that holds the package-scope registers: every full die's reads the same. -/
def State.xlPage (s : State) : Page := diePage .xlate s.leadPd

/-- The PCIe port whose window holds a system address (R36). -/
def windowPort (a : Nat) : Option Nat := if 2 ^ 43 ≤ a ∧ a < 2 ^ 43 + 2 ^ 42 then some ((a - 2 ^ 43) / 2 ^ 40) else none

def rportOf (n : Nat) : RPort := ⟨n % 4, Nat.mod_lt _ (by decide)⟩

/-- A system address that a class may reach (R29, R37, cause RANGE). -/
def State.inRange (s : State) (c : XClass) (a : Nat) : Bool :=
  s.backed a ||
  (match windowPort a with
   | some n => (c != .tcache && c != .pcie) && s.present (rportPage (rportOf n))
   | none => false)

/-- A PTE as a walk reads it: a coherent read with CTXID 0 (R396). -/
def State.readPte (s : State) (a : Nat) : Nat × Nat × State :=
  let (code, bs, s1) := s.memRead 0 a 8
  (code, leNat bs, s1)

/-- The permission that a step of a walk asks of its leaf. -/
inductive XNeed where
  | read | write
deriving DecidableEq, Repr

/-- What a PTE says at a level (R397): the failing cause, or the next table's PPN, or a leaf. -/
inductive PteOut where
  | fail (cause : Nat)
  | table (ppn : Nat)
  | leaf (ppn : Nat) (r w : Bool) (size : Nat)
deriving DecidableEq, Repr

/-- Reads one PTE (R397). accept: leaf levels allowed; low: the address bits below the leaf's PPN for Svnapot. -/
def pteStep (pte level : Nat) (need : XNeed) (accept : Nat → Bool) (va : Nat) : PteOut :=
  let b (i : Nat) := bitOf pte i
  let v := b 0
  let r := b 1
  let w := b 2
  let x := b 3
  let ppn := bitsOf pte 10 44
  if !v || (!r && w) || bitsOf pte 54 9 != 0 then .fail 2
  else if b 63 && (level != 0 || bitsOf pte 10 4 != 8) then .fail 2
  else if !r && !x then (if level = 0 then .fail 2 else .table ppn)
  else if 0 < level ∧ ppn % 2 ^ (9 * level) ≠ 0 then .fail 2
  else if (match need with | .read => !r | .write => !w) || !b 4 then .fail 3
  else if !b 6 || (need == .write && !b 7) then .fail 4
  else if !accept level then .fail 5
  else if b 63 then .leaf (withBits ppn 0 4 (bitsOf va 12 4)) r (w && b 7) 16
  else .leaf ppn r (w && b 7) (12 + 9 * level)

/-- The G-stage walk of a guest-physical address from a table at a level down (R396): the system address and the leaf. -/
def State.gWalk (s : State) (accept : Nat → Bool) (need : XNeed) (gpa : Nat) : Nat → Nat → Except XFail (Nat × Bool × Bool × Nat) × State
  | 0, _ => (.error { cause := 2, stage := 1, level := 0 }, s)
  | n + 1, tbl =>
    let vpn := if n = 4 then bitsOf gpa 48 11 else bitsOf gpa (12 + 9 * n) 9
    let (code, pte, s1) := s.readPte (tbl + vpn * 8)
    if code ≠ 0 then (.error { cause := 8, stage := 1, level := n, code := code }, s1)
    else
      match pteStep pte n need accept gpa with
      | .fail c => (.error { cause := c, stage := 1, level := n }, s1)
      | .table ppn => s1.gWalk accept need gpa n (ppn * 4096)
      | .leaf ppn r w sz => (.ok (ppn * 4096 + gpa % 2 ^ sz - gpa % 2 ^ (min sz 12) + gpa % 4096, r, w, sz), s1)

/-- The modes and roots of a context (R390). -/
structure XCtx where
  fs : Bool
  gs : Bool
  fsRoot : Nat
  gsRoot : Nat
deriving DecidableEq, Repr

/-- A guest-physical address through the G-stage, where there is one. -/
def State.gPhys (s : State) (x : XCtx) (accept : Nat → Bool) (need : XNeed) (gpa : Nat) : Except XFail (Nat × Bool × Bool × Nat) × State :=
  if !x.gs then (.ok (gpa, true, true, 64), s)
  else if 2 ^ 59 ≤ gpa then (.error { cause := 2, stage := 1 }, s)
  else s.gWalk accept need gpa 5 (x.gsRoot * 4096)

/-- The first-stage walk of a virtual address from a table at a level down (R396). -/
def State.fWalk (s : State) (x : XCtx) (accept : Nat → Bool) (need : XNeed) (va : Nat) : Nat → Nat → Except XFail (Nat × Bool × Bool × Nat) × State
  | 0, _ => (.error { cause := 2, stage := 0, level := 0 }, s)
  | n + 1, tbl =>
    match s.gPhys x (fun _ => true) .read (tbl + bitsOf va (12 + 9 * n) 9 * 8) with
    | (.error e, s1) => (.error e, s1)
    | (.ok (a, _), s1) =>
      let (code, pte, s2) := s1.readPte a
      if code ≠ 0 then (.error { cause := 8, stage := 0, level := n, code := code }, s2)
      else
        match pteStep pte n need accept va with
        | .fail c => (.error { cause := c, stage := 0, level := n }, s2)
        | .table ppn => s2.fWalk x accept need va n (ppn * 4096)
        | .leaf ppn r w sz => (.ok (ppn * 4096 + va % 2 ^ sz - va % 2 ^ (min sz 12) + va % 4096, r, w, sz), s2)

/-- A context's table entry (R389 to R391). -/
def State.readCtx (s : State) (ctx : Nat) : Except XFail XCtx × State :=
  if ctx = 0 then (.ok ⟨false, false, 0, 0⟩, s)
  else if ctx = 0xFFFF ∨ !s.flag s.xlPage Reg.XLATE_CFG_CTX_EN then (.error { cause := 1 }, s)
  else
    let (code, bs, s1) := s.memRead 0 (s.reg64 s.xlPage 0x104 + 32 * ctx) 32
    if code ≠ 0 then (.error { cause := 8, code := code }, s1)
    else
      let e := leNat bs
      let fm := bitsOf e 0 4
      let gm := bitsOf e 4 4
      let ok := bitOf e 8 && bitsOf e 9 55 == 0 && bitsOf e 108 20 == 0 && bitsOf e 172 84 == 0 && (fm == 0 || fm == 10) &&
        (gm == 0 || gm == 10) && (gm == 0 || bitsOf e 128 2 == 0)
      if ok then (.ok ⟨fm == 10, gm == 10, bitsOf e 64 44, bitsOf e 128 44⟩, s1) else (.error { cause := 1 }, s1)

/-- Translates one address for a class of requesters on a die (R396 to R398); the page it lies on. -/
def State.translate (s : State) (pd : PD) (c : XClass) (ctx va : Nat) (need : XNeed) : Except XFail XPage × State :=
  match s.readCtx ctx with
  | (.error e, s1) => (.error e, s1)
  | (.ok x, s1) =>
    let s2 := if x.fs || x.gs then s1.bump64 (diePage .xlate pd) 0x144 else s1
    let fin (a : Nat) (r w : Bool) (sz : Nat) (s : State) : Except XFail XPage × State :=
      if 2 ^ 52 ≤ a ∨ !s.inRange c a then (.error { cause := 6 }, s) else (.ok ⟨a, r, w, sz⟩, s)
    let first : Except XFail (Nat × Bool × Bool × Nat) × State :=
      if !x.fs then (.ok (va, true, true, 64), s2)
      else if va / 2 ^ 57 ≠ (if bitOf va 56 then 127 else 0) then (.error { cause := 2, stage := 0 }, s2)
      else s2.fWalk x (xAccepts c) need va 5 (x.fsRoot * 4096)
    match first with
    | (.error e, s3) => (.error e, s3)
    | (.ok (gpa, r, w, sz), s3) =>
      match s3.gPhys x (xAccepts c) need gpa with
      | (.error e, s4) => (.error e, s4)
      | (.ok (a, r2, w2, sz2), s4) => fin a (r && r2) (w && w2) (min sz sz2) s4

/-- A translation failure is counted, recorded and captured (R399, R413, R414). -/
def State.xlateFault (s : State) (pd : PD) (c : XClass) (ctx va tag : Nat) (write : Bool) (e : XFail) : State :=
  let p := diePage .xlate pd
  let low := if e.cause = 8 then withBits ctx 0 8 e.code else ctx
  let s1 := (s.bump p Reg.XLATE_FAULTS_COUNT).report p 1
    (low + e.cause * 2 ^ 16 + e.stage * 2 ^ 20 + e.level * 2 ^ 22 + xCode c % 8 * 2 ^ 25 + bitsOf va 21 36 * 2 ^ 28)
  if s1.flag p Reg.XLATE_FLT_INFO_VALID then s1
  else
    let w := ctx + e.cause * 2 ^ 16 + e.stage * 2 ^ 20 + e.level * 2 ^ 22 + xCode c * 2 ^ 25 + b2n write * 2 ^ 29 + 2 ^ 31
    ((((s1.setReg p 0x160 (BitVec.ofNat 32 w)).setReg p 0x164 (BitVec.ofNat 32 va)).setReg p 0x168
      (BitVec.ofNat 32 (bitsOf va 32 25))).setReg p 0x16C (BitVec.ofNat 32 tag)).setInt p 1

/-! Region blocks (R400, R401). -/

/-- Adds a 2 MiB page to the regions: it joins the last one where both addresses go on and permissions agree. -/
def addPage (l : List Region) (vf sf : Nat) (r w : Bool) : List Region :=
  match l.getLast? with
  | some g =>
    if g.vframe + g.frames = vf ∧ g.sframe + g.frames = sf ∧ g.r = r ∧ g.w = w then l.dropLast ++ [{ g with frames := g.frames + 1 }]
    else l ++ [⟨vf, r, w, sf, 1⟩]
  | none => [⟨vf, r, w, sf, 1⟩]

/-- Translates the 2 MiB pages of one span; the failing address goes with a failure. -/
def State.spanPages (s : State) (pd : PD) (c : XClass) (ctx : Nat) (need : XNeed) : List Nat → List Region → Except (XFail × Nat) (List Region) × State
  | [], l => (.ok l, s)
  | vf :: vs, l =>
    match s.translate pd c ctx (vf * 2 ^ 21) need with
    | (.error e, s1) => (.error (e, vf * 2 ^ 21), s1)
    | (.ok p, s1) => s1.spanPages pd c ctx need vs (addPage l vf (p.spa / 2 ^ 21) p.r p.w)

def spanFrames (x : Span) : List Nat :=
  if x.len.toNat = 0 then []
  else
    let a := x.va.toNat
    let n := (a + x.len.toNat - 1) / 2 ^ 21 - a / 2 ^ 21 + 1
    (List.range n).map (a / 2 ^ 21 + ·)

/-- Translates the spans of a descriptor into its region block (R400). -/
def State.translateSpans (s : State) (pd : PD) (c : XClass) (ctx : Nat) (spans : List Span) : Except (XFail × Nat × Bool) RegBlock × State :=
  let rec_ := spans.foldl (fun (acc : Except (XFail × Nat × Bool) (List Region) × State) x =>
    match acc with
    | (.error e, t) => (.error e, t)
    | (.ok l, t) =>
      match t.spanPages pd c ctx (if x.write then .write else .read) (spanFrames x) [] with
      | (.error (e, va), t1) => (.error (e, va, x.write), t1)
      | (.ok rs, t1) => (.ok (l ++ rs), t1)) (.ok [], s)
  match rec_ with
  | (.error e, t) => (.error e, t)
  | (.ok l, t) =>
    if 8 < l.length then (.error ({ cause := 7 }, (spans.head?.map (·.va.toNat)).getD 0, false), t)
    else (.ok { epoch := s.epoch ctx, ctx := ctx, regions := l }, t)

/-- The system address of a virtual byte of a translated descriptor (R401). -/
def RegBlock.map (b : RegBlock) (va : Nat) : Option Nat :=
  (b.regions.find? fun r => decide (r.vframe ≤ va / 2 ^ 21) && decide (va / 2 ^ 21 < r.vframe + r.frames)).map fun r =>
    r.sframe * 2 ^ 21 + (va - r.vframe * 2 ^ 21)

/-- A region as its 16 bytes. -/
def Region.word (r : Region) : Nat :=
  r.vframe + b2n r.r * 2 ^ 36 + b2n r.w * 2 ^ 37 + r.sframe * 2 ^ 64 + r.frames * 2 ^ 96

/-- The 144 bytes of a region block. -/
def RegBlock.bytes (b : RegBlock) : List Byte :=
  leBytes b.epoch 8 ++ leBytes b.ctx 2 ++ leBytes b.regions.length 1 ++ leBytes 0 5 ++
  b.regions.flatMap (fun r => leBytes r.word 16) ++ List.replicate (16 * (8 - b.regions.length)) 0

/-- The translation of a descriptor, or its failure reported (R399, R400). -/
def State.dtu (s : State) (pd : PD) (c : XClass) (ctx tag : Nat) (spans : List Span) : Option RegBlock × State :=
  match s.translateSpans pd c ctx spans with
  | (.ok b, s1) => (some b, s1)
  | (.error (e, va, w), s1) => (none, s1.xlateFault pd c ctx va tag w e)

/-- A block whose context's epoch has risen is translated again (R404); none where that fails. -/
def State.refresh (s : State) (pd : PD) (c : XClass) (b : RegBlock) (tag : Nat) (spans : List Span) : Option RegBlock × State :=
  if b.epoch = s.epoch b.ctx then (some b, s)
  else s.bump (diePage .xlate pd) Reg.XLATE_RETRANS_COUNT |>.dtu pd c b.ctx tag spans

end Sys2Proof.Machine
end

