-- ==== Sys2Proof/Machine/SysMem.lean ====
section
/-!
DEFINITION. Accesses to system addresses by movers, Carousel and operand caches: tiered memory through the homes, PCIe
windows through the root ports (spec/02_register_pages.md R36, R37, spec/11_memory_placement.md R302,
spec/23_pcie_management.md R607 to R609).
-/
namespace Sys2Proof.Machine

/-- Base of port n's window (R36). -/
def winBase (n : Nat) : Nat := 2 ^ 43 + n * 2 ^ 40

/-- The port is up (R609). -/
def State.portUp (s : State) (n : Nat) : Bool := s.fld (rportPage (rportOf n)) Reg.PRP_STAT_STATE == 2

/-- The PCIe address of a window's memory space (R607). -/
def State.pcieAddr (s : State) (n a : Nat) : Nat :=
  (a - winBase n - 0x10000000 + s.reg64 (rportPage (rportOf n)) 0x108) % 2 ^ 64

/-- Payload that a port carries (R580). -/
def State.pciePay (s : State) (n : Nat) (ctx : Option Nat) (len : Nat) : State := s.actAdd (rportPd (rportOf n)) ctx 8 ((len + 127) / 128)

/-- A TLP leaves a port. -/
def State.sendTlp (s : State) (t : Tlp) : State := { s with pcie := { s.pcie with out := s.pcie.out ++ [t] } }

/-- A completion time-out of an outbound request (R609). -/
def State.winTimeout (s : State) (n a : Nat) : State :=
  let p := rportPage (rportOf n)
  ((s.bump p Reg.PRP_OB_TMO_COUNT).report p 3 a).setInt p 5

def State.winError (s : State) (n : Nat) : State := s.bump (rportPage (rportOf n)) Reg.PRP_OB_ERR_COUNT

/-- A read of n bytes through a window by a mover or Carousel: its code and data (R609). -/
def State.winRead (s : State) (n a len : Nat) (ans : WinAns) : Nat × List Byte × State :=
  if !s.portUp n then (0x11, [], s)
  else if a - winBase n < 0x10000000 then (0x7F, [], s)
  else
    let s1 := s.sendTlp ⟨n, .memRead, s.pcieAddr n a, len, []⟩
    match ans with
    | .data d => (0, leBytes d.toNat len, s1.pciePay n none len)
    | .timeout => (0x11, [], s1.winTimeout n a)
    | .failed => (0x7F, [], s1.winError n)

/-- A posted write through a window (R609): discarded and counted while the port is not up. -/
def State.winWrite (s : State) (n a : Nat) (bs : List Byte) : Nat × State :=
  if !s.portUp n then (0, s.winError n)
  else if a - winBase n < 0x10000000 then (0x7F, s)
  else (0, (s.sendTlp ⟨n, .memWrite, s.pcieAddr n a, bs.length, bs⟩).pciePay n none bs.length)

/-- What a tier's failure makes of an access that passed its checks (R302). -/
def State.tierFails (s : State) (a : Nat) : TierFail → Nat × State
  | .none => (0, s)
  | .readError => (0x10, s.tierErr (a / 2 ^ 21) (a / 128) false)
  | .timeout => (0x11, s.tierErr (a / 2 ^ 21) (a / 128) true)

/-- A read of n bytes at a system address. -/
def State.sysRead (s : State) (ctx a n : Nat) (tf : TierFail) (win : WinAns) : Nat × List Byte × State :=
  match windowPort a with
  | some p => s.winRead p a n win
  | none =>
    let (code, bs, s1) := s.memRead ctx a n
    if code ≠ 0 then (code, [], s1)
    else
      let (c2, s2) := s1.tierFails a tf
      (c2, if c2 = 0 then bs else [], s2)

/-- A write of bytes at a system address; after a tier's time-out the bytes are undefined (R302). -/
def State.sysWrite (s : State) (ctx a : Nat) (bs : List Byte) (tf : TierFail) : Nat × State :=
  match windowPort a with
  | some p => s.winWrite p a bs
  | none =>
    match tf with
    | .timeout =>
      let free := (List.range bs.length).map (Config.freeByte s.freeCtr)
      let (code, s1) := { s with freeCtr := s.freeCtr + 1 }.memWrite ctx a free
      if code ≠ 0 then (code, s1) else s1.tierFails a .timeout
    | _ => s.memWrite ctx a bs

/-- The parts of n bytes from a that lie in one 2 MiB frame each: (address, length). -/
def frameParts (a n : Nat) : List (Nat × Nat) :=
  let k := 2 ^ 21 - a % 2 ^ 21
  if n ≤ k then [(a, n)] else [(a, k), (a + k, n - k)]

/-- Reads n bytes of a translated virtual range, at most one frame's end inside it. -/
def State.vaRead (s : State) (b : RegBlock) (va n : Nat) (tf : TierFail) (win : WinAns) : Nat × List Byte × State :=
  (frameParts va n).foldl (fun (acc : Nat × List Byte × State) (x : Nat × Nat) =>
    if acc.1 ≠ 0 then acc
    else
      match b.map x.1 with
      | none => (0x13, [], acc.2.2)
      | some a =>
        let (c, bs, t) := acc.2.2.sysRead b.ctx a x.2 tf win
        (c, acc.2.1 ++ bs, t)) (0, [], s)

/-- Writes bytes to a translated virtual range. -/
def State.vaWrite (s : State) (b : RegBlock) (va : Nat) (bs : List Byte) (tf : TierFail) : Nat × State :=
  (frameParts va bs.length).foldl (fun (acc : Nat × State) (x : Nat × Nat) =>
    if acc.1 ≠ 0 then acc
    else
      match b.map x.1 with
      | none => (0x13, acc.2)
      | some a => acc.2.sysWrite b.ctx a ((bs.drop (x.1 - va)).take x.2) tf) (0, s)

/-- The step carries an error that ends its job with a code (R181, R232, R327, R333): the first stands. -/
def State.stepFail (s : State) (lc pc code : Nat) : State :=
  if s.sched.stepErr.isSome || !s.schedRuns then s else { s with sched := { s.sched with stepErr := some ⟨0, lc, pc, code⟩ } }

/-- Bytes of tiered memory that the step in progress wrote are noted (R542). -/
def State.noteWrite (s : State) (ctx a n : Nat) : State :=
  if s.sched.image.isNone || s.sched.committed || n = 0 then s
  else { s with sched := { s.sched with wrote := s.sched.wrote ++ [⟨ctx, a, n⟩] } }

/-- The bytes that the held step wrote are undefined (R542): each becomes a free value. -/
def State.stepUndefined (s : State) : State :=
  s.sched.wrote.foldl (fun t w => (t.nextFree.memWrite w.ctx w.addr ((List.range w.len).map (Config.freeByte t.freeCtr))).2)
    { s with sched := { s.sched with wrote := [] } }

end Sys2Proof.Machine
end

