-- ==== Sys2Proof/Machine/PcieOps.lean ====
section
/-!
DEFINITION. The root ports: their state and configuration space, outbound requests, inbound requests and MSIs
(spec/23_pcie_management.md R605 to R620, spec/15_address_translation.md R408, R409, spec/18_coherence.md R480).
-/
namespace Sys2Proof.Machine

def State.rport (s : State) (n : Nat) : RportSt := mget (fun _ => {}) s.pcie.ports n

def State.setRport (s : State) (n : Nat) (v : RportSt) : State :=
  { s with pcie := { s.pcie with ports := mput (fun _ => {}) s.pcie.ports n v } }

abbrev rpPage (n : Nat) : Page := rportPage (rportOf n)

/-- PERST_N of a port, low where true: low from power-up until stage 3 releases it (R616). -/
def State.perstLow (s : State) (n : Nat) : Bool := mget (fun _ => true) s.boot.pins.perst n

def State.setPerst (s : State) (n : Nat) (low : Bool) : State :=
  { s with boot := { s.boot with pins := { s.boot.pins with perst := mput (fun _ => true) s.boot.pins.perst n low } } }

/-! Configuration space of a root port (R605, R607; log entry 32). -/

/-- The bits of a byte that software writes. -/
def cfgRw (off : Nat) : Byte :=
  if off = 0x18 then 0
  else if off = 0x04 then 0x47
  else if off = 0x05 then 0x05
  else if off = 0x0C ∨ off = 0x19 ∨ off = 0x1A ∨ off = 0x3C ∨ off = 0x3E then 0xFF
  else if 0x20 ≤ off ∧ off < 0x28 then (if off % 2 = 0 then 0xF0 else 0xFF)
  else if 0x28 ≤ off ∧ off < 0x30 then 0xFF
  else if off < 0x40 then 0
  else if off = Config.aerOff + 0x2C then 7
  else if Config.aerOff + 8 ≤ off ∧ off < Config.aerOff + 16 then 0xFF
  else if off = Config.dpcOff + 6 then 0x0B
  else if off = Config.pcieOff + 0x10 then 0x13
  else if off = Config.pcieOff + 0x1C then 0x1F
  else Config.rootCfgRw off

/-- The bits of a byte that a written 1 clears. -/
def cfgW1c (off : Nat) : Byte :=
  if off = 0x07 ∨ off = 0x1F then 0xF9 else if off < 0x40 then 0 else Config.rootCfgW1c off

/-- A byte that software has not changed. -/
def cfgReset (off : Nat) : Byte :=
  if off = 0x0E then 1
  else if off = 0x0B then 6
  else if off = 0x0A then 4
  else if off = 0x18 ∨ off = 0x19 ∨ off = 0x1A ∨ off = 0x04 ∨ off = 0x05 ∨ off = 0x3E ∨ off = Config.aerOff + 0x2C ∨
    off = Config.dpcOff + 6 ∨ off = Config.pcieOff + 0x10 ∨ off = Config.pcieOff + 0x1C then 0
  else if Config.aerOff + 12 ≤ off ∧ off < Config.aerOff + 16 then BitVec.ofNat 8 (0x462030 / 2 ^ (8 * (off - Config.aerOff - 12)))
  else Config.rootCfg off

/-- Status bits of the port that are not kept as bytes: the register at an offset, and its value. -/
def State.cfgStatus (s : State) (n : Nat) (off : Nat) : Option Byte :=
  let r := s.rport n
  let at_ (base v : Nat) : Option Byte := if base ≤ off ∧ off < base + 4 then some (BitVec.ofNat 8 (v / 2 ^ (8 * (off - base)))) else none
  ((at_ (Config.aerOff + 4) r.aer).or (at_ (Config.aerOff + 16) r.aerCor)).or
    ((at_ (Config.aerOff + 0x30) r.rootErr).or ((at_ (Config.pcieOff + 0x20) (b2n r.pme * 2 ^ 16)).or
      (if off = Config.dpcOff + 8 then some (BitVec.ofNat 8 (b2n r.dpc * 9)) else none)))

def State.cfgByte (s : State) (n off : Nat) : Byte :=
  match s.cfgStatus n off with
  | some b => b
  | none => ((s.rport n).cfg.lookup off).getD (cfgReset off)

/-- RP_EVENT while AER, DPC or PME is pending and enabled (R606). -/
def State.rpEvent (s : State) (n : Nat) : State :=
  let r := s.rport n
  let cmd := (s.cfgByte n (Config.aerOff + 0x2C)).toNat
  let aer := (bitOf cmd 0 && bitOf r.rootErr 0) || (bitOf cmd 1 && bitOf r.rootErr 5) || (bitOf cmd 2 && bitOf r.rootErr 6)
  let dpc := r.dpc && (s.cfgByte n (Config.dpcOff + 6)).getLsbD 3
  let pme := r.pme && (s.cfgByte n (Config.pcieOff + 0x1C)).getLsbD 3
  if aer || dpc || pme then s.setInt (rpPage n) 8 else s

/-- An uncorrectable error of the port is logged in AER; its severity register says which message it counts as. -/
def State.aerLog (s : State) (n bit : Nat) : State :=
  let r := s.rport n
  let sev := leNat ((List.range 4).map fun i => s.cfgByte n (Config.aerOff + 12 + i))
  (s.setRport n { r with aer := r.aer ||| 2 ^ bit, rootErr := r.rootErr ||| (if bitOf sev bit then 0x44 else 0x24) }).rpEvent n

/-! The link (R609, R616, R617). -/

/-- The answer of an outbound request that meets a port not UP (R609). -/
def State.npEnd (s : State) (q : NpReq) : State :=
  if q.write then s
  else if q.cfg then s.hartAnswer q.hart (.bytes (List.replicate q.len 0xFF))
  else s.hartFault q.hart (BitVec.ofNat 64 q.va) q.addr 0x11 0

/-- Every outbound request of a port ends. -/
def State.npEndAll (s : State) (n : Nat) : State :=
  let (mine, rest) := s.pcie.np.partition fun q => q.port == n
  mine.foldl State.npEnd { s with pcie := { s.pcie with np := rest } }

/-- Lines that a port holds are written back (R480, R617). -/
def State.rpFlush (s : State) (n : Nat) : State :=
  (s.homeSt.rp.filter fun x => x.1 / 2 ^ 46 == n).foldl (fun (t : State) (x : Nat × Option CLine) =>
    match x.2 with
    | some c => (t.setRp n (x.1 % 2 ^ 46) none).sendWb ⟨.rport n, x.1 % 2 ^ 46, true, c.data, c.ctx, false⟩
    | none => t) s

def State.setLink (s : State) (n st : Nat) : State := s.setFld (rpPage n) Reg.PRP_STAT_STATE st

/-- What the controls hold the link in: PERST, Disabled, or neither (R616, R619). -/
def State.linkHeld (s : State) (n : Nat) : Option Nat :=
  if s.perstLow n || (s.cfgByte n 0x3E).getLsbD 6 || (s.cfgByte n (Config.pcieOff + 0x10)).getLsbD 4 then some 0
  else if s.flag (rpPage n) Reg.PRP_CTRL_LINK_DISABLE then some 4
  else none

/-- The link is lost: requests end, held lines are written back (R617). -/
def State.linkStop (s : State) (n st : Nat) : State := ((s.setLink n st).npEndAll n).rpFlush n

/-- Link loss outside a reset that software requested. cause: 0 lost, 1 DPC, 2 software. -/
def State.linkLost (s : State) (n cause : Nat) : State :=
  let p := rpPage n
  let s1 := (((s.linkStop n (if cause = 1 then 5 else if cause = 2 then 4 else 3)).bump p Reg.PRP_LINK_DOWN_COUNT).report p 4
    cause).setInt p 2
  if cause = 1 then (s1.setRport n { s1.rport n with dpc := true }).rpEvent n else s1

/-- The link follows its controls after one of them changed. -/
def State.linkControls (s : State) (n : Nat) : State :=
  let st := s.fld (rpPage n) Reg.PRP_STAT_STATE
  match s.linkHeld n with
  | some 0 => if st = 0 then s else s.linkStop n 0
  | some _ => if st = 2 then s.linkLost n 2 else s.setLink n 4
  | none => if st = 0 ∨ st = 4 then s.setLink n 1 else s

/-- PERST_N follows PERST_ASSERT where nothing else holds it (R616). -/
def State.perstFollow (s : State) (n : Nat) (released : Bool) : State :=
  (s.setPerst n (!released || s.flag (rpPage n) Reg.PRP_CTRL_PERST_ASSERT)).linkControls n

/-- RETRAIN: a link that is up or down trains again (R619). -/
def State.rpRetrain (s : State) (n : Nat) : State :=
  let st := s.fld (rpPage n) Reg.PRP_STAT_STATE
  if st = 2 ∨ st = 3 then s.setLink n 1 else s

/-- A write of one byte of a root port's configuration space. -/
def State.cfgWriteByte (s : State) (n off : Nat) (v : Byte) : State :=
  let r := s.rport n
  let clear (base old : Nat) : Option Nat :=
    if base ≤ off ∧ off < base + 4 then some (old - (old &&& (v.toNat * 2 ^ (8 * (off - base))))) else none
  match clear (Config.aerOff + 4) r.aer, clear (Config.aerOff + 16) r.aerCor, clear (Config.aerOff + 0x30) r.rootErr with
  | some x, _, _ => s.setRport n { r with aer := x }
  | _, some x, _ => s.setRport n { r with aerCor := x }
  | _, _, some x => s.setRport n { r with rootErr := x }
  | _, _, _ =>
    if off = Config.pcieOff + 0x22 then (if v.getLsbD 0 then s.setRport n { r with pme := false } else s)
    else if off = Config.dpcOff + 8 then
      if v.getLsbD 0 && r.dpc then
        let s1 := s.setRport n { r with dpc := false }
        if s1.fld (rpPage n) Reg.PRP_STAT_STATE = 5 then s1.setLink n 1 else s1
      else s
    else
      let old := s.cfgByte n off
      let new := ((old &&& ~~~(cfgRw off)) ||| (v &&& cfgRw off)) &&& ~~~(v &&& cfgW1c off)
      s.setRport n { r with cfg := minsert r.cfg off new }

def State.cfgWrite (s : State) (n off : Nat) (bs : List Byte) : State :=
  let s1 := (bs.zipIdx.foldl (fun (t : State) (x : Byte × Nat) => t.cfgWriteByte n (off + x.2) x.1) s)
  (s1.linkControls n).rpEvent n

/-! Outbound accesses of harts (R446, R607 to R609). -/

/-- An access of a hart to the window of port n; ok: it is a load or store. -/
def State.winAccess (s : State) (h : Nat) (va : DWord) (write : Bool) (n a size : Nat) (data : List Byte) : State :=
  let p := rpPage n
  let off := a - winBase n
  let kind := if write then 2 else 0
  let bad (t : State) : State := t.hartAnswer h (if write then .storeFault va else .loadFault va)
  let np (cfg : Bool) (t : State) : State :=
    { t with pcie := { t.pcie with np := t.pcie.np ++ [⟨n, h, va.toNat, a, size, cfg, write⟩] } }
  if !s.present p then s.hartFault h va a 0x13 kind
  else if !(size == 1 || size == 2 || size == 4 || size == 8) || a % size ≠ 0 then bad s
  else if off < 0x10000000 then
    if size = 8 then bad s
    else if off < 2 ^ 20 then
      if off < 2 ^ 12 then
        if write then s.cfgWrite n off data
        else s.hartAnswer h (.bytes ((List.range size).map fun i => s.cfgByte n (off + i)))
      else if write then s
      else s.hartAnswer h (.bytes (List.replicate size 0xFF))
    else if !s.portUp n then (if write then s else s.hartAnswer h (.bytes (List.replicate size 0xFF)))
    else if write then np true ((s.sendTlp ⟨n, .cfgWrite, off, size, data⟩).pciePay n none size)
    else np true (s.sendTlp ⟨n, .cfgRead, off, size, []⟩)
  else if write then
    if s.portUp n then (s.sendTlp ⟨n, .memWrite, s.pcieAddr n a, size, data⟩).pciePay n none size else s.winError n
  else if !s.portUp n then s.hartFault h va a 0x11 0
  else np false (s.sendTlp ⟨n, .memRead, s.pcieAddr n a, size, []⟩)

/-- Any access of a hart to a PCIe window: fetches, atomics and LR or SC take an access fault (R446). -/
def State.hartWindow (s : State) (h : Nat) (va : DWord) (op : HartOp) (n a size : Nat) (data : List Byte) : State :=
  match op with
  | .load => s.winAccess h va false n a size []
  | .store => s.winAccess h va true n a size data
  | .fetch => s.hartAnswer h (.fetchFault va)
  | .lr => s.hartAnswer h (.loadFault va)
  | .sc | .amo _ => s.hartAnswer h (.storeFault va)

/-- The first outbound request of a hart on a port, reads and writes apart. -/
def State.npOf (s : State) (n h : Nat) (write : Bool) : Option NpReq :=
  s.pcie.np.find? fun q => q.port == n && q.hart == h && q.write == write

def State.npDrop (s : State) (q : NpReq) : State := { s with pcie := { s.pcie with np := s.pcie.np.erase q } }

/-- A request that ended with UR, CA, RRS after 1 s or poison (R609). -/
def State.npFail (s : State) (q : NpReq) : State :=
  let s1 := (s.npDrop q).winError q.port
  if q.write then s1 else s1.hartFault q.hart (BitVec.ofNat 64 q.va) q.addr 0x7F 0

/-- A completion arrives for a request (R609). A read of the Vendor ID that is answered RRS returns 0001h under RRS Software
Visibility; another is sent again until 1 s has passed. -/
def State.npComplete (s : State) (q : NpReq) (st : CplSt) (data : DWord) : State :=
  match st with
  | .ok => if q.write then s.npDrop q else (((s.npDrop q).pciePay q.port none q.len).hartAnswer q.hart (.bytes (leBytes data.toNat q.len)))
  | .rrs after1s =>
    if !q.cfg then s.npFail q
    else if !q.write && decide (q.addr % 4096 = 0) && decide (2 ≤ q.len) && (s.cfgByte q.port (Config.pcieOff + 0x1C)).getLsbD 4 then
      (s.npDrop q).hartAnswer q.hart (.bytes ([0x01, 0x00] ++ List.replicate (q.len - 2) 0xFF))
    else if after1s then s.npFail q
    else s.sendTlp ⟨q.port, if q.write then .cfgWrite else .cfgRead, q.addr - winBase q.port, q.len, []⟩
  | .ur | .ca | .poisoned => s.npFail q

/-! Requesters (R408, R409). -/

/-- The entry of a requester: cached, or read and then cached; 64 are kept, the oldest given up. -/
def State.ridEntry (s : State) (n rid : Nat) : Nat × Nat × State :=
  match (s.rport n).rids.lookup rid with
  | some e => (0, e, s)
  | none =>
    let (code, bs, s1) := s.memRead 0 (s.reg64 s.xlPage (0x110 + 8 * n) + 8 * rid) 8
    if code ≠ 0 then (code, 0, s1)
    else
      let r := s1.rport n
      let l := r.rids ++ [(rid, leNat bs)]
      (0, leNat bs, s1.setRport n { r with rids := l.drop (l.length - 64) })

/-- The context of a requester and whether it only reads; or the failure. at: a PASID prefix or an address type other than
untranslated. -/
def State.ridLookup (s : State) (n rid : Nat) (at_ : Bool) : Except XFail (Nat × Bool) × State :=
  if at_ || !bitOf (s.fld s.xlPage Reg.XLATE_CFG_RID_EN) n then (.error { cause := 9 }, s)
  else
    let (code, e, s1) := s.ridEntry n rid
    if code ≠ 0 then (.error { cause := 8, code := code }, s1)
    else if !bitOf e 0 || bitsOf e 2 14 ≠ 0 || bitsOf e 32 32 ≠ 0 then (.error { cause := 9 }, s1)
    else (.ok (bitsOf e 16 16, bitOf e 1), s1)

/-! Inbound requests (R610, R611). -/

/-- An inbound request fails: counted, captured, recorded, logged in AER. -/
def State.inFail (s : State) (n rid addr code : Nat) (read : Bool) : State :=
  let p := rpPage n
  let s1 := s.bump p (if read then Reg.PRP_IN_READ_ERR_COUNT else Reg.PRP_IN_REFUSED_COUNT)
  let s2 := ((s1.blockErr p 1 0 (addr % 2 ^ 32) (rid + code * 2 ^ 16)).report p 1 (rid + code * 2 ^ 16 + bitsOf addr 24 40 * 2 ^ 24)).setInt p 3
  if code = 0x13 then s2.aerLog n 20
  else if code = 0x10 ∨ (code = 0x11 ∧ !read) then s2
  else s2.aerLog n 15

/-- A translation failure of an inbound request (R399, R413). -/
def State.inXlateFail (s : State) (n rid ctx addr : Nat) (read : Bool) (e : XFail) : State :=
  (s.xlateFault (rportPd (rportOf n)) .pcie ctx addr (rid + n * 2 ^ 16) (!read) e).inFail n rid addr 0x13 read

/-- A port takes write permission for a line, giving up its first line where it holds 1024 (R480; log entry 33). -/
def State.rpRoom (s : State) (n : Nat) : State :=
  let mine := s.homeSt.rp.filter fun x => x.1 / 2 ^ 46 == n
  if mine.length < 1024 then s
  else
    match mine.head? with
    | some (k, some c) => (s.setRp n (k % 2 ^ 46) none).sendWb ⟨.rport n, k % 2 ^ 46, true, c.data, c.ctx, false⟩
    | _ => s

/-- One line of an ordered inbound write: into the held line, or after CLAIM or READ_X (R480). -/
def State.rpWrite (s : State) (n ctx line mask : Nat) (bs : List Byte) (err : TierFail) : Nat × State :=
  match s.rpLine n line with
  | some c => (0, s.setRp n line (some { c with data := overlay mask c.data bs }))
  | none =>
    let s0 := s.rpRoom n
    let whole := decide (mask = 2 ^ 64 - 1)
    let (code, d, s1) := s0.runTxn
      { line := line, req := if whole then .claim else .readX, who := some (.rport n), tag := 0, ctx := ctx, data := if whole then bs else [] }
    if code ≠ 0 then (code, s1)
    else
      let (c2, s2) := if whole then (0, s1) else s1.tierFails (line * 64) err
      if c2 = 0 then (0, s2.setRp n line (some { st := .m, data := overlay mask d bs, ctx := ctx }))
      else (c2, (s2.setRp n line none).dirErase line)

/-- One line of a relaxed inbound write (R480); after a time-out its bytes are undefined (R302). -/
def State.inWriteLine (s : State) (n ctx line mask : Nat) (bs : List Byte) (relaxed : Bool) (err : TierFail) : Nat × State :=
  if !relaxed then s.rpWrite n ctx line mask bs err
  else
    match err with
    | .timeout =>
      let (code, s1) := s.nextFree.cohWrite ctx line mask ((List.range 64).map (Config.freeByte s.freeCtr))
      if code ≠ 0 then (code, s1) else s1.tierFails (line * 64) .timeout
    | _ => s.cohWrite ctx line mask bs

/-- The 64 B lines of a range: line, first byte in it, bytes. -/
def rpParts (a len : Nat) : List (Nat × Nat × Nat) :=
  if len = 0 then []
  else (List.range ((a + len - 1) / 64 - a / 64 + 1)).map fun i =>
    let l := a / 64 + i
    let lo := max a (l * 64)
    (l, lo - l * 64, min (a + len) (l * 64 + 64) - lo)

/-- An inbound write of translated bytes: each line by itself; the first failing code goes along. -/
def State.inWrite (s : State) (n ctx a : Nat) (bs : List Byte) (relaxed : Bool) (err : TierFail) : Nat × State :=
  (rpParts a bs.length).foldl (fun (acc : Nat × State) (x : Nat × Nat × Nat) =>
    let now := (bs.drop (x.1 * 64 + x.2.1 - a)).take x.2.2
    let data := List.replicate x.2.1 0 ++ now ++ List.replicate (64 - x.2.1 - x.2.2) 0
    let (code, t) := acc.2.inWriteLine n ctx x.1 ((2 ^ x.2.2 - 1) * 2 ^ x.2.1) data relaxed (if x.1 = a / 64 then err else .none)
    (if acc.1 = 0 then code else acc.1, t)) (0, s)

/-- An inbound read of translated bytes: what lies before the first failing line, and its code. -/
def State.inRead (s : State) (n ctx a len : Nat) (err : TierFail) : Nat × List Byte × State :=
  (rpParts a len).foldl (fun (acc : Nat × List Byte × State) (x : Nat × Nat × Nat) =>
    if acc.1 ≠ 0 then acc
    else
      let (code, d, t) := match acc.2.2.rpLine n x.1 with
        | some c => (0, c.data, acc.2.2)
        | none => acc.2.2.cohRead ctx x.1
      let (c2, t2) := if code = 0 ∧ x.1 = a / 64 then t.tierFails a err else (code, t)
      if c2 = 0 then (0, acc.2.1 ++ (d.drop x.2.1).take x.2.2, t2) else (c2, acc.2.1, t2)) (0, [], s)

/-- How a failing read's completion ends (R611). -/
def cplOf (code : Nat) : TlpKind := if code = 0x13 then .cplUr else if code = 0x10 then .cplPoison else .cplCa

/-! MSIs (R613 to R615). -/

/-- An entry of the MSI table: cached, or read and then cached; 64 are kept. -/
def State.msiEntry (s : State) (n i : Nat) : Nat × Nat × State :=
  match (s.rport n).msis.lookup i with
  | some e => (0, e, s)
  | none =>
    let (code, bs, s1) := s.memRead 0 (s.reg64 (rpPage n) 0x118 + 8 * i) 8
    if code ≠ 0 then (code, 0, s1)
    else
      let r := s1.rport n
      let l := r.msis ++ [(i, leNat bs)]
      (0, leNat bs, s1.setRport n { r with msis := l.drop (l.length - 64) })

def State.msiDropped (s : State) (n rid i : Nat) : State :=
  let p := rpPage n
  ((s.bump p Reg.PRP_MSI_DROP_COUNT).report p 2 (rid + i * 2 ^ 16)).setInt p 4

/-- A posted write to the doorbell page that passed the requester table (R613, R614). -/
def State.msiWrite (s : State) (n rid addr len data : Nat) : State :=
  let i := data % 4096
  if len ≠ 4 ∨ addr % 4 ≠ 0 ∨ data / 4096 ≠ 0 ∨ s.fld (rpPage n) Reg.PRP_MSI_SIZE_ENTRIES ≤ i then s.msiDropped n rid i
  else
    let (code, e, s1) := s.msiEntry n i
    if code ≠ 0 ∨ !bitOf e 0 ∨ bitsOf e 2 6 ≠ 0 ∨ bitOf e 15 ∨ bitsOf e 20 4 ≠ 0 ∨ bitsOf e 48 16 ≠ 0 ∨
      (bitOf e 1 ∧ bitsOf e 32 16 ≠ rid) then s1.msiDropped n rid i
    else s1.msiTo (cpuclPageOf s1 (bitsOf e 8 7)) (bitsOf e 8 7) (bitsOf e 16 4) (bitsOf e 24 8)

/-- The doorbell page holds a PCIe address (R613). -/
def State.doorbell (s : State) (n addr : Nat) : Bool := addr / 4096 == s.reg64 (rpPage n) 0x110 / 4096

/-- An inbound memory request past the requester table (R610). -/
def State.inMemory (s : State) (n rid ctx addr : Nat) (ro : Bool) (kind : InTlp) (err : TierFail) : State :=
  let pd := rportPd (rportOf n)
  match kind with
  | .unsupported _ => s
  | .write len data relaxed =>
    if len.val = 0 then s
    else if ro then s.inXlateFail n rid ctx addr false { cause := 3 }
    else
      match s.translate pd .pcie ctx addr .write with
      | (.error e, s1) => s1.inXlateFail n rid ctx addr false e
      | (.ok x, s1) =>
        let (code, s2) := (s1.pciePay n (some ctx) len.val).inWrite n ctx x.spa (leBytes data.toNat len.val) relaxed err
        if code = 0 then s2 else s2.inFail n rid addr code false
  | .read len =>
    let done (t : State) (k : TlpKind) (bs : List Byte) : State := t.sendTlp ⟨n, k, addr, bs.length, bs⟩
    if len.val = 0 then done s .cplOk []
    else
      match s.translate pd .pcie ctx addr .read with
      | (.error e, s1) => (done s1 .cplUr []).inXlateFail n rid ctx addr true e
      | (.ok x, s1) =>
        let (code, bs, s2) := s1.inRead n ctx x.spa len.val err
        let s3 := if bs.isEmpty then s2 else (done s2 .cplOk bs).pciePay n (some ctx) bs.length
        if code = 0 then s3 else (done s3 (cplOf code) []).inFail n rid addr code true

end Sys2Proof.Machine
end

