-- ==== Sys2Proof/Machine/TokOps.lean ====
section
/-!
DEFINITION. Ports, partition shape, the sync tree and the sending of tokens (spec/19_jallyn_links.md R490, R496,
R501 to R507).
-/
namespace Sys2Proof.Machine

def portOf (n : Nat) : JPort := ⟨n % 8, Nat.mod_lt _ (by decide)⟩
def jpPage (n : Nat) : Page := jportPage (portOf n)

/-- The page whose copy of the package-scope registers is read; every page holds the same values (R523). -/
def jp0 : Page := jpPage 0

/-- Writes a package-scope field in every JPORT page. -/
def State.setJp (s : State) (f : RegField) (v : Nat) : State :=
  (List.range 8).foldl (fun t n => t.setFld (jpPage n) f v) s

def State.jport (s : State) (n : Nat) : PortSt := mget (fun _ => {}) s.jal.ports n

def State.setJport (s : State) (n : Nat) (p : PortSt) : State :=
  { s with jal := { s.jal with ports := mput (fun _ => {}) s.jal.ports n p } }

/-- JP_STAT.STATE of a port (R496). -/
def State.jpState (s : State) (n : Nat) : Nat := s.fld (jpPage n) Reg.JP_STAT_STATE

def State.setJpState (s : State) (n v : Nat) : State := s.setFld (jpPage n) Reg.JP_STAT_STATE v

/-! Shape (R501). -/

/-- Extent of dimension d: 0 X, 1 Y, 2 Z. -/
def State.extent (s : State) (d : Nat) : Nat :=
  s.fld jp0 (if d = 0 then Reg.JP_PART_CFG_XM1 else if d = 1 then Reg.JP_PART_CFG_YM1 else Reg.JP_PART_CFG_ZM1) + 1

/-- This device's coordinate in dimension d. -/
def State.coord (s : State) (d : Nat) : Nat :=
  s.fld jp0 (if d = 0 then Reg.JP_PART_COORD_X else if d = 1 then Reg.JP_PART_COORD_Y else Reg.JP_PART_COORD_Z)

def State.devices (s : State) : Nat := s.extent 0 * s.extent 1 * s.extent 2

/-- DIAMETER (R213). -/
def State.diameter (s : State) : Nat := s.extent 0 / 2 + s.extent 1 / 2 + s.extent 2 / 2

/-- The port uses its link (R501): ports 2d and 2d + 1 of a dimension above 1, J6 and J7 where enabled. -/
def State.portUsed (s : State) (n : Nat) : Bool :=
  if n < 6 then decide (1 < s.extent (n / 2))
  else if n = 6 then s.flag jp0 Reg.JP_PART_CFG_J6_EN else s.flag jp0 Reg.JP_PART_CFG_J7_EN

def State.usedPorts (s : State) : List Nat := (List.range 8).filter s.portUsed

/-- The ports that are ACTIVE. -/
def State.activePorts (s : State) : List Nat := (List.range 8).filter fun n => s.jpState n == 5

/-! The sync tree (R503). -/

/-- The dimension of the step toward the root. -/
def State.treeDim (s : State) : Option Nat := [2, 1, 0].find? fun d => s.coord d != 0

/-- The port toward the parent; none at the root. -/
def State.parentPort (s : State) : Option Nat :=
  s.treeDim.map fun d => if s.coord d ≤ s.extent d / 2 then 2 * d + 1 else 2 * d

/-- The neighbour over a port is a child: it is in dimension d, every coordinate above d is 0, and its own step toward
coordinate 0 leads here. -/
def State.childPort (s : State) (n : Nat) : Bool :=
  let d := n / 2
  let k := s.extent d
  let above := (List.range 3).all fun e => !decide (d < e) || s.coord e == 0
  decide (n < 6) && decide (1 < k) && above &&
  (if n % 2 = 0 then decide (s.coord d + 1 < k) && decide (s.coord d + 1 ≤ k / 2)
   else
     let c := (s.coord d + k - 1) % k
     c != 0 && decide (k / 2 < c))

def State.childPorts (s : State) : List Nat := (List.range 6).filter s.childPort

def State.isRoot (s : State) : Bool := s.parentPort.isNone

/-! Tokens (R504, R507). -/

/-- This device's number in the partition (R250). -/
def State.deviceNo (s : State) : Nat := s.fld s.leadPage Reg.SCHED_PART_DEVICE

def State.tokHdr (s : State) (step : Nat) : TokHdr :=
  ⟨0, BitVec.ofNat 16 s.deviceNo, s.reg jp0 0x118, BitVec.ofNat 64 step⟩

/-- Sends a token on a port. -/
def State.sendTok (s : State) (n : Nat) (t : Tok) : State := { s with jal := { s.jal with out := s.jal.out ++ [(n, t)] } }

def State.sendToks (s : State) (ns : List Nat) (t : Tok) : State := ns.foldl (fun u n => u.sendTok n t) s

/-- TTYPE of a body. -/
def ttype : TokBody → Nat
  | .gather _ => 1 | .release _ => 2 | .hold _ _ _ => 3 | .resume _ => 4 | .startGather _ => 5 | .startRelease _ _ => 6
  | .trapRecord _ => 7 | .formGather _ => 8 | .formRelease => 9 | .lpReq => 10 | .lpAck => 11 | .ident _ => 12

def tokKey (t : Tok) : Nat × Nat × Nat := (ttype t.body, t.hdr.origin.toNat, t.hdr.step.toNat)

/-- Originates a flooded token: on every ACTIVE port. -/
def State.flood (s : State) (step : Nat) (b : TokBody) : State :=
  let t : Tok := ⟨s.tokHdr step, b⟩
  ({ s with jal := { s.jal with seen := tokKey t :: s.jal.seen } }).sendToks s.activePorts t

/-- A flooded token comes in on a port: whether it is the first copy, and the state with it forwarded. -/
def State.floodIn (s : State) (n : Nat) (t : Tok) : Bool × State :=
  if s.jal.seen.contains (tokKey t) then (false, s)
  else
    let f : Tok := ⟨{ t.hdr with hops := t.hdr.hops + 1 }, t.body⟩
    (true, ({ s with jal := { s.jal with seen := tokKey t :: s.jal.seen } }).sendToks (s.activePorts.filter (· != n)) f)

/-- Forwards a token down the tree. -/
def State.sendDown (s : State) (step : Nat) (b : TokBody) : State := s.sendToks s.childPorts ⟨s.tokHdr step, b⟩

/-- Sends a token to the parent. -/
def State.sendUp (s : State) (step : Nat) (b : TokBody) : State :=
  match s.parentPort with
  | some n => s.sendTok n ⟨s.tokHdr step, b⟩
  | none => s

/-- A HOLD is noted with the first origin and cause; further origins are recorded (R507). -/
def State.noteHold (s : State) (origin cause : Nat) : State :=
  if s.flag jp0 Reg.JP_HOLD_HELD then
    if s.fld jp0 Reg.JP_HOLD_ORIGIN = origin then s else s.reportOpen jp0 5
  else
    let s1 := ((s.setJp Reg.JP_HOLD_HELD 1).setJp Reg.JP_HOLD_CAUSE cause).setJp Reg.JP_HOLD_ORIGIN origin
    (List.range 8).foldl (fun t n => t.setInt (jpPage n) 6) s1

end Sys2Proof.Machine
end

