-- ==== Sys2Proof/Machine/CoreFault.lean ====
section
/-!
DEFINITION. Core faults and the system hold (spec/20_fault_containment.md R526 to R529, R535).
-/
namespace Sys2Proof.Machine

/-- The step that a hold names (R535). -/
def State.holdStep (s : State) : Nat := s.sched.step.toNat + (if s.sched.own.isSome then 1 else 0)

/-- The device holds (R535): HELD from the next beat on; the hold is recorded, and flooded where it begins here. cause: 0
core or die fault, 1 link fault, 2 missed release, 3 other; origin: the device it began on; hstep: the step it names. -/
def State.raiseHold (s : State) (cause origin hstep : Nat) (here : Bool := true) : State :=
  if s.schedRuns then
    let s1 := s.report s.leadPage 5 (origin + cause * 2 ^ 16 + hstep % 2 ^ 32 * 2 ^ 32)
    let s2 := (s1.setFld (pkgPage .evlog) Reg.EV_STAT_FLT_STATE 1).noteHold origin cause
    let s3 := { s2 with sched := { s2.sched with
      state := .held, holdCause := some cause, heldSince := s.clock.time.toNat, resumed := false } }
    if here then s3.flood hstep (.hold (BitVec.ofNat 8 cause) (BitVec.ofNat 32 s.sched.beat) 0) else s3
  else s

def State.setRegs (s : State) (p : Page) (off : Nat) : List Nat → State
  | [] => s
  | w :: ws => (s.setReg p off (BitVec.ofNat 32 w)).setRegs p (off + 4) ws

/-- The words of a fault record (R527). -/
def State.faultRecord (s : State) (pd : PD) (mc : MC) (f : FaultPend) : List Nat :=
  let st := s.sched.step.toNat
  let stall := (s.core pd mc).stall
  let b := f.beat % 2 ^ 18
  [st % 2 ^ 32, st / 2 ^ 32, (s.reg s.leadPage 0x110).toNat, b + mc.val * 2 ^ 18 + pd.val * 2 ^ 23, (f.beat - stall) % 2 ^ 18,
   f.pc + s.lcNo pd mc * 2 ^ 16, f.kind + s.sched.attempt % 8 * 2 ^ 8 + f.tile * 2 ^ 16,
   f.index % 2 ^ 10 + f.index2 % 2 ^ 10 * 2 ^ 10 + b2n f.bank * 2 ^ 31,
   f.p.toNat % 2 ^ 32, f.p.toNat / 2 ^ 32, f.q.toNat % 2 ^ 32, f.q.toNat / 2 ^ 32]

/-- A core fault (R526, R527): the core is stopped and fenced, the record and the captures are written. -/
def State.coreFault (s : State) (pd : PD) (mc : MC) (f : FaultPend) : State :=
  let p := mcorePage pd mc
  let lc := s.lcNo pd mc
  let rec_ := s.faultRecord pd mc f
  let s1 := if s.flag p Reg.MCORE_FLT_STAT_VALID then s
    else (((s.setRegs p 0x320 rec_).setFlag p Reg.MCORE_FLT_STAT_VALID true).setFld p Reg.MCORE_FLT_STAT_KIND f.kind).setFld p
      Reg.MCORE_FLT_STAT_OUTCOME 0
  let s2 := (s1.modCore pd mc fun c =>
    { c.discard with faultPend := none, stopPend := none, tcAcc := [], cmdRun := 0, nanRows := [] }).enterStopped pd mc .stoppedFault
  let s3 := (s2.setFlag p Reg.BLK_CTRL_FENCE true).setFlag p Reg.BLK_STAT_FENCED true
  let s4 := s3.blockErr p 3 s.sched.step.toNat (f.pc + lc * 2 ^ 16) (f.kind * 2 ^ 8)
  (s4.report p 3 (f.kind + lc * 2 ^ 8 + f.pc * 2 ^ 18 + f.tile * 2 ^ 32 + f.index % 2 ^ 10 * 2 ^ 48)).setInt (pkgPage .evlog) 3

/-- Rank of a kind among faults of one beat (R528). -/
def faultRank (k : Nat) : Nat := if k = 9 then 0 else if 3 ≤ k then k else 8 + k

/-- The fault that decides among two: the earlier, then by R528. -/
def firstFault (a b : FaultPend) : FaultPend :=
  let ka := (((a.beat * 32 + faultRank a.kind) * 1024 + a.index) * 1024 + a.index2)
  let kb := (((b.beat * 32 + faultRank b.kind) * 1024 + b.index) * 1024 + b.index2)
  if kb < ka then b else a

/-- Adds a fault that issued work will meet. -/
def CoreSt.addFault (c : CoreSt) (f : FaultPend) : CoreSt :=
  { c with faultPend := some (match c.faultPend with | none => f | some g => firstFault g f) }

end Sys2Proof.Machine
end

