-- ==== Sys2Proof/Machine/CoreIssue.lean ====
section
/-!
DEFINITION. Queue issue of the array and the local vector work: loads, streams, drains, vector operations
(spec/04_matrix_array.md, spec/05_matrix_core_programming.md R142 to R151, spec/06_vector_matrix_path.md R158 to R171,
spec/07_numeric_exceptions.md R183 to R193, spec/10_tier_s_scratch.md R271 to R276).
-/
namespace Sys2Proof.Machine

/-- The absolute beat of beat-in-step x. -/
def State.absB (s : State) (x : Nat) : Nat := s.clock.beats.toNat + x - s.sched.beat

/-- A core's states in which queue heads issue (R141, R153, R195). -/
def CoreStatus.issues : CoreStatus → Bool
  | .running | .waitTs | .waitStep | .stoppedReq => true
  | _ => false

/-- The core's declared length ends at LEN plus its stall count (R150, R210). -/
def State.spans (s : State) (c : CoreSt) (last : Nat) : Bool := decide (s.sched.len + c.stall ≤ last)

/-- The head of a queue may issue at this beat, its conditions apart: work for it was dispatched earlier, and nothing
has stopped the core. -/
def State.headAt (s : State) (pd : PD) (mc : MC) (q : QName) : Option QEnt :=
  let c := s.core pd mc
  match (c.queue q).head? with
  | some e =>
    if s.coresGo && !s.dieHeld pd && !c.tcLate s.sched.beat && c.status.issues && s.accessible (mcorePage pd mc) && !c.cut s.sched.beat && decide (e.d < s.sched.beat)
    then some e else none
  | none => none

/-- Entries of a queue before an instruction. -/
def ahead (q : List QEnt) (seq : Nat) : List QEnt := q.filter fun e => decide (e.seq < seq)

/-- Issues with a bank calendar (R274, R276): a conflict holds the issue for this beat and raises the stall count; a
hold run that ends is counted and recorded. -/
def State.calendar (s : State) (pd : PD) (mc : MC) (runs : List CalRun) (go : State → State) : State :=
  let c := s.core pd mc
  match s.calHolder runs with
  | some t =>
    if c.hist.holdBeat = some s.sched.beat then s
    else s.setCore pd mc
      { c with
        stall := c.stall + 1, heldRun := c.heldRun + 1, heldBy := some (c.heldBy.getD t.lc)
        hist := { c.hist with holdBeat := some s.sched.beat } }
  | none =>
    let p := diePage .tsram pd
    let s1 := if c.heldRun = 0 then s
      else ((s.bump p Reg.TSRAM_HOLD_COUNT_COUNT).report p 1
        (s.lcNo pd mc + c.heldBy.getD 0x3FF * 2 ^ 16 + c.heldRun % 2 ^ 32 * 2 ^ 32)).setCore pd mc { c with heldRun := 0, heldBy := none }
    let ctx := s.fld (mcorePage pd mc) Reg.MCORE_CTXID_CTXID
    go (runs.foldl (fun (t : State) r => t.actTierS r.ld (some ctx) (r.count * r.nb)) (s1.calReserve runs))

/-- Bytes x to x + n - 1 of row r of a descriptor, segment by segment (R131). -/
def State.rowBytes (s : State) (t : BitVec 128) (r n : Nat) : List Byte :=
  (List.range ((n + 127) / 128)).flatMap fun j => s.sRead (tdSeg t r j) (min 128 (n - 128 * j))

/-- A calendar run of a descriptor's rows: row r at absolute beat b0 + r × stride, nb banks. -/
def tdRun (ld : Nat) (t : BitVec 128) (rows nb b0 stride : Nat) (write : Bool) (lc : Nat) : CalRun :=
  ⟨ld, bitsOf (tdBase t) 21 6, nb, b0, stride, rows, bitsOf (tdBase t) 7 14, tdPitch t, write, lc⟩

/-- The first poisoned word among rows of a descriptor: (row, word). -/
def State.rowPoison (s : State) (t : BitVec 128) (rows nb : Nat) : Option (Nat × Nat) :=
  (List.range rows).findSome? fun r =>
    ((List.range nb).findSome? fun j => s.poisonIn (tdSeg t r j) 128).map fun w => (r, w)

/-- A scheduled read meets poison (R282): detected, and an unreplayable core fault when the data arrives. -/
def State.poisonFault (s : State) (pd : PD) (mc : MC) (e : QEnt) (hit : Option (Nat × Nat)) (arrive : Nat → Nat) : State :=
  match hit with
  | none => s
  | some (r, w) =>
    (s.sDetect w 0).modCore pd mc fun c => c.addFault { beat := arrive r, kind := 9, index := saBank (w * 16), pc := e.pc }

/-- The storage errors of a command's operand (R115, R282). -/
def State.issueErr (s : State) (pd : PD) (mc : MC) : IssueErr → State
  | .none => s
  | .accCe n =>
    let p := mcorePage pd mc
    let old := s.fld p Reg.MCORE_ACC_CE_COUNT
    let s1 := s.bump p Reg.MCORE_ACC_CE_COUNT n.val
    let thr := s.fld p Reg.MCORE_ACC_CE_THR_THR
    if old < thr ∧ thr ≤ old + n.val then s1.setInt p 4 else s1
  | .tsCe b n => s.sCorrected ((s.ldOf pd).getD 0) b.val n.val
  | .tsUe a => s.sPoison (a.toNat / 16)
  | .sumFlip _ _ _ => s
  | .tcLine _ => s

def flipOf : IssueErr → Option SumFlip
  | .sumFlip i c m => some ⟨i.val, c.val, m⟩
  | _ => none

/-- The stop of an instruction found wrong at its issue beat (R151), or what follows. -/
def State.stopOr (s : State) (pd : PD) (mc : MC) (e : QEnt) (r : Option Nat) (go : State) : State :=
  match r with
  | some reason => s.coreStop pd mc e.pc reason
  | none => go

/-- The first reason of a list of checks that fails. -/
def firstReason : List (Bool × Nat) → Option Nat
  | [] => none
  | (bad, r) :: l => if bad then some r else firstReason l

def orReason (a b : Option Nat) : Option Nat := match a with | some r => some r | none => b

/-! Weight loads (R101, R102, R142, R148, R171). -/

def isStrOn (b : Bool) (e : QEnt) : Bool := match e.op with | .str b' _ _ _ _ _ _ => b' == b | _ => false
def isWldOn (b : Bool) (e : QEnt) : Bool := match e.op with | .wld b' _ _ => b' == b | _ => false
def isWld (e : QEnt) : Bool := match e.op with | .wld _ _ _ => true | _ => false
def isVmvTs (e : QEnt) : Bool := match e.op with | .vmv _ _ _ _ src _ _ => !src | _ => false

/-- A load may begin at L. -/
def CoreSt.wldReady (c : CoreSt) (e : QEnt) (bank : Bool) (l : Nat) : Bool :=
  (match c.hist.lastL with | some p => decide (p + 256 ≤ l) | none => true) &&
  (match (c.x.bank bank).fb with | some f => decide (f + 256 ≤ l) | none => true) &&
  !(ahead c.sq e.seq).any (isStrOn bank) && !(ahead c.vq e.seq).any isVmvTs && decide (c.hist.vmvRead ≤ l)

/-- The bank as a load leaves it (R99, R100): its rows, its attributes, VALID kept until the last row is written. -/
def State.loadedBank (s : State) (t : BitVec 128) (k : DWord) (old : WBank) (l : Nat) : WBank :=
  { old with
    w := mputs (fun _ => 0) [] 0 ((List.range 256).flatMap fun r => s.rowBytes t r 256)
    modeMask := kMask k, wtag := kTags k, loadL := some l }

/-- The LQ head issues a weight load. -/
def State.lqIssue (s : State) (pd : PD) (mc : MC) (err : IssueErr) : State :=
  match s.headAt pd mc .lq, s.ldOf pd with
  | some e, some ld =>
    match e.op with
    | .wld bank t k =>
      let c := s.core pd mc
      let now := s.sched.beat
      let l := now + 24
      if !c.wldReady e bank l then s
      else
        let bad := orReason (tdCheck ld t) (firstReason
          [(tdRows t != 256 || tdWidth t != 256, 0x04), (!tagsOk (kMask k) (kTags k), 0x06), (s.spans c (l + 255), 0x07)])
        s.stopOr pd mc e bad <| s.calendar pd mc [tdRun ld t 256 2 (s.absB (now + 14)) 1 false (s.lcNo pd mc)] fun s1 =>
          let s2 := s1.issueErr pd mc err
          let s3 := s2.modCore pd mc fun c => { c.popQueue .lq now with
            x := c.x.setBank bank (s2.loadedBank t k (c.x.bank bank) l)
            hist := { (c.popQueue .lq now).hist with lastL := some l, allDone := max c.hist.allDone (l + 255) } }
          s3.poisonFault pd mc e (s3.rowPoison t 256 2) fun r => now + 24 + r
    | _ => s
  | _, _ => s

/-! Streams (R104 to R120, R123 to R127, R143, R148). -/

/-- Beats of a stream that starts at S (R107, R119): row i reaches x beats after its entry. -/
def strBeat (wide : Bool) (st i x : Nat) : Nat := if wide then st + 4 * (i + x) else st + i + x

/-- A stream may start at S (R105, R120, R148). -/
def CoreSt.strReady (c : CoreSt) (e : QEnt) (bank wide : Bool) (base nr st : Nat) : Bool :=
  decide (c.hist.strNext ≤ st) && decide (c.hist.wideUntil ≤ st) && (!wide || decide (c.hist.strReadable ≤ st)) &&
  (match (c.x.bank bank).loadL with | some l => decide (l ≤ st) | none => true) &&
  !(ahead c.lq e.seq).any (isWldOn bank) &&
  !(ahead c.dq e.seq).any (fun d =>
      match d.op with
      | .drn t _ _ _ _ _ _ _ _ _ b => decide (b < base + nr) && decide (base < b + tdRows t)
      | _ => false) &&
  (List.range nr).all (fun i => decide (mget (fun _ => 0) c.hist.accRead (base + i) ≤ strBeat wide st i 260))

/-- The rules a stream must meet (R82, R104, R142, R143, R150). -/
def State.strBad (s : State) (c : CoreSt) (ld : Nat) (b : WBank) (t : BitVec 128) (wide : Bool) (base : Nat) (seen : Bool)
    (st : Nat) : Option Nat :=
  let nr := tdRows t
  let fmt := tdFmt t
  orReason (tdCheck ld t) (firstReason
    [((decide (fmt < 2) && tdWidth t != 256) || (fmt == 2 && tdWidth t != 512), 0x04),
     (!(b.valid || seen), 0x08),
     (decide (1024 < base + nr) || (wide && (fmt != 2 || b.modeMask != 0xFFFF)), 0x05),
     (decide (2 < fmt) || (fmt == 2 && !wide), 0x06),
     (s.spans c (strBeat wide st (nr - 1) 515), 0x07)])

/-- Accumulator writes of one row that fall by the end of beat cut (R127). -/
def writeRow (x : CoreCtx) (wide set : Bool) (st i m cut : Nat) (sums : List (Nat × Fv)) : CoreCtx :=
  sums.foldl (fun x (c, v) =>
    if strBeat wide st i (c + 260) ≤ cut then x.wrAcc m c (accumulate set (x.rdAcc m c) v) else x) x

/-- The first failing check of a stream: its beat, kind, index and sums (R126, R127). -/
def firstFail (o : StreamOut) (wide : Bool) (st f : Nat) : Option (Nat × Nat × Nat × Nat × DWord × DWord) :=
  let rows := o.rowRes.zipIdx.findSome? fun (r, i) =>
    match r with
    | .fail p q => some (if wide then st + 4 * i + 2080 else st + i + 520, 1, i, 0, p, q)
    | _ => none
  let cols := o.colRes.findSome? fun (c, r) =>
    match r with
    | .fail p q => some (if wide then f + 2080 else f + 520, 2, 0, c, p, q)
    | _ => none
  rows.orElse fun _ => cols

/-- Checks skipped up to the first failure (R125). -/
def skips (o : StreamOut) (fail : Option (Nat × Nat × Nat × Nat × DWord × DWord)) : Nat :=
  let rows := (o.rowRes.take (match fail with | some (_, 1, i, _) => i | _ => o.rowRes.length)).countP (· == .skip)
  let cols := match fail with | some (_, 1, _) => 0 | _ => o.colRes.countP (fun x => x.2 == .skip)
  rows + cols

/-- The SQ head issues a stream. -/
def State.sqIssue (s : State) (pd : PD) (mc : MC) (err : IssueErr) : State :=
  match s.headAt pd mc .sq, s.ldOf pd with
  | some e, some ld =>
    match e.op with
    | .str bank t set wide base tile seen =>
      let c := s.core pd mc
      let now := s.sched.beat
      let st := now + 24
      let nr := tdRows t
      if !c.strReady e bank wide base nr st then s
      else
        let b := c.x.bank bank
        s.stopOr pd mc e (s.strBad c ld b t wide base seen st) <|
        s.calendar pd mc [tdRun ld t nr (tdWidth t / 128) (s.absB (now + 14)) (if wide then 4 else 1) false (s.lcNo pd mc)] fun s1 =>
          let s2 := (s1.issueErr pd mc err).actAdd pd (some (s.fld (mcorePage pd mc) Reg.MCORE_CTXID_CTXID)) 0 (nr * 65536)
          let f := if wide then st + 4 * (nr - 1) + 1 else st + nr
          let o := streamOut b (tdFmt t) ((List.range nr).map fun i => s2.rowBytes t i (tdWidth t)) (flipOf err)
          let fail := firstFail o wide st f
          let s3 := s2.bumpBit (mcorePage pd mc) Reg.MCORE_CHK_SKIP_COUNT (skips o fail) 5
          let cut := match fail with | some (x, _) => x | none => strBeat wide st nr 1024
          let done := strBeat wide st (nr - 1) 515
          let readable := strBeat wide st (nr - 1) 516
          let s4 := s3.modCore pd mc fun c =>
            let c1 := c.popQueue .sq now
            let x1 := (o.sums.zipIdx).foldl (fun x (row, i) => writeRow x wide set st i (base + i) cut row) c1.x
            let x2 := { x1 with accMask := mputs (fun _ => 0) x1.accMask base (List.replicate nr b.modeMask) }
            let x3 := x2.setBank bank { x2.bank bank with fb := some (if wide then readable else f) }
            { c1 with
              x := x3
              hist := { c1.hist with
                strNext := f, strReadable := max c1.hist.strReadable readable
                wideUntil := if wide then readable else c1.hist.wideUntil
                accReady := mputs (fun _ => 0) c1.hist.accReady base ((List.range nr).map fun i => strBeat wide st i 516)
                chkDone := if wide then f + 2080 else f + 520
                allDone := max c1.hist.allDone done } }
          let s5 := match fail with
            | some (x, k, i, col, p, q) =>
              s4.modCore pd mc fun c => c.addFault { beat := x, kind := k, index := i, index2 := col, bank := bank, p := p, q := q,
                                                      pc := e.pc, tile := tile }
            | none => s4
          s5.poisonFault pd mc e (s5.rowPoison t nr (tdWidth t / 128)) fun r => if wide then now + 24 + 4 * r else now + 24 + r
    | _ => s
  | _, _ => s

/-! Drains (R91, R112 to R114, R142, R148, R149, R159, R183 to R193, R272). -/

/-- The MODE_MASK record of an entry row as every earlier stream leaves it (R114). -/
def CoreSt.maskBefore (c : CoreSt) (m seq : Nat) : BitVec 16 :=
  let bankMask (b : Bool) (sq : Nat) : BitVec 16 :=
    (ahead c.lq sq).foldl (fun k e => match e.op with | .wld b' _ cfg => if b' == b then kMask cfg else k | _ => k) (c.x.bank b).modeMask
  (ahead c.sq seq).foldl (fun k e =>
    match e.op with
    | .str b t _ _ base _ _ => if base ≤ m ∧ m < base + tdRows t then bankMask b e.seq else k
    | _ => k) (mget (fun _ => 0) c.x.accMask m)

/-- Lines of the scale vectors of a drain: (row lines, channel lines) (R272). -/
def scaleLines (rows n : Nat) (rsEn csEn : Bool) : Nat × Nat :=
  (if rsEn then (rows * 4 + 127) / 128 else 0, if csEn then (n * 4 + 127) / 128 else 0)

/-- A scale vector of n values lies as R142 asks. -/
def scaleOk (ld : Nat) (a : DWord) (n : Nat) : Bool :=
  decide (a.toNat < 2 ^ 33) && decide (saDie a.toNat = ld) && decide (a.toNat % 128 = 0) &&
  decide (saOff a.toNat + 4 * n ≤ bankSize)

/-- The value of entry i of a scale vector. -/
def State.scaleAt (s : State) (a : DWord) (i : Nat) : Fv := decodeFmt 3 (leNat (s.sRead (a.toNat + 4 * i) 4))

def drnPeriod (ofmt : Nat) : Nat := fmtWidth ofmt

/-- Registers that pending vector work before an instruction reads or writes (R158, R159). -/
def vregsOf : QOp → List Nat
  | .vmv vd vs ntok _ _ _ _ => (List.range (ntok + 1)).flatMap fun t => [vd + t, vs + t]
  | .vld v _ _ _ _ => [v]
  | .vst v _ _ _ _ _ => [v]
  | .vop _ vd va vb vc _ _ => [vd, va, vb, vc]
  | .drn t _ _ _ _ _ _ dst vd _ _ => if dst then (List.range (tdRows t)).map (vd + ·) else []
  | _ => []

/-- Pending work before an instruction, in the named queues, or a cache access, touches one of the registers. -/
def CoreSt.vBusy (c : CoreSt) (seq : Nat) (regs : List Nat) (q : List QEnt) : Bool :=
  ((ahead q seq).any fun e => (vregsOf e.op).any regs.contains) ||
  (c.tcAcc.any fun a => (vregsOf a.op).any regs.contains)

/-- A drain's first read may fall at d0. -/
def CoreSt.drnReady (c : CoreSt) (e : QEnt) (rows base d0 p : Nat) (dst : Bool) (vd : Nat) : Bool :=
  decide (c.hist.drnNext ≤ d0) &&
  !(ahead c.sq e.seq).any (fun d =>
      match d.op with
      | .str _ t _ _ b _ _ => decide (b < base + rows) && decide (base < b + tdRows t)
      | _ => false) &&
  (List.range rows).all (fun i => decide (mget (fun _ => 0) c.hist.accReady (base + i) ≤ d0 + i * p)) &&
  (!dst || (!c.vBusy e.seq ((List.range rows).map (vd + ·)) c.vq &&
    (List.range rows).all fun i =>
      decide (mget (fun _ => 0) c.hist.vWr (vd + i) < d0 + i * p + 6) &&
      decide (mget (fun _ => 0) c.hist.vRd (vd + i) ≤ d0 + i * p + 6)))

/-- The first element of a row that satisfies a test. -/
def firstChan (f : Nat → Bool) (row : List Nat) : Option Nat := row.findIdx? f

/-- The words of a numeric record (R190). pos: the first NaN and the first infinity as (row, channel). -/
def State.nfRecord (s : State) (pd : PD) (mc : MC) (pc tile ofmt base : Nat) (dst : Bool) (beat stall : Nat)
    (nan inf : Option (Nat × Nat)) : NfRec :=
  let st := s.sched.step.toNat
  let w (n : Nat) : Word := BitVec.ofNat 32 n
  let np := nan.getD (0, 0)
  let ip := inf.getD (0, 0)
  [w st, w (st / 2 ^ 32), s.reg s.leadPage 0x110,
   w (beat % 2 ^ 18 + ofmt * 2 ^ 18 + b2n dst * 2 ^ 21 + b2n nan.isSome * 2 ^ 22 + b2n inf.isSome * 2 ^ 23 + mc.val * 2 ^ 24),
   w ((beat - stall) % 2 ^ 18 + pd.val * 2 ^ 18), w (pc + s.lcNo pd mc * 2 ^ 16),
   w (tile + np.2 * 2 ^ 16 + ip.2 * 2 ^ 24), w (np.1 + ip.1 * 2 ^ 10 + base * 2 ^ 20)]

/-- The flags of a drain (R187 to R189). -/
def NumFlags.drained (f : NumFlags) (nan inf : Option (Nat × Nat)) (tile base : Nat) (rec_ : NfRec) : NumFlags :=
  let flagged := nan.isSome || inf.isSome
  { f with
    lastNan := nan.isSome, lastInf := inf.isSome, lastValid := true, lastNanPos := nan, lastInfPos := inf, lastTile := tile,
    lastAcc := base, stickyNan := f.stickyNan || nan.isSome, stickyInf := f.stickyInf || inf.isSome
    flagged := if flagged && f.flagged != 0xFFFFFFFF then f.flagged + 1 else f.flagged
    firstRec := if flagged && f.firstRec.isNone then some rec_ else f.firstRec }

/-- Bytes of a row of converted outputs. -/
def outBytes (ofmt : Nat) (row : List Nat) : List Byte := row.flatMap fun v => leBytes v (fmtWidth ofmt)

/-- Writes one output row to Tier S; the flag says whether every line was performed (R142, R280). -/
def State.drainRow (s : State) (t : BitVec 128) (i : Nat) (bs : List Byte) : Bool × State :=
  (List.range ((bs.length + 127) / 128)).foldl (fun (ok, s) j =>
    let (done, s') := s.sWrite (tdSeg t i j) ((bs.drop (128 * j)).take 128)
    (ok && done, s')) (true, s)

/-- The drain at the head of DQ reads its scales, or issues. -/
def State.dqIssue (s : State) (pd : PD) (mc : MC) (err : IssueErr) : State :=
  match s.headAt pd mc .dq, s.ldOf pd with
  | some e, some ld =>
    match e.op with
    | .drn t ofmt sat rsEn csEn rs cs dst vd tile base =>
      let c := s.core pd mc
      let now := s.sched.beat
      let rows := tdRows t
      let mask := c.maskBefore base e.seq
      let n := (outCols mask).length
      let (lr, lc) := scaleLines rows n rsEn csEn
      let me := s.lcNo pd mc
      let line (a : DWord) (k b : Nat) : CalRun := ⟨ld, saBank a.toNat, 1, b, 1, k, saOff a.toNat / 128, 1, false, me⟩
      if now < c.hist.dqFree then s
      else if (rsEn || csEn) && e.h.isNone then
        let bad := (rsEn && !scaleOk ld rs rows) || (csEn && !scaleOk ld cs n)
        s.stopOr pd mc e (if bad then some 0x0D else none) <|
        s.calendar pd mc [line rs lr (s.absB (now + 11)), line cs lc (s.absB (now + 11 + lr))] fun s1 =>
          s1.modCore pd mc fun c => { c with dq := { e with h := some now } :: c.dq.tail }
      else
        let p := drnPeriod ofmt
        let d0 := now + 4
        let scaleTime := match e.h with | some h => h + 21 + lr + lc | none => 0
        if d0 < scaleTime ∨ !c.drnReady e rows base d0 p dst vd then s
        else
          let w := fmtWidth ofmt
          let bad :=
            if dst then firstReason [(rows == 0 || ofmt != 3 || decide (32 < vd + rows) || decide (1024 < base + rows), 0x04)]
            else orReason (tdCheck ld t) (firstReason [(decide (tdWidth t < n * w) || decide (1024 < base + rows), 0x04)])
          s.stopOr pd mc e bad <|
          s.calendar pd mc (if dst then [] else [tdRun ld t rows ((n * w + 127) / 128) (s.absB (d0 + 26)) p true me]) fun s1 =>
            let s2 := s1.issueErr pd mc err
            let cols := outCols mask
            let out := (List.range rows).map fun i => cols.zipIdx.map fun (col, ch) =>
              drainElem ofmt sat (if rsEn then some (s2.scaleAt rs i) else none) (if csEn then some (s2.scaleAt cs ch) else none)
                (c.x.rdAcc (base + i) col)
            let pos (f : Nat → Bool) : List (Nat × Nat) := out.zipIdx.filterMap fun (row, i) => (firstChan f row).map fun ch => (i, ch)
            let nans := pos (isNanCode ofmt)
            let infs := pos (isInfCode ofmt)
            let beatOf (i : Nat) : Nat := d0 + i * p
            let stall := (s2.core pd mc).stall
            let mk (nan : Option (Nat × Nat)) (i : Nat) := s2.nfRecord pd mc e.pc tile ofmt base dst (beatOf i) stall nan infs.head?
            let rec_ := mk nans.head? ((nans.head?.orElse fun _ => infs.head?).getD (0, 0)).1
            let (ok, s3) := if dst then (none, s2)
              else out.zipIdx.foldl (fun (bad, s) (row, i) =>
                let (done, s') := s.drainRow t i (outBytes ofmt row)
                (if bad.isNone && !done then some i else bad, s')) ((none : Option Nat), s2)
            let last := d0 + (rows - 1) * p
            let s4 := s3.modCore pd mc fun c =>
              let c1 := c.popQueue .dq now
              let x1 := if dst then out.zipIdx.foldl (fun x (row, i) =>
                  x.wrV (vd + i) (lanes fun l => BitVec.ofNat 32 (row.getD l 0))) c1.x else c1.x
              { c1 with
                x := x1
                nf := c1.nf.drained nans.head? infs.head? tile base rec_
                nanRows := c1.nanRows ++ nans.map fun (i, ch) => ⟨beatOf i, i, ch, e.pc, tile, mk (some (i, ch)) i⟩
                stopPend := match ok with
                  | some i => some (c1.stopPend.getD ⟨beatOf i + 26, e.pc, 0x0E⟩)
                  | none => c1.stopPend
                hist := { c1.hist with
                  dqFree := now + 1, drnNext := last + p
                  accRead := mputs (fun _ => 0) c1.hist.accRead base ((List.range rows).map beatOf)
                  vWr := if dst then mputs (fun _ => 0) c1.hist.vWr vd ((List.range rows).map fun i => beatOf i + 6) else c1.hist.vWr
                  tsDone := if dst then c1.hist.tsDone else max c1.hist.tsDone (last + 26)
                  allDone := max c1.hist.allDone (last + (if dst then 6 else 26)) } }
            match e.h with
            | none => s4
            | some h =>
              let hit (on : Bool) (a : DWord) (k b : Nat) (s : State) : State :=
                if on then s.poisonFault pd mc e ((List.range k).findSome? fun i =>
                    (s.poisonIn (a.toNat + 128 * i) 128).map fun w => (i, w)) fun i => b + i
                else s
              hit csEn cs lc (h + 21 + lr) (hit rsEn rs lr (h + 21) s4)
    | _ => s
  | _, _ => s

/-! Vector work (R158 to R171). -/

/-- The vector registers an instruction reads at issue, and those it writes. -/
def vReads : QOp → List Nat
  | .vmv _ vs ntok _ _ _ _ => (List.range (ntok + 1)).map (vs + ·)
  | .vst v _ _ _ _ _ => [v]
  | .vop func _ va vb vc _ _ =>
    if func = 3 then [va, vb, vc] else if func ≤ 5 ∨ func = 0x0B then [va, vb] else [va]
  | _ => []

def vWrites : QOp → List Nat
  | .vmv vd _ ntok _ _ _ _ => (List.range (ntok + 1)).map (vd + ·)
  | .vld v _ _ _ _ => [v]
  | .vop _ vd _ _ _ _ _ => [vd]
  | _ => []

/-- VMP period (R170): p rows apart, stretched by PACE through the cache. -/
def State.vmvQ (s : State) (pd : PD) (mc : MC) (src : Bool) (wfmt : Nat) : Nat :=
  let p := fmtWidth wfmt
  if src then max p (s.fld (tcachePage pd mc) Reg.TCACHE_CFG_PACE + 1) else p

/-- The beat an instruction's result is written when it issues at e (R159, R170). -/
def State.vDone (s : State) (pd : PD) (mc : MC) (op : QOp) (e : Nat) : Nat :=
  match op with
  | .vop func _ _ _ _ _ _ => e + vopLatency func
  | .vld _ space _ _ _ => e + (if space then s.budget pd mc else 24)
  | .vst _ space _ _ _ _ => e + (if space then 4 else 24)
  | .vmv _ _ _ _ src _ wfmt => e + (if src then s.budget pd mc else 24) + 255 * s.vmvQ pd mc src wfmt + 4
  | _ => e

/-- The conditions of R158 and R171 at beat e. -/
def State.vqReady (s : State) (pd : PD) (mc : MC) (ent : QEnt) (e : Nat) : Bool :=
  let c := s.core pd mc
  let done := s.vDone pd mc ent.op e
  decide (c.hist.vqNext ≤ e) &&
  !c.vBusy ent.seq (vReads ent.op ++ vWrites ent.op) c.dq &&
  (vReads ent.op).all (fun v => decide (mget (fun _ => 0) c.hist.vWr v < e) || mget (fun _ => 0) c.hist.vWr v == 0) &&
  (vWrites ent.op).all (fun v =>
    (decide (mget (fun _ => 0) c.hist.vWr v < done)) && decide (mget (fun _ => 0) c.hist.vRd v ≤ done)) &&
  (match ent.op with
   | .vmv _ _ _ _ src _ _ =>
     decide (c.hist.vmpFree ≤ e) &&
     (src || (!(ahead c.lq ent.seq).any isWld && (match c.hist.lastL with | some l => decide (l + 256 ≤ e + 24) | none => true)))
   | _ => true)

/-- The rules of R165 and R166, with the descriptor's (R132). -/
def vqBad (ld : Nat) : QOp → Option Nat
  | .vld _ space t a fmt => memBad ld space t a fmt
  | .vst _ space t a fmt _ => memBad ld space t a fmt
  | .vmv vd vs ntok t src a wfmt =>
    let size := 256 * fmtWidth wfmt
    orReason (firstReason [(decide (2 < wfmt), 0x06)]) (orReason (if src then none else tdCheck ld t) (firstReason
      [(decide (31 < vs + ntok) || decide (31 < vd + ntok) ||
        (if src then decide (a.toNat % 128 ≠ 0) else tdRows t != 256 || tdWidth t != size), 0x04)]))
  | _ => none
where
  /-- R165's conditions on a load or store. -/
  memBad (ld : Nat) (space : Bool) (t : BitVec 128) (a : DWord) (fmt : Nat) : Option Nat :=
    orReason (firstReason [(decide (3 < fmt), 0x02)]) (orReason (if space then none else tdCheck ld t) (firstReason
      [(if space then decide (a.toNat % 128 ≠ 0) else tdWidth t != 256 * fmtWidth fmt, 0x04)]))

/-- Marks a vector issue in the history. -/
def State.vIssued (s : State) (pd : PD) (mc : MC) (ent : QEnt) (e : Nat) : State :=
  let done := s.vDone pd mc ent.op e
  let q := match ent.op with | .vmv _ _ _ _ src _ wfmt => some (src, s.vmvQ pd mc src wfmt) | _ => none
  let bud := s.budget pd mc
  let ctx := some (s.fld (mcorePage pd mc) Reg.MCORE_CTXID_CTXID)
  let s0 := match ent.op with
    | .vmv _ _ ntok _ _ _ _ => s.actAdd pd ctx 2 ((ntok + 1) * 65536)
    | .vop func _ _ _ _ _ _ => s.actAdd pd ctx 3 (if func = 9 ∨ func = 10 then 1 else 256)
    | _ => s
  s0.modCore pd mc fun c =>
    let c1 := c.popQueue .vq e
    let rd := (vReads ent.op).foldl (fun m v => mput (fun _ => 0) m v (max e (mget (fun _ => 0) m v))) c1.hist.vRd
    let rd2 := (match ent.op with | .vmv _ _ _ _ _ _ _ => vWrites ent.op | _ => []).foldl
      (fun m v => mput (fun _ => 0) m v done) rd
    { c1 with hist := { c1.hist with
        vqNext := e + 1, vRd := rd2
        vWr := (vWrites ent.op).foldl (fun m v => mput (fun _ => 0) m v done) c1.hist.vWr
        vmpFree := match q with
          | some (src, k) => if src then e + bud + 256 * k - 24 else e + 256 * k
          | none => c1.hist.vmpFree
        vmvRead := match q with | some (false, k) => max c1.hist.vmvRead (e + 24 + 256 * k) | _ => c1.hist.vmvRead
        tsDone := match ent.op with | .vst _ false _ _ _ _ => max c1.hist.tsDone done | _ => c1.hist.tsDone
        mbLast := match ent.op with | .vst _ true _ _ _ _ => e + 4 | _ => c1.hist.mbLast
        allDone := max c1.hist.allDone done } }

/-- The elements of a loaded row, widened (R87, R165). -/
def widenRow (fmt : Nat) (bs : List Byte) : List Word :=
  lanes fun i => encode32 (decodeFmt fmt (leNat ((bs.drop (i * fmtWidth fmt)).take (fmtWidth fmt))))

/-- The bytes of a stored row, narrowed (R88 to R90, R165). -/
def narrowRow (fmt : Nat) (sat : Bool) (l : List Word) : List Byte :=
  outBytes fmt (l.map fun w => narrow fmt sat (decode32 w))

/-- A vector instruction that stays on the die issues: VOP, VLD and VST in Tier S, VMV from Tier S. -/
def State.vqLocal (s : State) (pd : PD) (mc : MC) (ld : Nat) (ent : QEnt) (err : IssueErr) : State :=
  let e := s.sched.beat
  let me := s.lcNo pd mc
  match ent.op with
  | .vop func vd va vb vc bf16 bcast =>
    (s.vIssued pd mc ent e).modCore pd mc fun c =>
      { c with x := c.x.wrV vd (vopLanes func bf16 bcast (c.x.rdV va) (c.x.rdV vb) (c.x.rdV vc)) }
  | .vld v false t _ fmt =>
    let nb := tdWidth t / 128
    s.calendar pd mc [tdRun ld t 1 nb (s.absB (e + 14)) 1 false me] fun s1 =>
      let s2 := (s1.issueErr pd mc err).vIssued pd mc ent e
      (s2.modCore pd mc fun c => { c with x := c.x.wrV v (widenRow fmt (s2.rowBytes t 0 (tdWidth t))) }).poisonFault pd mc ent
        (s2.rowPoison t 1 nb) fun _ => e + 24
  | .vst v false t _ fmt sat =>
    s.calendar pd mc [tdRun ld t 1 (tdWidth t / 128) (s.absB (e + 24)) 1 true me] fun s1 =>
      let s2 := (s1.issueErr pd mc err).vIssued pd mc ent e
      let (ok, s3) := s2.drainRow t 0 (narrowRow fmt sat ((s2.core pd mc).x.rdV v))
      if ok then s3 else s3.modCore pd mc fun c => { c with stopPend := some (c.stopPend.getD ⟨e + 24, ent.pc, 0x0E⟩) }
  | .vmv vd vs ntok t false _ wfmt =>
    let q := s.vmvQ pd mc false wfmt
    let nb := tdWidth t / 128
    s.calendar pd mc [tdRun ld t 256 nb (s.absB (e + 14)) q false me] fun s1 =>
      let s2 := (s1.issueErr pd mc err).vIssued pd mc ent e
      let rows := (List.range 256).map fun r => s2.rowBytes t r (tdWidth t)
      (s2.modCore pd mc fun c => { c with x := (List.range (ntok + 1)).foldl (fun x k =>
          x.wrV (vd + k) (vmvToken wfmt rows (c.x.rdV (vs + k)) (x.rdV (vd + k)))) c.x }).poisonFault pd mc ent
        (s2.rowPoison t 256 nb) fun r => e + 24 + r * q
  | _ => s

end Sys2Proof.Machine
end

