-- ==== Sys2Proof/Machine/TcOps.lean ====
section
/-!
DEFINITION. The operand cache: lookup, allocation, fills, prefetch, the merging buffer, failures
(spec/06_vector_matrix_path.md R172 to R182).
-/
namespace Sys2Proof.Machine

def State.setTc (s : State) (pd : PD) (mc : MC) (t : TCache) : State :=
  { s with tcs := mput (fun _ => {}) s.tcs (coreKey pd mc) t }

def State.modTc (s : State) (pd : PD) (mc : MC) (f : TCache → TCache) : State := s.setTc pd mc (f (s.tc pd mc))

def TCache.at (t : TCache) (k : Nat) : Option TcLine := mget (fun _ => none) t.lines k

/-- The way that holds a 128 B line. -/
def TCache.find (t : TCache) (line : Nat) : Option Nat :=
  (List.range 16).find? fun w => (t.at (line % 512 * 16 + w)).any fun l => l.tag == line / 512

def TCache.put (t : TCache) (k : Nat) (l : Option TcLine) : TCache := { t with lines := mput (fun _ => none) t.lines k l }

/-- One step of the replacement LFSR (R175). -/
def lfsrStep (x : Nat) : Nat :=
  x / 2 + (b2n (bitOf x 0) + b2n (bitOf x 2) + b2n (bitOf x 3) + b2n (bitOf x 5)) % 2 * 2 ^ 15

/-- BYPASS is in effect (R180, R182). -/
def State.tcBypass (s : State) (pd : PD) (mc : MC) : Bool :=
  (s.tc pd mc).lastWay || s.flag (tcachePage pd mc) Reg.TCACHE_CFG_BYPASS_REQ

/-- The first enabled way from w upward, modulo 16. -/
def enabledFrom (dis w : Nat) : Nat := (((List.range 16).map fun i => (w + i) % 16).find? fun i => !bitOf dis i).getD w

/-- A line is installed by the allocation of R175; in BYPASS nothing is kept. -/
def State.tcInstall (s : State) (pd : PD) (mc : MC) (line : Nat) (bs : List Byte) : State :=
  if s.tcBypass pd mc then s
  else
    let p := tcachePage pd mc
    let t := s.tc pd mc
    let dis := s.fld p Reg.TCACHE_STAT_WAY_DIS
    let set := line % 512 * 16
    let l : TcLine := { tag := line / 512, bytes := bs }
    match (List.range 16).find? fun w => !bitOf dis w && (t.at (set + w)).isNone with
    | some w => s.setTc pd mc (t.put (set + w) (some l))
    | none =>
      let x := lfsrStep (s.fld p Reg.TCACHE_LFSR_STATE)
      (s.setFld p Reg.TCACHE_LFSR_STATE x).setTc pd mc (t.put (set + enabledFrom dis (x % 16)) (some l))

/-- The cache, side buffer and translation cache are emptied (R173, R181). -/
def TCache.emptied (t : TCache) : TCache := { t with lines := [], side := [], xlate := [] }

/-! Failures (R180, R181). -/

/-- A TC access or merging-buffer write that failed: recorded at the TCACHE page, and the core stops with the code. -/
def State.tcFail (s : State) (pd : PD) (mc : MC) (pc a code : Nat) : State :=
  let p := tcachePage pd mc
  let s1 := ((s.blockErr p 4 0 (bitsOf a 7 32) (bitsOf a 39 13 + code * 2 ^ 16)).reportOpen p 4).setInt p 4
  let c := s.core pd mc
  if c.status.issues || c.status == .halted then
    ((s1.modCore pd mc fun c => { c.discard with tcAcc := [], stopPend := none }).enterStopped pd mc .stoppedError).stepFail
      (s.lcNo pd mc) pc code
  else s1

/-- An error found in a way's line (R180): counted; at the threshold the way is disabled, or BYPASS begins. -/
def State.tcWayErr (s : State) (pd : PD) (mc : MC) (w : Nat) : State :=
  let p := tcachePage pd mc
  let n := min 0xFFFF (s.fld p Reg.TCACHE_WAY_ERR_COUNT w + 1)
  let s1 := s.setFld p Reg.TCACHE_WAY_ERR_COUNT n w
  let dis := s.fld p Reg.TCACHE_STAT_WAY_DIS
  if n < s.fld p Reg.TCACHE_CFG_WAY_THR ∨ bitOf dis w then s1
  else if withBits dis w 1 1 = 0xFFFF then
    if (s.tc pd mc).lastWay then s1
    else ((s1.modTc pd mc fun t => { t.emptied with lastWay := true }).reportOpen p 3).setInt p 2
  else
    let s2 := s1.setFld p Reg.TCACHE_STAT_WAY_DIS (withBits dis w 1 1)
    let s3 := s2.modTc pd mc fun t => { t with lines := t.lines.filter fun l => l.1 % 16 != w }
    (s3.reportOpen p 2).setInt p 1

/-! Translation (R173). -/

/-- The system frame of a virtual frame, from the translation cache or a walk; none where it failed, reported. -/
def State.tcFrame (s : State) (pd : PD) (mc : MC) (pc vframe : Nat) (write : Bool) : Option Nat × State :=
  let t := s.tc pd mc
  let ok (v : Nat) : Bool := if write then bitOf v 0 else bitOf v 1
  match t.xlate.find? (fun x => x.1 == vframe && ok x.2) with
  | some x => (some (x.2 / 4), s)
  | none =>
    let ctx := s.fld (mcorePage pd mc) Reg.MCORE_CTXID_CTXID
    let va := vframe * 2 ^ 21
    match s.translate pd .tcache ctx va (if write then .write else .read) with
    | (.error e, s1) => (none, s1.xlateFault pd .tcache ctx va (s.lcNo pd mc + pc * 2 ^ 16) write e)
    | (.ok x, s1) =>
      let v := x.spa / 2 ^ 21 * 4 + b2n x.r * 2 + b2n x.w
      (some (x.spa / 2 ^ 21), s1.modTc pd mc fun t =>
        { t with xlate := ((vframe, v) :: t.xlate.filter fun y => y.1 != vframe).take 32 })

/-- The system lines of n lines from a virtual address; none where a translation failed. -/
def State.tcLines (s : State) (pd : PD) (mc : MC) (pc va n : Nat) (write : Bool) : Option (List Nat) × State :=
  (List.range n).foldl (fun (acc : Option (List Nat) × State) k =>
    match acc.1 with
    | none => acc
    | some l =>
      let a := va + 128 * k
      let (f, t) := acc.2.tcFrame pd mc pc (a / 2 ^ 21) write
      (f.map fun x => l ++ [x * 2 ^ 14 + a % 2 ^ 21 / 128], t)) (some [], s)

/-! The merging buffer (R177, R178). -/

/-- A pending CTXID takes effect once the buffer is empty (R173). -/
def State.tcCtxNow (s : State) (pd : PD) (mc : MC) : State :=
  let t := s.tc pd mc
  match t.ctxPending with
  | some v =>
    if t.mb.isEmpty then
      (s.setTc pd mc { t.emptied with ctxPending := none }).setFld (mcorePage pd mc) Reg.MCORE_CTXID_CTXID v.toNat
    else s
  | none => s

/-- An entry's write is performed at its home. -/
def State.mbIssue (s : State) (pd : PD) (mc : MC) (e : MbEnt) : State :=
  let s1 := s.modTc pd mc fun t => { t with mb := t.mb.filter fun x => x.line != e.line }
  let ctx := s.fld (mcorePage pd mc) Reg.MCORE_CTXID_CTXID
  let half (s : State) (h : Nat) : Nat × State :=
    let mask := (List.range 64).foldl (fun m i => if e.bytes.any (fun b => b.1 == 64 * h + i) then m + 2 ^ i else m) 0
    if mask = 0 then (0, s)
    else s.cohWrite ctx (e.line * 2 + h) mask (mgets (fun _ => 0) e.bytes (64 * h) 64) (some (coreKey pd mc))
  let (c0, s2) := half s1 0
  let (c1, s3) := half s2 1
  let code := if c0 ≠ 0 then c0 else c1
  let s3 := if code = 0 then e.bytes.foldl (fun t b => t.noteWrite ctx (e.line * 128 + b.1) 1) s3 else s3
  let s4 := if code = 0 then s3 else s3.tcFail pd mc (s.core pd mc).x.pc.toNat (e.line * 128) code
  s4.tcCtxNow pd mc

/-- Every entry's write is performed, oldest first. -/
def State.mbFlush (s : State) (pd : PD) (mc : MC) : State := (s.tc pd mc).mb.foldl (fun t e => t.mbIssue pd mc e) s

/-- Bytes for one line enter the buffer at beat x; the line's copy in the cache takes them too. -/
def State.mbWrite (s : State) (pd : PD) (mc : MC) (line x : Nat) (bs : List Byte) : State :=
  let t := s.tc pd mc
  let s1 := if t.mb.any (·.line == line) || t.mb.length < 32 then s
    else match t.mb.head? with | some e => s.mbIssue pd mc e | none => s
  let t1 := s1.tc pd mc
  let new (old : List (Nat × Byte)) : List (Nat × Byte) :=
    bs.zipIdx.map (fun b => (b.2, b.1)) ++ old.filter fun o => decide (bs.length ≤ o.1)
  let e : MbEnt := { line := line, bytes := new ((t1.mb.find? (·.line == line)).map (·.bytes) |>.getD []), last := x }
  let mb := if t1.mb.any (·.line == line) then t1.mb.map (fun y => if y.line == line then e else y) else t1.mb ++ [e]
  let lines := match t1.find line with
    | some w =>
      let k := line % 512 * 16 + w
      mput (fun _ => none) t1.lines k ((t1.at k).map fun l => { l with bytes := bs ++ l.bytes.drop bs.length })
    | none => t1.lines
  let s2 := s1.setTc pd mc { t1 with mb := mb, lines := lines, side := t1.side.map fun l =>
    if l.tag == line then { l with bytes := bs ++ l.bytes.drop bs.length } else l }
  if e.bytes.length = 128 then s2.mbIssue pd mc e else s2

/-- A line's bytes with those that the merging buffer holds for it (R179). -/
def TCache.forward (t : TCache) (line : Nat) (bs : List Byte) : List Byte :=
  match t.mb.find? (·.line == line) with
  | some e => bs.zipIdx.map fun b => ((e.bytes.find? fun x => x.1 == b.2).map (·.2)).getD b.1
  | none => bs

/-! Reads (R174 to R176). -/

/-- A line of an access: its bytes where the cache or the side buffer holds it, else a fill for it. -/
def State.tcLookup (s : State) (pd : PD) (mc : MC) (line : Nat) : Option (List Byte) × State :=
  let p := tcachePage pd mc
  let t := s.tc pd mc
  match (t.find line).bind fun w => t.at (line % 512 * 16 + w) with
  | some l => (some (t.forward line l.bytes), s.bump64 p 0x114)
  | none =>
    match t.side.find? (·.tag == line) with
    | some l =>
      let s1 := (s.bump64 p 0x114).setTc pd mc { t with side := t.side.filter (·.tag != line) }
      (some (t.forward line l.bytes), s1.tcInstall pd mc line l.bytes)
    | none =>
      if t.fills.any (·.line == line) then
        (none, s.setTc pd mc { t with fills := t.fills.map fun f => if f.line == line then { f with demand := true } else f })
      else (none, (s.bump64 p 0x11C).setTc pd mc { t with fills := t.fills ++ [{ line := line, demand := true }] })

/-- The line of a place of an access is found in error (R180): dropped, and counted against its way. -/
def State.tcLineErr (s : State) (pd : PD) (mc : MC) (lines : List Nat) : IssueErr → State
  | .tcLine n =>
    match lines[n.val]? with
    | some line =>
      match (s.tc pd mc).find line with
      | some w => (s.modTc pd mc fun t => t.put (line % 512 * 16 + w) none).tcWayErr pd mc w
      | none => s
    | none => s
  | _ => s

/-- The 16 lines behind an access that are absent are asked for (R176). -/
def State.tcPrefetch (s : State) (pd : PD) (mc : MC) (va n : Nat) : State :=
  if !s.flag (tcachePage pd mc) Reg.TCACHE_CFG_PF_EN then s
  else
    (List.range 16).foldl (fun t k =>
      let a := va + 128 * (n + k)
      match (t.tc pd mc).xlate.find? (fun x => x.1 == a / 2 ^ 21 && bitOf x.2 1) with
      | none => t
      | some x =>
        let line := x.2 / 4 * 2 ^ 14 + a % 2 ^ 21 / 128
        let c := t.tc pd mc
        if (c.find line).isSome || c.side.any (·.tag == line) || c.fills.any (·.line == line) then t
        else t.setTc pd mc { c with fills := c.fills ++ [{ line := line, demand := false }] }) s

/-- Beats x of the vector side that lie behind beat b move by d (R174). -/
def IssueHist.shifted (h : IssueHist) (b d : Nat) : IssueHist :=
  let f (x : Nat) : Nat := if b < x then x + d else x
  { h with
    vqNext := f h.vqNext, vmpFree := f h.vmpFree, allDone := f h.allDone
    vWr := h.vWr.map fun x => (x.1, f x.2), vRd := h.vRd.map fun x => (x.1, f x.2) }

/-- The result of an access whose lines are all there (R165, R167). -/
def accessResult (a : TcAccess) (x : CoreCtx) : CoreCtx :=
  let bytes := (List.range a.lines.length).flatMap fun k => ((a.got.find? fun g => g.1 == k).map (·.2)).getD []
  match a.op with
  | .vld v _ _ _ fmt => x.wrV v (widenRow fmt bytes)
  | .vmv vd _ _ _ _ _ wfmt =>
    let rows := (List.range 256).map fun r => (bytes.drop (r * 256 * fmtWidth wfmt)).take (256 * fmtWidth wfmt)
    a.src.zipIdx.foldl (fun x t => x.wrV (vd + t.2) (vmvToken wfmt rows t.1 (x.rdV (vd + t.2)))) x
  | _ => x

/-- Accesses whose last line has come end: the result is written, and lateness is a deviation (R174). -/
def State.tcFinish (s : State) (pd : PD) (mc : MC) : State :=
  let c := s.core pd mc
  c.tcAcc.foldl (fun t a =>
    if a.firstMissing.isSome then t
    else
      let t1 := t.modCore pd mc fun c =>
        { c with x := accessResult a c.x, tcAcc := c.tcAcc.filter fun b => b.seq != a.seq }
      if a.late = 0 then t1
      else
        let p := tcachePage pd mc
        ((t1.deviate p 1 .late 5 a.late a.pc (s.lcNo pd mc)).bump p Reg.TCACHE_LATE_COUNT).setInt p 3) s

/-- A VLD or VMV through the cache issues: its lines are looked up, fills and prefetches asked for. -/
def State.tcAccess (s : State) (pd : PD) (mc : MC) (e : QEnt) (va n q per : Nat) (src : List (List Word)) (err : IssueErr) : State :=
  let now := s.sched.beat
  match s.tcLines pd mc e.pc va n false with
  | (none, s1) => s1.tcFail pd mc e.pc va 0x13
  | (some lines, s1) =>
    let s2 := s1.tcLineErr pd mc lines err
    let (got, s3) := lines.zipIdx.foldl (fun (acc : List (Nat × List Byte) × State) (x : Nat × Nat) =>
      let (b, t) := acc.2.tcLookup pd mc x.1
      (match b with | some bs => acc.1 ++ [(x.2, bs)] | none => acc.1, t)) ([], s2)
    let a : TcAccess := { seq := e.seq, pc := e.pc, op := e.op, src := src, due := now + s.budget pd mc, q := q, per := per,
                          lines := lines, got := got }
    ((s3.modCore pd mc fun c => { c with tcAcc := c.tcAcc ++ [a] }).tcPrefetch pd mc va n).tcFinish pd mc

/-- Fills that hold a slot (R175, R176): the first 48 demand fills and the prefetches. -/
def TCache.inSlot (t : TCache) (line : Nat) : Option TcFill :=
  (((t.fills.filter (·.demand)).take 48) ++ t.fills.filter (!·.demand)).find? (·.line == line)

/-- A prefetched line enters the side buffer; a full one drops its oldest line (R176). -/
def State.sidePut (s : State) (pd : PD) (mc : MC) (line : Nat) (bs : List Byte) : State :=
  let t := s.tc pd mc
  let l : TcLine := { tag := line, bytes := bs }
  if t.side.length < 16 then s.setTc pd mc { t with side := t.side ++ [l] }
  else (s.setTc pd mc { t with side := t.side.drop 1 ++ [l] }).bump (tcachePage pd mc) Reg.TCACHE_PF_DROP_COUNT

/-- An access takes a line that arrives at beat now: what it lacked, and the beats it lost by waiting. -/
def TcAccess.take (a : TcAccess) (line now : Nat) (bs : List Byte) : TcAccess × Nat :=
  (List.range a.lines.length).foldl (fun (acc : TcAccess × Nat) k =>
    if a.lines[k]? = some line ∧ !(acc.1.got.any fun g => g.1 == k) then
      let d := now - acc.1.need k
      ({ acc.1 with got := acc.1.got ++ [(k, bs)], late := acc.1.late + d }, acc.2 + d)
    else acc) (a, 0)

/-- The data of a fill reaches every access that waits for it; lost beats shift the core (R174). -/
def State.tcDeliver (s : State) (pd : PD) (mc : MC) (line : Nat) (bs : List Byte) : State :=
  let now := s.sched.beat
  let c := s.core pd mc
  let (acc, lost) := c.tcAcc.foldl (fun (r : List TcAccess × Nat) a =>
    let a1 := { a with due := a.due + r.2 }
    let (a2, d) := a1.take line now bs
    (r.1 ++ [a2], r.2 + d)) ([], 0)
  let c1 := { c with tcAcc := acc, stall := c.stall + lost, hist := if lost = 0 then c.hist else c.hist.shifted (now - lost) lost }
  (s.setCore pd mc c1).tcFinish pd mc

/-- A FILL_S of both halves of a line by a core's operand cache (R474). -/
def State.tcFill (s : State) (pd : PD) (mc : MC) (line : Nat) : Nat × List Byte × State :=
  let ctx := s.fld (mcorePage pd mc) Reg.MCORE_CTXID_CTXID
  let one (s : State) (h : Nat) : Nat × List Byte × State :=
    s.runTxn { line := line * 2 + h, req := .fillS, who := some (.tc (coreKey pd mc)), tag := 0, ctx := ctx }
  let (c0, b0, s1) := one s 0
  if c0 ≠ 0 then (c0, [], s1)
  else
    let (c1, b1, s2) := one s1 1
    (c1, b0 ++ b1, s2)

end Sys2Proof.Machine
end

