-- ==== Sys2Proof/Machine/CoreCmd.lean ====
section
/-!
DEFINITION. The commands of the MCORE page and the context image
(spec/05_matrix_core_programming.md R155 to R157, spec/07_numeric_exceptions.md R200).
-/
namespace Sys2Proof.Machine

/-! The context image (R156, R200). -/

/-- Pieces laid at their offsets in a block of n bytes, zero elsewhere. -/
def layBytes (n : Nat) (ps : List (Nat × List Byte)) : List Byte :=
  let bs := ps.foldl (fun (acc : List Byte) (p : Nat × List Byte) => acc ++ List.replicate (p.1 - acc.length) 0 ++ p.2) []
  bs ++ List.replicate (n - bs.length) 0

def ctxSize : Nat := 1216512

/-- The attributes of a bank as a stripe configuration (R133). -/
def WBank.attr (b : WBank) : Nat := b.modeMask.toNat + b.wtag.toNat * 2 ^ 16

def wordBytes (l : List Word) : List Byte := l.flatMap fun w => leBytes w.toNat 4

/-- The words of a record, all 0 where none is held. -/
def recWords (r : Option NfRec) : List Word := r.getD (List.replicate 8 0)

/-- MCORE_LCORE of a core. -/
def State.lcoreWord (s : State) (pd : PD) (mc : MC) : Nat :=
  match s.lcOf pd mc with | some l => l + 2 ^ 15 | none => 0

/-- A core's context image; st: its state as saved. -/
def State.ctxImage (s : State) (pd : PD) (mc : MC) (st : CoreStatus) : List Byte :=
  let c := s.core pd mc
  let x := c.x
  let cell (n : Nat) : TsCell := s.tsCell (privKey pd mc n)
  let sticky := (List.range 64).foldl (fun v n => v + b2n (cell n).sticky * 2 ^ n) 0
  layBytes ctxSize
    [(0, leBytes 0x5A435458 4), (4, leBytes 1 4), (8, leBytes (s.lcoreWord pd mc) 4), (0xC, leBytes st.code 4),
     (0x10, leBytes x.pc.toNat 4), (0x14, leBytes (b2n x.lastW + b2n x.lastS * 2) 4), (0x18, leBytes s.sched.step.toNat 8),
     (0x40, leBytes x.bank0.attr 8), (0x48, leBytes x.bank1.attr 8), (0x50, leBytes (b2n x.bank0.valid + b2n x.bank1.valid * 2) 4),
     (0x80, leBytes (b2n c.nf.stickyNan + b2n c.nf.stickyInf * 2 + b2n c.nf.firstRec.isSome * 4) 4),
     (0x84, leBytes c.nf.flagged.toNat 4), (0xA0, wordBytes (recWords c.nf.firstRec)),
     (0x100, (List.range 32).flatMap fun n => leBytes (x.rdA n).toNat 8),
     (0x200, wordBytes ((List.range 16).map x.rdL)), (0x240, (List.range 4).flatMap fun n => leBytes (x.rdK n).toNat 8),
     (0x300, (List.range 16).flatMap fun n => leBytes (x.rdT n).toNat 16),
     (0x400, (List.range 64).flatMap fun n => leBytes (cell n).v 4), (0x500, leBytes sticky 8),
     (0x600, (List.range 1024).flatMap fun m => leBytes (mget (fun _ => 0) x.accMask m).toNat 2),
     (0x1000, mgets (fun _ => 0) x.bank0.w 0 65536), (0x11000, mgets (fun _ => 0) x.bank1.w 0 65536),
     (0x21000, wordBytes (mgets (fun _ => 0) x.v 0 8192)), (0x29000, wordBytes (mgets (fun _ => 0) x.acc 0 262144))]

/-- The n-byte number at an offset of an image. -/
def imgNat (bs : List Byte) (off n : Nat) : Nat := leNat ((bs.drop off).take n)

/-- The first n words of a list of bytes. -/
def takeWords : Nat → List Byte → List Word
  | 0, _ => []
  | n + 1, bs => BitVec.ofNat 32 (leNat (bs.take 4)) :: takeWords n (bs.drop 4)

def imgWords (bs : List Byte) (off n : Nat) : List Word := takeWords n (bs.drop off)

/-- A bank of an image. -/
def imgBank (bs : List Byte) (attr w : Nat) (valid : Bool) : WBank :=
  let k : DWord := BitVec.ofNat 64 (imgNat bs attr 8)
  { w := mputs (fun _ => 0) [] 0 ((bs.drop w).take 65536), modeMask := kMask k, wtag := kTags k, valid := valid }

/-- The context that an image holds. -/
def imgCtx (bs : List Byte) : CoreCtx :=
  let valid := imgNat bs 0x50 4
  let last := imgNat bs 0x14 4
  { pc := BitVec.ofNat 14 (imgNat bs 0x10 4), lastW := bitOf last 0, lastS := bitOf last 1
    a := mputs (fun _ => 0) [] 1 ((List.range 31).map fun i => BitVec.ofNat 64 (imgNat bs (0x108 + 8 * i) 8))
    l := mputs (fun _ => 0) [] 0 (imgWords bs 0x200 16)
    k := mputs (fun _ => 0) [] 0 ((List.range 4).map fun i => BitVec.ofNat 64 (imgNat bs (0x240 + 8 * i) 8))
    t := mputs (fun _ => 0) [] 0 ((List.range 16).map fun i => BitVec.ofNat 128 (imgNat bs (0x300 + 16 * i) 16))
    accMask := mputs (fun _ => 0) [] 0 ((List.range 1024).map fun i => BitVec.ofNat 16 (imgNat bs (0x600 + 2 * i) 2))
    bank0 := imgBank bs 0x40 0x1000 (bitOf valid 0), bank1 := imgBank bs 0x48 0x11000 (bitOf valid 1)
    v := mputs (fun _ => 0) [] 0 (imgWords bs 0x21000 8192), acc := mputs (fun _ => 0) [] 0 (imgWords bs 0x29000 262144) }

/-- The numeric flags that an image holds (R200). -/
def imgFlags (bs : List Byte) : NumFlags :=
  let f := imgNat bs 0x80 4
  { stickyNan := bitOf f 0, stickyInf := bitOf f 1, flagged := BitVec.ofNat 32 (imgNat bs 0x84 4)
    firstRec := if bitOf f 2 then some (imgWords bs 0xA0 8) else none }

/-- RESTORE_CTX accepts an image (R157). -/
def imgOk (bs : List Byte) : Bool :=
  let x := imgCtx bs
  let ok (b : WBank) : Bool := !b.valid || tagsOk b.modeMask b.wtag
  imgNat bs 0 4 == 0x5A435458 && imgNat bs 4 2 == 1 && ok x.bank0 && ok x.bank1

/-- The core-private Turnstiles of a core set to values and flags, tags 0 (R264). -/
def State.setPriv (s : State) (pd : PD) (mc : MC) (f : Nat → Nat × Bool) : State :=
  (List.range 64).foldl (fun t n =>
    let k := privKey pd mc n
    let t1 := t.tsStore k ((f n).1 % 2 ^ 31) 0
    t1.setTsCell k { t1.tsCell k with sticky := (f n).2 }) s

/-! Commands (R155). -/

/-- A core's TC, side buffer and translation cache are empty (R181). -/
def State.tcEmpty (s : State) (pd : PD) (mc : MC) : State :=
  s.modTc pd mc fun t => { t.emptied with fills := [] }

/-- A command that ends with a code other than DONE (R155). -/
def State.cmdFail (s : State) (pd : PD) (mc : MC) (cmd reason code : Nat) : State :=
  let p := mcorePage pd mc
  (s.blockErr p 6 0 (s.core pd mc).x.pc.toNat (reason + code * 2 ^ 8)).report p 6 (cmd + reason * 2 ^ 8 + code * 2 ^ 16)

/-- A command's end: GO clears, the status is loaded, CMD_DONE is set. -/
def State.cmdEnd (s : State) (pd : PD) (mc : MC) (cmd reason code : Nat) : State :=
  let p := mcorePage pd mc
  let s1 := (((s.setFlag p Reg.MCORE_CMD_GO false).setFld p Reg.MCORE_CMD_STATUS_CODE code).setFlag p Reg.MCORE_CMD_STATUS_VALID true).setInt p 3
  if code = 0 then s1 else s1.cmdFail pd mc cmd reason code

/-- States in which a command runs. -/
def cmdPermits (cmd : Nat) (st : CoreStatus) : Bool :=
  match cmd with
  | 2 => st == .idle || st == .halted
  | 3 => st == .idle || st == .halted || st == .waitStep || st.stopped
  | _ => st == .idle || st == .halted || st.stopped

/-- GO on MCORE_CMD: NONE ends at once, a refused command too; another runs until its completion. -/
def State.mcoreGo (s : State) (pd : PD) (mc : MC) (cmd : Nat) : State :=
  let p := mcorePage pd mc
  let c := s.core pd mc
  if cmd = 0 then s.cmdEnd pd mc 0 0 0
  else if !cmdPermits cmd c.status then s.cmdEnd pd mc cmd 0x0B 0x30
  else if cmd = 1 ∧ s.fld p Reg.MCORE_PROG_LEN_LEN = 0 then s.cmdEnd pd mc cmd 0x02 0x30
  else
    let addr := if cmd = 1 then s.reg64 p 0x110 else s.reg64 p 0x11C
    ((s.setFlag p Reg.MCORE_CMD_GO true).setFlag p Reg.MCORE_CMD_STATUS_VALID false).setCore pd mc
      { c with status := .cmdBusy, before := c.status, cmdRun := cmd, cmdAddr := addr, cmdLen := s.fld p Reg.MCORE_PROG_LEN_LEN }

/-- The core's whole state back at reset (R130, R155). -/
def CoreSt.cleared (c : CoreSt) : CoreSt := { seq := c.seq }

/-- Values of every element of a context that a failed RESTORE_CTX leaves undefined. -/
def freeCtx (n : Nat) : CoreCtx :=
  let w (k i : Nat) : Word := Config.freeWord n (k * 2 ^ 20 + i)
  let bank (k : Nat) : WBank :=
    { w := mputs (fun _ => 0) [] 0 ((List.range 65536).map fun i => Config.freeByte n (k * 2 ^ 20 + i))
      modeMask := (Config.freeDWord n (k * 2 ^ 20 + 65536)).setWidth 16, wtag := (Config.freeDWord n (k * 2 ^ 20 + 65537)).setWidth 48
      valid := Config.freeBit n (k * 2 ^ 20 + 65538) }
  { pc := (w 0 0).setWidth 14, lastW := Config.freeBit n 1, lastS := Config.freeBit n 2
    a := mputs (fun _ => 0) [] 1 ((List.range 31).map fun i => Config.freeDWord n (2 ^ 20 + i))
    l := mputs (fun _ => 0) [] 0 ((List.range 16).map (w 2)), k := mputs (fun _ => 0) [] 0 ((List.range 4).map fun i => Config.freeDWord n (3 * 2 ^ 20 + i))
    t := mputs (fun _ => 0) [] 0 ((List.range 16).map fun i =>
      (Config.freeDWord n (4 * 2 ^ 20 + 2 * i)).setWidth 128 + (Config.freeDWord n (4 * 2 ^ 20 + 2 * i + 1)).setWidth 128 * 2 ^ 64)
    accMask := mputs (fun _ => 0) [] 0 ((List.range 1024).map fun i => (w 5 i).setWidth 16)
    bank0 := bank 6, bank1 := bank 7
    v := mputs (fun _ => 0) [] 0 ((List.range 8192).map (w 8)), acc := mputs (fun _ => 0) [] 0 ((List.range 262144).map (w 9)) }

/-- The code of a memory access of a command: its own, or what a tier failed with. -/
def cmdCodeOf (code : Nat) : TierFail → Nat
  | .none => code
  | .readError => if code = 0 then 0x10 else code
  | .timeout => if code = 0 then 0x11 else code

/-- LOAD_PROGRAM's work: code, and the state with the program loaded, or undefined where a read failed. -/
def State.loadProgram (s : State) (pd : PD) (mc : MC) (err : TierFail) : Nat × State :=
  let c := s.core pd mc
  let ctx := s.fld (mcorePage pd mc) Reg.MCORE_CTXID_CTXID
  let (c0, bs, s1) := s.memRead ctx c.cmdAddr (8 * c.cmdLen)
  let code := cmdCodeOf c0 err
  if code ≠ 0 then
    (code, ({ s1 with freeCtr := s1.freeCtr + 1 }).modCore pd mc fun c =>
      { c with prog := mputs (fun _ => 0) [] 0 ((List.range 16384).map (Config.freeDWord s1.freeCtr)) })
  else
    (0, s1.modCore pd mc fun c =>
      { c with prog := mputs (fun _ => 0) [] 0 ((List.range c.cmdLen).map fun i => BitVec.ofNat 64 (imgNat bs (8 * i) 8)), progLen := c.cmdLen })

/-- SAVE_CTX's work: where a write failed, the image's bytes are undefined. -/
def State.saveCtx (s : State) (pd : PD) (mc : MC) (err : TierFail) : Nat × State :=
  let c := s.core pd mc
  let ctx := s.fld (mcorePage pd mc) Reg.MCORE_CTXID_CTXID
  let (c0, s1) := s.memWrite ctx c.cmdAddr (s.ctxImage pd mc c.before)
  let code := cmdCodeOf c0 err
  if code = 0 then (0, s1)
  else
    let (_, s2) := s.nextFree.memWrite ctx c.cmdAddr ((List.range ctxSize).map (Config.freeByte s.freeCtr))
    (code, s2)

/-- RESTORE_CTX's work: (reason, code) and the state. -/
def State.restoreCtx (s : State) (pd : PD) (mc : MC) (err : TierFail) : (Nat × Nat) × State :=
  let c := s.core pd mc
  let ctx := s.fld (mcorePage pd mc) Reg.MCORE_CTXID_CTXID
  let (c0, bs, s1) := s.memRead ctx c.cmdAddr ctxSize
  let code := cmdCodeOf c0 err
  if code ≠ 0 then ((0, code), s1.nextFree.modCore pd mc fun c => { c with x := freeCtx s1.freeCtr })
  else if !imgOk bs then ((0x0C, 0x30), s1)
  else
    let flags := imgNat bs 0x500 8
    ((0, 0), (s1.modCore pd mc fun c => { c with x := imgCtx bs, nf := imgFlags bs, wldSeen0 := false, wldSeen1 := false, hist := {} }).setPriv
      pd mc fun n => (imgNat bs (0x400 + 4 * n) 4, bitOf flags n))

/-- A running command completes. -/
def State.mcoreDone (s : State) (pd : PD) (mc : MC) (err : TierFail) : State :=
  let p := mcorePage pd mc
  let c := s.core pd mc
  let back (st : CoreStatus) (s : State) : State := s.modCore pd mc fun c => { c with status := st, cmdRun := 0 }
  match c.cmdRun with
  | 1 =>
    let (code, s1) := s.loadProgram pd mc err
    (back c.before s1).cmdEnd pd mc 1 0 code
  | 2 =>
    (s.setCore pd mc { c with
      status := .armed, cmdRun := 0, nf := { c.nf with trapRec := none }
      x := { c.x with pc := BitVec.ofNat 14 (s.fld p Reg.MCORE_ENTRY_PC) } }).cmdEnd pd mc 2 0 0
  | 3 =>
    let (code, s1) := s.saveCtx pd mc err
    (back c.before s1).cmdEnd pd mc 3 0 code
  | 4 =>
    let (r, s1) := s.restoreCtx pd mc err
    (back (if r.2 = 0 then .idle else c.before) s1).cmdEnd pd mc 4 r.1 r.2
  | 5 => (((s.setCore pd mc c.cleared).setPriv pd mc fun _ => (0, false)).tcEmpty pd mc).cmdEnd pd mc 5 0 0
  | _ => s

/-- MCORE_CMD_DONE: a running command completes; err: a tier failed one of its accesses. -/
def execMcoreCmdDone (pd : PD) (mc : MC) (err : TierFail) (s : State) : Host.Outcome State Fault Refusal :=
  .next (s.mcoreDone pd mc err)

end Sys2Proof.Machine
end

