-- ==== Sys2Proof/Machine/Image.lean ====
section
/-!
DEFINITION. The Flifold image: its layout and the checks of a load (spec/08_static_schedule.md R213 to R227,
spec/12_carousel.md R315 to R317, spec/19_jallyn_links.md R509 to R511, R519).
-/
namespace Sys2Proof.Machine

/-! CRC-32 (R213). -/

def crcBit (c : Nat) : Nat := if c % 2 = 1 then (c / 2).xor 0xEDB88320 else c / 2

def crcByte (c : Nat) (b : Byte) : Nat :=
  crcBit (crcBit (crcBit (crcBit (crcBit (crcBit (crcBit (crcBit (c.xor b.toNat))))))))

def crc32 (bs : List Byte) : Nat := (bs.foldl crcByte 0xFFFFFFFF).xor 0xFFFFFFFF

/-! Checks: a failing reason with the byte offset of its field (R227, R249). -/

abbrev Chk := Option (Nat × Nat)

def need (ok : Bool) (reason off : Nat) : Chk := if ok then none else some (reason, off)

/-- The first check that fails. -/
def firstBad (cs : List Chk) : Chk := cs.findSome? id

/-- The bytes at an offset are all 0. -/
def zeroAt (bs : List Byte) (off n : Nat) : Bool := ((bs.drop off).take n).all (· == 0)

def roundUp (n k : Nat) : Nat := (n + k - 1) / k * k

/-! The header and the directory (R213, R215). -/

structure DirEntry where
  at_ : Nat
  type : Nat
  count : Nat
  off : Nat
  size : Nat

def dirEntries (bs : List Byte) : List DirEntry :=
  (List.range (min (imgNat bs 0x38 4) 64)).map fun k =>
    let o := 0x100 + 24 * k
    ⟨o, imgNat bs o 2, imgNat bs (o + 4) 4, imgNat bs (o + 8) 8, imgNat bs (o + 16) 8⟩

def sectionOf (ds : List DirEntry) (t : Nat) : Option DirEntry := ds.find? (·.type == t)

/-- Offsets of the records of a section of fixed record size. -/
def recsOf (ds : List DirEntry) (t size : Nat) : List Nat :=
  match sectionOf ds t with
  | some e => (List.range e.count).map fun k => e.off + size * k
  | none => []

/-- Step 1 of R227 as far as the header shows it. -/
def headerCheck (bs : List Byte) : Chk :=
  firstBad
    [need (imgNat bs 0 4 == 0x44464C46) 1 0, need (imgNat bs 6 2 == 1) 1 6, need (zeroAt bs 0x1E 2) 1 0x1E,
     need (imgNat bs 0x21 1 < 4) 1 0x21, need (zeroAt bs 0x22 2) 1 0x22, need (zeroAt bs 0x40 188) 1 0x40,
     need (crc32 (bs.take 0xFC) == imgNat bs 0xFC 4) 2 0xFC,
     need (decide (0x100 + 24 * imgNat bs 0x38 4 ≤ imgNat bs 8 8)) 8 8]

/-- The facts of the device that a load checks against. -/
structure LoadCtx where
  formed : Bool
  px : Nat
  py : Nat
  pz : Nat
  device : Nat
  diameter : Nat
  ldies : Nat
  memTop : Nat
  partners : List (Nat × Nat)
  pds : List Nat

def jalOff (ds : List DirEntry) : Option Nat := (sectionOf ds 8).map (·.off)

/-- Step 2 (R227, R509): shape, DEVICE, DIAMETER, and the port table against JP_PARTNER. -/
def shapeCheck (c : LoadCtx) (bs : List Byte) (ds : List DirEntry) : Chk :=
  firstBad
    ([need c.formed 4 0x1A, need (imgNat bs 0x18 2 == c.device) 4 0x18, need (imgNat bs 0x1A 1 == c.px) 4 0x1A,
      need (imgNat bs 0x1B 1 == c.py) 4 0x1B, need (imgNat bs 0x1C 1 == c.pz) 4 0x1C, need (imgNat bs 0x1D 1 == c.diameter) 4 0x1D] ++
     match jalOff ds with
     | some o => (List.range 8).map fun p =>
         need (!bitOf (imgNat bs (o + 4) 1) p ||
           c.partners[p]? == some (imgNat bs (o + 0x10 + 8 * p) 2, imgNat bs (o + 0x12 + 8 * p) 1)) 4 (o + 0x10 + 8 * p)
     | none => [])

/-- The step descriptors that lie in the image: those a load can read before the bounds of sections are checked. -/
def recsWithin (bs : List Byte) (ds : List DirEntry) : List Nat :=
  match sectionOf ds 2 with
  | some e => (List.range (min e.count (min e.size (imgNat bs 8 8 - e.off) / 32))).map fun k => e.off + 32 * k
  | none => []

/-- Steps 3 and 4 (R214, R218): LDIES_REQ, CWIN, then LEN of every descriptor. -/
def sizeCheck (c : LoadCtx) (bs : List Byte) (ds : List DirEntry) : Chk :=
  let l := imgNat bs 0x20 1
  let cwin := imgNat bs 0x24 4
  firstBad
    ([need (decide (1 ≤ l) && decide (l ≤ c.ldies)) 3 0x20, need (decide (720 * c.diameter + 2400 ≤ cwin)) 7 0x24] ++
     (recsWithin bs ds).map fun o => need (decide (1 ≤ imgNat bs o 4) && decide (imgNat bs o 4 + cwin ≤ 240000)) 6 o)

/-- Record sizes of R216; 0 where the section's own format gives its size. -/
def recSize (t : Nat) : Nat :=
  match t with
  | 2 => 32 | 3 => 8 | 4 => 16 | 5 => 32 | 6 => 16 | 9 => 8 | 10 => 24 | 11 => 16 | 12 => 16 | _ => 0

/-- Offset of the first layer record in its section (R315). -/
def carFirst (ldies descs : Nat) : Nat := roundUp (0x10 + 8 * ldies + 8 * descs) 64

/-- Offset of the first entry in the JALLYN_SLOTS section (R509). -/
def jalFirst (descs : Nat) : Nat := roundUp (0x50 + 64 * descs) 64

/-- A section's SIZE is what its format gives (R216, R315, R509). -/
def sizeOk (bs : List Byte) (e : DirEntry) : Bool :=
  let l := imgNat bs 0x20 1
  let descs := imgNat bs 0x28 4
  match e.type with
  | 1 => decide (16 * e.count ≤ e.size)
  | 7 =>
    let n := imgNat bs e.off 4
    decide (1 ≤ n) && decide (n < 2 ^ 24) && e.count == n && e.size == carFirst l descs + 64 * n
  | 8 =>
    let n := imgNat bs e.off 4
    decide (n < 2 ^ 24) && e.size == jalFirst descs + 64 * n
  | t => decide (0x8000 ≤ t) || e.size == e.count * recSize t

/-- A section shares a byte with one before it in the directory. -/
def DirEntry.meets (a b : DirEntry) : Bool := decide (b.at_ < a.at_) && decide (a.off < b.off + b.size) && decide (b.off < a.off + a.size)

/-- Step 5 (R215, R216). -/
def dirCheck (bs : List Byte) (ds : List DirEntry) : Chk :=
  let n := imgNat bs 0x38 4
  let size := imgNat bs 8 8
  let entry (e : DirEntry) : List Chk :=
    [need (zeroAt bs (e.at_ + 2) 2) 8 (e.at_ + 2),
     need ((decide (1 ≤ e.type) && decide (e.type ≤ 12)) || decide (0x8000 ≤ e.type)) 8 e.at_,
     need (decide (0x8000 ≤ e.type) || !ds.any fun f => decide (f.at_ < e.at_) && f.type == e.type) 8 e.at_,
     need (e.off % 8 == 0 && decide (0x100 + 24 * n ≤ e.off) && decide (e.off + e.size ≤ size)) 8 (e.at_ + 8),
     need (!ds.any e.meets) 8 (e.at_ + 8), need (sizeOk bs e) 8 (e.at_ + 16)]
  let has (t off cnt : Nat) : Chk := need ((sectionOf ds t).any fun e => cnt == e.count) 8 off
  firstBad
    ([need (decide (1 ≤ n) && decide (n ≤ 64)) 8 0x38] ++ ds.flatMap entry ++
     [need ((sectionOf ds 1).isSome) 8 0x38, has 2 0x28 (imgNat bs 0x28 4), has 3 0x2C (imgNat bs 0x2C 4),
      need (decide (1 ≤ imgNat bs 0x28 4) && decide (imgNat bs 0x28 4 ≤ 65536)) 8 0x28,
      need (decide (1 ≤ imgNat bs 0x2C 4) && decide (imgNat bs 0x2C 4 ≤ 65536)) 8 0x2C])

/-! Records as they stand in the image. -/

def progAt (bs : List Byte) (o : Nat) : TileProg := ⟨imgNat bs o 2, imgNat bs (o + 2) 2, imgNat bs (o + 4) 2, imgNat bs (o + 8) 8⟩

def descAt (bs : List Byte) (o : Nat) : StepDesc :=
  { len := imgNat bs o 4, inCount := imgNat bs (o + 4) 2, mwCount := imgNat bs (o + 6) 2, inFirst := imgNat bs (o + 8) 4
    mwFirst := imgNat bs (o + 12) 4, actFirst := imgNat bs (o + 16) 4, actCount := imgNat bs (o + 20) 2 }

def seqAt (bs : List Byte) (o : Nat) : SeqEntry := ⟨imgNat bs o 2, imgNat bs (o + 4) 4⟩

/-- A range of frames: first frame and count. -/
def rangeAt (bs : List Byte) (o : Nat) : FrameRange := ⟨imgNat bs o 8 / 2 ^ 21, imgNat bs (o + 8) 4⟩

def altAt (bs : List Byte) (o : Nat) : AltRec :=
  { lc := imgNat bs o 2, altPc := imgNat bs (o + 2) 2, joinPc := imgNat bs (o + 4) 2, n := imgNat bs (o + 6) 1
    topk := imgNat bs (o + 7) 1, length := imgNat bs (o + 8) 4, selClass := imgNat bs (o + 12) 1, selIndex := imgNat bs (o + 14) 2
    layerFirst := imgNat bs (o + 16) 4, layerStride := imgNat bs (o + 20) 4
    prio := (List.range 16).map fun i => bitsOf (imgNat bs (o + 24) 8) (4 * i) 4 }

def tsInitAt (bs : List Byte) (o : Nat) : TsInitRec := ⟨imgNat bs o 1, imgNat bs (o + 2) 2, imgNat bs (o + 4) 2, imgNat bs (o + 8) 4⟩

def midwayAt (bs : List Byte) (o : Nat) : MidwaySlot :=
  ⟨imgNat bs o 1, imgNat bs (o + 1) 1, imgNat bs (o + 2) 2, imgNat bs (o + 4) 2, imgNat bs (o + 6) 2⟩

def actAt (bs : List Byte) (o : Nat) : ActRec :=
  { desc := imgNat bs o 2, ld := imgNat bs (o + 2) 1, barrier := bitOf (imgNat bs (o + 3) 1) 0, arrayAvg := imgNat bs (o + 4) 2
    arrayPeak := imgNat bs (o + 6) 2, nAvg := imgNat bs (o + 8) 2, fAvg := imgNat bs (o + 10) 2, jAvg := imgNat bs (o + 12) 2
    idleBegin := imgNat bs (o + 16) 4, idleEnd := imgNat bs (o + 20) 4 }

def maintAt (bs : List Byte) (o : Nat) : MaintWin := ⟨imgNat bs o 1, imgNat bs (o + 1) 1, imgNat bs (o + 4) 4, imgNat bs (o + 8) 4⟩

def frozenAt (bs : List Byte) (o : Nat) : FrozenRec :=
  ⟨imgNat bs o 8 / 2 ^ 21, imgNat bs (o + 8) 4, bitOf (imgNat bs (o + 12) 4) 0⟩

def layerAt (bs : List Byte) (o : Nat) : LayerRec :=
  let fl := imgNat bs (o + 2) 1
  { ld := imgNat bs o 1, kind := imgNat bs (o + 1) 1, hint := bitOf fl 0, demote := bitOf fl 1, alt := bitOf fl 2
    altK := imgNat bs (o + 3) 1, altSite := imgNat bs (o + 4) 2, seg := imgNat bs (o + 6) 1, bankStep := imgNat bs (o + 7) 1
    src := imgNat bs (o + 8) 8, srcPitch := imgNat bs (o + 0x10) 4, planeStride := imgNat bs (o + 0x14) 4
    dst := imgNat bs (o + 0x18) 8, dstPitch := imgNat bs (o + 0x20) 2, rows := imgNat bs (o + 0x22) 2
    planes := imgNat bs (o + 0x24) 1, postClass := imgNat bs (o + 0x25) 1, postIndex := imgNat bs (o + 0x26) 2
    postLc := imgNat bs (o + 0x28) 2, postValue := imgNat bs (o + 0x2A) 2, due := imgNat bs (o + 0x2C) 4
    earlySteps := imgNat bs (o + 0x30) 2, relSteps := imgNat bs (o + 0x32) 2, earlyBeat := imgNat bs (o + 0x34) 4 }

def slotAt (bs : List Byte) (o : Nat) : SlotEnt :=
  let fl := imgNat bs (o + 1) 1
  { rx := imgNat bs o 1 == 1, guard := bitOf fl 0, post := bitOf fl 1, tsOnly := bitOf fl 2, beat := imgNat bs (o + 4) 4
    addr0 := imgNat bs (o + 8) 8, addr1 := imgNat bs (o + 16) 8, rowBytes := imgNat bs (o + 24) 4, rows := imgNat bs (o + 28) 4
    pitch := imgNat bs (o + 32) 2, tsLd := imgNat bs (o + 34) 1, tsIndex := imgNat bs (o + 36) 2, tsValue := imgNat bs (o + 40) 4 }

/-! Geometry of layer records and slots. -/

/-- The destination banks of a record, plane by plane (R316). -/
def LayerRec.banks (r : LayerRec) : List Nat :=
  (List.range r.planes).flatMap fun p => (List.range r.seg).map fun j => saBank r.dst + p * r.bankStep + j

/-- Slab numbers that runs of rows touch in one bank (R267). -/
def slabsIn (off rows pitch : Nat) : List Nat :=
  ((List.range rows).map fun r => (off + r * pitch * 128) / 65536).eraseDups

/-- The slabs of a record (R320). -/
def LayerRec.slabs (r : LayerRec) : List Nat :=
  r.banks.flatMap fun b => (slabsIn (saOff r.dst) r.rows r.dstPitch).map fun k => b * 24 + k

/-- Lines of a slot's transfer (R510). -/
def SlotEnt.lines (e : SlotEnt) : Nat := if e.tsOnly then 1 else e.rowBytes * e.rows / 128

/-- Flits of a slot's transfer (R510). -/
def SlotEnt.flits (e : SlotEnt) : Nat := if e.tsOnly then 1 else (e.rowBytes * e.rows + 639) / 640

/-- The delivery beat of a receive entry (R513). -/
def SlotEnt.delivery (e : SlotEnt) : Nat := e.beat + 4 * (e.lines - 1) / 5 + 21

/-! Step 6: every record (R217 to R226). -/

def progCheck (bs : List Byte) (ds : List DirEntry) : List Chk :=
  match sectionOf ds 1 with
  | none => []
  | some e =>
    let os := recsOf ds 1 16
    let l := imgNat bs 0x20 1
    os.flatMap fun o =>
      let p := progAt bs o
      [need (decide (p.lc < 16 * l) && !os.any fun q => decide (q < o) && (progAt bs q).lc == p.lc) 8 o,
       need (decide (1 ≤ p.len) && decide (p.len ≤ 16384)) 8 (o + 4), need (decide (p.entry < p.len)) 8 (o + 2),
       need (zeroAt bs (o + 6) 2) 8 (o + 6),
       need (p.code % 8 == 0 && decide (16 * e.count ≤ p.code) && decide (p.code + 8 * p.len ≤ e.size)) 8 (o + 8)]

def countOf (ds : List DirEntry) (t : Nat) : Nat := ((sectionOf ds t).map (·.count)).getD 0

/-- FIRST and COUNT lie in a section. -/
def inSection (ds : List DirEntry) (t first n : Nat) : Bool := n == 0 || decide (first + n ≤ countOf ds t)

def descCheck (bs : List Byte) (ds : List DirEntry) : List Chk :=
  (recsOf ds 2 32).flatMap fun o =>
    let d := descAt bs o
    [need (decide (d.inCount ≤ 64)) 9 (o + 4), need (inSection ds 4 d.inFirst d.inCount) 8 (o + 8),
     need (decide (d.mwCount ≤ 4096)) 8 (o + 6), need (inSection ds 11 d.mwFirst d.mwCount) 8 (o + 12),
     need (decide (d.actCount ≤ 50)) 8 (o + 20), need (inSection ds 10 d.actFirst d.actCount) 8 (o + 16),
     need (zeroAt bs (o + 22) 10) 8 (o + 22)]

def seqCheck (bs : List Byte) (ds : List DirEntry) : List Chk :=
  let os := recsOf ds 3 8
  os.flatMap (fun o =>
    [need (decide (imgNat bs o 2 < imgNat bs 0x28 4)) 8 o, need (zeroAt bs (o + 2) 2) 8 (o + 2),
     need (decide (1 ≤ imgNat bs (o + 4) 4)) 8 (o + 4)]) ++
  [need ((os.foldl (fun n o => n + imgNat bs (o + 4) 4) 0) == imgNat bs 0x30 8) 8 0x30]

/-- Input and frozen ranges (R220, R226). -/
def rangeCheck (c : LoadCtx) (bs : List Byte) (ds : List DirEntry) (t : Nat) : List Chk :=
  (recsOf ds t 16).flatMap fun o =>
    [need (imgNat bs o 8 % 2 ^ 21 == 0) 9 o,
     need (decide (1 ≤ imgNat bs (o + 8) 4) && decide (imgNat bs o 8 + imgNat bs (o + 8) 4 * 2 ^ 21 ≤ c.memTop)) 9 (o + 8),
     need (decide (imgNat bs (o + 12) 4 < (if t = 12 then 2 else 1))) 8 (o + 12)]

/-- The instruction at a PC of a logical core's program. -/
def codeAt (bs : List Byte) (ds : List DirEntry) (lc pc : Nat) : Option DWord :=
  match sectionOf ds 1 with
  | none => none
  | some e =>
    ((recsOf ds 1 16).map (progAt bs)).findSome? fun p =>
      if p.lc = lc ∧ pc < p.len then some (BitVec.ofNat 64 (imgNat bs (e.off + p.code + 8 * pc) 8)) else none

/-- The ALT at a PC is the one a record describes (R221). -/
def altMatches (ldies : Nat) (r : AltRec) : Option DWord → Bool
  | none => false
  | some w =>
    match decodeT ldies w with
    | .ok (.alt cls index count) => cls == r.selClass && index == r.selIndex && count + 1 == r.n
    | _ => false

def altCheck (c : LoadCtx) (bs : List Byte) (ds : List DirEntry) : List Chk :=
  let os := recsOf ds 5 32
  os.flatMap fun o =>
    let r := altAt bs o
    [need (altMatches c.ldies r (codeAt bs ds r.lc r.altPc)) 0xA (o + 2),
     need (!os.any fun q => decide (q < o) && (altAt bs q).lc == r.lc && (altAt bs q).altPc == r.altPc) 0xA o,
     need ((codeAt bs ds r.lc r.joinPc).isSome) 0xA (o + 4), need (decide (2 ≤ r.n) && decide (r.n ≤ 16)) 0xA (o + 6),
     need (decide (r.topk ≤ r.n)) 0xA (o + 7), need (decide (r.selClass ≤ 1)) 0xA (o + 12), need (zeroAt bs (o + 13) 1) 0xA (o + 13),
     need (((List.range r.n).all fun k => (r.prio.take r.n).contains k) && (r.prio.drop r.n).all (· == 0)) 0xA (o + 24)]

def tsInitCheck (bs : List Byte) (ds : List DirEntry) : List Chk :=
  let l := imgNat bs 0x20 1
  (recsOf ds 6 16).flatMap fun o =>
    let r := tsInitAt bs o
    [need (decide (r.cls ≤ 1)) 0xF o, need (zeroAt bs (o + 1) 1) 0xF (o + 1),
     need (decide (r.owner < (if r.cls = 0 then 16 * l else l))) 0xF (o + 2),
     need (decide (r.index < (if r.cls = 0 then 64 else 4096))) 0xF (o + 4), need (zeroAt bs (o + 6) 2) 0xF (o + 6),
     need (decide (r.value < 2 ^ 31)) 0xF (o + 8), need (zeroAt bs (o + 12) 4) 0xF (o + 12)]

/-! Midway reservations (R223, R519). -/

/-- The link leaves the die in the direction (R5, R223): the 8 × 7 grid of dies. -/
def linkThere (pd dir : Nat) : Bool :=
  match dir with
  | 0 => decide (8 ≤ pd) | 1 => decide (pd % 8 < 7) | 2 => decide (pd < 48) | 3 => decide (0 < pd % 8) | _ => false

/-- A slot reserves beat b of every period. -/
def MidwaySlot.covers (m : MidwaySlot) (b : Nat) : Bool := decide (m.offset ≤ b % m.period) && decide (b % m.period < m.offset + m.width)

/-- Two slots of one link reserve some beat both: beats of them that agree modulo the gcd of their periods meet. -/
def MidwaySlot.meets (a b : MidwaySlot) : Bool :=
  let g := Nat.gcd a.period b.period
  (List.range (min a.width g)).any fun i => (List.range (min b.width g)).any fun j => (a.offset + i) % g == (b.offset + j) % g

/-- Some window of 64 beats has fewer than 32 beats free. -/
def crowded (ms : List MidwaySlot) : Bool :=
  (List.range (ms.foldl (fun n m => Nat.lcm n m.period) 1)).any fun t =>
    decide (32 < ((List.range 64).countP fun i => ms.any (·.covers (t + i))))

def midwayCheck (c : LoadCtx) (bs : List Byte) (ds : List DirEntry) : List Chk :=
  let os := recsOf ds 9 8
  let same (o q : Nat) : Bool := (midwayAt bs o).ld == (midwayAt bs q).ld && (midwayAt bs o).dir == (midwayAt bs q).dir
  os.flatMap (fun o =>
    let m := midwayAt bs o
    [need (decide (m.ld < c.ldies)) 0xE o, need ((c.pds[m.ld]?).any fun pd => linkThere pd m.dir) 0xE (o + 1),
     need (decide (1 ≤ m.period)) 0xE (o + 2), need (decide (m.offset < m.period)) 0xE (o + 4),
     need (decide (1 ≤ m.width) && decide (m.width + m.offset ≤ m.period)) 0xE (o + 6),
     need (!os.any fun q => decide (q < o) && same o q && m.meets (midwayAt bs q)) 0xE o]) ++
  os.map fun o => need (!crowded ((os.filter (same o)).map (midwayAt bs))) 0xE o

def actCheck (bs : List Byte) (ds : List DirEntry) : List Chk :=
  (recsOf ds 10 24).flatMap fun o =>
    let a := actAt bs o
    let top := ((recsOf ds 2 32)[a.desc]?.map fun q => (descAt bs q).len + imgNat bs 0x24 4).getD 0
    [need (decide (a.desc < countOf ds 2)) 8 o, need (decide (a.ld < imgNat bs 0x20 1) || a.ld == 0xFF) 8 (o + 2),
     need (decide (imgNat bs (o + 3) 1 < 2)) 8 (o + 3),
     need ([a.arrayAvg, a.arrayPeak, a.nAvg, a.fAvg, a.jAvg].all fun x => decide (x ≤ 1024)) 8 (o + 4),
     need (zeroAt bs (o + 14) 2) 8 (o + 14), need (decide (a.idleBegin < a.idleEnd) && decide (a.idleEnd ≤ top)) 8 (o + 20)]

/-- Two windows of one step fall on one die at one time (R225). -/
def MaintWin.meets (a b : MaintWin) : Bool :=
  (a.ld == b.ld || a.ld == 0xFF || b.ld == 0xFF) && decide (a.begin_ < b.begin_ + b.length) && decide (b.begin_ < a.begin_ + a.length)

def maintCheck (bs : List Byte) (ds : List DirEntry) : List Chk :=
  let os := recsOf ds 11 16
  os.flatMap (fun o =>
    let m := maintAt bs o
    [need (decide (m.ld < imgNat bs 0x20 1) || m.ld == 0xFF) 0xE o, need (decide (1 ≤ m.kinds) && decide (m.kinds < 8)) 0xE (o + 1),
     need (zeroAt bs (o + 2) 2) 0xE (o + 2), need (decide (1 ≤ m.length)) 0xE (o + 8), need (zeroAt bs (o + 12) 4) 0xE (o + 12)]) ++
  (recsOf ds 2 32).flatMap fun q =>
    let d := descAt bs q
    let ws := (os.drop d.mwFirst).take d.mwCount
    ws.flatMap fun o =>
      let m := maintAt bs o
      [need (decide (m.begin_ + m.length ≤ d.len + imgNat bs 0x24 4)) 0xE (o + 4),
       need (!ws.any fun r => decide (r < o) && m.meets (maintAt bs r)) 0xE (o + 4)]

/-! CAROUSEL_LAYERS (R315 to R317). -/

/-- FIRST and COUNT of a descriptor in the layer index. -/
def carIndex (bs : List Byte) (off d : Nat) : Nat × Nat :=
  let o := off + 0x10 + 8 * imgNat bs 0x20 1 + 8 * d
  (imgNat bs o 4, imgNat bs (o + 4) 4)

/-- The fields of a HINT record that must be 0 (R316), o its offset. -/
def hintChecks (o : Nat) (r : LayerRec) : List Chk :=
  [need r.hint 8 (o + 2), need (r.altK == 0) 8 (o + 3), need (r.altSite == 0) 8 (o + 4), need (r.bankStep == 0) 8 (o + 7),
   need (r.dst == 0) 8 (o + 0x18), need (r.dstPitch == 0) 8 (o + 0x20), need (r.postClass == 0) 8 (o + 0x25),
   need (r.postIndex == 0) 8 (o + 0x26), need (r.postLc == 0) 8 (o + 0x28), need (r.postValue == 0) 8 (o + 0x2A),
   need (r.earlySteps == 0) 8 (o + 0x30), need (r.relSteps == 0) 8 (o + 0x32), need (r.earlyBeat == 0) 8 (o + 0x34)]

/-- The ranges of R316 for every record, due: DUE lies below the LEN of each descriptor that lists it. -/
def layerChecks (ldies flags o : Nat) (due reserved : Bool) (r : LayerRec) : List Chk :=
  [need (decide (r.ld < ldies)) 8 o, need (decide (r.kind ≤ 2)) 8 (o + 1), need (decide (flags < 8)) 8 (o + 2),
   need (decide (1 ≤ r.seg) && decide (r.seg ≤ 8)) 8 (o + 6), need (decide (r.bankStep ≤ 63)) 8 (o + 7), need (r.src % 128 == 0) 8 (o + 8),
   need (r.srcPitch % 128 == 0) 8 (o + 0x10), need (r.planeStride % 128 == 0) 8 (o + 0x14),
   need (decide (1 ≤ r.rows) && decide (r.rows ≤ 12288)) 8 (o + 0x22), need (decide (1 ≤ r.planes) && decide (r.planes ≤ 64)) 8 (o + 0x24),
   need due 8 (o + 0x2C), need reserved 8 (o + 0x38)]

/-- The fields of a STAGE or IMAGE record (R316, R317). -/
def stageChecks (pool o : Nat) (r : LayerRec) : List Chk :=
  let none_ := r.postClass == 0
  [need (r.alt || r.altK == 0) 8 (o + 3), need (r.alt || r.altSite == 0xFFFF) 8 (o + 4),
   need (decide (r.dst < 2 ^ 33) && r.dst % 128 == 0 && saDie r.dst == r.ld) 8 (o + 0x18),
   need (r.banks.all fun b => decide (b < 64) && bitOf pool b) 8 (o + 0x18),
   need (decide (r.banks.eraseDups.length = r.banks.length)) 8 (o + 7), need (decide (1 ≤ r.dstPitch)) 8 (o + 0x20),
   need (decide (saOff r.dst + (r.rows - 1) * r.dstPitch * 128 + 128 ≤ bankSize)) 8 (o + 0x22),
   need (r.kind != 1 || saOff r.dst % 65536 == 0) 8 (o + 0x18), need (r.kind != 1 || r.dstPitch == 1) 8 (o + 0x20),
   need (r.kind != 1 || r.rows % 512 == 0) 8 (o + 0x22), need (decide (r.postClass ≤ 2)) 8 (o + 0x25),
   need (if none_ then r.postIndex == 0 else decide (r.postIndex < (if r.postClass = 1 then 64 else 4096))) 8 (o + 0x26),
   need (if none_ then r.postLc == 0 else r.postClass != 1 || r.postLc / 16 == r.ld) 8 (o + 0x28),
   need (if none_ then r.postValue == 0 else decide (1 ≤ r.postValue)) 8 (o + 0x2A)]

def carCheck (bs : List Byte) (ds : List DirEntry) : List Chk :=
  match sectionOf ds 7 with
  | none => []
  | some e =>
    let l := imgNat bs 0x20 1
    let nd := countOf ds 2
    let os := (List.range e.count).map fun k => e.off + carFirst l nd + 64 * k
    let pool (ld : Nat) : Nat := imgNat bs (e.off + 0x10 + 8 * ld) 8
    let dueTop (k : Nat) : Bool := (List.range nd).all fun d =>
      let (f, n) := carIndex bs e.off d
      !(decide (f ≤ k) && decide (k < f + n)) || ((recsOf ds 2 32)[d]?).any fun q => decide ((layerAt bs (os.getD k 0)).due < (descAt bs q).len)
    let siteOk (k : Nat) (r : LayerRec) : Bool :=
      match (recsOf ds 5 32)[r.altSite]? with
      | none => false
      | some q =>
        let a := altAt bs q
        a.lc / 16 == r.ld && decide (r.altK < a.n) && decide (a.layerFirst + r.altK * a.layerStride ≤ k) &&
        decide (k < a.layerFirst + (r.altK + 1) * a.layerStride)
    let apart (r : LayerRec) : Bool := os.all fun q =>
      let t := layerAt bs q
      !(t.alt && t.kind != 2 && t.altSite == r.altSite && t.altK != r.altK) || !(t.slabs.any r.slabs.contains)
    [need (zeroAt bs (e.off + 4) 12) 8 (e.off + 4)] ++
    (List.range nd).map (fun d =>
      let (f, n) := carIndex bs e.off d
      need (n == 0 || decide (f + n ≤ e.count)) 8 (e.off + 0x10 + 8 * l + 8 * d)) ++
    (List.range e.count).flatMap fun k =>
      let o := os.getD k 0
      let r := layerAt bs o
      layerChecks l (imgNat bs (o + 2) 1) o (dueTop k) (zeroAt bs (o + 0x38) 8) r ++
      (if r.kind = 2 then hintChecks o r else stageChecks (pool r.ld) o r) ++
      [need (!(r.alt && r.kind != 2) || siteOk k r) 0xA (o + 4), need (!(r.alt && r.kind != 2) || apart r) 0xA (o + 0x18)]

/-! JALLYN_SLOTS (R509 to R511). -/

/-- FIRST, TX and RX of a descriptor and port. -/
def jalIndex (bs : List Byte) (off d p : Nat) : Nat × Nat × Nat :=
  let o := off + 0x50 + 64 * d + 8 * p
  (imgNat bs o 4, imgNat bs (o + 4) 2, imgNat bs (o + 6) 2)

/-- The checks of a Tier S side of a slot whose address stands at offset a of its record o (R269, R511). -/
def sideChecks (ldies o a addr : Nat) (e : SlotEnt) : List Chk :=
  [need (decide (addr < 2 ^ 33) && decide (saDie addr < ldies) && saOff addr % 128 == 0) 8 (o + a),
   need (decide (saBank addr + e.rowBytes / 128 ≤ 64)) 8 (o + 0x18),
   need (decide (saOff addr + (e.rows - 1) * e.pitch * 128 + 128 ≤ bankSize)) 8 (o + 0x1C)]

/-- The ranges of an entry (R510, R511). -/
def slotChecks (ldies : Nat) (bs : List Byte) (o : Nat) : List Chk :=
  let e := slotAt bs o
  [need (decide (imgNat bs o 1 < 2)) 8 o, need (decide (imgNat bs (o + 1) 1 < 8)) 8 (o + 1),
   need (decide (imgNat bs (o + 2) 2 < 4096)) 8 (o + 2), need (e.rx || e.addr1 == 0) 8 (o + 0x10),
   need (if e.tsOnly then e.rowBytes == 0 else decide (256 ≤ e.rowBytes) && decide (e.rowBytes ≤ 8192) && e.rowBytes % 128 == 0) 8 (o + 0x18),
   need (if e.tsOnly then e.rows == 0 else decide (1 ≤ e.rows) && decide (e.rows ≤ 65536)) 8 (o + 0x1C),
   need (decide (1 ≤ e.pitch)) 8 (o + 0x20)] ++
  (if e.tsOnly then [] else sideChecks ldies o 8 e.addr0 e ++ (if e.rx then sideChecks ldies o 0x10 e.addr1 e else [])) ++
  [need (decide (e.tsLd < ldies) && (e.tsOnly || e.rx || e.tsLd == saDie e.addr0)) 8 (o + 0x22), need (zeroAt bs (o + 0x23) 1) 8 (o + 0x23),
   need (decide (e.tsIndex < 4096)) 8 (o + 0x24), need (zeroAt bs (o + 0x26) 2) 8 (o + 0x26),
   need (decide (1 ≤ e.tsValue) && decide (e.tsValue < 2 ^ 31)) 8 (o + 0x28), need (zeroAt bs (o + 0x2C) 20) 8 (o + 0x2C)]

/-- A list of entries of one direction: DIR, SLOT and the pace of BEAT; a receive entry is delivered before LEN. -/
def slotList (bs : List Byte) (rx : Bool) (len : Nat) : Nat → Nat → List Nat → List Chk
  | _, _, [] => []
  | k, from_, o :: os =>
    let e := slotAt bs o
    [need (e.rx == rx && imgNat bs (o + 2) 2 == k) 8 o, need (decide (from_ ≤ e.beat)) 8 (o + 4),
     need (!rx || decide (e.delivery < len)) 8 (o + 4)] ++ slotList bs rx len (k + 1) (e.beat + 4 * e.flits) os

def jalCheck (c : LoadCtx) (bs : List Byte) (ds : List DirEntry) : List Chk :=
  match sectionOf ds 8 with
  | none => []
  | some e =>
    let nd := countOf ds 2
    let os := (List.range (imgNat bs e.off 4)).map fun k => e.off + jalFirst nd + 64 * k
    [need (zeroAt bs (e.off + 5) 11) 8 (e.off + 5)] ++
    os.flatMap (slotChecks c.ldies bs) ++
    (List.range nd).flatMap fun d => (List.range 8).flatMap fun p =>
      let (f, tx, rx) := jalIndex bs e.off d p
      let at_ := e.off + 0x50 + 64 * d + 8 * p
      let len := ((recsOf ds 2 32)[d]?.map fun q => (descAt bs q).len).getD 0
      [need (bitOf (imgNat bs (e.off + 4) 1) p || tx + rx == 0) 8 at_, need (tx + rx == 0 || decide (f + tx + rx ≤ os.length)) 8 at_] ++
      slotList bs false len 0 0 ((os.drop f).take tx) ++ slotList bs true len 0 0 ((os.drop (f + tx)).take rx)

/-- Steps 2 to 6 of a load. -/
def bodyCheck (c : LoadCtx) (bs : List Byte) : Chk :=
  let ds := dirEntries bs
  match firstBad [need (crc32 (bs.drop 0x100) == imgNat bs 0x3C 4) 2 0x3C, shapeCheck c bs ds, sizeCheck c bs ds, dirCheck bs ds] with
  | some x => some x
  | none => firstBad
    (progCheck bs ds ++ descCheck bs ds ++ seqCheck bs ds ++ rangeCheck c bs ds 4 ++ altCheck c bs ds ++ tsInitCheck bs ds ++
     carCheck bs ds ++ jalCheck c bs ds ++ midwayCheck c bs ds ++ actCheck bs ds ++ maintCheck bs ds ++ rangeCheck c bs ds 12)

/-- An image that passed, as the device holds it; addr: where it lies. -/
def parseImage (addr : Nat) (bs : List Byte) : Image :=
  let ds := dirEntries bs
  let l := imgNat bs 0x20 1
  let nd := countOf ds 2
  let bytesOf (t : Nat) : List Byte := match sectionOf ds t with | some e => (bs.drop e.off).take e.size | none => []
  { addr := addr, size := imgNat bs 8 8, buildId := imgNat bs 0x10 8, device := imgNat bs 0x18 2, px := imgNat bs 0x1A 1
    py := imgNat bs 0x1B 1, pz := imgNat bs 0x1C 1, diameter := imgNat bs 0x1D 1, ldiesReq := l, ratioInit := imgNat bs 0x21 1 % 4
    cwin := imgNat bs 0x24 4, jobSteps := imgNat bs 0x30 8, hdrCrc := imgNat bs 0xFC 4, descCrc := crc32 (bytesOf 2 ++ bytesOf 3)
    progs := (recsOf ds 1 16).map fun o =>
      let p := progAt bs o
      { p with code := p.code + ((sectionOf ds 1).map (·.off)).getD 0 }
    descs := (recsOf ds 2 32).map (descAt bs), seqs := (recsOf ds 3 8).map (seqAt bs), inputs := (recsOf ds 4 16).map (rangeAt bs)
    alts := (recsOf ds 5 32).map (altAt bs), tsInit := (recsOf ds 6 16).map (tsInitAt bs), midway := (recsOf ds 9 8).map (midwayAt bs)
    acts := (recsOf ds 10 24).map (actAt bs), maint := (recsOf ds 11 16).map (maintAt bs), frozen := (recsOf ds 12 16).map (frozenAt bs)
    car := (sectionOf ds 7).map fun e =>
      { pool := (List.range l).map fun n => imgNat bs (e.off + 0x10 + 8 * n) 8
        index := (List.range nd).map (carIndex bs e.off)
        recs := (List.range e.count).map fun k => layerAt bs (e.off + carFirst l nd + 64 * k) }
    jal := (sectionOf ds 8).map fun e =>
      { ports := imgNat bs (e.off + 4) 1
        partners := (List.range 8).map fun p => (imgNat bs (e.off + 0x10 + 8 * p) 2, imgNat bs (e.off + 0x12 + 8 * p) 1)
        index := (List.range nd).flatMap fun d => (List.range 8).map fun p => jalIndex bs e.off d p
        entries := (List.range (imgNat bs e.off 4)).map fun k => slotAt bs (e.off + jalFirst nd + 64 * k) } }

end Sys2Proof.Machine
end

