-- ==== Sys2Proof/Machine/MoverOps.lean ====
section
/-!
DEFINITION. Movers: descriptors, pieces, posts (spec/12_carousel.md R329 to R333).
-/
namespace Sys2Proof.Machine

def moverKey (pd : PD) (i : Nat) : Nat := pd.val * 4 + i

def State.mover (s : State) (pd : PD) (i : Nat) : MoverSt := mget (fun _ => {}) s.mv.movers (moverKey pd i)

def State.setMover (s : State) (pd : PD) (i : Nat) (m : MoverSt) : State :=
  { s with mv := { s.mv with movers := mput (fun _ => {}) s.mv.movers (moverKey pd i) m } }

def MoverSt.slot (m : MoverSt) (k : Nat) : Option Mvr := mget (fun _ => none) m.mvr k
def MoverSt.rslot (m : MoverSt) (k : Nat) : Option RingMv := mget (fun _ => none) m.ring k

def State.setMvr (s : State) (pd : PD) (i k : Nat) (v : Option Mvr) : State :=
  let m := s.mover pd i
  s.setMover pd i { m with mvr := mput (fun _ => none) m.mvr k v }

def State.setRingMv (s : State) (pd : PD) (i k : Nat) (v : Option RingMv) : State :=
  let m := s.mover pd i
  s.setMover pd i { m with ring := mput (fun _ => none) m.ring k v }

def mvPage (pd : PD) (i : Nat) : Page := mkPage .mover pd i

/-- Slots and ring slots in use, as MV_STAT shows them. -/
def MoverSt.used (m : MoverSt) : Nat := (List.range 8).countP fun k => (m.slot k).isSome
def MoverSt.ringUsed (m : MoverSt) : Nat := (List.range 4).countP fun k => (m.rslot k).isSome

/-! Descriptors (R329). -/

/-- A descriptor as its bytes say. -/
structure MvDesc where
  op : Nat
  sSys : Bool
  dSys : Bool
  cls : Nat
  ld : Nat
  index : Nat
  src : Nat
  dst : Nat
  rowBytes : Nat
  rows : Nat
  sPitch : Nat
  dPitch : Nat
  budget : Nat
  value : Nat
deriving DecidableEq, Repr

def mvDesc (n : Nat) : MvDesc :=
  { op := bitsOf n 0 8, sSys := bitOf n 8, dSys := bitOf n 9, cls := bitsOf n 16 8, ld := bitsOf n 24 8, index := bitsOf n 32 16
    src := bitsOf n 64 64, dst := bitsOf n 128 64, rowBytes := bitsOf n 192 32, rows := bitsOf n 224 32
    sPitch := bitsOf n 256 32, dPitch := bitsOf n 288 32, budget := bitsOf n 320 32, value := bitsOf n 352 32 }

/-- A row on a Tier S side fits in the banks from its first on. -/
def tsRowOk (a rowBytes : Nat) : Bool := decide (rowBytes ≤ 8192) && decide (saBank a + rowBytes / 128 ≤ 64)

/-- The code with which the checks of R329 end a descriptor; ldies: logical dies present. -/
def mvDescCode (ldies n : Nat) : Nat :=
  let d := mvDesc n
  let post := decide (d.cls ≤ 2) && decide (d.index < 4096) && (d.cls != 2 || decide (d.ld < ldies)) && decide (d.value < 2 ^ 31) &&
    decide (1 ≤ d.budget) && decide (d.budget ≤ 240000)
  let zero := bitsOf n 10 6 == 0 && bitsOf n 48 16 == 0 && bitsOf n 384 128 == 0
  if !post || !zero || 1 < d.op then 0x30
  else if d.op = 1 then
    if d.dSys || d.sSys || d.dst != 0 || d.rowBytes != 0 || d.rows != 0 || d.sPitch != 0 || d.dPitch != 0 then 0x30
    else if d.src % 4 ≠ 0 then 0x13 else 0
  else
    let len := decide (128 ≤ d.rowBytes) && decide (d.rowBytes ≤ 2 ^ 24) && d.rowBytes % 128 == 0 && decide (1 ≤ d.rows) &&
      decide (d.rows ≤ 65536) && d.sPitch % 128 == 0 && d.dPitch % 128 == 0
    let side (sys : Bool) (a : Nat) : Bool := sys || tsRowOk a d.rowBytes
    if !len || !side d.sSys d.src || !side d.dSys d.dst then 0x30
    else if (!d.sSys && d.src % 128 != 0) || (!d.dSys && d.dst % 128 != 0) then 0x13 else 0

/-- The transfer a COPY makes. -/
def mvGeom (d : MvDesc) : XGeom :=
  { rows := d.rows, seg := d.rowBytes / 128, sSys := d.sSys, sAddr := d.src, sPitch := d.sPitch
    dSys := d.dSys, dAddr := d.dst, dPitch := d.dPitch }

/-- The bytes that a side of rows touches, as a span (R400). -/
def sideSpan (a rows pitch rowBytes : Nat) (write : Bool) : Span :=
  ⟨BitVec.ofNat 64 a, BitVec.ofNat 48 ((rows - 1) * pitch + rowBytes), write⟩

def XGeom.spans (g : XGeom) : List Span :=
  (if g.sSys then [sideSpan g.sAddr g.rows g.sPitch (g.seg * 128) false] else []) ++
  (if g.dSys then [sideSpan g.dAddr g.rows g.dPitch (g.seg * 128) true] else [])

def XGeom.units (g : XGeom) : Nat := g.planes * g.rows * g.seg

/-! Pieces (R332). -/

/-- The source address of unit u. -/
def XGeom.srcOf (g : XGeom) (u : Nat) : Nat :=
  let j := u % g.seg
  let r := u / g.seg % g.rows
  let p := u / g.seg / g.rows
  if g.sSys then g.sAddr + p * g.sPlane + r * g.sPitch + j * 128 else g.sAddr + r * g.sPitch + j * 2 ^ 21

/-- The destination address of unit u. -/
def XGeom.dstOf (g : XGeom) (u : Nat) : Nat :=
  let j := u % g.seg
  let r := u / g.seg % g.rows
  let p := u / g.seg / g.rows
  if g.dSys then g.dAddr + r * g.dPitch + j * 128 else g.dAddr + (p * g.dPlane + j) * 2 ^ 21 + r * g.dPitch

/-- A background read of Tier S (R270, R282): INTERNAL for a poisoned word, XLATE_FAULT for an address that breaks R269. -/
def State.bgRead (s : State) (a n cls : Nat) (ctx : Nat) : Nat × List Byte × State :=
  if !s.saOk a then (0x13, [], s)
  else
    let s1 := s.actTierS (saDie a) (some ctx) 1
    match s1.poisonIn a n with
    | some w => (0x7F, [], s1.sDetect w cls)
    | none => (0, s1.sRead a n, s1)

/-- A background write of Tier S: FROZEN_WRITE for an IMAGE_RO slab (R280). -/
def State.bgWrite (s : State) (a : Nat) (bs : List Byte) (ctx : Nat) : Nat × State :=
  if !s.saOk a then (0x13, s)
  else
    let (done, t) := (s.actTierS (saDie a) (some ctx) 1).sWrite a bs
    (if done then 0 else 0x14, t)

/-- The answer of a window for unit u of a piece. -/
def winUnit (w : WinAns) (u : Nat) : WinAns :=
  match w with
  | .data d => .data (d >>> (1024 * u))
  | x => x

/-- Moves unit u, the k-th of its piece: its code. cls: the requester class of R282. -/
def State.moveUnit (s : State) (g : XGeom) (b : RegBlock) (cls u k : Nat) (e : PieceErr) : Nat × State :=
  let (c0, bs, s1) := if g.sSys then s.vaRead b (g.srcOf u) 128 e.tier (winUnit e.win k) else s.bgRead (g.srcOf u) 128 cls b.ctx
  if c0 ≠ 0 then (c0, s1)
  else if g.dSys then s1.vaWrite b (g.dstOf u) bs (if g.sSys then .none else e.tier)
  else s1.bgWrite (g.dstOf u) bs b.ctx

/-- Piece k of a transfer: 32 units in order; the first failing code ends it (R12). The count is the bytes moved. -/
def State.movePiece (s : State) (g : XGeom) (b : RegBlock) (cls k : Nat) (e : PieceErr) : Nat × Nat × State :=
  let s0 := match e.ue with | some a => s.sPoison (a.toNat / 16) | none => s
  (List.range (min 32 (g.units - 32 * k))).foldl (fun (acc : Nat × Nat × State) i =>
    if acc.1 ≠ 0 then acc
    else
      let (c, t) := acc.2.2.moveUnit g b cls (32 * k + i) i e
      (c, acc.2.1 + (if c = 0 then 128 else 0), t)) (0, 0, s0)

def XGeom.pieces (g : XGeom) : Nat := (g.units + 31) / 32

/-- A request of a mover fails (R333): recorded and captured. id: scratch address or sequence number; src: 0 MVR, 1 ring,
2 Carousel. -/
def State.moverFail (s : State) (pd : PD) (i id code src : Nat) : State :=
  let p := mvPage pd i
  let info3 := id / 2 ^ 32 % 2 + code * 2 ^ 8 + src * 2 ^ 16
  (((s.bump p Reg.MV_ERRORS_COUNT).blockErr p 2 0 (id % 2 ^ 32) info3).report p 2 (id % 2 ^ 32 + info3 * 2 ^ 32)).setInt p 2

/-! MVR (R330, R331). -/

/-- The lowest free MVR slot. -/
def MoverSt.freeMvr (m : MoverSt) : Option Nat := (List.range 8).find? fun k => (m.slot k).isNone

/-- LATE_MOVER (R330, R331): the record and its count. -/
def State.lateMover (s : State) (pd : PD) (i beats pc lc : Nat) : State :=
  let p := mvPage pd i
  ((s.deviate p 1 .late 6 beats pc lc).bump p Reg.MV_LATE_COUNT).setInt p 1

/-- A descriptor that cannot be used (R333): the request ends at once, the MVR's step carries the error. -/
def State.mvrBad (s : State) (pd : PD) (i k : Nat) (v : Mvr) (code : Nat) : State :=
  ((s.setMvr pd i k (some { v with fetched := true, bad := true, x := { v.x with fail := some code, done := some s.clock.beats.toNat } })).moverFail
    pd i v.addr code 0).stepFail (s.lcNo v.pd v.mc) v.pc code

/-- The fetch of an MVR's descriptor completes (R330): checked and translated. -/
def State.mvrFetch (s : State) (pd : PD) (i k : Nat) (v : Mvr) : State :=
  let (c0, bs, s1) := if v.addr % 64 ≠ 0 then (0x13, [], s) else s.bgRead v.addr 64 1 v.ctx
  if c0 ≠ 0 then s1.mvrBad pd i k v c0
  else
    let n := leNat bs
    let d := mvDesc n
    let c1 := mvDescCode s.fullDies.length n
    if c1 ≠ 0 then s1.mvrBad pd i k v c1
    else if v.room < d.budget then
      (s1.mvrBad pd i k v 0x30).modCore v.pd v.mc fun c => { c with stopPend := some (c.stopPend.getD ⟨s.sched.beat, v.pc, 0x07⟩) }
    else
      let g := mvGeom d
      let tag := s.lcNo v.pd v.mc + i * 2 ^ 16
      let x : Xfer := { geom := if d.op = 1 then { sAddr := d.src } else g, select := d.op == 1, ctx := v.ctx, tag := tag,
                        spans := if d.op = 1 then [] else g.spans }
      let v1 := { v with fetched := true, budget := d.budget, cls := d.cls, ld := d.ld, index := d.index, value := d.value }
      if x.spans.isEmpty then s1.setMvr pd i k (some { v1 with x := x })
      else
        match s1.dtu pd .mvr v.ctx tag x.spans with
        | (some b, s2) => s2.setMvr pd i k (some { v1 with x := { x with blk := some b } })
        | (none, s2) =>
          ((s2.setMvr pd i k (some { v1 with x := { x with fail := some 0x13, done := some s.clock.beats.toNat } })).moverFail
            pd i v.addr 0x13 0).stepFail (s.lcNo v.pd v.mc) v.pc 0x13

/-- The region block that a piece uses, translated anew where the epoch rose (R404). -/
def State.xferBlk (s : State) (pd : PD) (c : XClass) (x : Xfer) : Option RegBlock × State :=
  match x.blk with
  | none => (some {}, s)
  | some b => s.refresh pd c b x.tag x.spans

/-- The next piece of a transfer made in order is performed: the transfer as it then stands, and the bytes moved. -/
def State.xferPiece (s : State) (pd : PD) (c : XClass) (cls : Nat) (x : Xfer) (e : PieceErr) : Xfer × Nat × State :=
  let now := s.clock.beats.toNat
  match s.xferBlk pd c x with
  | (none, s1) => ({ x with fail := some 0x13, done := some now }, 0, s1)
  | (some b, s1) =>
    let k := x.pos.headD 0
    let (code, n, s2) := s1.movePiece x.geom b cls k e
    let x1 := { x with blk := x.blk.map fun _ => b, pos := [k + 1] }
    if code ≠ 0 then ({ x1 with fail := some code, done := some now }, n, s2)
    else ({ x1 with done := if x.geom.pieces ≤ k + 1 then some now else none }, n, s2)

/-- Bytes moved by a mover are counted (R336). -/
def State.moved (s : State) (pd : PD) (i n : Nat) : State := if n = 0 then s else s.bump64 (mvPage pd i) 0x110 n

/-- The units from u on that an MVR's piece wrote to tiered memory are noted (R542). -/
def State.noteUnits (s : State) (g : XGeom) (b : RegBlock) (u n : Nat) : State :=
  if !g.dSys then s
  else (List.range n).foldl (fun t k => (frameParts (g.dstOf (u + k)) 128).foldl (fun t x =>
    match b.map x.1 with
    | some a => t.noteWrite b.ctx a x.2
    | none => t) t) s

/-- The next piece of an MVR's transfer, or a SELECT's read. -/
def State.mvrPiece (s : State) (pd : PD) (i k : Nat) (v : Mvr) (e : PieceErr) : State :=
  let fin (s : State) (x : Xfer) : State :=
    let s1 := s.setMvr pd i k (some { v with x := x })
    match x.fail with
    | some code => (s1.moverFail pd i v.addr code 0).stepFail (s.lcNo v.pd v.mc) v.pc code
    | none => s1
  if v.x.select then
    let s0 := match e.ue with | some a => s.sPoison (a.toNat / 16) | none => s
    let (code, bs, s1) := s0.bgRead v.x.geom.sAddr 4 1 v.ctx
    fin (if code = 0 then s1 else s1.nextFree) { v.x with
      value := if code = 0 then leNat bs else Config.freeNat s.freeCtr 0 31, fail := if code = 0 then none else some code
      done := some s.clock.beats.toNat }
  else
    let (x, n, s1) := s.xferPiece pd .mvr 1 v.x e
    let s2 := s1.noteUnits v.x.geom (x.blk.getD {}) (32 * v.x.pos.headD 0) (n / 128)
    (fin s2 x).moved pd i n

/-- An operation that takes effect at its beat, now where that has come. -/
def State.tsAt (s : State) (o : TsOp) : State :=
  let s1 := s.tsPost o
  if o.y ≤ s.clock.beats.toNat then s1.tsDue s.clock.beats.toNat else s1

/-- The beat of an MVR's post, once its transfer is done (R331, R333). -/
def Mvr.postBeat (v : Mvr) : Option Nat := v.x.done.map fun d => if v.bad then d + 1 else max (v.e + v.budget) (d + 1)

/-- The post of an MVR (R331): its Turnstiles, the slot free, lateness recorded. -/
def State.mvrPost (s : State) (pd : PD) (i k : Nat) (v : Mvr) (y : Nat) : State :=
  let ld := (s.ldOf pd).getD 0
  let lc := s.lcNo v.pd v.mc
  let sb := if v.bad then 0 else v.sbeat + v.budget
  let far := if v.cls = 2 then 180 else 0
  let val := if v.x.select then v.x.value else v.value
  let op (key y sb k : Nat) : TsOp :=
    { key := key, y := y, sub := false, ring := false, who := whoMover ld i, k := k, sbeat := sb, lc := 0x3FF, src := 1 }
  let s1 := (s.setMvr pd i k none).bump (mvPage pd i) Reg.MV_DONE_COUNT
  let s2 := if v.bad ∨ v.cls = 0 then s1
    else
      match if v.cls = 2 then s.pdOfLd v.ld else some pd with
      | some q => s1.tsAt (op (poolKey q v.index) (y + far) (sb + far) val)
      | none => s1
  let s3 := if v.cpl then s2.tsAt (op (privKey v.pd v.mc v.cts) y sb 1) else s2
  if !v.bad ∧ v.e + v.budget < y then s3.lateMover pd i (y - v.e - v.budget) v.pc lc else s3

end Sys2Proof.Machine
end

