-- ==== Sys2Proof/Machine/Home.lean ====
section
/-!
DEFINITION. The commands of the coherence homes: requests, snoops, answers, write-backs (spec/18_coherence.md).
-/
namespace Sys2Proof.Machine

/-- The participant a command names. -/
def holderPart : Holder → Part
  | .hart h => .l2 h.val
  | .rport p => .rport p.val
  | .tcache pd mc => .tc (coreKey pd mc)

/-- Opens a transaction in place of the one its line has. -/
def State.putTxn (s : State) (t : Txn) : State :=
  s.setHome { s.homeSt with open_ := (s.homeSt.open_.filter fun x => x.line != t.line) ++ [t] }

/-- Write-backs that wait from participants p names are accepted (R476). -/
def State.acceptWaiting (s : State) (line : Nat) (p : Part → Bool) : State :=
  (s.homeSt.wb.filter fun w => w.line == line && !w.accepted && p w.who).foldl State.acceptWb s

/-- HOME_STAT shows the sweep's hold (R478). -/
def State.sweepView (s : State) (line : Nat) : State :=
  s.setFld (s.homePage line) Reg.HOME_STAT_HELD
    (min 255 ((s.homeSt.sweepHeld.filter fun t => s.homeOf t.line == s.homeOf line).length))

/-- A transaction whose snoops are all answered is served: a grant waits for COMP_ACK, the rest closes (R474, R476). -/
def State.serveTxn (s : State) (t : Txn) : Bool × State :=
  let (code, d, s1) := s.homeServe t
  let s2 := s1.answer t.tag code d
  let grant := code = 0 && !(t.req == HReq.read || t.req == HReq.write)
  if grant then (true, s2.putTxn { t with pend := [], answers := [], granted := true })
  else (false, s2.setHome { s2.homeSt with open_ := s2.homeSt.open_.filter fun x => x.line != t.line })

/-- A request starts at its home: sweep hold, grant check, snoops (R477, R478). The flag says whether the line is busy. -/
def State.startTxn (s : State) (t0 : Txn) : Bool × State :=
  if s.homeSt.sweep && t0.req.grantsWrite && inRanges s.sched.inputNext (frameOf64 t0.line) then
    let s1 := s.setHome { s.homeSt with sweepHeld := s.homeSt.sweepHeld ++ [t0] }
    (false, (s1.bump (s.homePage t0.line) Reg.HOME_SWEEP_HELD_COUNT).sweepView t0.line)
  else
    let (code, s1) := s.grantCheck t0
    if code ≠ 0 then (false, s1.answer t0.tag code [])
    else
      let t := s1.upgradeReq t0
      let ps := s1.targets t
      if ps.isEmpty then s1.serveTxn t
      else (true, (s1.putTxn { t with snp := t.req.snoop, pend := ps }).acceptWaiting t.line fun p => ps.contains p)

/-- Requests waiting for a line start in order of arrival until one keeps it busy (R476). -/
def State.nextTxn (s : State) (line : Nat) : Nat → State
  | 0 => s
  | n + 1 =>
    match s.homeSt.queue.find? (fun t => t.line == line) with
    | none => s
    | some t =>
      let s1 := s.setHome { s.homeSt with queue := s.homeSt.queue.erase t }
      let (busy, s2) := s1.startTxn t
      if busy then s2 else s2.nextTxn line n

/-- The line's transaction has closed: waiting write-backs, then waiting requests. -/
def State.lineFree (s : State) (line : Nat) : State :=
  let s1 := s.acceptWaiting line fun _ => true
  s1.nextTxn line s1.homeSt.queue.length

/-- A directory entry's error (R488). -/
def State.dirError (s : State) (line : Nat) (e : DirErr) : State :=
  let p := s.homePage line
  match e with
  | .none => s
  | .ce =>
    let old := s.fld p Reg.HOME_DIR_CE_COUNT
    let s1 := s.bump p Reg.HOME_DIR_CE_COUNT
    let thr := s.fld p Reg.HOME_CE_THR_THR
    if old < thr ∧ thr ≤ old + 1 then s1.setInt p 3 else s1
  | .ue =>
    let s1 := (((s.bump p Reg.HOME_DIR_UE_COUNT).setInt p 2).reportOpen p 2).blockErr p 2 0 (bitsOf (line * 64) 6 32)
      (bitsOf (line * 64) 38 14 + 0xFF * 2 ^ 16)
    (s1.invalAll { line := line, st := .shared, sharers := 2 ^ 100 - 1, tcdies := 2 ^ 50 - 1 }).dirErase line

/-- A request arrives at its home (R476). -/
def State.homeArrive (s : State) (t : Txn) (e : DirErr) : State :=
  let s1 := s.dirError t.line e
  if s1.homeSt.open_.any (fun x => x.line == t.line) || s1.homeSt.queue.any (fun x => x.line == t.line) then
    s1.setHome { s1.homeSt with queue := s1.homeSt.queue ++ [t] }
  else
    let (busy, s2) := s1.startTxn t
    if busy then s2 else s2.lineFree t.line

/-- HOME_READ_S: a load or fetch miss of a hart. -/
def execHomeReadS (h : HartId) (tag ctx : Half) (line : BitVec 46) (dir : DirErr) (s : State) : Host.Outcome State Fault Refusal :=
  .next (s.homeArrive { line := line.toNat, req := .readS, who := some (.l2 h.val), tag := tag.toNat, ctx := ctx.toNat } dir)

/-- HOME_READ_X: a store miss of a hart, or a root port's partial line. -/
def execHomeReadX (who : Holder) (tag ctx : Half) (line : BitVec 46) (dir : DirErr) (s : State) : Host.Outcome State Fault Refusal :=
  .next (s.homeArrive { line := line.toNat, req := .readX, who := some (holderPart who), tag := tag.toNat, ctx := ctx.toNat } dir)

/-- HOME_UPGRADE: a store of a hart that holds S or O. -/
def execHomeUpgrade (h : HartId) (tag ctx : Half) (line : BitVec 46) (dir : DirErr) (s : State) : Host.Outcome State Fault Refusal :=
  .next (s.homeArrive { line := line.toNat, req := .upgrade, who := some (.l2 h.val), tag := tag.toNat, ctx := ctx.toNat } dir)

/-- HOME_CLAIM: write permission for a full line, whose new data the claimer holds. -/
def execHomeClaim (who : Holder) (tag ctx : Half) (line : BitVec 46) (data : BitVec 512) (dir : DirErr) (s : State) :
    Host.Outcome State Fault Refusal :=
  .next (s.homeArrive { line := line.toNat, req := .claim, who := some (holderPart who), tag := tag.toNat, ctx := ctx.toNat
                        data := leBytes data.toNat 64 } dir)

/-- HOME_FILL_S: an operand cache's granule. -/
def execHomeFillS (pd : PD) (mc : MC) (tag ctx : Half) (line : BitVec 46) (dir : DirErr) (s : State) : Host.Outcome State Fault Refusal :=
  .next (s.homeArrive { line := line.toNat, req := .fillS, who := some (.tc (coreKey pd mc)), tag := tag.toNat, ctx := ctx.toNat } dir)

/-- HOME_READ: an uncached requester reads. -/
def execHomeRead (tag ctx : Half) (line : BitVec 46) (dir : DirErr) (s : State) : Host.Outcome State Fault Refusal :=
  .next (s.homeArrive { line := line.toNat, req := .read, who := none, tag := tag.toNat, ctx := ctx.toNat } dir)

/-- HOME_WRITE: an uncached requester writes masked bytes; own: the operand cache whose write-through it is. -/
def execHomeWrite (tag ctx : Half) (line : BitVec 46) (mask : BitVec 64) (data : BitVec 512) (own : Option (PD × MC)) (dir : DirErr)
    (s : State) : Host.Outcome State Fault Refusal :=
  .next (s.homeArrive { line := line.toNat, req := .write, who := own.map fun (pd, mc) => .tc (coreKey pd mc), tag := tag.toNat
                        ctx := ctx.toNat, mask := mask.toNat, data := leBytes data.toNat 64 } dir)

/-- HOME_EVICT_E: an L2 evicts a line it holds in E. -/
def execHomeEvictE (h : HartId) (line : BitVec 46) (s : State) : Host.Outcome State Fault Refusal :=
  match s.l2Line h.val line.toNat with
  | some c =>
    if c.st = .e then
      .next ((s.setL2 h.val line.toNat none).sendWb
        { who := .l2 h.val, line := line.toNat, dirty := false, data := c.data, ctx := c.ctx })
    else .next s
  | none => .next s

/-- HOME_WB: an L2 evicts M or O, a root port releases a line, or a hart's combining entry of the line drains. -/
def execHomeWb (who : Holder) (line : BitVec 46) (s : State) : Host.Outcome State Fault Refusal :=
  let l := line.toNat
  match who with
  | .hart h =>
    if s.homeSt.cb.any (fun e => e.hart == h.val && e.line == l) then .next (s.cbDrain fun e => e.hart == h.val && e.line == l)
    else
      match s.l2Line h.val l with
      | some c =>
        if c.st = .m ∨ c.st = .o then
          .next ((s.setL2 h.val l none).sendWb { who := .l2 h.val, line := l, dirty := true, data := c.data, ctx := c.ctx })
        else .next s
      | none => .next s
  | .rport p =>
    match s.rpLine p.val l with
    | some c => .next ((s.setRp p.val l none).sendWb { who := .rport p.val, line := l, dirty := true, data := c.data, ctx := c.ctx })
    | none => .next s
  | .tcache _ _ => .next s

/-- A holder answers the snoop of this kind that is pending to it. -/
def State.answerSnoop (s : State) (who : Holder) (line : Nat) (k : Snoop) : State :=
  let p := holderPart who
  match s.homeSt.open_.find? (fun t => t.line == line) with
  | some t =>
    if t.snp == k && !t.granted && t.pend.contains p && !(t.answers.any fun a => a.1 == p) then
      let (a, s1) := s.snoopHolder p line k
      s1.putTxn { t with answers := t.answers ++ [(p, a)] }
    else s
  | none => s

/-- SNP_SHARE: M becomes O, E becomes S; dirty data goes to the home. -/
def execSnpShare (who : Holder) (line : BitVec 46) (s : State) : Host.Outcome State Fault Refusal :=
  .next (s.answerSnoop who line.toNat .share)

/-- SNP_INVAL: the copy is invalidated; dirty data goes to the home. -/
def execSnpInval (who : Holder) (line : BitVec 46) (s : State) : Host.Outcome State Fault Refusal :=
  .next (s.answerSnoop who line.toNat .inval)

/-- SNP_CUR: the holder keeps its state; dirty data goes to the home. -/
def execSnpCur (who : Holder) (line : BitVec 46) (s : State) : Host.Outcome State Fault Refusal :=
  .next (s.answerSnoop who line.toNat .cur)

/-- A snoop is settled: the last one serves the request. -/
def State.settleSnoop (s : State) (t : Txn) (p : Part) : State :=
  let t1 := { t with pend := t.pend.erase p, answers := t.answers.filter fun a => a.1 != p }
  if t1.pend.isEmpty then
    let (busy, s1) := s.serveTxn t1
    if busy then s1 else s1.lineFree t.line
  else s.putTxn t1

/-- SNOOP_RESPONSE: the home takes a holder's answer. -/
def execSnoopResponse (who : Holder) (line : BitVec 46) (s : State) : Host.Outcome State Fault Refusal :=
  let p := holderPart who
  match s.homeSt.open_.find? (fun t => t.line == line.toNat) with
  | some t =>
    match t.answers.find? (fun a => a.1 == p) with
    | some (_, a) =>
      let (t1, s1) := s.takeAnswer t p a
      .next (s1.settleSnoop t1 p)
    | none => .next s
  | none => .next s

/-- COMP_ACK: the requester closes its grant, and the line's next request may start. -/
def execCompAck (line : BitVec 46) (s : State) : Host.Outcome State Fault Refusal :=
  match s.homeSt.open_.find? (fun t => t.line == line.toNat) with
  | some t =>
    if t.granted then
      .next ((s.setHome { s.homeSt with open_ := s.homeSt.open_.filter fun x => x.line != t.line }).lineFree t.line)
    else .next s
  | none => .next s

/-- WB_ACK: the owner frees its write-back buffer entry. -/
def execWbAck (who : Holder) (line : BitVec 46) (s : State) : Host.Outcome State Fault Refusal :=
  .next (s.setHome { s.homeSt with
    wb := s.homeSt.wb.filter fun w => !(w.accepted && w.who == holderPart who && w.line == line.toNat) })

/-- SNOOP_TIMEOUT: an unanswered snoop is treated as NOT_PRESENT, or as data lost for a recorded owner of a dirty line,
which is then poisoned (R486). -/
def execSnoopTimeout (who : Holder) (line : BitVec 46) (s : State) : Host.Outcome State Fault Refusal :=
  let p := holderPart who
  let l := line.toNat
  match s.homeSt.open_.find? (fun t => t.line == l) with
  | some t =>
    if t.pend.contains p && !(t.answers.any fun a => a.1 == p) then
      let page := s.homePage l
      let owner := (s.dirGet l).any fun d => d.st == DState.owned && (s.holders d).head? == some p
      let clean := match p with | .l2 h => (s.l2Line h l).any (fun c => c.st == Moesi.e || c.st == Moesi.s) | _ => false
      let code := match p with | .tc _ => 0xFF | q => q.owner
      let s1 := (((s.bump page Reg.HOME_SNP_TMO_COUNT).reportOpen page 1).setInt page 1).blockErr page 1 0
        (bitsOf (l * 64) 6 32) (bitsOf (l * 64) 38 14 + code * 2 ^ 16)
      let s2 := if owner && !clean then s1.poisonL3 l t.ctx else s1
      let s3 := match p with
        | .l2 h => s2.hartRemove h 4
        | .rport n => s2.setRp n l none
        | .tc _ => s2
      .next (s3.settleSnoop t p)
    else .next s
  | none => .next s

/-- RP_LINE_RELEASE: a root-port line with no write for 4096 NCLK cycles is released with WB. -/
def execRpLineRelease (p : RPort) (line : BitVec 46) (s : State) : Host.Outcome State Fault Refusal :=
  match s.rpLine p.val line.toNat with
  | some c =>
    .next ((s.setRp p.val line.toNat none).sendWb
      { who := .rport p.val, line := line.toNat, dirty := true, data := c.data, ctx := c.ctx })
  | none => .next s

/-- The requests that a sweep held start, in order (R478, R479). -/
def State.releaseSweep (s : State) : State :=
  let l := s.homeSt.sweepHeld
  l.foldl (fun t x => (t.homeArrive x .none).sweepView x.line) (s.setHome { s.homeSt with sweepHeld := [], sweep := false })

end Sys2Proof.Machine
end

