-- ==== Sys2Proof/Machine/PlaceCmd.lean ====
section
/-!
DEFINITION. PLACE commands and the entry snapshot (spec/11_memory_placement.md R290, R308, R309, R314).
-/
namespace Sys2Proof.Machine

/-- One frame of a PLACE command: its code and the state. -/
def State.placeFrame (s : State) (cmd value ld f : Nat) : Nat × State :=
  let e := s.entry f
  match cmd with
  | 1 => (0, s.setEntry f { e with owner := value })
  | 2 =>
    let code := s.agentCode f value true
    if code ≠ 0 then (code, s.countRefusal f code) else (0, s.setEntry f { e with zmap := 0xFFFFFFFF })
  | 3 => (0, s.setEntry f { e with frozen := true })
  | 4 => (0, s.setEntry f { e with frozen := false })
  | 5 => (0, s.setEntry f { e with pin := true })
  | 6 => (0, s.setEntry f { e with pin := false })
  | 7 => (0, s.hintPromote f ld s.sched.jstep.toNat)
  | 8 => (0, s.hintDemote f)
  | 9 => (0, s.setEntry f { e with count := 0 })
  | _ => (0, s)

/-- The frames of a range in order, up to the first that fails: its code, the failing frame, the state. -/
def State.placeFrames (s : State) (cmd value ld f : Nat) : Nat → Nat × Nat × State
  | 0 => (0, 0, s)
  | n + 1 =>
    let (code, s1) := s.placeFrame cmd value ld f
    if code ≠ 0 then (code, f, s1) else s1.placeFrames cmd value ld (f + 1) n

/-- A PLACE command over n frames from a base address (R309): code, failing frame, state. SET_FROZEN sweeps first
(R479). -/
def State.placeRun (s : State) (cmd value ld base n : Nat) : Nat × Nat × State :=
  if cmd = 0 then (0, 0, s)
  else if base % 2 ^ 21 ≠ 0 ∨ n = 0 ∨ s.place.frames < base / 2 ^ 21 + n then (0x13, base / 2 ^ 21, s)
  else if (cmd = 3 ∨ cmd = 4) ∧ !(s.sched.state == .idle || s.sched.state == .loaded || s.sched.state == .ended) then (0x30, base / 2 ^ 21, s)
  else
    let f := base / 2 ^ 21
    let s1 := if cmd = 3 then s.sweepFrames fun g => decide (f ≤ g) && decide (g < f + n) else s
    s1.placeFrames cmd value ld f n

/-- A frame of the range is EXCHANGING, so that a PIN waits (R309). -/
def State.pinWaits (s : State) (base n : Nat) : Bool :=
  base % 2 ^ 21 == 0 && (List.range n).any fun i => (s.entry (base / 2 ^ 21 + i)).exchanging

def State.placeBase (s : State) (p : Page) : Nat := s.reg64 p 0x160 % 2 ^ 52

/-- GO on PLACE_CMD: the command is taken; its end is a command of its own. -/
def State.placeGo (s : State) (p : Page) (cmd : Nat) : State :=
  if s.place.cmds.any fun c => c.page == pageKey p then s
  else
    let s1 := (s.setFlag p Reg.PLACE_CMD_GO true).setFlag p Reg.PLACE_CMD_STATUS_VALID false
    s1.setPlace { s1.place with cmds := s1.place.cmds ++ [{ page := pageKey p, kind := cmd, value := s.fld p Reg.PLACE_CMD_ARG_VALUE,
                                                            ld := s.fld p Reg.PLACE_CMD_ARG_LD, base := s.placeBase p,
                                                            frames := s.fld p Reg.PLACE_CMD_FRAMES_FRAMES }] }

/-- A PLACE command completes on every holding agent: its effect and its status. -/
def State.placeDone (s : State) (p : Page) : State :=
  match s.place.cmds.find? (·.page == pageKey p) with
  | none => s
  | some c =>
    if c.kind = 5 ∧ s.pinWaits c.base c.frames then s
    else
      let (code, f, s1) := s.placeRun c.kind c.value c.ld c.base c.frames
      let s2 := s1.setPlace { s1.place with cmds := s1.place.cmds.filter (·.page != pageKey p) }
      let s3 := (((s2.setFlag p Reg.PLACE_CMD_GO false).setFld p Reg.PLACE_CMD_STATUS_CODE code).setFlag p
        Reg.PLACE_CMD_STATUS_VALID true).setInt p 3
      if code = 0 then s3 else s3.blockErr p 0 0 f 0

/-- The words of an entry (R290). -/
def PEntry.word (e : PEntry) : Nat :=
  b2n e.exchanging + b2n e.tier * 2 ^ 2 + e.unit * 2 ^ 3 + e.slot * 2 ^ 9 + b2n e.frozen * 2 ^ 26 + b2n e.pin * 2 ^ 27 +
  b2n e.keep * 2 ^ 28 + e.owner * 2 ^ 32 + e.count * 2 ^ 48 + e.zmap * 2 ^ 64 + e.moved * 2 ^ 96 + e.partner * 2 ^ 128 +
  b2n e.flightValid * 2 ^ 150 + e.flight * 2 ^ 151 + b2n e.ntier * 2 ^ 156 + e.nunit * 2 ^ 157 + e.nslot * 2 ^ 163 +
  e.prefLd * 2 ^ 180 + e.keepUntil * 2 ^ 224

def State.setEnts (s : State) (p : Page) (w : Nat) : State :=
  (List.range 8).foldl (fun t k => t.setFld p Reg.PLACE_ENT_ENTRY (bitsOf w (32 * k) 32) k) s

/-- A write of PLACE_ENT_SEL: the snapshot is on its way, unless the frame does not exist. -/
def State.entSel (s : State) (p : Page) (f : Nat) : State :=
  let s1 := (s.setFld p Reg.PLACE_ENT_SEL_FRAME f).setFlag p Reg.PLACE_STAT_ENT_VALID false
  if s.place.frames ≤ f then (s1.setEnts p 0).blockErr p 0 0 f 0 else s1

/-- The snapshot arrives. -/
def State.entSnap (s : State) (p : Page) : State :=
  let f := s.fld p Reg.PLACE_ENT_SEL_FRAME
  if s.flag p Reg.PLACE_STAT_ENT_VALID || decide (s.place.frames ≤ f) then s
  else (s.setEnts p (s.entry f).word).setFlag p Reg.PLACE_STAT_ENT_VALID true

/-- The end of a PLACE command. -/
def execPlaceCmdDone (pd : PD) (s : State) : Host.Outcome State Fault Refusal :=
  if s.fenced (diePage .place pd) then .next s else
  .next (s.placeDone (diePage .place pd))

/-- The snapshot of the selected entry arrives. -/
def execPlaceEntSnapshot (pd : PD) (s : State) : Host.Outcome State Fault Refusal := .next (s.entSnap (diePage .place pd))

end Sys2Proof.Machine
end

