-- ==== Sys2Proof/Machine/CarOps.lean ====
section
/-!
DEFINITION. Carousel: job order, eligibility, begin, hints, posts, cancellation, release and replay
(spec/12_carousel.md R318 to R328).
-/
namespace Sys2Proof.Machine

def State.car (s : State) (pd : PD) : CarSt := mget (fun _ => {}) s.mv.cars pd.val

def State.setCar (s : State) (pd : PD) (c : CarSt) : State :=
  { s with mv := { s.mv with cars := mput (fun _ => {}) s.mv.cars pd.val c } }

def State.modCar (s : State) (pd : PD) (f : CarSt → CarSt) : State := s.setCar pd (f (s.car pd))

def carPage (pd : PD) : Page := diePage .carousel pd

/-! Job order (R318). -/

/-- The descriptor number of a job step. -/
def descIx : List SeqEntry → Nat → Option Nat
  | [], _ => none
  | e :: es, j => if j < e.times then some e.desc else descIx es (j - e.times)

/-- The layer records of the running image. -/
def State.layers (s : State) : List LayerRec := ((s.sched.image.bind (·.car)).map (·.recs)).getD []

def State.layer (s : State) (n : Nat) : Option LayerRec := s.layers[n]?

/-- Records of a job step on a die, in record order. -/
def recsOfStep (img : Image) (ld j : Nat) : List Nat :=
  match img.car, descIx img.seqs j with
  | some c, some d =>
    let (f, n) := c.index.getD d (0, 0)
    ((List.range n).map (f + ·)).filter fun k => (c.recs[k]?).any (·.ld == ld)
  | _, _ => []

/-- At most n positions in job order from record k of job step j on; the first number bounds the steps looked at. -/
def posFrom (img : Image) (ld : Nat) : Nat → Nat → Nat → Nat → List (Nat × Nat)
  | 0, _, _, _ => []
  | fuel + 1, j, k, n =>
    if n = 0 then []
    else
      let here := ((recsOfStep img ld j).filter (fun r => decide (k ≤ r))).take n
      here.map (fun r => (j, r)) ++ posFrom img ld fuel (j + 1) 0 (n - here.length)

/-- The next n positions of a die from a position on. -/
def State.positions (s : State) (ld : Nat) (p : Nat × Nat) (n : Nat) : List (Nat × Nat) :=
  match s.sched.image with
  | some img => posFrom img ld (img.jobSteps - p.1) p.1 p.2 n
  | none => []

def CarSt.occ (c : CarSt) (p : Nat × Nat) : Option CarOcc := c.occs.find? fun o => o.job == p.1 && o.rec_ == p.2

def CarSt.setOcc (c : CarSt) (o : CarOcc) : CarSt :=
  { c with occs := c.occs.filter (fun q => !(q.job == o.job && q.rec_ == o.rec_)) ++ [o] }

def CarSt.modOccs (c : CarSt) (p : CarOcc → Bool) (f : CarOcc → CarOcc) : CarSt :=
  { c with occs := c.occs.map fun o => if p o then f o else o }

/-- The beat DUE of a job step has passed. -/
def State.duePassed (s : State) (j due : Nat) : Bool :=
  let now := s.sched.jstep.toNat
  decide (j < now) || (decide (j = now) && s.inStep && decide (due < s.sched.beat))

/-- The position's post has been made, or never will be (R321 item 1). -/
def State.postMade (s : State) (pd : PD) (p : Nat × Nat) : Bool :=
  (match (s.car pd).occ p with | some o => o.phase == .posted || o.phase == .cancelled | none => false) ||
  ((s.layer p.2).any fun r => r.postClass == 0 && s.duePassed p.1 r.due)

/-- p moves on behind posts that were made; occurrences behind it that hold no slabs are forgotten. -/
def State.carAdvance (s : State) (pd : PD) : State :=
  let ld := (s.ldOf pd).getD 0
  let c := s.car pd
  let ps := s.positions ld c.first 65
  let first := (ps.find? fun p => !s.postMade pd p).getD ((ps.getLast?.map fun p => (p.1, p.2 + 1)).getD c.first)
  let behind (o : CarOcc) : Bool := decide (o.job < first.1) || (o.job == first.1 && decide (o.rec_ < first.2))
  s.setCar pd { c with first := first, occs := c.occs.filter fun o => o.held || !behind o || o.job == s.sched.jstep.toNat }

/-! Alternatives (R325). -/

def State.altRecord (s : State) (n : Nat) : Option AltRec := s.sched.image.bind fun i => i.alts[n]?

def CarSt.site (c : CarSt) (job site : Nat) : Option SiteRes := c.sites.find? fun r => r.job == job && r.site == site

/-- An ALT record is eligible: among the first TOPK before the selector, of the chosen alternative after it. -/
def State.altEligible (s : State) (pd : PD) (job : Nat) (r : LayerRec) : Bool :=
  !r.alt ||
  (match (s.car pd).site job r.altSite with
   | some q => q.alt == r.altK
   | none => (s.altRecord r.altSite).any fun a => (a.prio.take a.topk).contains r.altK)

/-! Begin (R321, R322, R324). -/

def State.carCtx (s : State) (pd : PD) : Nat := s.fld (carPage pd) Reg.CAR_CTXID_CTXID

/-- The earliest begin has passed. -/
def State.earlyPassed (s : State) (pd : PD) (job : Nat) (r : LayerRec) : Bool :=
  if r.earlySteps = 0xFFFF ∨ job < r.earlySteps then decide ((s.car pd).armAt < s.clock.beats.toNat)
  else
    let j := job - r.earlySteps
    let now := s.sched.jstep.toNat
    s.schedRuns && (decide (j < now) || (decide (j = now) && decide (r.earlyBeat ≤ s.sched.beat)))

/-- The system side of a record. -/
def LayerRec.span (r : LayerRec) : Span :=
  ⟨BitVec.ofNat 64 r.src, BitVec.ofNat 48 ((r.planes - 1) * r.planeStride + (r.rows - 1) * r.srcPitch + r.seg * 128), false⟩

def LayerRec.geom (r : LayerRec) : XGeom :=
  { planes := r.planes, rows := r.rows, seg := r.seg, sSys := true, sAddr := r.src, sPitch := r.srcPitch, sPlane := r.planeStride
    dAddr := r.dst, dPitch := r.dstPitch * 128, dPlane := r.bankStep }

/-- The job step of a record's release (R320); the last job step for REL_STEPS = 0xFFFF. -/
def State.releaseStep (s : State) (job : Nat) (r : LayerRec) : Nat :=
  if r.relSteps = 0xFFFF then (s.sched.image.map fun i => i.jobSteps - 1).getD 0 else job + r.relSteps

/-- The frames that a record's source touches, in ascending order; none where a page does not translate. -/
def State.hintFrames (s : State) (pd : PD) (r : LayerRec) : Option (List Nat) × State :=
  let (b, s1) := s.translateSpans pd .carousel (s.carCtx pd) [r.span]
  match b with
  | .ok blk => (some ((spanFrames r.span).filterMap fun v => (blk.map (v * 2 ^ 21)).map (· / 2 ^ 21)), s1)
  | .error _ => (none, s1)

/-- Sends the PROMOTE hints of a record (R324). -/
def State.carHint (s : State) (pd : PD) (p : Nat × Nat) (r : LayerRec) : State :=
  let s1 := s.modCar pd fun c => { c with hinted := p :: c.hinted }
  match s1.hintFrames pd r with
  | (none, s2) => s2.bump (carPage pd) Reg.CAR_HINT_DROP_COUNT
  | (some fs, s2) =>
    fs.foldl (fun t f =>
      (t.hinted f fun u => u.hintPromote f r.ld (s.releaseStep p.1 r)).bump (carPage pd) Reg.CAR_HINTS_COUNT) s2

/-- Hints for the positions up to two beyond the last record begun, those not sent before. -/
def State.carHints (s : State) (pd : PD) (last : Nat × Nat) : State :=
  let ld := (s.ldOf pd).getD 0
  if !s.flag (carPage pd) Reg.CAR_CTRL_HINT_EN then s
  else
    let ahead := s.positions ld (last.1, last.2 + 1) 2
    let upto := ahead.getLast?.getD last
    let ps := (s.positions ld (s.car pd).first 66).filter fun p =>
      decide (p.1 < upto.1) || (p.1 == upto.1 && decide (p.2 ≤ upto.2))
    ps.foldl (fun t p =>
      match t.layer p.2 with
      | some r => if r.hint && !(t.car pd).hinted.contains p && t.altEligible pd p.1 r then t.carHint pd p r else t
      | none => t) s

/-- Every slab of a die with a value. -/
def State.setSlabs (s : State) (ld : Nat) (ks : List Nat) (v : SlabState) : State := ks.foldl (fun t k => t.setSlab ld k v) s

/-- The bytes of slabs are undefined (R326, R327): every byte becomes a free value. -/
def State.slabsUndefined (s : State) (ld : Nat) (ks : List Nat) : State :=
  ks.foldl (fun t k =>
    let a := saOf ld (k / 24) (k % 24 * 65536)
    { t with freeCtr := t.freeCtr + 1
             tierS := { t.tierS with mem := mputs tierSReset t.tierS.mem a ((List.range 65536).map (Config.freeByte t.freeCtr)) } }) s

/-- A staging fails (R327): counted, captured, recorded; its due step carries the error. -/
def State.carFail (s : State) (pd : PD) (o : CarOcc) (code : Nat) (reason : Nat := 0) : State :=
  let p := carPage pd
  let ld := (s.ldOf pd).getD 0
  let s1 := s.modCar pd fun c => c.setOcc { o with phase := .done, code := code, doneAt := s.clock.beats.toNat }
  let s2 := (((s1.bump p Reg.CAR_ERRORS_COUNT).blockErr p 2 0 o.rec_ code).report p 2 (o.rec_ + code * 2 ^ 24)).setInt p 2
  let s3 := s2.slabsUndefined ld o.slabs
  let s4 := if reason = 0 then s3 else s3.blockErr s3.leadPage 4 0 0 reason
  if o.job = s.sched.jstep.toNat then s4.stepFail 0x3FF 0 code else s4

/-- Every page of a source lies in a FROZEN_FRAMES range with STAGE_S = 1 (R317). -/
def State.sourceFrozen (s : State) (b : RegBlock) : Bool :=
  b.regions.all fun g => (List.range g.frames).all fun i =>
    (s.sched.image.map (·.frozen)).getD [] |>.any fun z =>
      z.stageS && decide (z.base ≤ g.sframe + i) && decide (g.sframe + i < z.base + z.frames)

def CarSt.inflight (c : CarSt) : List CarOcc := c.occs.filter (·.phase == .inflight)

/-- A record begins (R320, R322). -/
def State.carBegin (s : State) (pd : PD) (p : Nat × Nat) (r : LayerRec) : State :=
  let ld := r.ld
  let slabs := if r.kind = 2 then [] else r.slabs
  let x : Xfer := { geom := r.geom, ctx := s.carCtx pd, tag := p.2, spans := [r.span], pos := [0, 0, 0, 0] }
  let o : CarOcc := { job := p.1, rec_ := p.2, phase := .inflight, slabs := slabs, x := x, held := r.kind != 2 }
  let s1 := (s.setSlabs ld slabs .allocated).modCar pd fun c => { c with front := p.2 }
  if r.kind = 2 then
    let s2 := s1.modCar pd fun c => c.setOcc { o with phase := .done, doneAt := s.clock.beats.toNat }
    if s2.flag (carPage pd) Reg.CAR_CTRL_HINT_EN && !(s2.car pd).hinted.contains p then s2.carHint pd p r else s2
  else
    match s1.dtu pd .carousel (s.carCtx pd) p.2 [r.span] with
    | (none, s2) => s2.carFail pd o 0x13
    | (some b, s2) =>
      if r.kind = 1 && !s2.sourceFrozen b then s2.carFail pd { o with x := { x with blk := some b } } 0x30 8
      else s2.modCar pd fun c => c.setOcc { o with x := { x with blk := some b } }

/-- Whether a record at a position begins, is passed over, or holds back the rest (R321). -/
inductive BeginAns where
  | begins (r : LayerRec)
  | passed
  | holds

def State.canBegin (s : State) (pd : PD) (p : Nat × Nat) : BeginAns :=
  match s.layer p.2 with
  | none => .holds
  | some r =>
    if ((s.car pd).occ p).isSome then .passed
    else if !s.altEligible pd p.1 r then .passed
    else if s.earlyPassed pd p.1 r && (r.kind == 2 || r.slabs.all fun k => s.slab r.ld k == .free) &&
        decide ((s.car pd).inflight.length < 8) then .begins r
    else .holds

/-- The first position that begins, behind those passed over. -/
def State.firstBegin (s : State) (pd : PD) : List (Nat × Nat) → Option ((Nat × Nat) × LayerRec)
  | [] => none
  | p :: ps =>
    match s.canBegin pd p with
    | .begins r => some (p, r)
    | .passed => s.firstBegin pd ps
    | .holds => none

/-- A job's Carousel works: armed or in a step, not held (R321 item 5, R328). -/
def State.carGoes (s : State) : Bool := s.schedRuns || s.sched.state == .armed

/-- The next record that may begin does so (R321). -/
def State.carStep (s : State) (pd : PD) : State :=
  let ld := (s.ldOf pd).getD 0
  let s1 := s.carAdvance pd
  if !s1.carGoes || s1.frozen || !s1.takesWork (carPage pd) then s1
  else
    match s1.firstBegin pd (s1.positions ld (s1.car pd).first 64) with
    | some (p, r) => (s1.carBegin pd p r).carHints pd p
    | none => s1

/-! Pieces and posts (R322, R323). -/

/-- Piece number of mover i's next piece of a record: pieces are dealt in turn from mover 0. -/
def Xfer.dealtPiece (x : Xfer) (i : Nat) : Nat := i + 4 * x.pos.getD i 0

/-- Mover i performs its next piece of the k-th record in flight. -/
def State.carPiece (s : State) (pd : PD) (i k : Nat) (e : PieceErr) : State :=
  match (s.car pd).inflight[k]? with
  | none => s
  | some o =>
    let n := o.x.dealtPiece i
    if o.x.geom.pieces ≤ n then s
    else
      match s.xferBlk pd .carousel o.x with
      | (none, s1) => s1.carFail pd o 0x13
      | (some b, s1) =>
        let wrote := s1.tierS.wrote
        let (code, moved, s2) := s1.movePiece o.x.geom b 2 n e
        let s3 := { s2 with tierS := { s2.tierS with wrote := wrote } }.moved pd i moved
        let x := { o.x with blk := some b, pos := o.x.pos.set i (o.x.pos.getD i 0 + 1) }
        if code ≠ 0 then s3.carFail pd { o with x := x } code
        else if x.pos.foldl (· + ·) 0 < o.x.geom.pieces then s3.modCar pd fun c => c.setOcc { o with x := x }
        else
          let s4 := s3.modCar pd fun c => c.setOcc { o with x := x, phase := .done, doneAt := s.clock.beats.toNat }
          if (s.layer o.rec_).any (·.kind == 1) then s4.setSlabs ((s.ldOf pd).getD 0) o.slabs .imageRo else s4

/-- The beat-in-step of an occurrence's post (R323). -/
def State.carPostBeat (s : State) (o : CarOcc) (due : Nat) : Nat :=
  max due (o.doneAt + 1 + s.sched.beat - s.clock.beats.toNat)

/-- The posts of the running step that are due are made (R323). -/
def State.carPost (s : State) (pd : PD) (o : CarOcc) (r : LayerRec) : State :=
  let y := s.carPostBeat o r.due
  let p := carPage pd
  let s1 := s.modCar pd fun c => c.setOcc { o with phase := .posted }
  let s2 := if r.postClass = 0 then s1
    else
      let key := if r.postClass = 1 then privKey pd (s.mcOf pd (r.postLc % 16)) r.postIndex else poolKey pd r.postIndex
      (s1.bump p Reg.CAR_STAGED_COUNT).tsAt
        { key := key, y := s.clock.beats.toNat + y - s.sched.beat, sub := false, ring := false, who := whoCarousel r.ld, k := r.postValue,
          sbeat := r.due, lc := 0x3FF, src := 1 }
  let s3 := if r.due < y then
      ((s2.deviate p 1 .late 4 (y - r.due) 0 (if r.postClass = 1 then r.postLc else 0x3FF)).bump p Reg.CAR_LATE_COUNT).setInt p 1
    else s2
  s3.carAdvance pd

def State.carPosts (s : State) (pd : PD) : State :=
  let now := s.sched.jstep.toNat
  ((s.car pd).occs.filter fun o => o.phase == .done && o.job == now).foldl (fun t o =>
    match t.layer o.rec_ with
    | some r => if t.schedRuns && decide (t.carPostBeat o r.due ≤ t.sched.beat) then t.carPost pd o r else t
    | none => t) s

/-! Cancellation (R326). -/

/-- A record of a rejected alternative is cancelled. -/
def State.carCancel (s : State) (pd : PD) (job n : Nat) : State :=
  let ld := (s.ldOf pd).getD 0
  let p := carPage pd
  match (s.car pd).occ (job, n) with
  | none => (s.modCar pd fun c => c.setOcc { job := job, rec_ := n, phase := .cancelled }).bump p Reg.CAR_CANCELLED_COUNT
  | some o =>
    if o.phase = .posted ∨ o.phase = .cancelled then s
    else
      (((s.slabsUndefined ld o.slabs).setSlabs ld o.slabs .free).modCar pd fun c =>
        c.setOcc { o with phase := .cancelled, slabs := [], held := false }).bump p Reg.CAR_CANCELLED_COUNT

/-- Records of a site in a job step. -/
def State.siteRecs (s : State) (pd : PD) (job site : Nat) : List (Nat × LayerRec) :=
  match s.sched.image with
  | some img => (recsOfStep img ((s.ldOf pd).getD 0) job).filterMap fun n =>
      (s.layer n).bind fun r => if r.alt ∧ r.altSite = site then some (n, r) else none
  | none => []

/-- The Turnstile of a site's selector (R325). -/
def State.selTs (s : State) (pd : PD) (a : AltRec) : Nat :=
  if a.selClass = 0 then privKey pd (s.mcOf pd (a.lc % 16)) a.selIndex else poolKey pd a.selIndex

/-- The selector of a site in the running step: the first add with k in 1 to N, as (beat, alternative). -/
def State.selector (s : State) (pd : PD) (a : AltRec) : Option (Nat × Nat) :=
  let c := s.tsCell (s.selTs pd a)
  if c.step ≠ s.sched.step.toNat then none
  else (c.adds.reverse.find? fun x => decide (1 ≤ x.2) && decide (x.2 ≤ a.n)).map fun x => (x.1, x.2 - 1)

/-- Carousel acts on a site's selector, from the beat after the add on (R325, R326, R328 item 3). -/
def State.carSelect (s : State) (pd : PD) (site : Nat) : State :=
  let job := s.sched.jstep.toNat
  match s.altRecord site with
  | none => s
  | some a =>
    match s.selector pd a with
    | none => s
    | some (b, k) =>
      if s.clock.beats.toNat ≤ b ∨ !s.inStep ∨ (s.pdOfLd (a.lc / 16) ≠ some pd) then s
      else
        let act (t : State) : State :=
          let t1 := t.modCar pd fun c => { c with
            sites := { job := job, site := site, alt := k } :: c.sites.filter fun q => !(q.job == job && q.site == site) }
          let t2 := (s.siteRecs pd job site).foldl (fun u x =>
            if x.2.altK = k then
              u.modCar pd fun c => { c with occs := c.occs.filter fun o => !(o.phase == .cancelled && o.job == job && o.rec_ == x.1) }
            else u.carCancel pd job x.1) t1
          let back := ((s.siteRecs pd job site).filter fun x => x.2.altK = k).head?.map (·.1)
          match back with
          | some n => t2.modCar pd fun c => { c with
              first := if c.first.1 < job ∨ (c.first.1 = job ∧ c.first.2 ≤ n) then c.first else (job, n) }
          | none => t2
        match (s.car pd).site job site with
        | none => act s
        | some q =>
          if !q.rerun then s
          else if q.alt = k then s.modCar pd fun c => { c with sites := c.sites.map fun z => if z = q then { z with rerun := false } else z }
          else act (s.report (carPage pd) 3 (site + q.alt * 2 ^ 16 + k * 2 ^ 20))

/-! Boundaries (R320, R326, R328, R334). -/

/-- All full dies that the image uses. -/
def State.usedDies (s : State) : List PD := s.fullDies.take ((s.sched.image.map (·.ldiesReq)).getD 0)

/-- The DEMOTE hints of a record at its release (R324). -/
def State.carDemote (s : State) (pd : PD) (r : LayerRec) : State :=
  if r.demote && s.flag (carPage pd) Reg.CAR_CTRL_HINT_EN then
    match s.hintFrames pd r with
    | (none, s1) => s1.bump (carPage pd) Reg.CAR_HINT_DROP_COUNT
    | (some fs, s1) => fs.foldl (fun t f => (t.hinted f fun u => u.hintDemote f).bump (carPage pd) Reg.CAR_HINTS_COUNT) s1
  else s

/-- A die's Carousel at C of a committed job step: sites without a selector are cancelled, slabs released. -/
def State.carCommit (s : State) (pd : PD) (job : Nat) : State :=
  let ld := (s.ldOf pd).getD 0
  let sites := (List.range ((s.sched.image.map (·.alts.length)).getD 0)).filter fun n => ((s.car pd).site job n).isNone
  let s1 := sites.foldl (fun t n => (t.siteRecs pd job n).foldl (fun u x => u.carCancel pd job x.1) t) s
  let due := (s1.car pd).occs.filter fun o => o.held && (s1.layer o.rec_).any fun r => r.relSteps != 0xFFFF && o.job + r.relSteps == job
  let s2 := due.foldl (fun t o =>
    let t1 := (t.setSlabs ld o.slabs .free).modCar pd fun c => c.setOcc { o with held := false, slabs := [] }
    match s1.layer o.rec_ with
    | some r => t1.carDemote pd r
    | none => t1) s1
  s2.modCar pd fun c => { c with sites := c.sites.filter fun q => decide (job < q.job) }

/-- A die's Carousel when the job reaches ENDED: every pool slab FREE, nothing in flight (R279, R334). -/
def State.carEnd (s : State) (pd : PD) : State :=
  let ld := (s.ldOf pd).getD 0
  let s1 := ((s.car pd).occs.filter (·.held)).foldl (fun t o =>
    match s.layer o.rec_ with
    | some r => t.carDemote pd r
    | none => t) s
  let pool := (List.range 1536).filter fun k => s.slab ld k != .static
  (s1.setSlabs ld pool .free).setCar pd {}

/-- A die's Carousel before beat 0 of a step that runs again (R328): posts of the step are made again, slabs that others
wrote are filled again, site resolutions are kept. -/
def State.carReplay (s : State) (pd : PD) : State :=
  let job := s.sched.jstep.toNat
  let ld := (s.ldOf pd).getD 0
  let s1 := s.modCar pd fun c =>
    let d := c.modOccs (fun o => o.job == job && o.phase == .posted) fun o => { o with phase := .done }
    { d with sites := d.sites.map fun q => if q.job = job then { q with rerun := true } else q
             first := ((s.positions ld (job, 0) 1).head?).getD d.first }
  let dirty (o : CarOcc) : Bool := o.slabs.any fun k => mget (fun _ => false) s.tierS.wrote (slabKey ld k)
  ((s1.car pd).occs.filter fun o => o.job == job && o.phase == .done && o.code == 0 && dirty o).foldl (fun t o =>
    ((t.setSlabs ld o.slabs .allocated).modCar pd fun c =>
      c.setOcc { o with phase := .inflight, refill := true, x := { o.x with pos := [0, 0, 0, 0] } }).bump (carPage pd) Reg.CAR_REFILLS_COUNT) s1

/-- Failures of stagings due in the step that opens (R327). -/
def State.carOpen (s : State) (pd : PD) : State :=
  match ((s.car pd).occs.find? fun o => o.job == s.sched.jstep.toNat && o.code != 0) with
  | some o => s.stepFail 0x3FF 0 o.code
  | none => s

/-- CAROUSEL_BEGIN: the next record of a die that may begin does so. -/
def execCarouselBegin (pd : PD) (s : State) : Host.Outcome State Fault Refusal :=
  if s.fenced (carPage pd) then .next s else
  .next (s.carStep pd)

/-- CAROUSEL_POST: the posts of a die that are due are made. -/
def execCarouselPost (pd : PD) (s : State) : Host.Outcome State Fault Refusal :=
  if s.fenced (carPage pd) then .next s else
  .next (s.carPosts pd)

/-- CAROUSEL_SELECTOR: Carousel looks for the selector of a site. -/
def execCarouselSelector (pd : PD) (site : Half) (s : State) : Host.Outcome State Fault Refusal :=
  if s.fenced (carPage pd) then .next s else
  .next (s.carSelect pd site.toNat)

end Sys2Proof.Machine
end

