-- ==== Sys2Proof/Machine/RingBase.lean ====
section
/-!
DEFINITION. Rings: accepted descriptors, completion records and their posting (spec/16_command_rings.md R415 to R420,
R434 to R437).
-/
namespace Sys2Proof.Machine

def ringOf (r : Nat) : RingId := ⟨r % 64, Nat.mod_lt _ (by decide)⟩
def ringPage (r : Nat) : Page := cmdqPage (ringOf r)

def State.ring (s : State) (r : Nat) : RingSt := mget (fun _ => {}) s.jobs.rings r

def State.setRing (s : State) (r : Nat) (v : RingSt) : State :=
  { s with jobs := { s.jobs with rings := mput (fun _ => {}) s.jobs.rings r v } }

/-- CMDQ_STAT.STATE (R417). -/
def State.ringState (s : State) (r : Nat) : Nat := s.fld (ringPage r) Reg.CMDQ_STAT_STATE

def State.ringCtx (s : State) (r : Nat) : Nat := s.fld (ringPage r) Reg.CMDQ_CTXID_CTXID

/-! Fields of a slot (R418). -/

def Req.field (q : Req) (off n : Nat) : Nat := bitsOf q.slot (8 * off) (8 * n)
def Req.kind (q : Req) : Nat := q.field 1 1
def Req.order (q : Req) : Bool := bitOf q.slot 16
def Req.irq (q : Req) : Bool := bitOf q.slot 17
def Req.len (q : Req) : Nat := q.field 3 1
def Req.user (q : Req) : Nat := q.field 8 8

def Req.isEnded (q : Req) : Bool :=
  match q.st with
  | .ended _ _ => true
  | _ => false

def Req.isRunning (q : Req) : Bool := q.st == .running

/-- a precedes b in sequence order (R420). -/
def seqBefore (a b : Nat) : Bool :=
  let d := (b + 2 ^ 32 - a % 2 ^ 32) % 2 ^ 32
  d != 0 && decide (d < 2 ^ 31)

/-- Barker serves the rings: firmware RUNNING, no emergency stop (R575, R598, R601). -/
def State.barkerUp (s : State) : Bool := s.fw.state == 2 && s.power.stop == 0

/-! Records (R434 to R436). -/

/-- Records posted and not consumed. -/
def State.unconsumed (s : State) (r : Nat) : Nat :=
  let m := 2 ^ (s.fld (ringPage r) Reg.CMDQ_SIZE_CQ_SIZE + 1)
  ((s.ring r).posted + m - s.fld (ringPage r) Reg.CMDQ_CQ_HEAD_COUNT % m) % m

def State.reserved (s : State) (r : Nat) : Nat := (s.ring r).reqs.foldl (fun n q => n + q.resv) 0

/-- The CQ has room for n more records beyond those reserved. -/
def State.cqRoom (s : State) (r n : Nat) : Bool :=
  decide (s.unconsumed r + s.reserved r + n ≤ 2 ^ s.fld (ringPage r) Reg.CMDQ_SIZE_CQ_SIZE)

/-- CPL is set: nothing is left unsignalled (R437). -/
def State.setCpl (s : State) (r : Nat) : State :=
  (s.setRing r { s.ring r with unsig := 0, unsigAt := none }).setInt (ringPage r) 1

/-- Bytes padded with zeros to n. -/
def padTo (n : Nat) (bs : List Byte) : List Byte := bs.take n ++ List.replicate (n - bs.length) 0

/-- Writes a completion record: USER and DETAIL first, then WORD0 (R434). type: 0 FINAL, 1 PROGRESS, 2 TRAP. -/
def State.postRec (s : State) (r : Nat) (q : Req) (type status : Nat) (detail : List Byte) : State :=
  if !s.barkerUp then s
  else
  let p := ringPage r
  let n := 2 ^ s.fld p Reg.CMDQ_SIZE_CQ_SIZE
  let g := s.ring r
  let a := s.reg64 p 0x110 % 2 ^ 52 + 64 * (g.posted % n)
  let phase := 1 - g.posted / n % 2
  let w0 := phase + type * 2 + status * 2 ^ 8 + q.kind * 2 ^ 16 + r * 2 ^ 24 + q.seq * 2 ^ 32
  let (_, s1) := s.memWrite 0 (a + 8) (leBytes q.user 8 ++ padTo 48 detail)
  let (_, s2) := s1.memWrite 0 a (leBytes w0 8)
  let g2 := s2.ring r
  let posted := g2.posted + 1
  let s3 := s2.setRing r { g2 with posted := posted, unsig := g2.unsig + 1, unsigAt := some (g2.unsigAt.getD s.clock.time.toNat) }
  let s4 := (s3.setFld p Reg.CMDQ_CQ_TAIL_SLOT (posted % n)).setFld p Reg.CMDQ_STAT_CQ_PHASE (1 - posted / n % 2)
  if (type = 0 ∧ q.irq) ∨ s.fld p Reg.CMDQ_IRQ_COAL_COUNT ≤ g2.unsig + 1 then s4.setCpl r else s4

def State.showOutstanding (s : State) (r : Nat) : State :=
  s.setFld (ringPage r) Reg.CMDQ_OUTSTANDING_COUNT (s.ring r).reqs.length

/-- Changes the request of a SEQ. -/
def State.modReq (s : State) (r seq : Nat) (f : Req → Req) : State :=
  let g := s.ring r
  s.setRing r { g with reqs := g.reqs.map fun q => if q.seq = seq then f q else q }

def State.findReq (s : State) (r seq : Nat) : Option Req := (s.ring r).reqs.find? (·.seq == seq)

/-- Posts the FINAL of a request that ended; the request is gone. -/
def State.postFinal (s : State) (r : Nat) (q : Req) : State :=
  match q.st with
  | .ended code detail =>
    if !s.barkerUp then s
    else
    let s1 := s.postRec r q 0 code detail
    let g := s1.ring r
    (s1.setRing r { g with reqs := g.reqs.filter (·.seq != q.seq) }).showOutstanding r
  | _ => s

/-- Completions wait for the commit of the step (R437). -/
def State.heldCompletions (s : State) : Bool :=
  s.sched.state == .running || s.sched.state == .commit || s.sched.state == .held || s.sched.state == .replay

/-- A request ends: its completion is posted now, or at the commit (R437). -/
def State.endReq (s : State) (r seq code : Nat) (detail : List Byte := []) : State :=
  let s1 := s.modReq r seq fun q => { q with st := .ended code detail }
  if s.heldCompletions then s1
  else
    match s1.findReq r seq with
    | some q => s1.postFinal r q
    | none => s1

/-- Posts every request of a ring that has ended, in sequence order. -/
def State.postRing (s : State) (r : Nat) : State :=
  (s.ring r).reqs.foldl (fun t q => t.postFinal r q) s

/-- Posts every request that has ended, ring by ring (R231, R437). -/
def State.postAll (s : State) : State := (List.range 64).foldl (fun t r => t.postRing r) s

/-- A ring error with a reason of R442. -/
def State.ringErr (s : State) (r seq reason : Nat) : State := s.blockErr (ringPage r) 0 0 seq reason

/-- Requests of every ring that p accepts, as ring and request. -/
def State.reqsWhere (s : State) (p : Req → Bool) : List (Nat × Req) :=
  (List.range 64).flatMap fun r => ((s.ring r).reqs.filter p).map fun q => (r, q)

/-! The current job's request (R427). -/

def Job.detail (j : Job) (s : State) (reason : Nat) : List Byte :=
  leBytes s.sched.jstep.toNat 8 ++ leBytes s.sched.step.toNat 8 ++ leBytes (min j.dev 0xFFFFFFFF) 4 ++ leBytes reason 4

/-- A PROGRESS record, posted only where a record beyond the reservations is free (R436). -/
def State.postProgress (s : State) (j : Job) (code : Nat) : State :=
  match s.findReq j.ring j.seq with
  | some q =>
    if s.cqRoom j.ring 1 then s.postRec j.ring q 1 code (j.detail s 0)
    else s.bump (ringPage j.ring) Reg.CMDQ_PROGRESS_DROP_COUNT
  | none => s

/-- The commit's completions in ascending ring number and sequence order; the job's PROGRESS stands at its SEQ. -/
def State.postCommit (s : State) (progress : Option (Job × Nat)) : State :=
  (List.range 64).foldl (fun t r =>
    (t.ring r).reqs.foldl (fun u q =>
      match progress with
      | some (j, code) => (if j.ring = r ∧ j.seq = q.seq then u.postProgress j code else u).postFinal r q
      | none => u.postFinal r q) t) s

end Sys2Proof.Machine
end

