-- ==== Sys2Proof/Machine/CkptOps.lean ====
section
/-!
DEFINITION. The step checkpoint: captures, the flip at a commit, the Turnstile snapshot and the restore
(spec/20_fault_containment.md R530 to R534).
-/
namespace Sys2Proof.Machine

def State.setSched (s : State) (f : Sched → Sched) : State := { s with sched := f s.sched }

/-- The tile programs of the image with the cores that carry them (R217). -/
def State.progCores (s : State) : List (TileProg × PD × MC) :=
  ((s.sched.image.map (·.progs)).getD []).filterMap fun t => (s.coreOfLc t.lc).map fun c => (t, c.1, c.2)

/-- The core carries a logical core with a tile program. -/
def State.hasProg (s : State) (pd : PD) (mc : MC) : Bool := s.progCores.any fun t => t.2.1 == pd && t.2.2 == mc

/-- Changes every core that has a tile program. -/
def State.eachCore (s : State) (f : State → PD → MC → State) : State := s.progCores.foldl (fun t p => f t p.2.1 p.2.2) s

def State.ckpt (s : State) (lc : Nat) : CkptPair := mget (fun _ => {}) s.ckpts lc

def State.setCkpt (s : State) (lc : Nat) (k : CkptPair) : State := { s with ckpts := mput (fun _ => {}) s.ckpts lc k }

def CkptPair.slot (k : CkptPair) (b : Bool) : Ckpt := if b then k.s1 else k.s0

def CkptPair.setSlot (k : CkptPair) (b : Bool) (c : Ckpt) : CkptPair := if b then { k with s1 := c } else { k with s0 := c }

/-- What a capture of a core holds. -/
def State.coreCkpt (s : State) (pd : PD) (mc : MC) : Ckpt :=
  let c := s.core pd mc
  { valid := true, st := c.status, x := c.x, nf := c.nf }

/-- The core meets item 1 of R140: its queues are empty and its writes performed. -/
def State.stepMet (s : State) (pd : PD) (mc : MC) : Bool :=
  let c := s.core pd mc
  c.queuesEmpty && decide (c.hist.tsDone < s.sched.beat) && (s.tc pd mc).mb.isEmpty

/-- A core's capture begins (R531): its STEP conditions are met and its streams' checker decisions are past. -/
def State.captureBegin (s : State) (pd : PD) (mc : MC) : State :=
  let lc := s.lcNo pd mc
  let k := s.ckpt lc
  let c := s.core pd mc
  if s.schedRuns && s.hasProg pd mc && !k.capturing && !k.captured && (c.status == .waitStep || (c.status == .halted && !k.halted)) &&
      s.stepMet pd mc && decide (c.hist.chkDone < s.sched.beat) then
    s.setCkpt lc { k with capturing := true, capAt := s.sched.beat }
  else s

/-- A capture of 594 beats completes (R531): in the standby slot, or in both for a core in HALTED. -/
def State.captureDone (s : State) (pd : PD) (mc : MC) : State :=
  let lc := s.lcNo pd mc
  let k := s.ckpt lc
  if k.capturing && decide (k.capAt + 594 ≤ s.sched.beat) then
    let halted := (s.core pd mc).status == .halted
    let slot := s.coreCkpt pd mc
    let k1 := k.setSlot (!k.cur) slot
    let k2 := if halted then k1.setSlot k.cur slot else k1
    (s.setCkpt lc { k2 with capturing := false, captured := true, halted := halted }).setSched fun c =>
      { c with captureEnd := max c.captureEnd (k.capAt + 594) }
  else s

/-- No capture that the gather report waits for is outstanding (R531). -/
def State.capturesDone (s : State) : Bool :=
  s.progCores.all fun t =>
    let k := s.ckpt (s.lcNo t.2.1 t.2.2)
    let st := (s.core t.2.1 t.2.2).status
    !k.capturing && (k.captured || !(st == .waitStep || (st == .halted && !k.halted)))

/-- Every ARMED core is captured into both slots before the first step (R532). -/
def State.captureArmed (s : State) : State :=
  s.eachCore fun t pd mc =>
    let slot := t.coreCkpt pd mc
    if (t.core pd mc).status = .armed then t.setCkpt (t.lcNo pd mc) { s0 := slot, s1 := slot } else t

/-- At a commit the standby slots captured in the step become current (R532). -/
def State.flipSlots (s : State) : State :=
  { s with ckpts := s.ckpts.map fun (k, p) => (k, if p.captured then { p with cur := !p.cur, captured := false } else p) }

/-- The captures of a step that is abandoned are void. -/
def State.dropCaptures (s : State) : State :=
  { s with ckpts := s.ckpts.map fun (k, p) => (k, { p with capturing := false, captured := false }) }

/-- The snapshot of every Turnstile at beat 0 (R533). -/
def State.snapTurnstiles (s : State) : State :=
  { s with ts := { s.ts with snap := s.ts.cells.map fun (k, c) => (k, { v := c.v, sticky := c.sticky, base := c.v }) } }

/-- Every Turnstile back at the snapshot, tags 0; nothing is on its way (R263, R533). -/
def State.restoreTurnstiles (s : State) : State :=
  { s with ts := { s.ts with cells := s.ts.snap, ops := [], remote := [], waits := [] } }

/-- Numeric flags as a replay restores them (R534). -/
def NumFlags.replayed (n : NumFlags) : NumFlags :=
  { stickyNan := n.stickyNan, stickyInf := n.stickyInf, flagged := n.flagged, firstRec := n.firstRec }

/-- A core back at its current slot (R534): its program is kept, its queues and its operand cache are empty. -/
def State.restoreCore (s : State) (pd : PD) (mc : MC) : State :=
  let c := s.core pd mc
  let k := s.ckpt (s.lcNo pd mc)
  let slot := k.slot k.cur
  if !slot.valid then s
  else
    (s.setCore pd mc { prog := c.prog, progLen := c.progLen, seq := c.seq, status := slot.st, x := slot.x, nf := slot.nf.replayed }).tcEmpty
      pd mc

/-- MVR slots of a die's movers are emptied (R534). -/
def State.emptyMvr (s : State) : State :=
  { s with mv := { s.mv with movers := s.mv.movers.map fun (k, m) => (k, { m with mvr := [] }) } }

/-- The step's start state is restored for a replay or a rerun (R534, R540). -/
def State.restoreStep (s : State) : State :=
  let s1 := ((s.dropCaptures.restoreTurnstiles).eachCore fun t pd mc => t.restoreCore pd mc).emptyMvr
  s1.usedDies.foldl (fun t pd => t.carReplay pd) s1

/-- CHECKPOINT_CAPTURE: a core's capture begins. -/
def execCheckpointCapture (pd : PD) (mc : MC) (s : State) : Host.Outcome State Fault Refusal := .next (s.captureBegin pd mc)

/-- CHECKPOINT_CAPTURE_DONE: a core's capture completes. -/
def execCheckpointCaptureDone (pd : PD) (mc : MC) (s : State) : Host.Outcome State Fault Refusal := .next (s.captureDone pd mc)

end Sys2Proof.Machine
end

