-- ==== Sys2Proof/Machine/SchedOps.lean ====
section
/-!
DEFINITION. Jobs' ends, the loading and starting of an image, gather reports and releases, the step boundary
(spec/07_numeric_exceptions.md R195 to R198, spec/08_static_schedule.md R227 to R248, spec/16_command_rings.md R427,
R437, spec/19_jallyn_links.md R505, R508, R515).
-/
namespace Sys2Proof.Machine

/-! The end of a job (R232, R427, R542). -/

/-- The trap summary (R198). -/
def State.trapSummary (s : State) : List Byte :=
  let dev := ((s.sched.release.bind (·.trap)).map (·.device)).getD 0
  leBytes (s.sched.trapRec.getD 0) 32 ++ leBytes dev 2 ++ leBytes ((s.sched.own.map (·.traps)).getD 0) 2 ++
    leBytes ((s.sched.release.map (·.traps)).getD 0) 2

/-- A request's end is noted, its record posted later. -/
def State.noteEnd (s : State) (r seq code : Nat) (detail : List Byte := []) : State :=
  s.modReq r seq fun q => { q with st := .ended code detail }

/-- SET_FROZEN or CLR_FROZEN over the frozen ranges of an image (R226, R308, R309). -/
def State.freezeImage (s : State) (img : Image) (on : Bool) : State :=
  img.frozen.foldl (fun t z => (t.placeRun (if on then 3 else 4) 0 0 (z.base * 2 ^ 21) z.frames).2.2) s

/-- The frozen ranges of a job that was loaded are cleared once it has ENDED (R308). -/
def State.thaw (s : State) (was : SchedState) : State :=
  match s.sched.image with
  | some img => if was = .idle ∨ was = .ended then s else s.freezeImage img false
  | none => s

/-- The job ends with a code: its request, its unreached TSOPs and the JOB_CTL that waits for it end; the device is
ENDED (R232, R428, R431). -/
def State.closeJob (s : State) (code reason : Nat) : State :=
  let s1 := s.usedDies.foldl (fun t pd => t.carEnd pd) s
  let s2 := (s1.setSched fun c => { c with
    state := .ended, stepErr := none, inputCur := [], inputNext := [], startOwn := none, startKids := [], startAt := none, openAt := none
    recoveryOwn := none, recoveryKids := [], children := [], wrote := [] }).releaseSweep.thaw s.sched.state
  let s3 := match s2.jobs.cur with
    | some j => s2.noteEnd j.ring j.seq code (if code = 0x20 then s2.trapSummary else j.detail s2 reason)
    | none => s2
  let s4 := (s3.reqsWhere fun q => q.kind == 6 && !q.isEnded).foldl (fun t x => t.noteEnd x.1 x.2.seq 0x30) s3
  let s5 := (s4.reqsWhere fun q => q.kind == 2 && q.isRunning).foldl (fun t x => t.noteEnd x.1 x.2.seq 0) s4
  (({ s5 with jobs := { s5.jobs with cur := none, rerun := none } }).setInt s5.leadPage 3).planDone

/-- The job ends and every record is posted. -/
def State.endJob (s : State) (code reason : Nat) : State := (s.closeJob code reason).postAll

/-! Loading (R227). -/

def State.jobCtx (s : State) : Nat := (s.jobs.cur.map (·.ctx)).getD 0

def State.loadCtx (s : State) : LoadCtx :=
  { formed := s.fld jp0 Reg.JP_FORM_STATE == 2, px := s.extent 0, py := s.extent 1, pz := s.extent 2, device := s.deviceNo
    diameter := s.diameter, ldies := s.fullDies.length, memTop := s.place.frames * 2 ^ 21
    partners := (List.range 8).map fun n =>
      if s.flag (jpPage n) Reg.JP_PARTNER_VALID then (s.fld (jpPage n) Reg.JP_PARTNER_DEVICE, s.fld (jpPage n) Reg.JP_PARTNER_PORT)
      else (0x10000, 8)
    pds := s.fullDies.map (·.val) }

def State.imgAddr (s : State) : Nat := s.reg64 s.leadPage 0x108 % 2 ^ 52

/-- A load fails: the state is ENDED, the cause is captured, the job's request ends (R227, R250). -/
def State.loadFail (s : State) (code reason off : Nat) : State :=
  let s1 := if reason = 0 then s else (s.blockErr s.leadPage 4 0 off reason).report s.leadPage 4 reason
  (s1.setInt s.leadPage 5).endJob code reason

/-- A load succeeds (R250). -/
def State.loadDone (s : State) (img : Image) : State :=
  let s1 := s.setSched fun c => { c with
    state := .loaded, image := some img, jstep := 0, len := 0, cwin := img.cwin, beat := 0, stepErr := none, own := none, children := []
    release := none, committed := false, trapRec := none, attempt := 1, isReplay := false, noContinue := none, cats := 0, deviated := false }
  let s2 := s1.fullDies.foldl (fun t pd => t.setFlag (diePage .sched pd) Reg.SCHED_STAT_DEBUG_TOUCHED false) s1
  s2.setInt s2.leadPage 5

/-- A tile program names a logical core that is lost (R543). -/
def State.namesLost (s : State) (img : Image) : Bool :=
  img.progs.any fun t => match s.coreOfLc t.lc with
    | some c => s.fld (mcorePage c.1 c.2) Reg.MCORE_FLT_STAT_OUTCOME == 4
    | none => false

/-- LOAD: the image is read and checked (R227); err: a tier failed a read. -/
def State.schedLoad (s : State) (err : TierFail) : State :=
  if !(s.sched.state == .idle || s.sched.state == .loaded || s.sched.state == .ended) then s
  else
    let a := s.imgAddr
    let ctx := s.jobCtx
    let (c0, hdr, s1) := s.memRead ctx a 0x100
    if c0 ≠ 0 then s1.loadFail c0 0 0
    else
      match headerCheck hdr with
      | some (r, o) => s1.loadFail 0x30 r o
      | none =>
        let (c1, bs, s2) := s1.memRead ctx a (imgNat hdr 8 8)
        let code := cmdCodeOf c1 err
        if code ≠ 0 then s2.loadFail code 0 0
        else
          match bodyCheck s2.loadCtx bs with
          | some (r, o) => s2.loadFail 0x30 r o
          | none =>
            let img := parseImage a bs
            if s2.namesLost img then s2.loadFail 0x40 0 0 else s2.loadDone img

/-- A job in progress on the device (R426). -/
def State.jobActive (s : State) : Bool :=
  !(s.sched.state == .idle || s.sched.state == .ended)

/-! After the load (R228, R279, R226). -/

/-- CLEAR, LOAD_PROGRAM and START of one core: the code of its program's read. -/
def State.loadCore (s : State) (img : Image) (t : TileProg) (pd : PD) (mc : MC) : Nat × State :=
  let p := mcorePage pd mc
  let st := (s.core pd mc).status
  let s1 := if st == .idle || st == .halted || st.stopped then s else s.enterStopped pd mc .stoppedReq
  let s2 := ((s1.setCore pd mc (s1.core pd mc).cleared).setPriv pd mc fun _ => (0, false)).tcEmpty pd mc
  let a := img.addr + t.code
  let s3 := ((s2.setReg64 p 0x110 a).setFld p Reg.MCORE_PROG_LEN_LEN t.len).setFld p Reg.MCORE_ENTRY_PC t.entry
  let (code, s4) := (s3.modCore pd mc fun c => { c with cmdAddr := a, cmdLen := t.len }).loadProgram pd mc .none
  if code ≠ 0 then (code, s4)
  else
    (0, (s4.modCore pd mc fun c => { c with status := .armed, x := { c.x with pc := BitVec.ofNat 14 t.entry } }).cmdEnd pd mc 2 0 0)

/-- Initial values of the Turnstiles of the used dies (R222). -/
def State.initTurnstiles (s : State) (img : Image) : State :=
  let mine (k : Nat) : Bool := s.usedDies.contains (keyPd k)
  let s1 := { s with ts := { s.ts with
    cells := s.ts.cells.filter fun c => !mine c.1
    ops := s.ts.ops.filter fun o => !mine o.key
    remote := s.ts.remote.filter fun o => !mine o.key
    waits := s.ts.waits.filter fun w => !mine w.key } }
  img.tsInit.foldl (fun t r =>
    let key := if r.cls = 0 then (t.coreOfLc r.owner).map fun c => privKey c.1 c.2 r.index
      else (t.pdOfLd r.owner).map fun pd => poolKey pd r.index
    match key with
    | some k => t.setTsCell k { v := r.value, base := r.value }
    | none => t) s1

/-- A performed write of TSRAM_POOL_MASK (R279): pool slabs FREE, the others STATIC. -/
def State.poolMask (s : State) (pd : PD) (mask : Nat) : State :=
  let ld := (s.ldOf pd).getD 0
  let s1 := s.setReg64 (diePage .tsram pd) 0x108 mask
  (List.range 1536).foldl (fun t k => t.setSlab ld k (if bitOf mask (k / 24) then .free else .static)) s1

/-- The layer section is handed to the Carousels of the used dies. -/
def State.giveLayers (s : State) (img : Image) : State :=
  s.usedDies.zipIdx.foldl (fun t x =>
    let mask := (img.car.map fun c => c.pool.getD x.2 0).getD 0
    (t.poolMask x.1 mask).setCar x.1 {}) s

/-- ARM: the device joins the start exchange (R229); ports in low power begin to leave it (R499). -/
def State.schedArm (s : State) : State :=
  match s.sched.image with
  | some img =>
    if s.sched.state ≠ .loaded then s
    else
      let s1 := s.setSched fun c => { c with
        state := .armed, startOwn := some ⟨img.buildId, img.jobSteps, img.descCrc, img.hdrCrc, 1⟩, startAt := none }
      let s2 := s1.usedDies.foldl (fun t pd => t.modCar pd fun c => { c with armAt := t.clock.beats.toNat }) (s1.planCheck img)
      (List.range 8).foldl (fun t n => if t.portUsed n && t.jpState n == 7 then t.setJpState n 8 else t) s2
  | none => s

/-- What Barker does after a successful load (R228). -/
def State.afterLoad (s : State) : State :=
  match s.sched.image with
  | none => s
  | some img =>
    if s.sched.state ≠ .loaded then s
    else
      let (code, s1) := s.progCores.foldl (fun (acc : Nat × State) (p : TileProg × PD × MC) =>
        if acc.1 ≠ 0 then acc else acc.2.loadCore img p.1 p.2.1 p.2.2) (0, s)
      if code ≠ 0 then s1.endJob code 0
      else (((s1.initTurnstiles img).giveLayers img).freezeImage img true).schedArm

/-! The start exchange (R229, R508). -/

/-- A used port is on its way into or out of low power, or in it (R499). -/
def State.portsAsleep (s : State) : Bool := s.usedPorts.any fun n => s.jpState n == 6 || s.jpState n == 7 || s.jpState n == 8

/-- Once the device's own values and all its children's are there, they go on up the tree; the root decides. -/
def State.startTry (s : State) : State :=
  match s.sched.startOwn with
  | none => s
  | some own =>
    if s.portsAsleep || !(s.childPorts.all fun n => s.sched.startKids.any fun k => k.1 == n) then s
    else
      let same := s.sched.startKids.all fun k =>
        k.2.buildId == own.buildId && k.2.jobSteps == own.jobSteps && k.2.descCrc == own.descCrc
      let contrib := s.sched.startKids.foldl (fun n k => n + k.2.contrib) own.contrib
      let s1 := s.setSched fun c => { c with startOwn := none, startKids := [] }
      let step := s.sched.step.toNat
      if s.isRoot then
        if contrib ≠ s.devices then s
        else if same then
          let t0 := s.clock.time.toNat + 30 * s.diameter + 200
          (s1.sendDown step (.startRelease 0 (BitVec.ofNat 64 t0))).setSched fun c => { c with startAt := some t0 }
        else ((s1.sendDown step (.startRelease 5 0)).schedError 5 0 0 0x30).endJob 0x30 5
      else
        s1.sendUp step (.startGather
          { buildId := BitVec.ofNat 64 own.buildId, hdrCrc := BitVec.ofNat 32 own.hdrCrc
            jobSteps := if same then BitVec.ofNat 64 own.jobSteps else 0xFFFFFFFFFFFFFFFF
            descCrc := BitVec.ofNat 32 own.descCrc, contrib := BitVec.ofNat 16 contrib })

/-! Steps (R207, R210, R231, R236, R243). -/

/-- Input ranges of a descriptor. -/
def Image.inputsOf (i : Image) (d : StepDesc) : List FrameRange := (i.inputs.drop d.inFirst).take d.inCount

/-- The input set of a job step; none past the last. -/
def State.inputsAt (s : State) (j : Nat) : List FrameRange :=
  ((s.sched.image.bind fun i => (descOf i.descs i.seqs j).map i.inputsOf)).getD []

/-- A core at beat 0 of a step: those in ARMED and WAIT_STEP run, but for one whose HALT_REQ is set
(R140, R153, R155). -/
def State.openCore (s : State) (pd : PD) (mc : MC) : State :=
  let c := s.core pd mc
  let trap := s.flag (mcorePage pd mc) Reg.MCORE_CTRL_TRAP_NAN
  let d : CoreSt := { c with
    trapOn := [(0, trap)], nanRows := [], hist := {}, stall := 0, altRun := none, heldBy := none, heldRun := 0
    faultPend := c.faultPend.map fun f => { f with beat := 0 }
    x := { c.x with bank0 := { c.x.bank0 with fb := none, loadL := none }, bank1 := { c.x.bank1 with fb := none, loadL := none } } }
  if c.status = .armed ∨ c.status = .waitStep then
    let s1 := s.setCore pd mc { d with status := .running, nextD := 0, hold := .none }
    if s.flag (mcorePage pd mc) Reg.MCORE_CTRL_HALT_REQ then s1.enterStopped pd mc .stoppedReq else s1
  else s.setCore pd mc d

/-- The ring operations of the job step that opens (R255, R432): in ring and sequence order; they end, to be posted at the
commit. -/
def State.openTsops (s : State) : State :=
  (s.reqsWhere fun q => q.kind == 6 && q.isRunning && q.field 0x18 8 == s.sched.jstep.toNat).foldl (fun t x =>
    let q := x.2
    match t.pdOfLd (q.field 0x10 1) with
    | some pd =>
      (t.tsApply (poolKey pd (q.field 0x12 2)) (q.field 0x11 1 == 1) (q.field 0x14 4) 0 0x3FF 3).noteEnd x.1 q.seq 0
    | none => t.noteEnd x.1 q.seq 0x30) s

/-- The ports forget the transfers of the step before. -/
def State.openPorts (s : State) : State :=
  { s with jal := { s.jal with
      seen := [], ports := s.jal.ports.map fun (k, p) => (k, { p with
        tx := 0, txAt := 0, txFlits := 0, txEnd := 0, land := [], rxIn := 0, rxWr := 0, rxDone := [], rxEnd := 0, bad := false, silentStep := false }) } }

/-- A ratio agreed two commits before takes effect (R243, R244). -/
def State.openRatio (s : State) : State :=
  match s.sched.ratioDue with
  | none => s
  | some r =>
    let old := s.sched.ratioCur
    let s1 := s.setSched fun c => { c with ratioCur := r, ratioDue := none }
    if r = old then s1 else (s1.deviate s.leadPage 1 .throttle 1 0 0 0x3FF (r + old * 4)).setInt s.leadPage 4

/-- Beat 0 of a step. replay: the step runs again, or is the one a RESUME opens; attempt: its number; again: its start
state was restored, so that what it holds is not made anew. -/
def State.openStep (s : State) (attempt : Nat) (replay again : Bool) : State :=
  let len := ((s.sched.image.bind fun i => descOf i.descs i.seqs s.sched.jstep.toNat).map (·.len)).getD 0
  let s1 := s.setSched fun c => { c with
    state := if replay then .replay else .running, beat := 0, len := len, cats := 0, deviated := false, attempt := attempt, isReplay := replay
    stepErr := none, own := none, children := [], release := none, committed := false, trapRec := none
    inputCur := s.inputsAt c.jstep.toNat, inputNext := [], recoveryOwn := none, recoveryKids := [], holdCause := none
    captureEnd := 0, startAt := none, openAt := none, resumed := false }
  let s2 := s1.releaseSweep.openPorts
  let s3 := { s2 with tierS := { s2.tierS with wrote := [] } }
  let s4 := if again then s3 else s3.openRatio.openTsops.snapTurnstiles
  let s5 := allCores.foldl (fun t c => t.openCore c.1 c.2) s4
  let s6 := if replay then s5.deviate s5.leadPage 2 .replay 7 0 0 0x3FF attempt else s5
  s6.usedDies.foldl (fun t pd => t.carOpen pd) s6

/-- The first step of a job, or a rerun of a trapped step, opens once the time base has reached T0 (R229, R428, R508). -/
def State.firstOpen (s : State) : State :=
  match s.sched.startAt with
  | none => s
  | some t0 =>
    if s.clock.time.toNat < t0 then s
    else if s.sched.state = .armed then
      let r := (s.sched.image.map (·.ratioInit)).getD 0
      (s.captureArmed.setSched fun c => { c with ratioCur := r, ratioNext := none, ratioDue := none }).openStep 1 false false
    else if s.sched.state = .trapped then
      let s1 := s.restoreStep.openStep 1 false true
      let s2 := (s1.reqsWhere fun q => q.kind == 2 && q.isRunning).foldl (fun t x => t.noteEnd x.1 x.2.seq 0) s1
      { s2 with jobs := { s2.jobs with rerun := none } }
    else s

/-! Gather reports (R230, R505, R515, R531). -/

def TrapKey.le (a b : TrapKey) : Bool :=
  decide (((a.step * 2 ^ 32 + a.sbeat) * 2 ^ 16 + a.lc) * 2 ^ 16 + a.device ≤ ((b.step * 2 ^ 32 + b.sbeat) * 2 ^ 16 + b.lc) * 2 ^ 16 + b.device)

/-- The lower of two keys. -/
def lowKey : Option TrapKey → Option TrapKey → Option TrapKey
  | none, b => b
  | a, none => a
  | some a, some b => some (if a.le b then a else b)

/-- The reason of the lower-numbered device. -/
def lowErr : Option (Nat × Nat) → Option (Nat × Nat) → Option (Nat × Nat)
  | none, b => b
  | a, none => a
  | some a, some b => some (if a.1 ≤ b.1 then a else b)

/-- The combination of two reports (R230, R505). -/
def Report.join (a b : Report) : Report :=
  { m := max a.m b.m, cats := a.cats ||| b.cats, trap := lowKey a.trap b.trap, traps := min (a.traps + b.traps) 0xFFFF
    err := lowErr a.err b.err, ratio := max a.ratio b.ratio, fault := a.fault || b.fault, hold := a.hold || b.hold
    contrib := a.contrib + b.contrib }

def Report.body (r : Report) : GatherBody :=
  { stretch := BitVec.ofNat 32 r.m, cats := BitVec.ofNat 8 r.cats
    flags := BitVec.ofNat 8 (b2n r.err.isSome + b2n r.fault * 2 + b2n r.hold * 4 + b2n r.trap.isSome * 8), ratio := BitVec.ofNat 8 r.ratio
    trapStep := (r.trap.map fun k => BitVec.ofNat 64 k.step).getD 0xFFFFFFFFFFFFFFFF
    trapSbeat := (r.trap.map fun k => BitVec.ofNat 32 k.sbeat).getD 0xFFFFFFFF
    trapLc := (r.trap.map fun k => BitVec.ofNat 16 k.lc).getD 0xFFFF
    trapDev := (r.trap.map fun k => BitVec.ofNat 16 k.device).getD 0xFFFF, trapCount := BitVec.ofNat 16 r.traps
    contrib := BitVec.ofNat 16 r.contrib, reason := BitVec.ofNat 32 ((r.err.map (·.2)).getD 0) }

/-- A report as its token carries it; origin: the device that its reason is counted for. -/
def reportOf (b : GatherBody) (origin : Nat) : Report :=
  let f := b.flags.toNat
  { m := b.stretch.toNat, cats := b.cats.toNat, ratio := b.ratio.toNat % 4, traps := b.trapCount.toNat, contrib := b.contrib.toNat
    trap := if bitOf f 3 then some ⟨b.trapStep.toNat, b.trapSbeat.toNat, b.trapLc.toNat, b.trapDev.toNat⟩ else none
    err := if bitOf f 0 then some (origin, b.reason.toNat) else none, fault := bitOf f 1, hold := bitOf f 2 }

/-- A trap record as a number, and its key (R190, R196). -/
def recNum (r : NfRec) : Nat := r.foldr (fun w n => w.toNat + n * 2 ^ 32) 0

def recKey (dev : Nat) (r : NfRec) : TrapKey :=
  let n := recNum r
  ⟨bitsOf n 0 64, bitsOf n 128 18, bitsOf n 176 10, dev⟩

/-- The trap records of the stopped cores. -/
def State.trapRecs (s : State) : List NfRec :=
  s.progCores.filterMap fun p =>
    let c := s.core p.2.1 p.2.2
    if c.status = .stoppedTrap then c.nf.trapRec else none

/-- The device's earliest trap: its key and its record (R196). -/
def State.firstTrap (s : State) : Option (TrapKey × Nat) :=
  s.trapRecs.foldl (fun best r =>
    let k := recKey s.deviceNo r
    match best with
    | none => some (k, recNum r)
    | some b => if b.1.le k then some b else some (k, recNum r)) none

/-- The entries of a port in a descriptor: transmit, receive (R509). -/
def State.slotLists (s : State) (n : Nat) : List SlotEnt × List SlotEnt :=
  match s.sched.image with
  | some i =>
    match i.jal, descIx i.seqs s.sched.jstep.toNat with
    | some j, some d =>
      let (f, tx, rx) := j.index.getD (d * 8 + n) (0, 0, 0)
      ((j.entries.drop f).take tx, (j.entries.drop (f + tx)).take rx)
    | _, _ => ([], [])
  | none => ([], [])

/-- The beat at which a port's transfers of the step are over (R515): none while one is not. A port that discards flits
waits for no receive entry. -/
def State.portDone (s : State) (n : Nat) : Option Nat :=
  let (tx, rx) := s.slotLists n
  let p := s.jport n
  if p.tx < tx.length ∨ (!p.bad ∧ (p.rxWr < rx.length ∨ !p.rxDone.isEmpty)) then none else some (max p.txEnd p.rxEnd)

/-- The largest stall count of the step (R210). -/
def State.maxStall (s : State) : Nat :=
  s.progCores.foldl (fun m p =>
    let c := s.core p.2.1 p.2.2
    if c.status = .running ∨ c.status = .waitTs ∨ c.status = .waitStep then max m c.stall else m) 0

/-- A core that has not stopped (R195). -/
def CoreStatus.active (c : CoreStatus) : Bool := c == .running || c == .waitTs || c == .waitStep

/-- The check of R140 at a core's declared end: it has dispatched STEP and met its conditions. In a step with a trap on
this device, it enters STOPPED_REQ instead (R195). -/
def State.declaredEnd (s : State) (trapped : Bool) : State :=
  s.eachCore fun t pd mc =>
    let c := t.core pd mc
    if !c.status.active then t
    else if trapped then t.enterStopped pd mc .stoppedReq
    else if c.status = .waitStep && t.stepMet pd mc then t
    else t.coreStop pd mc c.x.pc.toNat 0x0A

/-- A trap that is decided and whose core has not stopped yet. -/
def State.trapPending (s : State) : Bool :=
  s.progCores.any fun p =>
    let c := s.core p.2.1 p.2.2
    c.status.active && c.trapX.isSome

/-- A release is taken (R231, R505): the device of the earliest trap floods its record. -/
def State.takeRelease (s : State) (r : Report) : State :=
  let s1 := s.setSched fun c => { c with release := some r }
  match r.trap, s.firstTrap with
  | some k, some (_, n) =>
    if k.device = s.deviceNo then
      (s1.setSched fun c => { c with trapRec := some n }).flood s.sched.step.toNat (.trapRecord (BitVec.ofNat 256 n))
    else s1
  | _, _ => s1

/-- Once the device's own report and all its children's are there, they go on up the tree; the root answers. -/
def State.gatherTry (s : State) : State :=
  match s.sched.own with
  | none => s
  | some own =>
    if s.sched.release.isSome || !(s.childPorts.all fun n => s.sched.children.any fun k => k.1 == n) then s
    else
      let r := s.sched.children.foldl (fun a k => a.join k.2) own
      let step := s.sched.step.toNat
      if s.isRoot then
        if r.contrib ≠ s.devices then s else (s.sendDown step (.release r.body)).takeRelease r
      else (s.setSched fun c => { c with children := [] }).sendUp step (.gather r.body)

/-- The device's gather report, once its declared length has ended and its captures and transfers are over (R230, R515,
R531); a step that has overrun waits for neither (R248). -/
def State.gatherReport (s : State) : State :=
  let sd := s.maxStall
  let due := s.sched.len + sd
  let past := s.sched.stepErr.any (·.reason == 0x0C)
  let ports := (List.range 8).map s.portDone
  if !s.schedRuns || s.sched.state == .commit || s.sched.own.isSome || decide (s.sched.beat < due) then s
  else if !past && (s.trapPending || !s.capturesDone || ports.any (·.isNone)) then s
  else
    let late := if past then due else s.sched.captureEnd
    let jal := if past then 0 else ports.foldl (fun m p => max m (p.getD 0)) 0
    let m := max due (max late jal) - s.sched.len
    if s.sched.beat < s.sched.len + m then s
    else
    let s0 := s.recordRuns
    let s1 := if due < late then s0.deviate s.leadPage 8 .late 9 (late - due) else s0
    let s2 := s1.declaredEnd (s1.firstTrap.isSome)
    let trap := s2.firstTrap
    let r : Report :=
      { m := m, cats := s2.sched.cats, trap := trap.map (·.1), traps := s2.trapRecs.length
        err := s2.sched.stepErr.map fun e => (s2.deviceNo, e.reason), ratio := s2.fld s2.leadPage Reg.SCHED_RATIO_REQ }
    (s2.setSched fun c => { c with own := some r, state := .commit, sd := m }).gatherTry

/-! The commit (R231 to R233, R536). -/

/-- Beat C of the running step. -/
def State.beatC (s : State) : Nat :=
  let m := match s.sched.release with
    | some r => r.m
    | none => (s.sched.own.map (·.m)).getD 0
  s.sched.len + m + s.sched.cwin - 2400

/-- Completions of the step carry DONE_DEVIATED (R233). -/
def State.markDeviated (s : State) : State :=
  { s with jobs := { s.jobs with rings := s.jobs.rings.map fun (k, g) =>
      (k, { g with reqs := g.reqs.map fun q => match q.st with
        | .ended 0 d => { q with st := .ended 1 d }
        | _ => q }) } }

/-- The commit of a step with slip m and categories cats. -/
def State.commitStep (s : State) (m cats : Nat) (flushed : Bool) : State :=
  let dev := s.sched.isReplay || decide (m ≠ 0) || decide (cats ≠ 0)
  let job := s.sched.jstep.toNat
  let ratio := (s.sched.release.map (·.ratio)).getD ((s.sched.ratioNext).getD s.sched.ratioCur)
  let s1 := s.flipSlots.setSched fun c => { c with
    step := c.step + 1, jstep := c.jstep + 1, committed := true, slip := m, ratioDue := c.ratioNext, ratioNext := some ratio, wrote := [] }
  let s2 := if m = 0 then s1 else s1.deviate s.leadPage 3 .slip 8 m 0 0x3FF cats
  let s3 := s2.usedDies.foldl (fun t pd => t.carCommit pd job) (s2.setInt s.leadPage 1)
  let s4 := if dev then s3.markDeviated else s3
  match s4.jobs.cur with
  | none => if (s.sched.image.map (·.jobSteps)).getD 0 ≤ job + 1 then (s4.closeJob 0 0).postCommit none else s4.postCommit none
  | some j0 =>
    let j := { j0 with dev := j0.dev + b2n dev }
    let s5 := { s4 with jobs := { s4.jobs with cur := some j } }
    let due := j.progressDue || (j.progress != 0 && (job + 1) % j.progress == 0)
    let prog := if due then some (j, b2n dev) else none
    if (s.sched.image.map (·.jobSteps)).getD 0 ≤ job + 1 then (s5.closeJob (if 0 < j.dev then 1 else 0) 0).postCommit prog
    else if flushed || j.flushed then (s5.closeJob 0x51 0).postCommit prog
    else s5.postCommit prog

/-- A job that is TRAPPED posts its TRAP record once the partition's earliest record is known (R195, R197, R437). -/
def State.postTrap (s : State) : State :=
  match s.sched.state, s.sched.trapRec, s.jobs.cur with
  | .trapped, some _, some j =>
    match s.findReq j.ring j.seq with
    | some q => ((s.postRec j.ring q 2 0x20 s.trapSummary).modReq j.ring j.seq fun q => { q with resv := 0 }).postAll
    | none => s
  | _, _, _ => s

/-- The trapped-step end (R195). -/
def State.trapEnd (s : State) : State :=
  let s1 := s.eachCore fun t pd mc => if (t.core pd mc).status.active then t.enterStopped pd mc .stoppedReq else t
  (s1.dropCaptures.setSched fun c => { c with state := .trapped }).postTrap

/-- The decision at the end of beat C (R231, R536). flushed: another device's flush ends the job here (R439). -/
def State.boundary (s : State) (flushed : Bool) : State :=
  let held := s.sched.state == .held
  if s.sched.committed || s.sched.own.isNone || !(s.sched.state == .commit || (held && s.sched.release.isSome)) ||
      decide (s.sched.beat < s.beatC) then s
  else
    match s.sched.release with
    | none => s.raiseHold 2 s.deviceNo s.holdStep
    | some r =>
      if r.fault || r.hold then s.raiseHold 3 s.deviceNo s.holdStep
      else if r.err.isSome then
        let code := match s.sched.stepErr with
          | some e => e.code
          | none => if (r.err.map (·.2)) = some 0x10 then 0x31 else 0x30
        s.endJob code ((r.err.map (·.2)).getD 0)
      else if r.trap.isSome then s.trapEnd
      else
        let s1 := s.commitStep r.m r.cats flushed
        { s1 with jal := { s1.jal with flipAt := some (s.beatC + 1600) } }

/-- The receive buffers flip parity at C + 1600 (R231, R234). -/
def State.parityFlip (s : State) : State :=
  { s with jal := { s.jal with parity := bitOf s.sched.jstep.toNat 0, flipAt := none } }

end Sys2Proof.Machine
end

