-- ==== Sys2Proof/Machine/JalOps.lean ====
section
/-!
DEFINITION. Jallyn ports: training, formation, low power, link faults, and the transfers of a step
(spec/19_jallyn_links.md R493 to R522).
-/
namespace Sys2Proof.Machine

def State.modJport (s : State) (n : Nat) (f : PortSt → PortSt) : State := s.setJport n (f (s.jport n))

/-- The port's die is there and its partition is not marked absent (R23, R42). -/
def State.portThere (s : State) (n : Nat) : Bool := s.present (jpPage n)

/-! Formation (R502). -/

/-- JP_FORM.STATE. -/
def State.formState (s : State) : Nat := s.fld jp0 Reg.JP_FORM_STATE

/-- The formation ends, formed or failed. -/
def State.formEnd (s : State) (st cause : Nat) : State :=
  let s1 := (s.setJp Reg.JP_FORM_STATE st).setJp Reg.JP_FORM_CAUSE cause
  (List.range 8).foldl (fun t n => t.setInt (jpPage n) 4) s1

/-- A port goes DOWN with a cause; what that does to the formation (R496, R502). -/
def State.portDown (s : State) (n cause : Nat) : State :=
  let p := jpPage n
  let was := s.jpState n
  let s1 := (((s.setJpState n 0).setFld p Reg.JP_STAT_DOWN_CAUSE cause).setInt p 2).reportOpen p 2
  if !s.portUsed n then s1
  else if s.formState = 1 then s1.formEnd 3 (if cause = 5 then 2 else 1)
  else if s.formState = 2 ∧ (5 ≤ was ∧ was ≤ 9) then s1.formEnd 3 4
  else s1

/-- Training starts (R497). -/
def State.portTrain (s : State) (n : Nat) : State :=
  let p := jpPage n
  if !s.portThere n then s
  else
    (((((s.setJpState n 1).setFld p Reg.JP_STAT_DOWN_CAUSE 0).setFld p Reg.JP_STAT_TRIES 0).setFld p Reg.JP_STAT_SPARE_TX 0xF).setFld p
      Reg.JP_STAT_SPARE_RX 0xF).modJport n fun q => { q with identOk := false }

/-- A write of 1 to TRAIN (R497, R522). -/
def State.trainWrite (s : State) (n : Nat) : State :=
  let st := s.jpState n
  if st = 5 then s.blockErr (jpPage n) 0 0 0 0
  else if st = 0 ∧ s.flag (jpPage n) Reg.JP_CTRL_FORCE_DOWN then s
  else if st = 0 ∨ st = 4 then s.portTrain n
  else s

/-- Partner signalling is lost, or a restart's DETECT times out: training restarts, three times at most (R498). -/
def State.portRestart (s : State) (n : Nat) : State :=
  let p := jpPage n
  let tries := s.fld p Reg.JP_STAT_TRIES
  if 3 ≤ tries then s.portDown n 2 else (s.setJpState n 1).setFld p Reg.JP_STAT_TRIES (tries + 1)

/-- DETECT times out (R498). -/
def State.detectTimeout (s : State) (n : Nat) : State :=
  if s.jpState n ≠ 1 then s
  else if s.fld (jpPage n) Reg.JP_STAT_TRIES = 0 then s.portDown n 1
  else s.portRestart n

/-- Partner signalling is lost (R498, R499). -/
def State.signalLost (s : State) (n : Nat) : State :=
  let st := s.jpState n
  if 1 ≤ st ∧ st ≤ 3 then s.portRestart n
  else if st = 6 ∨ st = 8 then s.portDown n 4
  else s

/-- This device's IDENT on a port (R504). -/
def State.identOf (s : State) (n : Nat) : IdentBody :=
  { partId := s.reg jp0 0x118, xm1 := BitVec.ofNat 3 (s.extent 0 - 1), ym1 := BitVec.ofNat 3 (s.extent 1 - 1)
    zm1 := BitVec.ofNat 3 (s.extent 2 - 1), x := BitVec.ofNat 3 (s.coord 0), y := BitVec.ofNat 3 (s.coord 1)
    z := BitVec.ofNat 3 (s.coord 2), port := BitVec.ofNat 3 n, device := BitVec.ofNat 16 s.deviceNo }

def State.sendIdent (s : State) (n : Nat) : State := s.sendTok n ⟨s.tokHdr s.sched.step.toNat, .ident (s.identOf n)⟩

/-- The coordinate that the neighbour over port n has in dimension d (R501). -/
def State.neighbour (s : State) (n d : Nat) : Nat :=
  let k := s.extent d
  if n / 2 = d then (if n % 2 = 0 then (s.coord d + 1) % k else (s.coord d + k - 1) % k) else s.coord d

/-- The checks of a partner's IDENT (R502). -/
def State.identOk (s : State) (n : Nat) (b : IdentBody) : Bool :=
  b.partId == s.reg jp0 0x118 &&
  (decide (6 ≤ n) ||
   ([b.xm1, b.ym1, b.zm1].zipIdx.all (fun x => x.1.toNat + 1 == s.extent x.2) &&
    [b.x, b.y, b.z].zipIdx.all (fun x => x.1.toNat == s.neighbour n x.2) && b.port.toNat == (if n % 2 = 0 then n + 1 else n - 1)))

/-- JP_PARTNER from an IDENT (R497). -/
def State.partner (s : State) (n : Nat) (b : IdentBody) : State :=
  ((s.setFld (jpPage n) Reg.JP_PARTNER_DEVICE b.device.toNat).setFld (jpPage n) Reg.JP_PARTNER_PORT b.port.toNat).setFlag (jpPage n)
    Reg.JP_PARTNER_VALID true

/-- The device number of this device's coordinates (R501). -/
def State.numberOf (s : State) : Nat := s.coord 0 + s.extent 0 * (s.coord 1 + s.extent 1 * s.coord 2)

/-- The partition forms: used ports ACTIVE, the step counter 0, SCHED_PART loaded (R502). -/
def State.formed (s : State) : State :=
  let s1 := s.usedPorts.foldl (fun t n => if t.jpState n = 4 then t.setJpState n 5 else t) s
  let s2 := s1.fullDies.foldl (fun t pd =>
    let p := diePage .sched pd
    (((t.setFld p Reg.SCHED_PART_DEVICE s.numberOf).setFld p Reg.SCHED_PART_XM1 (s.extent 0 - 1)).setFld p
      Reg.SCHED_PART_YM1 (s.extent 1 - 1)).setFld p Reg.SCHED_PART_ZM1 (s.extent 2 - 1)) s1
  (s2.setSched fun c => { c with step := 0 }).formEnd 2 0

/-- Once every used port has passed and every child has reported, the sum goes up the tree; the root forms. -/
def State.formTry (s : State) : State :=
  if s.formState ≠ 1 ∨ s.jal.formSent then s
  else if !(s.usedPorts.all fun n => s.jpState n == 4 && (s.jport n).identOk) || !(s.childPorts.all fun n => s.jal.formKids.any (·.1 == n)) then s
  else
    let sum := s.jal.formKids.foldl (fun a k => a + k.2) 1
    let step := s.sched.step.toNat
    if s.isRoot then
      if sum ≠ s.devices then s else (s.sendDown step .formRelease).formed
    else ({ s with jal := { s.jal with formSent := true } }).sendUp step (.formGather (BitVec.ofNat 16 sum))

/-- JP_FORM.GO: accepted in IDLE and ENDED (R502). -/
def State.formGo (s : State) (p : Page) : State :=
  if !(s.sched.state == .idle || s.sched.state == .ended) then s.blockErr p 0 0 0 0
  else
    let s1 := (s.setJp Reg.JP_FORM_STATE 1).setJp Reg.JP_FORM_CAUSE 0
    let s2 := { s1 with jal := { s1.jal with formKids := [], formSent := false, formAt := some s.clock.time.toNat } }
    let s3 := (List.range 8).foldl (fun t n =>
      if !t.portUsed n then (if t.portThere n then t.portDown n 10 else t)
      else if !t.portThere n then t.portDown n 6
      else if t.flag (jpPage n) Reg.JP_CTRL_FORCE_DOWN then t.portDown n 7
      else if t.jpState n = 4 ∨ t.jpState n = 5 then ((t.setJpState n 4).modJport n fun q => { q with identOk := false }).sendIdent n
      else t.portTrain n) s2
    s3.formTry

/-- JP_FORM.DISSOLVE (R502). -/
def State.dissolve (s : State) (p : Page) : State :=
  if !(s.sched.state == .idle || s.sched.state == .ended) then s.blockErr p 0 0 0 0
  else
    let s1 := (List.range 8).foldl (fun t n => if t.jpState n = 5 then t.setJpState n 4 else t) s
    ((s1.setJp Reg.JP_FORM_STATE 0).setJp Reg.JP_FORM_CAUSE 0)

/-- The trained parameters of a port are stored (R497, R652): equalisation results that the spec does not give. -/
def State.storeLink (s : State) (n : Nat) : State :=
  let f := s.freeCtr
  let link := (List.range 18).foldl (fun m l =>
    mput (fun _ => []) m (n * 18 + l) ((List.range 16).map fun i => Config.freeByte f (l * 16 + i))) s.store.cur.link
  { s with freeCtr := f + 1, store := { s.store with cur := { s.store.cur with link := link }, pending := true } }

/-- Lanes that L8 replaces in a training or a recovery: refused where SPARE_EN is 0. -/
def State.setSpares (s : State) (n : Nat) (tx rx : Option (Fin 8)) : State :=
  let p := jpPage n
  let one (t : State) (f : RegField) (l : Option (Fin 8)) : State := match l with | some k => t.setFld p f k.val | none => t
  one (one s Reg.JP_STAT_SPARE_TX tx) Reg.JP_STAT_SPARE_RX rx

/-- ALIGN completes, or training ends DOWN (R497, R498). -/
def State.trainDone (s : State) (n : Nat) (out : TrainOut) : State :=
  let p := jpPage n
  let st := s.jpState n
  if st < 1 ∨ 3 < st then s
  else
    match out with
    | .laneFail => s.portDown n 3
    | .reference => s.portDown n 9
    | .up b lat tx rx stored =>
      if (tx.isSome ∨ rx.isSome) ∧ !s.flag p Reg.JP_CTRL_SPARE_EN then s.portDown n 3
      else if 300 < lat.toNat then (s.setFld p Reg.JP_LAT_TOKEN_NS lat.toNat).portDown n 9
      else
        let s1 := ((((s.setJpState n 4).setSpares n tx rx).setFld p Reg.JP_LAT_TOKEN_NS lat.toNat).setFlag p
          Reg.JP_STAT_FROM_STORE stored).partner n b
        let s2 := (s1.setInt p 1).storeLink n
        if s2.formState = 1 ∧ s2.portUsed n then
          if s2.identOk n b then (s2.modJport n fun q => { q with identOk := true }).formTry else s2.portDown n 5
        else s2

/-- An IDENT comes in (R502). -/
def State.identIn (s : State) (n : Nat) (b : IdentBody) : State :=
  if s.jpState n ≠ 4 ∧ s.jpState n ≠ 5 then s
  else
    let s1 := s.partner n b
    if s1.formState = 1 ∧ s1.portUsed n then
      if s1.identOk n b then (s1.modJport n fun q => { q with identOk := true }).formTry else s1.portDown n 5
    else s1

/-! Low power (R499). -/

def State.schedRests (s : State) : Bool := s.sched.state == .idle || s.sched.state == .ended

/-- A write of LP_REQ. -/
def State.lpWrite (s : State) (n : Nat) (v : Bool) : State :=
  let st := s.jpState n
  if v then
    if (st = 4 ∨ st = 5) ∧ s.schedRests then
      ((s.setJpState n 6).modJport n fun q => { q with before := st }).sendTok n ⟨s.tokHdr s.sched.step.toNat, .lpReq⟩
    else s
  else if st = 7 ∨ st = 6 then s.setJpState n 8 else s

/-! Link faults (R520, R521). -/

/-- A link fault of a port in ACTIVE. -/
def State.linkFault (s : State) (n cause : Nat) : State :=
  let p := jpPage n
  if s.jpState n ≠ 5 then s
  else
    let s1 := if cause = 1 then s.bump p Reg.JP_FEC_UE_COUNT else s
    let s2 := (((s1.reportOpen p 1).blockErr p 1 0 s.sched.step.toNat cause).setInt p 3).setJpState n 9
    if s2.schedRuns then
      (s2.raiseHold 1 s2.deviceNo s2.holdStep).setSched fun c => { c with lastFault := 0x41 }
    else s2

/-- Recovery completes (R521). -/
def State.recoverDone (s : State) (n : Nat) (tx rx : Option (Fin 8)) : State :=
  let p := jpPage n
  if s.jpState n ≠ 9 then s
  else (((s.setSpares n tx rx).setJpState n 5).bump p Reg.JP_RECOVERIES_COUNT).reportOpen p 4

/-- A fault from which this device cannot continue (R538, R542); the job ends at once where no hold stands. -/
def State.cannotContinue (s : State) (code : Nat) : State :=
  let s1 := s.setSched fun c => { c with noContinue := some (c.noContinue.getD code), lastFault := code }
  if s1.schedRuns || s1.sched.state == .held || !s1.jobActive then s1 else s1.endJob code 0

/-- Recovery fails or takes more than 400 µs (R521). -/
def State.recoverFail (s : State) (n : Nat) : State :=
  if s.jpState n ≠ 9 then s else (s.portDown n 8).cannotContinue 0x41

/-- FORCE_DOWN written 1 (R522, R523). -/
def State.forceDown (s : State) (n : Nat) : State :=
  let active := s.jpState n == 5 || s.jpState n == 9
  let s1 := s.portDown n 7
  if active ∧ s.jobActive then s1.cannotContinue 0x41 else s1

/-- A token is accepted: the port carries tokens and the partition is this one; another partition's is a link fault
(R504). -/
def State.tokenOk (s : State) (n : Nat) (h : TokHdr) : Bool × State :=
  if s.jpState n ≠ 5 ∧ s.jpState n ≠ 4 then (false, s)
  else if h.partId ≠ s.reg jp0 0x118 then (false, s.linkFault n 3)
  else (true, s)

/-! Transfers (R510 to R515). -/

/-- Scratch address of line j of an entry laid out from base (R510). -/
def SlotEnt.line (e : SlotEnt) (base j : Nat) : Nat :=
  let seg := e.rowBytes / 128
  saOf (saDie base) (saBank base + j % seg) (saOff base + j / seg * e.pitch * 128)

/-- The guard of a transmit entry is met (R512, R517). -/
def State.guardMet (s : State) (e : SlotEnt) : Bool :=
  !e.guard ||
  (match s.pdOfLd e.tsLd with
   | some pd => decide (e.tsValue ≤ (s.tsCell (poolKey pd e.tsIndex)).v)
   | none => false) ||
  (s.progCores.any fun p => (s.core p.2.1 p.2.2).status == .stoppedTrap)

/-- Flit i of an entry whose bytes are bs. -/
def SlotEnt.flit (e : SlotEnt) (parity : Bool) (slot i : Nat) (bs : List Byte) : Flit :=
  { parity := parity, last := i + 1 == e.flits, slot := BitVec.ofNat 12 slot, seq := BitVec.ofNat 3 i
    payload := BitVec.ofNat 5120 (leNat ((bs.drop (640 * i)).take 640)) }

/-- The next transmit entry of a port becomes ready: it reads and its flits are sent (R512, R518). -/
def State.txReady (s : State) (n : Nat) : State :=
  let p := s.jport n
  match (s.slotLists n).1[p.tx]? with
  | none => s
  | some e =>
    let now := s.sched.beat
    if !s.schedRuns || s.jpState n != 5 || decide (now < e.beat) || decide (now < p.txAt + 4 * p.txFlits) || !s.guardMet e then s
    else
      let lines := if e.tsOnly then [] else (List.range e.lines).map (e.line e.addr0)
      let s1 := if now = e.beat then s else s.bump (jpPage n) Reg.JP_GUARD_HOLDS_COUNT
      match lines.findSome? fun a => s.poisonIn a 128 with
      | some w => ((s1.sDetect w 0).setSched fun c => { c with noContinue := some 0x40, lastFault := 0x40 }).raiseHold 0 s.deviceNo s.holdStep
      | none =>
        let bs := lines.flatMap fun a => s1.sRead a 128
        let par := bitOf s.sched.jstep.toNat 0
        let fl := (List.range e.flits).map fun i => (n, e.flit par p.tx i bs)
        let s2 := s1.setJport n { p with tx := p.tx + 1, txAt := now, txFlits := e.flits, txEnd := now + 200 + 4 * (e.flits - 1) }
        let ctx := some (s.carCtx (jpPage n).pd)
        let s3 := (lines.foldl (fun (t : State) a => t.actTierS (saDie a) ctx 1) s2).actAdd (jpPage n).pd ctx 7 e.flits
        ({ s3 with jal := { s3.jal with flits := s3.jal.flits ++ fl } }).bump64 (jpPage n) 0x130 e.flits

/-- Bytes of the landing buffer in use (R511, R514): flits landed, less the lines whose write has begun. -/
def State.landed (s : State) (n : Nat) : Nat :=
  let p := s.jport n
  let rx := (s.slotLists n).2
  p.land.foldl (fun acc l =>
    match rx[l.slot]? with
    | some e =>
      let lines := min (l.flits.length * 5) e.lines
      let gone := if p.rxIn ≤ l.slot then 0 else (List.range lines).countP fun j => decide (e.beat + 4 * j / 5 ≤ s.sched.beat)
      acc + l.flits.length * 640 - gone * 128
    | none => acc) 0

/-- Lanes whose symbols were corrected in a codeword (R500). -/
def State.corrected (s : State) (n : Nat) (lanes : List (Fin 9 × Fin 16)) : State :=
  let p := jpPage n
  if lanes.isEmpty then s
  else
    let total := lanes.foldl (fun a x => a + x.2.val) 0
    let s1 := (s.bump p Reg.JP_FEC_CW_CE_COUNT).bump p Reg.JP_FEC_SYM_COUNT total
    let thr := s.fld p Reg.JP_LANE_CE_THR_THR
    lanes.foldl (fun t x =>
      let old := t.fld p Reg.JP_LANE_CE_COUNT x.1.val
      if thr ≤ old then t
      else
        let t1 := t.bump p Reg.JP_LANE_CE_COUNT x.2.val x.1.val
        if thr ≤ old + x.2.val then
          (((t1.setFlag p Reg.JP_STAT_DEGRADED true).reportOpen p 3).setInt p 5).histAdd 8 p.pd.val n x.1.val 0
        else t1) s1

/-- A DATA flit comes in (R514). -/
def State.dataFlit (s : State) (n : Nat) (f : Flit) (lanes : List (Fin 9 × Fin 16)) : State :=
  if s.jpState n ≠ 5 then s
  else
    let s1 := ((s.corrected n lanes).bump64 (jpPage n) 0x138 1).actAdd (jpPage n).pd (some (s.carCtx (jpPage n).pd)) 7 1
    let p := s1.jport n
    if !s1.schedRuns || p.bad then s1
    else
      let wrong : State := (s1.setJport n { p with bad := true }).schedError 5 0x3FF 0 0x30
      match (s1.slotLists n).2[p.rxIn]? with
      | none => wrong
      | some e =>
        let land := (p.land.find? (·.slot == p.rxIn)).getD { slot := p.rxIn }
        let i := land.flits.length
        let par := bitOf s1.sched.jstep.toNat 0
        if f.slot.toNat ≠ p.rxIn ∨ f.parity ≠ par ∨ f.seq.toNat ≠ i % 8 ∨ f.last ≠ (i + 1 == e.flits) then wrong
        else if 524288 < s1.landed n + 640 then s1.linkFault n 5
        else
          let land1 : Landing := { land with flits := land.flits ++ [(s1.sched.beat, f.payload)] }
          s1.setJport n { p with land := p.land.filter (·.slot != p.rxIn) ++ [land1], rxIn := if i + 1 = e.flits then p.rxIn + 1 else p.rxIn }

/-- The next receive entry, landed whole, is written into the parity half from W on (R513, R518). -/
def State.rxEntry (s : State) (n : Nat) : State :=
  let p := s.jport n
  match (s.slotLists n).2[p.rxWr]?, p.land.find? (·.slot == p.rxWr) with
  | some e, some l =>
    if !s.schedRuns || decide (p.rxIn ≤ p.rxWr) || decide (s.sched.beat < e.beat) then s
    else
      let base := if bitOf s.sched.jstep.toNat 0 then e.addr1 else e.addr0
      let bs := l.flits.flatMap fun f => leBytes f.2.toNat 640
      let at_ (j : Nat) : Nat := ((l.flits[(128 * j + 127) / 640]?).map (·.1)).getD 0
      let done := (List.range e.lines).foldl (fun m j => max m (max (e.beat + 4 * j / 5) (at_ j + 1) + 20)) 0
      let s1 := if e.tsOnly then s
        else (List.range e.lines).foldl (fun t j =>
          let (ok, t1) := (t.actTierS (saDie (e.line base j)) (some (s.carCtx (jpPage n).pd)) 1).sWrite (e.line base j) ((bs.drop (128 * j)).take 128)
          if ok then t1 else t1.stepFail 0x3FF 0 0x14) s
      s1.setJport n { p with
        rxWr := p.rxWr + 1, land := p.land.filter (·.slot != p.rxWr), rxDone := p.rxDone ++ [(p.rxWr, max e.delivery (done + 1))] }
  | _, _ => s

/-- The receive entries whose y has come post (R513). -/
def State.rxPost (s : State) (n : Nat) : State :=
  let p := s.jport n
  match p.rxDone with
  | [] => s
  | (k, y) :: rest =>
    if s.sched.beat < y then s
    else
      let s1 := s.setJport n { p with rxDone := rest, rxEnd := max p.rxEnd y }
      match (s.slotLists n).2[k]? with
      | some e =>
        match e.post, s.pdOfLd e.tsLd with
        | true, some pd => s1.tsAt
            { key := poolKey pd e.tsIndex, y := s.clock.beats.toNat + y - s.sched.beat, sub := false, ring := false, who := whoJallyn n k
              k := e.tsValue, sbeat := e.delivery, lc := 0x3FF, src := 2 }
        | _, _ => s1
      | none => s1

end Sys2Proof.Machine
end

