-- ==== Sys2Proof/Machine/PowerOps.lean ====
section
/-!
DEFINITION. The power agents and the Ringmaster's controls: measurement, budgets, gating, ratio requests, filler, energy
attribution, the beginning of an emergency stop (spec/21_power_thermal.md R552 to R583).
-/
namespace Sys2Proof.Machine

/-- No job is armed or runs: the lead state is IDLE, LOADED or ENDED. -/
def State.rmRests (s : State) : Bool := s.sched.state == .idle || s.sched.state == .loaded || s.sched.state == .ended

/-- Dies whose control partition is powered. -/
def State.poweredDies (s : State) : List PD := (List.finRange 56).filter fun pd => s.role pd != .off

/-! Measurement (R552 to R555). -/

/-- A sample of an agent's sensors (R552): sensed power in mW, rail currents in 0.1 A, the hottest die sensor with its index
where the sample reads it, whether sensing holds, and the modelled power in mW of R554. -/
def State.paSample (s : State) (pd : PD) (mw : Nat) (cur : Nat × Nat × Nat) (temp : Option (Byte × Fin 16)) (valid : Bool)
    (model : Nat) : State :=
  let p := pagentPage pd
  if s.role pd = .off then s
  else
    let s1 := s.setFlag p Reg.PA_STAT_SENSOR_VALID valid
    let s2 := if s.flag p Reg.PA_STAT_SENSOR_VALID && !valid then (s1.reportOpen p 3).setInt p 3 else s1
    let a := s2.agent pd
    let w := if valid then mw * s.fld p Reg.PA_CAL_FACTOR / 4096 else model * 5 / 4
    let ps := (w :: a.power).take 1000
    let t := ps.take 10
    let nj := a.nj + w
    let s3 := (s2.setAgent pd { a with power := ps, cur := (cur :: a.cur).take 10, nj := nj % 1000 }).bump64 p 0x124 (nj / 1000)
    let s4 := (s3.setFld p Reg.PA_POWER_P1MS_DW (min 0xFFFF (ps.sum / ps.length / 100))).setFld p Reg.PA_POWER_P10US_DW
      (min 0xFFFF (t.sum / t.length / 100))
    match temp with
    | none => s4
    | some (v, i) => (((s4.setFld p Reg.PA_TEMP_TDIE v.toNat).setFld p Reg.PA_TEMP_SENSOR i.val).tempsSeen s4 pd)

/-- PA_SAMPLE (R552, R554). -/
def execPaSample (pd : PD) (mw : BitVec 20) (vcore vsram vdram : Half) (temp : Option (Byte × Fin 16)) (valid : Bool)
    (model : BitVec 20) (s : State) : Host.Outcome State Fault Refusal :=
  .next (s.paSample pd mw.toNat (vcore.toNat, vsram.toNat, vdram.toNat) temp valid model.toNat)

/-- A rail's output power in mW: the last good reading, and 1.25 times it once ten reads in a row failed (R677). -/
def State.railPower (s : State) (r : Nat) : Nat :=
  let w := mget (fun _ => 0) s.power.lastGood r
  if 10 ≤ mget (fun _ => 0) s.power.misses r then w * 5 / 4 else w

/-- Package power in mW (R553). -/
def State.packagePower (s : State) : Nat := (List.range 14).foldl (fun n r => n + s.railPower r) 0

/-- The agents of group g take the quotient of a rail's energy and their sensed energies (R553). -/
def State.calibrateGroup (s : State) (g rail sensed : Nat) : State :=
  if sensed = 0 ∨ 10 ≤ mget (fun _ => 0) s.power.misses g then s
  else
    let q := rail * 4096 / sensed
    let c := max 3072 (min 5120 q)
    let s1 := if c = q then s else s.report rmPage 8 g
    (s1.poweredDies.filter fun pd => pd.val % 8 == g).foldl (fun t pd => t.setFld (pagentPage pd) Reg.PA_CAL_FACTOR c) s1

/-- P_S in mW: the average of the last 1000 ms, or of those there are. -/
def State.powerSecond (s : State) : Nat := s.power.pkg.sum / s.power.pkg.length

def State.sustCap (s : State) : Nat := s.fld rmPage Reg.RM_SUST_CAP_WATTS
def State.peakCap (s : State) : Nat := s.fld rmPage Reg.RM_PEAK_CAP_WATTS

/-- The millisecond's package power: averages, energy and the two caps (R553, R563, R586). -/
def State.packageMs (s : State) : State :=
  let w := s.packagePower
  let s1 := { s with power := { s.power with pkg := (w :: s.power.pkg).take 1000 } }
  let ps := s1.powerSecond
  let s2 := ((s1.setFld rmPage Reg.RM_PKG_POWER_P1MS (min 8191 (w / 1000))).setFld rmPage Reg.RM_PKG_POWER_P1S
    (min 8191 (ps / 1000))).bump64 rmPage 0x114 w
  let past := decide (s.peakCap * 1000 < w)
  let s3 := if past then (s2.report rmPage 7 (min 8191 (w / 1000))).setInt rmPage 1 else s2
  let s4 := if s.sustCap * 1000 < ps then s3.setInt rmPage 2 else s3
  let high := decide (s.sustCap * s.fld rmPage Reg.RM_RATIO_CFG_LOWER_PCT * 10 ≤ ps)
  { s4 with power := { s4.power with sawPeak := s4.power.sawPeak || past, sawHigh := s4.power.sawHigh || high } }

/-- RM_CALIBRATE (R553): per power group the rail's measured energy and the sensed energy of its dies, in µJ. -/
def execRmCalibrate (groups : List (Word × Word)) (s : State) : Host.Outcome State Fault Refusal :=
  .next (((groups.take 8).zipIdx.foldl (fun (t : State) (g : (Word × Word) × Nat) =>
    t.calibrateGroup g.2 g.1.1.toNat g.1.2.toNat) s).packageMs)

/-! Duties (R558, R571, R572, R575). -/

/-- NS_STAT.THROTTLE of a die's stack. -/
def State.stackThrottle (s : State) (pd : PD) : Bool := s.isFull pd && s.flag (diePage .nstack pd) Reg.NS_STAT_THROTTLE

/-- The duty that each reason demands, in the order of PA_STAT.REASON. -/
def State.duties (s : State) (pd : PD) : List Nat :=
  let a := s.agent pd
  let zr6 := s.flag rmPage Reg.RM_CTRL_MODE
  [if zr6 then 0 else a.peak, if zr6 then a.zr6 else 0, a.therm,
   if s.stackThrottle pd then s.fld (pagentPage pd) Reg.PA_GATE_CFG_STACK_DUTY else 0,
   if a.critDie || a.critStack then 15 else 0]

/-- The effective duty in sixteenths; all of them in an emergency stop. -/
def State.duty (s : State) (pd : PD) : Nat := if 0 < s.power.stop then 16 else (s.duties pd).foldl max 0

/-- PA_STAT shows the duty and its reasons. -/
def State.showDuty (s : State) (pd : PD) : State :=
  let r := (s.duties pd).foldr (fun d n => b2n (decide (0 < d)) + 2 * n) 0
  (s.setFld (pagentPage pd) Reg.PA_STAT_DUTY (min 15 (s.duty pd))).setFld (pagentPage pd) Reg.PA_STAT_REASON r

/-- The package cap that bounds a die: PEAK_CAP, or SUST_CAP in SAFE (R556, R578). -/
def State.capOf (s : State) (pd : PD) : Nat := if s.flag (pagentPage pd) Reg.PA_STAT_SAFE then s.sustCap else s.peakCap

/-- A rail's limit for a die in 0.1 A, as a fraction: VCORE (0), VSRAM (1), VDRAM (2) (R561). -/
def State.railLimit (s : State) (pd : PD) (rail : Nat) : Nat × Nat :=
  match rail with
  | 0 =>
    let g := pd.val % 8
    let sum := (List.finRange 56).foldl (fun n d => if d.val % 8 = g then n + s.frac d else n) 0
    (s.fld rmPage Reg.RM_ZR6_ILIM_DA g * s.frac pd, max 1 sum)
  | 1 => (s.fld rmPage Reg.RM_ZR6_ILIM8_DA * s.frac pd, 65536)
  | _ => (s.fld rmPage Reg.RM_ZR6_ILIM9_DA * s.frac pd, 65536)

/-- PA_BUDGET shows the limits of the evaluation. -/
def State.showBudget (s : State) (pd : PD) : State :=
  let p := pagentPage pd
  let (n, d) := s.railLimit pd 0
  (s.setFld p Reg.PA_BUDGET_PEAK_DW (min 0xFFFF (s.frac pd * s.capOf pd * 10 / 65536))).setFld p Reg.PA_BUDGET_ILIM_DA
    (min 0xFFFF (n / d))

/-- PEAK_EVAL (R559): the average of the last millisecond against the die's budget. -/
def execPeakEval (pd : PD) (s : State) : Host.Outcome State Fault Refusal :=
  let a := s.agent pd
  let n := a.power.length
  let b := s.frac pd * s.capOf pd * 1000 * n
  let p := a.power.sum * 65536
  if s.role pd = .off then .next s
  else if s.flag rmPage Reg.RM_CTRL_MODE then .next (s.showBudget pd)
  else
    let d := if b < p then min 15 (a.peak + 1) else if p * 32 < b * 31 then a.peak - 1 else a.peak
    .next (((s.setAgent pd { a with peak := d }).showBudget pd).showDuty pd)

/-- ZR6_EVAL (R561): the rails' average die currents of the last window against the die's limits. -/
def execZr6Eval (pd : PD) (s : State) : Host.Outcome State Fault Refusal :=
  let a := s.agent pd
  let n := a.cur.length
  let sum (r : Nat) : Nat := a.cur.foldl (fun m c => m + (if r = 0 then c.1 else if r = 1 then c.2.1 else c.2.2)) 0
  let past := [0, 1, 2].any fun r => let l := s.railLimit pd r; decide (l.1 * n < sum r * l.2)
  let low := [0, 1, 2].all fun r => let l := s.railLimit pd r; decide (sum r * l.2 * 16 < l.1 * n * 15)
  if s.role pd = .off then .next s
  else if !s.flag rmPage Reg.RM_CTRL_MODE then .next (s.showBudget pd)
  else
    let d := if past then min 15 (a.zr6 + 2) else if low then a.zr6 - 1 else a.zr6
    .next (((s.setAgent pd { a with zr6 := d }).showBudget pd).showDuty pd)

/-- DIE_THERMAL_EVAL (R563, R571): the thermal controller and the critical temperature of a die. -/
def execDieThermalEval (pd : PD) (s : State) : Host.Outcome State Fault Refusal :=
  let p := pagentPage pd
  let a := s.agent pd
  let t := signedOf (s.fld p Reg.PA_TEMP_TDIE) 8
  let hot := (s.fld rmPage Reg.RM_THERM_DIE_HOT : Int)
  if s.role pd = .off then .next s
  else
    let d := if hot < t then min 15 (a.therm + 1) else if t ≤ hot - 3 then a.therm - 1 else a.therm
    let enters := decide (105 ≤ t) && !a.critDie
    let a1 : AgentSt := { a with
      therm := d, critDie := decide (105 ≤ t) || (a.critDie && decide (100 < t))
      hotMs := if hot < t then a.hotMs + 1 else 0, thrMs := if s.stackThrottle pd then a.thrMs + 1 else 0 }
    let s1 := s.setAgent pd a1
    let s2 := if enters then (((s1.reportOpen p 4).setInt p 4).setInt rmPage 6).assertAlert else s1
    .next (s2.showDuty pd)

/-! Gated runs (R558, R560). -/

/-- The step and attempt a gated run belongs to; 0 outside a running schedule. -/
def State.runKey (s : State) : Nat := if s.schedRuns then s.sched.step.toNat * 256 + s.sched.attempt % 256 + 1 else 0

/-- GATE_PERIOD (R558, R560): a period of 1024 beats begins, at multiples of 1024 while a schedule runs. The cores of the
die hold for the first 64 beats of each sixteenth of duty. -/
def execGatePeriod (pd : PD) (s : State) : Host.Outcome State Fault Refusal :=
  let p := pagentPage pd
  let d := min 16 (s.duty pd)
  if s.role pd = .off ∨ (s.schedRuns ∧ s.sched.beat % 1024 ≠ 0) then .next s
  else
    let key := s.runKey
    let a := s.agent pd
    let same := a.run.any fun r => r.key == key
    if d = 0 then
      let s1 := s.recordRun pd
      .next (s1.setAgent pd { s1.agent pd with run := none })
    else
      let s1 := if same then s
        else
          let t := s.recordRun pd
          ((t.setAgent pd { t.agent pd with run := some ⟨key, 0, false⟩ }).bump p Reg.PA_GATE_RUNS_COUNT).setInt p 1
      let b := s1.agent pd
      let s2 := s1.setAgent pd { b with
        run := b.run.map fun r => { r with held := r.held + 64 * d }, gated := b.gated + 64 * d }
      .next (((s2.bump64 p 0x118 (64 * d)).holdDie pd s.clock.beats.toNat (64 * d)).showDuty pd)

/-! Ratio requests (R563 to R566). -/

/-- Reasons active at a ratio evaluation: SUST, PEAK, THERM, FORCE as bits 0 to 3. -/
def State.ratioReasons (s : State) : Nat :=
  let beats := s.clock.beats.toNat - s.power.evalBeat
  let up := s.fld rmPage Reg.RM_RATIO_CFG_GATE_UP
  let sust := decide (s.sustCap * 1000 < s.powerSecond)
  let peak := s.power.sawPeak || s.poweredDies.any fun pd => decide (up * beats < (s.agent pd).gated * 64)
  let therm := s.poweredDies.any fun pd => decide (10 ≤ (s.agent pd).hotMs) || decide (10 ≤ (s.agent pd).thrMs)
  let force := s.flag rmPage Reg.RM_CTRL_FORCE_EN && decide (s.fld rmPage Reg.RM_STAT_REQ < s.fld rmPage Reg.RM_CTRL_FORCE)
  b2n sust + 2 * b2n peak + 4 * b2n therm + 8 * b2n force

/-- VCORE may be lowered to the voltage of the current ratio (R565). -/
def State.voltLower (s : State) : State :=
  let next := s.sched.ratioDue.orElse fun _ => s.sched.ratioNext
  if s.power.volt < s.sched.ratioCur ∧ (next.all fun n => decide (s.sched.ratioCur ≤ n)) ∧
      s.sched.ratioCur ≤ s.fld rmPage Reg.RM_STAT_REQ then
    { s with power := { s.power with volt := s.sched.ratioCur } }
  else s

/-- While no schedule is armed or runs, the request applies directly (R566). -/
def State.ratioApply (s : State) : State :=
  if s.rmRests then
    { s with sched := { s.sched with ratioCur := s.fld rmPage Reg.RM_STAT_REQ } }
  else s

/-- RATIO_EVAL (R563, R565, R567): volt: every group's VCORE reaches the voltage of the next faster ratio. -/
def execRatioEval (volt : Bool) (s : State) : Host.Outcome State Fault Refusal :=
  let reasons := s.ratioReasons
  let req := s.fld rmPage Reg.RM_STAT_REQ
  let force := if s.flag rmPage Reg.RM_CTRL_FORCE_EN then s.fld rmPage Reg.RM_CTRL_FORCE else 0
  let gated := s.poweredDies.any fun pd => decide (0 < (s.agent pd).gated)
  let faster := !s.power.sawHigh && !gated && decide (max force s.power.floor < req)
  let new := if reasons = 8 then force else if reasons ≠ 0 then min 3 (req + 1)
    else if faster && (volt || decide (s.power.volt < req)) then req - 1 else req
  let s1 := if new < req ∧ new < s.power.volt then { s with power := { s.power with volt := new } } else s
  let s2 := (s1.ratioRequest new reasons).ratioApply.voltLower
  let s3 := s2.poweredDies.foldl (fun (t : State) pd => t.setAgent pd { t.agent pd with gated := 0 }) s2
  .next { s3 with power := { s3.power with sawPeak := false, sawHigh := false, evalBeat := s.clock.beats.toNat } }

/-! Heartbeat and SAFE (R555, R578). -/

/-- RM_STAT.SAFE_ANY after a change of an agent. -/
def State.safeAny (s : State) : State :=
  s.setFlag rmPage Reg.RM_STAT_SAFE_ANY (s.poweredDies.any fun pd => s.flag (pagentPage pd) Reg.PA_STAT_SAFE)

/-- RM_HEARTBEAT: an agent receives the heartbeat; one in SAFE leaves it. -/
def execRmHeartbeat (pd : PD) (s : State) : Host.Outcome State Fault Refusal :=
  let p := pagentPage pd
  if s.role pd = .off then .next s
  else
    let s1 := s.setFlag p Reg.PA_STAT_HB_OK true
    .next (if s.flag p Reg.PA_STAT_SAFE then ((s1.setFlag p Reg.PA_STAT_SAFE false).reportOpen p 5).safeAny else s1)

/-- PA_SAFE_ENTRY: an agent has missed the heartbeat for 10 ms. -/
def execPaSafeEntry (pd : PD) (s : State) : Host.Outcome State Fault Refusal :=
  let p := pagentPage pd
  if s.role pd = .off ∨ s.flag p Reg.PA_STAT_SAFE then .next s
  else .next (((((s.setFlag p Reg.PA_STAT_HB_OK false).setFlag p Reg.PA_STAT_SAFE true).reportOpen p 2).setInt p 2).safeAny.alertCause)

/-! Filler (R568 to R570). -/

/-- LEVELi, encoded v for (v + 1)/256; none past the eighth. -/
def State.fillLevel (s : State) (i : Nat) : Nat := bitsOf (s.reg64 rmPage 0x124) (8 * i) 8 + 1

/-- D(t) and U(t) of R569 for beats t, begin, end. -/
def State.fillD (s : State) (t b : Nat) : Nat :=
  let k := (t - b) / max 1 (s.fld rmPage Reg.RM_FILL_CFG_STEP_BEATS)
  if k < 8 then s.fillLevel k else 0

def State.fillU (s : State) (t e : Nat) : Nat :=
  let step := max 1 (s.fld rmPage Reg.RM_FILL_CFG_STEP_BEATS)
  if e ≤ t then 256 else if t + 8 * step < e then 0 else s.fillLevel (7 - (t + 8 * step - e) / step)

/-- The descriptor of job step j. -/
def seqIndex : List SeqEntry → Nat → Option Nat
  | [], _ => none
  | e :: es, j => if j < e.times then some e.desc else seqIndex es (j - e.times)

/-- The record of a declared barrier in force on a logical die at this beat (R568). -/
def State.barrierNow (s : State) (ld : Nat) : Option ActRec :=
  match s.sched.image with
  | none => none
  | some img =>
    match seqIndex img.seqs s.sched.jstep.toNat with
    | none => none
    | some d =>
      match img.actOf d ld with
      | some r =>
        let last := r.idleEnd == s.sched.len + s.sched.cwin
        if r.barrier && decide (r.idleBegin ≤ s.sched.beat) && (decide (s.sched.beat < r.idleEnd) || last) then some r else none
      | none => none

/-- Filler rows of a core in a slice of 64 beats that begins now on a die; act: the die's measured array activity over the
1024 beats before a hold, in 1/1024 (R569, R570). -/
def State.fillRows (s : State) (pd : PD) (act : Nat) : Nat :=
  if !s.flag rmPage Reg.RM_CTRL_FILL_EN then 0
  else if s.sched.state = .held then
    let us := (s.clock.time.toNat - s.sched.heldSince) / 100
    let hold := s.fld rmPage Reg.RM_FILL_CFG_HOLD_FILL_US
    let k := (us - hold) * (4800 / ratioDiv s.sched.ratioCur) / max 1 (s.fld rmPage Reg.RM_FILL_CFG_STEP_BEATS)
    if hold = 0 then 0 else if us < hold then act / 16 else if k < 7 then act * s.fillLevel (k + 1) / 4096 else 0
  else if !s.schedRuns then 0
  else
    match (s.ldOf pd).bind s.barrierNow with
    | some r => r.arrayPeak * max (s.fillD s.sched.beat r.idleBegin) (s.fillU s.sched.beat r.idleEnd) / 4096
    | none => 0

/-- FILLER_SLICE: each filler core crosses its array with rows on the first of its free beats; only activity comes of it.
free: the free beats of each core in the slice. -/
def execFillerSlice (pd : PD) (free : List (MC × Fin 65)) (act : Fin 1025) (s : State) : Host.Outcome State Fault Refusal :=
  let n := s.fillRows pd act.val
  .next (free.foldl (fun (t : State) (x : MC × Fin 65) =>
    let c := t.core pd x.1
    if c.status = .running ∨ c.status = .waitTs ∨ c.status = .waitStep then
      t.actAdd pd (some (t.fld (mcorePage pd x.1) Reg.MCORE_CTXID_CTXID)) 1 (min n x.2.val * 65536)
    else t) s)

/-! The beginning of an emergency stop (R574 to R576). -/

/-- The cause of an emergency stop is latched and every die gates fully; THERMTRIP_N follows causes 2 to 4. -/
def State.stopBegin (s : State) (cause pd : Nat) (temp : Nat) : State :=
  if s.fld rmPage Reg.RM_STAT_STOP_CAUSE ≠ 0 then s
  else
    let s1 := ((s.setFld rmPage Reg.RM_STAT_STOP_CAUSE cause).report rmPage 1 (cause + pd * 2 ^ 8 + temp * 2 ^ 16)).assertAlert
    let s2 := (s1.stateEvent 200 cause 0).histAdd 9 pd 0 0 cause
    let s3 := if 2 ≤ cause ∧ cause ≤ 4 then { s2 with boot := { s2.boot with pins := { s2.boot.pins with thermtrip := true } } } else s2
    let s4 := ({ s3 with power := { s3.power with stop := 1 } }).setFld tbPage Reg.TB_PWR_REQ_ON 0
    let s5 := s4.setFld tbPage Reg.TB_PWR_REQ_OFF 0
    s5.poweredDies.foldl (fun (t : State) d => t.showDuty d) s5

/-- DIE_TRIP: a die sensor reaches DIE_TRIP. -/
def execDieTrip (pd : PD) (temp : Byte) (s : State) : Host.Outcome State Fault Refusal :=
  if s.role pd = .off ∨ temp.toInt < 115 then .next s else .next (s.stopBegin 2 pd.val temp.toNat)

/-- STACK_TRIP: a stack sensor reaches STACK_TRIP. -/
def execStackTrip (pd : PD) (temp : Byte) (s : State) : Host.Outcome State Fault Refusal :=
  if !s.isFull pd ∨ temp.toInt < 110 then .next s else .next (s.stopBegin 3 pd.val temp.toNat)

/-- CRIT_HELD: a die or stack has stayed critical for 1 s. -/
def execCritHeld (pd : PD) (s : State) : Host.Outcome State Fault Refusal :=
  let a := s.agent pd
  let p := pagentPage pd
  if a.critDie then .next (s.stopBegin 4 pd.val (s.fld p Reg.PA_TEMP_TDIE))
  else if a.critStack then .next (s.stopBegin 4 pd.val (s.fld p Reg.PA_TEMP_TSTACK))
  else .next s

/-- COOLANT_FAULT: COOLANT_FAULT_N is low in ten samples in a row; it is not sampled in stage 0 (R684). The level is reported
as sensor 214. -/
def execCoolantFault (s : State) : Host.Outcome State Fault Refusal :=
  let s1 := ({ s with boot := { s.boot with pins := { s.boot.pins with coolantN := true } } }).stateEvent 214 0 (b2n (!s.boot.pins.coolantN))
  if s.fld tbPage Reg.TB_STAGE_STAGE = 0 then .next s1 else .next (s1.stopBegin 1 0 0)

/-! Fraction table (R556, R557). -/

/-- The default table: 256 per I/O-only die, the rest equally to the full dies, the remainder to LD0's. -/
def State.defaultFrac (s : State) (pd : PD) : Nat :=
  let io := ((List.finRange 56).filter fun d => s.role d == .ioOnly).length
  let n := max 1 s.fullDies.length
  let rest := 65536 - 256 * io
  match s.role pd with
  | .off => 0
  | .ioOnly => 256
  | .full => rest / n + (if s.pdOfLd 0 = some pd then rest % n else 0)

/-- Loads the default table: into the staged copy, and at stage 2 into the active one too. -/
def State.loadFrac (s : State) (both : Bool) : State :=
  (List.finRange 56).foldl (fun (t : State) pd =>
    let v := s.defaultFrac pd
    let t1 := t.setFld rmPage Reg.RM_FRAC_STAGED (v % 65536) pd.val
    if both then t1.setFld rmPage Reg.RM_FRAC_ACTIVE (v % 65536) pd.val else t1) s

/-- A Ringmaster command ends. -/
def State.rmCmdEnd (s : State) (code : Nat) : State :=
  ((s.setFld rmPage Reg.RM_CMD_STATUS_CODE code).setFlag rmPage Reg.RM_CMD_STATUS_VALID true).setInt rmPage 7

/-- The first check of FRAC_COMMIT that fails: 1 the sum, 2 a full die below 256, 3 the state. -/
def State.fracFault (s : State) : Nat :=
  let staged (pd : PD) : Nat := s.fld rmPage Reg.RM_FRAC_STAGED pd.val
  if (List.finRange 56).foldl (fun n pd => n + staged pd) 0 ≠ 65536 then 1
  else if s.fullDies.any fun pd => decide (staged pd < 256) then 2
  else if !s.rmRests then 3
  else 0

/-- RM_CMD.GO (R556, R557, R585). -/
def State.rmGo (s : State) (cmd : Nat) : State :=
  let s0 := s.setFlag rmPage Reg.RM_CMD_STATUS_VALID false
  match cmd with
  | 1 =>
    let f := s.fracFault
    if f ≠ 0 then (s0.blockErr rmPage 0 0 0 f).rmCmdEnd 0x30
    else
      let s1 := (List.range 56).foldl (fun (t : State) i =>
        t.setFld rmPage Reg.RM_FRAC_ACTIVE (t.fld rmPage Reg.RM_FRAC_STAGED i) i) s0
      (s1.reportOpen rmPage 6).rmCmdEnd 0
  | 2 => (s0.loadFrac false).rmCmdEnd 0
  | _ => s0.rmCmdEnd 0

/-- A write of RM_CTRL.MODE (R562): while a job is armed or runs it is discarded, with an error. -/
def State.modeWrite (s : State) (v : Bool) : State :=
  if s.flag rmPage Reg.RM_CTRL_MODE == v then s
  else if s.rmRests then
    let s1 := s.setFlag rmPage Reg.RM_CTRL_MODE v
    s1.poweredDies.foldl (fun (t : State) pd => t.showDuty pd) s1
  else s.blockErr rmPage 0 0 0 0

/-! Attribution (R579 to R583). -/

/-- Activity of the package by slot × 16 + class. -/
def State.actTotal (s : State) : List (Nat × Nat) :=
  s.power.agents.foldl (fun m (x : Nat × AgentSt) => x.2.act.foldl (fun m' (k : Nat × Nat) =>
    mput (fun _ => 0) m' k.1 (mget (fun _ => 0) m' k.1 + k.2)) m) []

/-- Static energy of a millisecond, in µJ. -/
def State.staticUj (s : State) : Nat :=
  (List.finRange 56).foldl (fun n pd => match s.role pd with
    | .full => n + s.fld rmPage Reg.RM_STATIC_FULL_MW
    | .ioOnly => n + s.fld rmPage Reg.RM_STATIC_IO_MW
    | .off => n) 0

/-- Model energy of a slot in the interval, in fJ. -/
def State.slotModel (s : State) (tot : List (Nat × Nat)) (i : Nat) : Nat :=
  if i = 63 then s.staticUj * 1000000000
  else (List.range 10).foldl (fun n c =>
    n + (mget (fun _ => 0) tot (i * 16 + c) - mget (fun _ => 0) s.power.attrLast (i * 16 + c)) * s.coef c) 0

/-- A slot takes its share; its reaching the budget raises BUDGET (R582). -/
def State.slotTake (s : State) (i e m : Nat) : State :=
  let v := s.attrSlot i
  let en := v.energy + e
  let hit := !v.reached && decide (v.budget ≤ en)
  let s1 := s.setAttrSlot i { v with energy := en, model := v.model + m, reached := v.reached || hit }
  if hit then (s1.report rmPage 4 i).setInt rmPage 4 else s1

/-- A change of the map takes effect and clears the slot (R579). -/
def State.slotRemap (s : State) (i : Nat) : State :=
  let v := s.attrSlot i
  match v.newMap with
  | none => s
  | some (ctx, valid) => s.setAttrSlot i { v with ctx := ctx, valid := valid, newMap := none, energy := 0, model := 0, reached := false }

/-- E ÷ M over the last second lies outside 0.75 to 1.33 (R583). -/
def State.diverges (s : State) : Bool :=
  let e : Nat := s.power.ratios.foldl (fun n x => n + x.1) 0 * 1000000000
  let m : Nat := s.power.ratios.foldl (fun n x => n + x.2) 0
  decide (0 < m) && (decide (e * 4 < m * 3) || decide (m * 133 < e * 100))

/-- ATTR_INTERVAL: the energy of the millisecond is attributed to the slots. -/
def execAttrInterval (s : State) : Host.Outcome State Fault Refusal :=
  let tot := s.actTotal
  let en := s.reg64 rmPage 0x114
  let e := en - s.power.attrEnergy
  let ms := (List.range 64).map fun i => s.slotModel tot i
  let m := ms.sum
  let s1 := if !s.flag rmPage Reg.RM_CTRL_ATTR_EN then s
    else
      let share (x : Nat) : Nat := if m = 0 then 0 else x * e / m
      let given := (ms.take 63).foldl (fun n x => n + share x) 0
      let t1 := ms.zipIdx.foldl (fun (t : State) (x : Nat × Nat) =>
        t.slotTake x.2 (if x.2 = 63 then e - given else share x.1) x.1) s
      let t2 := { t1 with power := { t1.power with ratios := ((e, m) :: t1.power.ratios).take 1000 } }
      if t2.diverges && !t2.flag rmPage Reg.RM_STAT_DIVERGE then
        let se := t2.power.ratios.foldl (fun n x => n + x.1) 0 * 1000000000
        let sm := t2.power.ratios.foldl (fun n x => n + x.2) 0
        ((t2.setFlag rmPage Reg.RM_STAT_DIVERGE true).report rmPage 5 (min 0xFFFFFFFF (se * 4096 / sm))).setInt rmPage 5
      else t2
  let s2 := { s1 with power := { s1.power with attrLast := tot, attrEnergy := en } }
  .next ((List.range 64).foldl (fun (t : State) i => t.slotRemap i) s2)

end Sys2Proof.Machine
end

