-- ==== Sys2Proof/Machine/TsramOps.lean ====
section
/-!
DEFINITION. The scrubber, pool masks and commands of Tier S, and the pages of the Turnstile pools
(spec/09_turnstiles.md R254, R261, R264 to R266, spec/10_tier_s_scratch.md R279, R281, R283, R285).
-/
namespace Sys2Proof.Machine

/-- States in which a die's commands on job state run. -/
def State.pageRests (s : State) : Bool :=
  s.sched.state == .idle || s.sched.state == .loaded || s.sched.state == .ended

/-! The scrubber (R283). -/

/-- The scrubber reads its line of every bank: ce: banks whose line needed a correction; ue: banks and words with a
double-bit error. -/
def State.scrubLine (s : State) (pd : PD) (ce : List Nat) (ue : List (Nat × Nat)) : State :=
  let p := diePage .tsram pd
  match s.ldOf pd with
  | none => s
  | some ld =>
    if !s.flag p Reg.TSRAM_CFG_SCRUB_EN then s
    else
      let line := mget (fun _ => 0) s.tierS.scrubPos pd.val
      let s1 := ce.foldl (fun t b => t.sCorrected ld b 1) s
      let s2 := ue.foldl (fun t x => t.sPoison (saOf ld x.1 (line * 128 + x.2 * 16) / 16)) s1
      let s3 := (List.range 64).foldl (fun t b =>
        match t.poisonIn (saOf ld b (line * 128)) 128 with
        | some w => t.sDetect w 3
        | none => t) s2
      let next := (line + 1) % 12288
      let s4 := { s3 with tierS := { s3.tierS with scrubPos := mput (fun _ => 0) s3.tierS.scrubPos pd.val next } }
      if next = 0 then s4.bump p Reg.TSRAM_SCRUB_PASSES_COUNT else s4

/-- Every 1024 beats the scrubber reads one line per bank. -/
def execTsramScrubTick (pd : PD) (ce : List (Fin 64)) (ue : List (Fin 64 × Fin 8)) (s : State) : Host.Outcome State Fault Refusal :=
  if s.fenced (diePage .tsram pd) then .next s else
  .next (s.scrubLine pd (ce.map (·.val)) (ue.map fun x => (x.1.val, x.2.val)))

/-! TSRAM commands (R281, R285). -/

/-- ZERO: every line of a die's banks 0, no poison, the pool slabs FREE. -/
def State.zeroDie (s : State) (pd : PD) : State :=
  match s.ldOf pd with
  | none => s
  | some ld =>
    let clr (m : List (Nat × Bool)) : List (Nat × Bool) := m.filter fun x => x.1 / 2 ^ 23 != ld
    { s with tierS := { s.tierS with
        mem := s.tierS.mem.filter fun x => x.1 / 2 ^ 27 != ld
        poison := clr s.tierS.poison
        detected := clr s.tierS.detected
        slabs := s.tierS.slabs.map fun (x : Nat × SlabState) => if x.1 / 1536 = ld ∧ x.2 ≠ SlabState.static then (x.1, SlabState.free) else x } }
      |>.setFlag (diePage .tsram pd) Reg.TSRAM_STAT_POISON false

/-- The end of a command: its code and the CMD_DONE interrupt. -/
def State.tsramEnd (s : State) (pd : PD) (code : Nat) : State :=
  let p := diePage .tsram pd
  (((s.setFlag p Reg.TSRAM_CMD_GO false).setFld p Reg.TSRAM_CMD_STATUS_CODE code).setFlag p Reg.TSRAM_CMD_STATUS_VALID true).setInt p 3

/-- GO: ZERO takes 12,288 beats; NONE and a refused command end at once. -/
def State.tsramGo (s : State) (pd : PD) (cmd : Nat) : State :=
  let p := diePage .tsram pd
  let s1 := s.setFlag p Reg.TSRAM_CMD_STATUS_VALID false
  if s.flag p Reg.TSRAM_CMD_GO then s
  else if !s.pageRests then s1.tsramEnd pd 0x30
  else if cmd = 0 then s1.tsramEnd pd 0
  else { s1 with tierS := { s1.tierS with zeroDue := mput (fun _ => 0) s1.tierS.zeroDue pd.val (s.clock.beats.toNat + 12288) } }
      |>.setFlag p Reg.TSRAM_CMD_GO true

/-- ZERO completes. -/
def execTsramCmdDone (pd : PD) (s : State) : Host.Outcome State Fault Refusal :=
  if s.fenced (diePage .tsram pd) then .next s else
  if !s.flag (diePage .tsram pd) Reg.TSRAM_CMD_GO || decide (s.clock.beats.toNat < mget (fun _ => 0) s.tierS.zeroDue pd.val) then .next s
  else
    let s1 := s.zeroDie pd
    .next ({ s1 with tierS := { s1.tierS with zeroDue := mput (fun _ => 0) s1.tierS.zeroDue pd.val 0 } }.tsramEnd pd 0)

/-- A write of TSRAM_POOL_MASK (R279). -/
def State.poolMaskWrite (s : State) (pd : PD) (mask : Nat) : State :=
  if s.pageRests then s.poolMask pd mask else s.blockErr (diePage .tsram pd) 0 0 0 0

/-! The die pools (R254, R264 to R266). -/

/-- A remote TSOP reaches its pool over Midway. -/
def execTsRemotePost (pd : PD) (s : State) : Host.Outcome State Fault Refusal :=
  match s.ts.remote.find? fun o => keyPd o.key == pd with
  | some o => .next ({ s with ts := { s.ts with remote := s.ts.remote.erase o } }.tsAt o)
  | none => .next s

/-- TSTILE commands run in these states (R265). -/
def State.tstileRests (s : State) : Bool := s.pageRests || s.sched.state == .trapped

/-- The pool without its cells. -/
def State.poolClear (s : State) (pd : PD) : State :=
  { s with ts := { s.ts with cells := s.ts.cells.filter fun c => !(keyIsPool c.1 && keyPd c.1 == pd) } }

/-- Values and flags of a pool (R264). -/
def State.poolLoad (s : State) (pd : PD) (value : Nat → Nat) (sticky : Nat → Bool) : State :=
  (List.range 4096).foldl (fun t i => t.setTsCell (poolKey pd i) { v := value i, base := value i, sticky := sticky i }) (s.poolClear pd)

/-- Number whose bits are those of f, n of them. -/
def packBits (f : Nat → Bool) (n : Nat) : Nat := (List.range n).foldl (fun v i => v + b2n (f i) * 2 ^ i) 0

/-- The image of a die pool (R264). -/
def State.poolImage (s : State) (pd : PD) : List Byte :=
  leBytes 0x5A504F4C 4 ++ leBytes 1 4 ++ leBytes ((s.ldOf pd).getD 0) 56 ++
  (List.range 4096).flatMap (fun i => leBytes (s.tsCell (poolKey pd i)).v 4) ++
  (List.range 512).flatMap (fun k => leBytes (packBits (fun b => (s.tsCell (poolKey pd (8 * k + b))).sticky) 8) 1)

/-- An image that RESTORE accepts. -/
def poolImageOk (bs : List Byte) : Bool :=
  leNat (bs.take 4) == 0x5A504F4C && leNat ((bs.drop 4).take 2) == 1 &&
  (List.range 4096).all fun i => !bitOf (leNat ((bs.drop (0x40 + 4 * i)).take 4)) 31

def State.tstileEnd (s : State) (pd : PD) (code : Nat) : State :=
  let p := diePage .tstile pd
  (((s.setFlag p Reg.TS_CMD_GO false).setFld p Reg.TS_CMD_STATUS_CODE code).setFlag p Reg.TS_CMD_STATUS_VALID true).setInt p 3

/-- GO on TS_CMD. -/
def State.tstileGo (s : State) (pd : PD) (cmd : Nat) : State :=
  let p := diePage .tstile pd
  let s1 := s.setFlag p Reg.TS_CMD_STATUS_VALID false
  if s.flag p Reg.TS_CMD_GO then s
  else if !s.tstileRests then s1.tstileEnd pd 0x30
  else if cmd = 0 then s1.tstileEnd pd 0
  else { s1 with ts := { s1.ts with run := mput (fun _ => 0) s1.ts.run pd.val cmd } }.setFlag p Reg.TS_CMD_GO true

/-- The pool after a RESTORE that failed: undefined until CLEAR (R265). -/
def State.poolUndefined (s : State) (pd : PD) : State :=
  (s.poolLoad pd (fun i => Config.freeNat s.freeCtr i 31) (fun i => Config.freeBit s.freeCtr (4096 + i))).nextFree

/-- The command's effect and its code. -/
def State.tstileRun (s : State) (pd : PD) (cmd : Nat) (err : TierFail) : Nat × State :=
  let p := diePage .tstile pd
  let ctx := s.fld p Reg.TS_CTXID_CTXID
  let a := s.reg64 p 0x118 % 2 ^ 52
  match cmd with
  | 1 =>
    let (c, s1) := s.memWrite ctx a (s.poolImage pd)
    (cmdCodeOf c err, s1)
  | 2 =>
    let (c, bs, s1) := s.memRead ctx a 16960
    let code := cmdCodeOf c err
    if code ≠ 0 then (code, s1.poolUndefined pd)
    else if !poolImageOk bs then (0x30, s1.poolUndefined pd)
    else (0, s1.poolLoad pd (fun i => leNat ((bs.drop (0x40 + 4 * i)).take 4))
      (fun i => bitOf (leNat ((bs.drop (0x4040 + i / 8)).take 1)) (i % 8)))
  | _ => (0, s.poolClear pd)

/-- A TSTILE command completes. -/
def execTstileCmdDone (pd : PD) (err : TierFail) (s : State) : Host.Outcome State Fault Refusal :=
  if s.fenced (diePage .tstile pd) then .next s else
  let p := diePage .tstile pd
  if s.flag p Reg.TS_CMD_GO then
    let (code, s1) := s.tstileRun pd (mget (fun _ => 0) s.ts.run pd.val) err
    .next (s1.tstileEnd pd code)
  else .next s

end Sys2Proof.Machine
end

