-- ==== Sys2Proof/Machine/Xlate.lean ====
section
/-!
DEFINITION. The commands of translation that reach no register: the DTU's work and a command's completion
(spec/15_address_translation.md R400, R405, R409).
-/
namespace Sys2Proof.Machine

/-- DTU_TRANSLATE: a die's DTU translates the spans of a descriptor; the answer is the region block, or the failure's
report. -/
def execDtuTranslate (pd : PD) (cls : XClass) (ctx : Half) (tag : Word) (spans : List Span) (s : State) : Host.Outcome State Fault Refusal :=
  let (b, s1) := s.dtu pd cls ctx.toNat tag.toNat spans
  .next { s1 with reply := b.map fun x => .bytes x.bytes }

/-- Every full die's XLATE page. -/
def State.xlPages (s : State) : List Page := s.fullDies.map (diePage .xlate)

/-- RID_FLUSH drops the requester entries a root port caches (R409). -/
def State.dropRids (s : State) (n : Nat) : State := s.setRport n { s.rport n with rids := [] }

/-- XLATE_CMD_DONE: the command in progress completes on every die; late: a die did not complete within the bound. -/
def execXlateCmdDone (late : Bool) (s : State) : Host.Outcome State Fault Refusal :=
  match s.xl.cmd with
  | none => .next s
  | some _ =>
    .next (s.xlPages.foldl (fun t p =>
      (((t.setFlag p Reg.XLATE_CMD_GO false).setFld p Reg.XLATE_CMD_STATUS_CODE (if late then 0x7F else 0)).setFlag p
        Reg.XLATE_CMD_STATUS_VALID true).setInt p 2) (s.setXl { s.xl with cmd := none }))

/-- An epoch rises, and every cached translation of the context is dropped (R405). -/
def State.advance (s : State) (ctx : Option Nat) : State :=
  let x := match ctx with
    | some c => { s.xl with epochs := mmodify (fun _ => 0) s.xl.epochs c (· + 1) }
    | none => { s.xl with epochAll := s.xl.epochAll + 1 }
  { s.setXl x with tcs := s.tcs.map fun (k, t) => (k, { t with xlate := [] }) }

/-- GO on XLATE_CMD (R405, R409): a second GO while a command runs is ignored. -/
def State.xlateGo (s : State) (p : Page) (v : Nat) : State :=
  if s.xl.cmd.isSome then s
  else
    let kind := bitsOf v 0 3
    let ctx := bitsOf v 16 16
    let s1 := s.xlPages.foldl (fun t q => (t.setFlag q Reg.XLATE_CMD_GO true).setFlag q Reg.XLATE_CMD_STATUS_VALID false) s
    let s2 := s1.setXl { s1.xl with cmd := some ⟨pageKey p, kind, ctx, bitsOf v 5 2⟩ }
    if kind = 1 then s2.advance (some ctx) else if kind = 2 then s2.advance none else if kind = 3 then s2.dropRids (bitsOf v 5 2) else s2

end Sys2Proof.Machine
end

