-- ==== Sys2Proof/Machine/RingOps.lean ====
section
/-!
DEFINITION. Command rings: enabling, polling, acceptance and its checks, the start and the end of each kind of descriptor
(spec/16_command_rings.md R415 to R442).
-/
namespace Sys2Proof.Machine

/-! States of a ring (R417). -/

def State.setRingState (s : State) (r st : Nat) : State := s.setFld (ringPage r) Reg.CMDQ_STAT_STATE st

def State.sqBase (s : State) (r : Nat) : Nat := s.reg64 (ringPage r) 0x108 % 2 ^ 52
def State.cqBase (s : State) (r : Nat) : Nat := s.reg64 (ringPage r) 0x110 % 2 ^ 52
def State.sqSlots (s : State) (r : Nat) : Nat := 2 ^ s.fld (ringPage r) Reg.CMDQ_SIZE_SQ_SIZE
def State.cqSlots (s : State) (r : Nat) : Nat := 2 ^ s.fld (ringPage r) Reg.CMDQ_SIZE_CQ_SIZE

/-- The configuration that ENABLE checks (R415, R417). -/
def State.ringConfigOk (s : State) (r : Nat) : Bool :=
  let p := ringPage r
  let sq := s.fld p Reg.CMDQ_SIZE_SQ_SIZE
  let cq := s.fld p Reg.CMDQ_SIZE_CQ_SIZE
  let a := s.sqBase r
  let b := s.cqBase r
  let top := s.place.frames * 2 ^ 21
  decide (4 ≤ sq) && decide (sq ≤ 16) && decide (4 ≤ cq) && decide (cq ≤ 16) && a % 4096 == 0 && b % 4096 == 0 &&
  decide (a + 256 * s.sqSlots r ≤ top) && decide (b + 64 * s.cqSlots r ≤ top) &&
  (decide (a + 256 * s.sqSlots r ≤ b) || decide (b + 64 * s.cqSlots r ≤ a))

/-- WORD0 of every slot or record becomes 0. -/
def State.zeroWords (s : State) (base stride n : Nat) : State :=
  (List.range n).foldl (fun t k => (t.memWrite 0 (base + stride * k) (leBytes 0 8)).2) s

/-- A write of BLK_CTRL.ENABLE at a CMDQ page. -/
def State.ringEnable (s : State) (r : Nat) (on : Bool) : State :=
  let p := ringPage r
  let s0 := s.setFlag p Reg.BLK_CTRL_ENABLE on
  match s.ringState r, on with
  | 0, true =>
    if !s.ringConfigOk r then s.ringErr r 0 1
    else
      let s1 := s0.zeroWords (s.cqBase r) 64 (s.cqSlots r)
      let s2 := (((s1.setRing r {}).setFld p Reg.CMDQ_NEXT_SEQ_SEQ (s.fld p Reg.CMDQ_SEQ_BASE_SEQ)).setFld p
        Reg.CMDQ_SQ_HEAD_SLOT 0).setFld p Reg.CMDQ_CQ_TAIL_SLOT 0
      (((s2.setFlag p Reg.CMDQ_STAT_SQ_PHASE true).setFlag p Reg.CMDQ_STAT_CQ_PHASE true).showOutstanding r).setRingState r 1
  | 1, false => s0.setRingState r 2
  | 2, true => s0.setRingState r 1
  | _, _ => s0

/-! Checks of a slot (R418, R424, R442). -/

/-- Bytes from to below upto of a slot are 0. -/
def slotZero (w from_ upto : Nat) : Bool := bitsOf w (8 * from_) (8 * (upto - from_)) == 0

/-- Bytes of the kind's header that are reserved or unused are 0. -/
def slotReservedOk (w : Nat) : Bool :=
  let z := slotZero w
  let op := bitsOf w (8 * 0x10) 8
  bitsOf w 1 7 == 0 && bitsOf w 18 6 == 0 &&
  match bitsOf w 8 8 with
  | 0 => z 0x10 0x40
  | 1 => z 0x21 0x40 && bitsOf w (8 * 0x20 + 1) 7 == 0
  | 2 => z 0x11 0x14 && z 0x18 0x40
  | 3 => z 0x12 0x40 && bitsOf w (8 * 0x40 + 10) 6 == 0 && bitsOf w (8 * 0x40 + 48) 16 == 0 && bitsOf w (8 * 0x40 + 384) 128 == 0
  | 4 | 5 => z 0x1E 0x20 && z 0x24 0x40
  | 6 => z 0x20 0x40
  | _ =>
    match op with
    | 1 => z 0x11 0x14 && z 0x16 0x40
    | 2 => z 0x13 0x14 && z 0x16 0x18 && z 0x24 0x40
    | _ => z 0x11 0x40

/-- LEN is in its column. -/
def slotLenOk (w : Nat) : Bool :=
  let len := bitsOf w 24 8
  match bitsOf w 8 8 with
  | 3 => len == 64
  | 4 => decide (1 ≤ len) && decide (len ≤ 192)
  | _ => len == 0

/-- The mover descriptor of a MOVE; BUDGET must be 0 (R429). -/
def slotDesc (w : Nat) : Nat := bitsOf w (8 * 0x40) 512

/-- The code of R329's checks for a MOVE's descriptor. -/
def ringDescCode (ldies w : Nat) : Nat :=
  let n := slotDesc w
  if bitsOf n 320 32 ≠ 0 then 0x30 else mvDescCode ldies (n + 2 ^ 320)

/-- Every field is in its range. -/
def slotRangeOk (ldies w : Nat) : Bool :=
  let f (off n : Nat) : Nat := bitsOf w (8 * off) (8 * n)
  match bitsOf w 8 8 with
  | 0 => true
  | 1 => f 0x10 8 % 4096 == 0
  | 2 => decide (f 0x10 1 ≤ 2)
  | 3 => (f 0x10 1 == 0xFF || decide (f 0x10 1 < ldies)) && (f 0x11 1 == 0xFF || decide (f 0x11 1 ≤ 3)) && ringDescCode ldies w != 0x30
  | 4 | 5 =>
    let rlen := f 0x19 1
    decide (f 0x18 1 ≤ 1) && (if bitsOf w 8 8 = 4 then rlen == 0 else decide (1 ≤ rlen) && decide (rlen ≤ 48)) &&
    (f 0x1A 1 == 0 || f 0x1A 1 == 2) && (f 0x1A 1 == 0 || decide (f 0x1B 1 < ldies)) && decide (f 0x1C 2 ≤ 4095) &&
    decide (f 0x20 4 < 2 ^ 31)
  | 6 => decide (f 0x10 1 < ldies) && decide (f 0x11 1 ≤ 1) && decide (f 0x12 2 ≤ 4095) && decide (f 0x14 4 < 2 ^ 31)
  | _ => decide (f 0x10 1 ≤ 3) && (f 0x10 1 != 2 || (decide (1 ≤ f 0x11 1) && decide (f 0x11 1 ≤ 9)))

/-- The reason for which a slot fails a check at acceptance, 0 for none, in the order of R442. -/
def slotReason (ldies w : Nat) : Nat :=
  if 8 ≤ bitsOf w 8 8 then 3
  else if !slotReservedOk w then 4
  else if !slotLenOk w then 5
  else if !slotRangeOk ldies w then 6
  else 0

/-! Translation for a ring (R392, R429, R430). -/

/-- The translation of a descriptor's spans: cause and address of a failure, reported. -/
def State.ringXlate (s : State) (c : XClass) (ctx seq : Nat) (spans : List Span) : Except (Nat × Nat) RegBlock × State :=
  match s.translateSpans s.leadPd c ctx spans with
  | (.ok b, s1) => (.ok b, s1)
  | (.error (e, va, w), s1) => (.error (e.cause, va), s1.xlateFault s.leadPd c ctx va seq w e)

/-- DETAIL of a failed transfer (R435). -/
def failDetail (addr cause count : Nat) : List Byte := leBytes addr 8 ++ leBytes cause 4 ++ leBytes count 4

/-! Resources (R423). -/

/-- Dies and movers that a MOVE may use, in the order Barker tries them. -/
def State.moveChoices (s : State) (w : Nat) : List (PD × Nat) :=
  let ld := bitsOf w (8 * 0x10) 8
  let mv := bitsOf w (8 * 0x11) 8
  let dies := if ld = 0xFF then s.fullDies else (s.pdOfLd ld).toList
  let ixs := if mv = 0xFF then List.range 4 else [mv]
  (dies.flatMap fun pd => ixs.map fun i => (pd, i)).filter fun x => s.takesWork (mvPage x.1 x.2)

def MoverSt.freeRing (m : MoverSt) : Option Nat := (List.range 4).find? fun k => (m.rslot k).isNone

/-- The mover and ring slot that take a MOVE. -/
def State.moveSlot (s : State) (w : Nat) : Option (PD × Nat × Nat) :=
  (s.moveChoices w).findSome? fun x => ((s.mover x.1 x.2).freeRing).map fun k => (x.1, x.2, k)

def slotResv (w : Nat) : Nat := if bitsOf w 8 8 = 2 then 2 else 1

/-- The CQ and the unit of a descriptor have room. -/
def State.ringRoom (s : State) (r w : Nat) : Bool :=
  s.cqRoom r (slotResv w) &&
  (slotReason s.fullDies.length w != 0 ||
   match bitsOf w 8 8 with
   | 3 => (s.moveSlot w).isSome
   | 4 | 5 => decide ((s.reqsWhere fun q => (q.kind == 4 || q.kind == 5) && !q.isEnded).length < 64)
   | 6 => decide ((s.reqsWhere fun q => q.kind == 6 && !q.isEnded).length < 256)
   | _ => true)

/-! Rights (R425). -/

/-- The CTXID of the job concerned: the current one's, else what its last job left. -/
def State.concerned (s : State) : Nat :=
  match s.jobs.cur with
  | some j => j.ctx
  | none => s.fld (diePage .tstile s.leadPd) Reg.TS_CTXID_CTXID

def State.ringMayJob (s : State) (r : Nat) : Bool := s.ringCtx r == 0 || s.ringCtx r == s.concerned

/-- A descriptor that a ring may not give. -/
def State.ringForbids (s : State) (r : Nat) (q : Req) : Bool :=
  let d := mvDesc (slotDesc q.slot)
  let own := s.ringCtx r
  match q.kind with
  | 2 | 6 => !s.ringMayJob r
  | 3 => (!d.sSys || (d.op == 0 && !d.dSys)) && !s.ringMayJob r
  | 4 | 5 => q.field 0x18 1 == 0 && !s.ringMayJob r
  | 7 =>
    own != 0 &&
    (match q.field 0x10 1 with
     | 1 => q.field 0x14 2 != own
     | 2 =>
       let c := q.field 0x11 1
       !(c == 7 || c == 8 || (c == 2 && q.field 0x14 2 == own))
     | _ => false)
  | _ => false

/-! Moves (R429). -/

/-- The post of a move that ended at beat done (R429). -/
def State.ringPost (s : State) (pd : PD) (i : Nat) (d : MvDesc) (value done : Nat) : State :=
  let y := done + 1
  let op (key y : Nat) : TsOp :=
    { key := key, y := y, sub := false, ring := false, who := whoMover ((s.ldOf pd).getD 0) i, k := value, sbeat := 0, lc := 0x3FF, src := 1 }
  match d.cls with
  | 1 => s.tsAt (op (poolKey pd d.index) y)
  | 2 =>
    match s.pdOfLd d.ld with
    | some q => s.tsAt (op (poolKey q d.index) (y + 180))
    | none => s
  | _ => s

/-- A move ends: the slot is free, its post is made, its request ends (R333, R429). -/
def State.moveEnd (s : State) (pd : PD) (i k r seq code value : Nat) (d : MvDesc) (detail : List Byte) : State :=
  let s1 := (s.setRingMv pd i k none).bump (mvPage pd i) Reg.MV_DONE_COUNT
  let s2 := if code = 0 then s1 else s1.moverFail pd i seq code 1
  (s2.ringPost pd i d value s.clock.beats.toNat).endReq r seq code detail

/-- The source of a unit is what fails. -/
def State.srcFails (s : State) (g : XGeom) (b : RegBlock) (u k : Nat) (e : PieceErr) : Bool :=
  if g.sSys then (s.vaRead b (g.srcOf u) 128 e.tier (winUnit e.win k)).1 != 0 else (s.bgRead (g.srcOf u) 128 1 b.ctx).1 != 0

/-- A piece of a ring move is performed (R332, R404, R429). -/
def State.ringPiece (s : State) (pd : PD) (i k : Nat) (v : RingMv) (e : PieceErr) : State :=
  match s.findReq v.ring v.seq with
  | none => s.setRingMv pd i k none
  | some q =>
    let d := mvDesc (slotDesc q.slot)
    let fin (t : State) (code value : Nat) (detail : List Byte) : State := t.moveEnd pd i k v.ring v.seq code value d detail
    if v.x.select then
      let s0 := match e.ue with | some a => s.sPoison (a.toNat / 16) | none => s
      let (code, bs, s1) := s0.bgRead v.x.geom.sAddr 4 1 v.x.ctx
      if code = 0 then fin s1 0 (leNat bs) [] else fin s1.nextFree code (Config.freeNat s.freeCtr 0 31) (failDetail v.x.geom.sAddr 0 0)
    else
      let at_ := v.x.pos.headD 0
      let (fresh, s1) : Except (Nat × Nat) (Option RegBlock) × State := match v.x.blk with
        | none => (.ok none, s)
        | some b =>
          if b.epoch = s.epoch b.ctx then (.ok (some b), s)
          else
            match (s.bump (diePage .xlate pd) Reg.XLATE_RETRANS_COUNT).ringXlate .ringMove b.ctx v.seq v.x.spans with
            | (.ok b2, t) => (.ok (some b2), t)
            | (.error x, t) => (.error x, t)
      match fresh with
      | .error (cause, va) => fin s1 0x13 d.value (failDetail va cause at_)
      | .ok b =>
        let (x, n, s2) := s1.xferPiece pd .ringMove 1 { v.x with blk := b } e
        let s3 := s2.moved pd i n
        match x.fail with
        | some code =>
          let u := 32 * at_ + n / 128
          let a := if s2.srcFails x.geom (b.getD {}) u (n / 128) e then x.geom.srcOf u else x.geom.dstOf u
          fin s3 code d.value (failDetail a 0 at_)
        | none => if x.done.isSome then fin s3 0 d.value [] else s3.setRingMv pd i k (some { v with x := x })

/-! Acceptance (R421, R424 to R433). -/

/-- A request cannot run: it ends at once. -/
def State.ringReject (s : State) (r seq code : Nat) (detail : List Byte := []) : State := s.endReq r seq code detail

/-- The states in which a TSOP at acceptance is permitted (R431). -/
def State.tsopNow (s : State) : Bool := s.pageRests || s.sched.state == .trapped

/-- The job step of a TSOP has opened. -/
def State.stepOpened (s : State) (j : Nat) : Bool :=
  s.jobActive && (decide (j < s.sched.jstep.toNat) ||
    (j == s.sched.jstep.toNat && !s.sched.committed && (s.sched.state.inStep || s.sched.state == .trapped)))

/-- What acceptance finds wrong with a request that passed its checks: code and DETAIL, and the request with its
translation. -/
def State.acceptKind (s : State) (r : Nat) (q : Req) : Except (Nat × List Byte) Req × State :=
  let ctx := s.ringCtx r
  match q.kind with
  | 1 =>
    let a := q.field 0x10 8
    match s.ringXlate .ringInline ctx q.seq [⟨BitVec.ofNat 64 a, 0x100, false⟩] with
    | (.error _, s1) => (.error (0x13, Job.detail ⟨r, q.seq, ctx, 0, 0, 0, false, 0, false, false⟩ s1 0), s1)
    | (.ok b, s1) =>
      let (code, bs, s2) := s1.memRead ctx ((b.map a).getD 0 + 8) 8
      if code ≠ 0 then (.error (code, Job.detail ⟨r, q.seq, ctx, 0, 0, 0, false, 0, false, false⟩ s2 0), s2)
      else
        match s2.ringXlate .ringInline ctx q.seq [⟨BitVec.ofNat 64 a, BitVec.ofNat 48 (min (max 0x100 (leNat bs)) (2 ^ 48 - 1)), false⟩] with
        | (.error _, s3) => (.error (0x13, Job.detail ⟨r, q.seq, ctx, 0, 0, 0, false, 0, false, false⟩ s3 0), s3)
        | (.ok b2, s3) =>
          if b2.regions.length = 1 then (.ok { q with blk := some b2 }, s3)
          else (.error (0x13, Job.detail ⟨r, q.seq, ctx, 0, 0, 0, false, 0, false, false⟩ s3 0),
            s3.xlateFault s.leadPd .ringInline ctx a q.seq false { cause := 7 })
  | 2 => if s.sched.state = .trapped ∧ q.field 0x14 4 = s.fld s.leadPage Reg.SCHED_JOB_JOB then (.ok q, s) else (.error (0x30, []), s)
  | 3 =>
    let d := mvDesc (slotDesc q.slot)
    if ringDescCode s.fullDies.length q.slot ≠ 0 then (.error (0x13, failDetail (if d.sSys ∨ d.src % (if d.op = 1 then 4 else 128) = 0 then d.dst else d.src) 0 0), s)
    else
      let spans := if d.op = 1 then [] else (mvGeom d).spans
      if spans.isEmpty then (.ok q, s)
      else
        match s.ringXlate .ringMove ctx q.seq spans with
        | (.error (cause, va), s1) => (.error (0x13, failDetail va cause 0), s1)
        | (.ok b, s1) => (.ok { q with blk := some b }, s1)
  | 4 | 5 =>
    let a := q.field 0x10 8
    let n := if q.kind = 4 then q.len else q.field 0x19 1
    if q.field 0x18 1 = 0 then
      if s.saOk a && decide (saOff a + n ≤ bankSize) then (.ok q, s) else (.error (0x13, if q.kind = 4 then failDetail a 0 0 else []), s)
    else
      match s.ringXlate .ringInline ctx q.seq [⟨BitVec.ofNat 64 a, BitVec.ofNat 48 n, q.kind == 4⟩] with
      | (.error (cause, va), s1) => (.error (0x13, if q.kind = 4 then failDetail va cause 0 else []), s1)
      | (.ok b, s1) => (.ok { q with blk := some b }, s1)
  | 6 =>
    let j := q.field 0x18 8
    if j = 2 ^ 64 - 1 then (if s.tsopNow then (.ok q, s) else (.error (0x30, []), s))
    else if s.stepOpened j then (.error (0x30, []), s) else (.ok q, s)
  | 7 =>
    if q.field 0x10 1 = 2 ∧ ctx ≠ 0 then
      let a := q.field 0x18 8
      match s.ringXlate .ringInline ctx q.seq [⟨BitVec.ofNat 64 a, BitVec.ofNat 48 (q.field 0x20 4 * 2 ^ 21), false⟩] with
      | (.error _, s1) => (.error (0x13, leBytes (a / 2 ^ 21) 8), s1)
      | (.ok b, s1) => if b.regions.length = 1 then (.ok { q with blk := some b }, s1) else (.error (0x13, leBytes (a / 2 ^ 21) 8), s1)
    else (.ok q, s)
  | _ => (.ok q, s)

/-- A MOVE takes its ring slot; without one it was not accepted. -/
def State.takeSlot (s : State) (r : Nat) (q : Req) (pd : PD) (i k : Nat) : State :=
  let d := mvDesc (slotDesc q.slot)
  let spans := if d.op = 1 then [] else (mvGeom d).spans
  s.setRingMv pd i k (some
    { ring := r, seq := q.seq
      x := { geom := if d.op = 1 then { sAddr := d.src } else mvGeom d, select := d.op == 1, ctx := s.ringCtx r, tag := q.seq, spans := spans, blk := q.blk } })

/-- Puts an accepted request in its place. -/
def State.putReq (s : State) (r : Nat) (q : Req) : State := s.modReq r q.seq fun _ => q

/-- The values that a device brings to a start exchange. -/
def State.startVals (s : State) : Option StartVals := s.sched.image.map fun i => ⟨i.buildId, i.jobSteps, i.descCrc, i.hdrCrc, 1⟩

/-- A JOB_CTL starts (R428, R436). -/
def State.jobCtl (s : State) (r : Nat) (q : Req) : State :=
  match s.jobs.cur with
  | none => s.endReq r q.seq 0x30
  | some j =>
    if s.sched.state ≠ .trapped then s.endReq r q.seq 0x30
    else
      let s1 := (s.modReq r q.seq fun x => { x with resv := 1, st := .running }).modReq j.ring j.seq fun x => { x with resv := x.resv + 1 }
      let op := q.field 0x10 1
      if op = 0 then s1.endJob 0x20 0
      else if s1.jobs.rerun.isSome then s1
      else
        let s2 := if op = 2 then s1.progCores.foldl (fun t p => t.setFlag (mcorePage p.2.1 p.2.2) Reg.MCORE_CTRL_TRAP_NAN false) s1 else s1
        (({ s2 with jobs := { s2.jobs with rerun := some op } }).setSched fun c => { c with startOwn := s2.startVals, startAt := none }).startTry

/-- A MGMT operation starts (R433). A BARRIER only begins to wait. -/
def State.mgmtOp (s : State) (r : Nat) (q : Req) : State :=
  match q.field 0x10 1 with
  | 0 => s.modReq r q.seq fun x => { x with st := .running }
  | 1 => (s.advance (some (q.field 0x14 2))).endReq r q.seq 0
  | 2 =>
    let a := q.field 0x18 8
    let base := match q.blk with
      | some b => if a % 2 ^ 21 = 0 then (b.map a).getD 0 else a
      | none => a
    let (code, f, s1) := s.placeRun (q.field 0x11 1) (q.field 0x14 2) (q.field 0x12 1) base (q.field 0x20 4)
    s1.endReq r q.seq code (if code = 0 then [] else leBytes f 8)
  | _ => s.endReq r q.seq 0 (leBytes s.clock.time.toNat 8 ++ leBytes s.sched.step.toNat 8 ++ leBytes s.sched.jstep.toNat 8)

/-- A request starts (R424 to R433). -/
def State.startReq (s : State) (r : Nat) (q : Req) : State :=
  let run : State := s.modReq r q.seq fun x => { x with st := .running }
  match q.kind with
  | 0 => s.endReq r q.seq 0
  | 1 =>
    let a := q.field 0x10 8
    let job : Job := { ring := r, seq := q.seq, ctx := s.ringCtx r, image := ((q.blk.bind (·.map a)).getD 0), job := q.field 0x18 4
                       progress := q.field 0x1C 4, trap := bitOf (q.field 0x20 1) 0 }
    { run with jobs := { run.jobs with queue := run.jobs.queue ++ [job] } }
  | 2 => s.jobCtl r q
  | 3 =>
    match q.mover with
    | some (m, k) =>
      let pd := pdOf (m / 4)
      match (s.mover pd (m % 4)).rslot k with
      | some v => run.setRingMv pd (m % 4) k (some { v with go := true })
      | none => run
    | none => run
  | 4 | 5 => run
  | 6 =>
    if q.field 0x18 8 = 2 ^ 64 - 1 then
      match s.pdOfLd (q.field 0x10 1) with
      | some pd => (s.tsApply (poolKey pd (q.field 0x12 2)) (q.field 0x11 1 == 1) (q.field 0x14 4) 0 0x3FF 3).endReq r q.seq 0
      | none => s.endReq r q.seq 0x30
    else run
  | _ => s.mgmtOp r q

/-- The next request of a ring that can start, or BARRIER that can end: an ORDER request and a BARRIER once every earlier
one has posted its FINAL, others once no earlier one waits to start. -/
def State.ringNext (s : State) (r : Nat) : Option Req :=
  match (s.ring r).reqs with
  | [] => none
  | q :: qs =>
    if q.kind = 7 ∧ q.field 0x10 1 = 0 ∧ q.isRunning then some q
    else
      match (q :: qs).find? fun x => x.st == .waiting with
      | none => none
      | some x => if x.order && x.seq != q.seq then none else some x

/-- Starts what can start, at most n requests. -/
def State.ringAdvance : Nat → State → Nat → State
  | 0, s, _ => s
  | n + 1, s, r =>
    match s.ringNext r with
    | none => s
    | some q => State.ringAdvance n (if q.isRunning then s.endReq r q.seq 0 else s.startReq r q) r

def State.ringGo (s : State) (r : Nat) : State := State.ringAdvance (2 * (s.ring r).reqs.length + 2) s r

/-- The head slot is accepted: NEXT_SEQ, head, count and mirror move on (R421). -/
def State.acceptSlot (s : State) (r w : Nat) : State :=
  let p := ringPage r
  let seq := s.fld p Reg.CMDQ_NEXT_SEQ_SEQ
  let head := s.fld p Reg.CMDQ_SQ_HEAD_SLOT + 1
  let wrap := s.sqSlots r ≤ head
  let s1 := (s.setFld p Reg.CMDQ_NEXT_SEQ_SEQ (seq + 1)).setFld p Reg.CMDQ_SQ_HEAD_SLOT (if wrap then 0 else head)
  let s2 := if wrap then s1.setFlag p Reg.CMDQ_STAT_SQ_PHASE (!s.flag p Reg.CMDQ_STAT_SQ_PHASE) else s1
  let g := s2.ring r
  let s3 := ((s2.setRing r { g with reqs := g.reqs ++ [{ seq := seq, slot := w, resv := slotResv w }] }).showOutstanding r).bump64 p 0x150
  (s3.memWrite 0 (s.reg64 p 0x128 % 2 ^ 52) (leBytes (seq + 1) 4)).2

/-- A slot is accepted and judged. -/
def State.ringAccept (s : State) (r w : Nat) : State :=
  let seq := s.fld (ringPage r) Reg.CMDQ_NEXT_SEQ_SEQ
  let s1 := s.acceptSlot r w
  let q : Req := { seq := seq, slot := w, resv := slotResv w }
  let reason := slotReason s.fullDies.length w
  if reason ≠ 0 then ((s1.ringErr r seq reason).ringReject r seq 0x30).ringGo r
  else if s1.ringForbids r q then (s1.ringReject r seq 0x12).ringGo r
  else
    match s1.acceptKind r q with
    | (.error (code, detail), s2) =>
      let s3 := match q.kind, s.moveSlot w with
        | 3, some (pd, i, k) => s2.moveEnd pd i k r seq code (mvDesc (slotDesc w)).value (mvDesc (slotDesc w)) detail
        | _, _ => s2.ringReject r seq code detail
      s3.ringGo r
    | (.ok q2, s2) =>
      let s3 := match q.kind, s.moveSlot w with
        | 3, some (pd, i, k) => (s2.putReq r { q2 with mover := some (pd.val * 4 + i, k) }).takeSlot r q2 pd i k
        | _, _ => s2.putReq r q2
      s3.ringGo r

/-- The slot at the head, where it can be read. -/
def State.headSlot (s : State) (r : Nat) : Option Nat × State :=
  let (code, bs, s1) := s.memRead 0 (s.sqBase r + 256 * s.fld (ringPage r) Reg.CMDQ_SQ_HEAD_SLOT) 256
  (if code = 0 then some (leNat bs) else none, s1)

/-- The head slot of a ring, if it can be accepted and p holds of it, is accepted; a wrong sequence number stalls the
ring (R421). -/
def State.ringTake (s : State) (r : Nat) (p : Nat → Bool) : Bool × State :=
  let pg := ringPage r
  if s.ringState r ≠ 1 ∨ !s.barkerUp ∨ s.fenced pg then (false, s)
  else
    match s.headSlot r with
    | (none, s1) => (false, s1)
    | (some w, s1) =>
      let next := s.fld pg Reg.CMDQ_NEXT_SEQ_SEQ
      let seq := bitsOf w 32 32
      if bitOf w 0 != s.flag pg Reg.CMDQ_STAT_SQ_PHASE then (false, s1)
      else if seq ≠ next then
        (false, ((((s1.setRingState r 3).setFld pg Reg.CMDQ_STALL_SEQ_SEQ seq).setInt pg 2).report pg 1 (seq + next * 2 ^ 32)))
      else if !p w || !s1.ringRoom r w then (false, s1)
      else (true, s1.ringAccept r w)

/-- A turn of Barker at a ring: up to n slots (R423). -/
def State.ringTurn : Nat → State → Nat → State
  | 0, s, _ => s
  | n + 1, s, r =>
    match s.ringTake r fun _ => true with
    | (true, t) => State.ringTurn n t r
    | (false, t) => t

def State.ringPoll (s : State) (r : Nat) : State := State.ringTurn 8 (s.ringGo r) r

/-! Inline transfers (R430). -/

/-- The parts of n bytes from a that lie in one line each. -/
def lineParts (a n : Nat) : List (Nat × Nat) :=
  if n = 0 then []
  else
    (List.range ((a + n - 1) / 128 - a / 128 + 1)).map fun k =>
      let lo := max a ((a / 128 + k) * 128)
      (lo, min (a + n) ((a / 128 + k + 1) * 128) - lo)

/-- Performs the lines of an inline transfer in order: the code, the failing address, the lines performed, the bytes. -/
def State.inlineRun (s : State) (b : Option RegBlock) (write : Bool) (a : Nat) (n : Nat) (bs : List Byte) (e : PieceErr) (ctx : Nat) :
    (Nat × Nat × Nat × List Byte) × State :=
  let s0 := match e.ue with | some x => s.sPoison (x.toNat / 16) | none => s
  (lineParts a n).foldl (fun (acc : (Nat × Nat × Nat × List Byte) × State) (x : Nat × Nat) =>
    if acc.1.1 ≠ 0 then acc
    else
      let got := acc.1.2.2.2
      let k := acc.1.2.2.1
      if write then
        let part := (bs.drop (x.1 - a)).take x.2
        let (c, t) := match b with
          | some m => acc.2.vaWrite m x.1 part e.tier
          | none => acc.2.bgWrite x.1 part ctx
        ((c, x.1, if c = 0 then k + 1 else k, got), t)
      else
        let (c, part, t) := match b with
          | some m => acc.2.vaRead m x.1 x.2 e.tier (match e.win with
            | .data d => .data (d >>> (8 * got.length))
            | w => w)
          | none => acc.2.bgRead x.1 x.2 1 ctx
        ((c, x.1, if c = 0 then k + 1 else k, got ++ part), t)) ((0, a, 0, []), s0)

/-- An inline transfer's lines are performed; its post is made and the descriptor ends. -/
def State.inlineDone (s : State) (r : Nat) (q : Req) (e : PieceErr) : State :=
  let a := q.field 0x10 8
  let write := q.kind == 4
  let n := if write then q.len else q.field 0x19 1
  let bs := leBytes (bitsOf q.slot (8 * 0x40) (8 * n)) n
  let (b, s0) : Except (Nat × Nat) (Option RegBlock) × State := match q.blk with
    | none => (.ok none, s)
    | some b =>
      if b.epoch = s.epoch b.ctx then (.ok (some b), s)
      else
        match s.ringXlate .ringInline b.ctx q.seq [⟨BitVec.ofNat 64 a, BitVec.ofNat 48 n, write⟩] with
        | (.ok b2, t) => (.ok (some b2), t)
        | (.error x, t) => (.error x, t)
  match b with
  | .error (cause, va) => s0.endReq r q.seq 0x13 (if write then failDetail va cause 0 else [])
  | .ok b =>
    let ((code, fa, lines, got), s1) := s0.inlineRun b write a n bs e (s.ringCtx r)
    if code ≠ 0 then s1.endReq r q.seq code (if write then failDetail fa 0 lines else [])
    else
      let s2 := if q.field 0x1A 1 = 2 then
          match s1.pdOfLd (q.field 0x1B 1) with
          | some pd => s1.tsAt { key := poolKey pd (q.field 0x1C 2), y := s1.clock.beats.toNat + 1, sub := false, ring := false
                                 who := 0xB0000 + r, k := q.field 0x20 4, sbeat := 0, lc := 0x3FF, src := 3 }
          | none => s1
        else s1
      s2.endReq r q.seq 0 got

/-! Jobs (R426). -/

/-- The CTXIDs and TRAP_NAN of a job that starts; dies whose cores last ran another context are zeroed (R281). -/
def State.jobSetup (s : State) (j : Job) : State :=
  let cores := s.progCores
  let fresh := s.usedDies.filter fun pd => cores.any fun p =>
    p.2.1 == pd && s.fld (mcorePage p.2.1 p.2.2) Reg.MCORE_CTXID_CTXID != j.ctx
  let s1 := fresh.foldl (fun t pd => t.zeroDie pd) s
  let s2 := cores.foldl (fun t p =>
    ((t.tcEmpty p.2.1 p.2.2).setFld (mcorePage p.2.1 p.2.2) Reg.MCORE_CTXID_CTXID j.ctx).setFlag (mcorePage p.2.1 p.2.2)
      Reg.MCORE_CTRL_TRAP_NAN j.trap) s1
  s2.usedDies.foldl (fun t pd =>
    (t.setFld (diePage .carousel pd) Reg.CAR_CTXID_CTXID j.ctx).setFld (diePage .tstile pd) Reg.TS_CTXID_CTXID j.ctx) s2

/-- A job becomes the current one: SCHED_IMG_ADDR and SCHED_JOB name it. -/
def State.jobTake (s : State) (j : Job) (rest : List Job) : State :=
  let s0 : State := { s with jobs := { s.jobs with queue := rest, cur := some j } }
  (s0.setReg64 s.leadPage 0x108 j.image).setFld s.leadPage Reg.SCHED_JOB_JOB j.job

/-- The CTXIDs of a job whose load succeeded. -/
def State.jobLoaded (s : State) (j : Job) : State := if s.sched.state == .loaded then s.jobSetup j else s

/-- The next job of the queue starts with its load. -/
def State.jobStart (s : State) (err : TierFail) : State :=
  match s.jobs.queue with
  | [] => s
  | j :: rest => if s.jobActive || !s.barkerUp then s else ((s.jobTake j rest).schedLoad err).jobLoaded j

/-! Flush (R438). -/

/-- Descriptors of a ring that have not started end with FLUSHED. -/
def State.flushWaiting (s : State) (r : Nat) : State :=
  let s1 : State := { s with jobs := { s.jobs with queue := s.jobs.queue.filter fun j => j.ring != r } }
  (s.ring r).reqs.foldl (fun (t : State) (q : Req) =>
    let queued := q.kind == 1 && q.isRunning && !(s.jobs.cur.any fun j => j.ring == r && j.seq == q.seq)
    let pend := q.kind == 6 && q.isRunning
    if q.st == .waiting || queued || pend then
      let t1 := match q.kind, q.mover with
        | 3, some (m, k) => t.setRingMv (pdOf (m / 4)) (m % 4) k none
        | _, _ => t
      t1.endReq r q.seq 0x51
    else t) s1

/-- FLUSH is written. -/
def State.ringFlush (s : State) (r : Nat) : State :=
  let st := s.ringState r
  if st = 1 ∨ st = 2 ∨ st = 3 then
    let s1 := (s.setRingState r 4).flushWaiting r
    match s1.jobs.cur with
    | some j =>
      if j.ring ≠ r then s1
      else if s1.sched.state = .trapped then s1.endJob 0x51 0
      else { s1 with jobs := { s1.jobs with cur := some { j with flushed := true } } }
    | none => s1
  else s

/-- The flush is complete once no request is left. -/
def State.flushDone (s : State) (r : Nat) : State :=
  let s0 := s.ringGo r
  if s0.ringState r = 4 ∧ (s0.ring r).reqs.isEmpty then
    (((s0.zeroWords (s0.sqBase r) 256 (s0.sqSlots r)).setRingState r 0).setFlag (ringPage r) Reg.BLK_CTRL_ENABLE false).setInt (ringPage r) 3
  else s0

end Sys2Proof.Machine
end

