-- ==== Sys2Proof/Machine/BlockReset.lean ====
section
/-!
DEFINITION. The soft reset of a block (spec/02_register_pages.md R62, spec/09_turnstiles.md R265, spec/16_command_rings.md
R417).
-/
namespace Sys2Proof.Machine

/-- A register's word after a soft reset: fields that are not ST at their reset values (R62). -/
def softWord (b : Blk) (off v : Nat) : Nat := (fieldsAt b off).foldl (fun n f => if f.st then n else withBits n f.lo f.w f.reset) v

/-- Registers whose fields are LOADED: a soft reset leaves them at what was loaded (R6, R62). -/
def holdsLoaded (b : Blk) (off : Nat) : Bool :=
  match b with
  | .tsram => off == 0x13C || (decide (0x140 ≤ off) && decide (off < 0x180))
  | .nstack => decide (0x240 ≤ off) && decide (off < 0x2C0)
  | .fchan => off == 0x108 || off == 0x10C || off == 0x110
  | .sched => off == 0x114
  | .timebase => off == 0x108 || off == 0x11C || off == 0x120 || off == 0x124
  | .pstore => off == 0x100
  | .cpucl => off == 0x108 || off == 0x10C
  | _ => false

/-- The reset value of a register of a page, a soft reset's; RM_FRAC's staged copy returns to the default table (R62,
R556). -/
def State.softReg (s : State) (p : Page) (off v : Nat) : Nat :=
  if p.blk == .rmstr && decide (0x200 ≤ off) && decide (off < 0x2E0) then withBits v 0 16 (s.defaultFrac (pdOf ((off - 0x200) / 4)))
  else if holdsLoaded p.blk off then v
  else softWord p.blk off v

/-- The registers of a page after a soft reset. -/
def State.resetRegs (s : State) (p : Page) : State :=
  { s with regs := s.regs.foldl (fun (m : List (Nat × Word)) (x : Nat × Word) =>
      if x.1 / 4096 = pageKey p then mput regReset m x.1 (BitVec.ofNat 32 (s.softReg p (x.1 % 4096) x.2.toNat)) else m) s.regs }

/-- A core returns to its reset state; its numeric flags, which are ST, stay. -/
def State.resetCore (s : State) (pd : PD) (mc : MC) : State :=
  (s.dropWait pd mc).setCore pd mc { nf := (s.core pd mc).nf }

/-- The state a block holds beside its registers returns to reset. Memory contents, placement, the directory and
architectural state of harts are not a page's registers and stay. -/
def State.resetBlock (s : State) (p : Page) : State :=
  match p.blk with
  | .mcore => if h : p.inst.val < 17 then s.resetCore p.pd ⟨p.inst.val, h⟩ else s
  | .tcache => { s with tcs := mput (fun _ => {}) s.tcs (p.pd.val * 17 + p.inst.val) {} }
  | .tstile => s.poolClear p.pd
  | .tsram =>
    match s.ldOf p.pd with
    | some ld =>
      { s with tierS := { s.tierS with
          slabs := s.tierS.slabs.filter fun x => x.1 / 1536 != ld
          zeroDue := mput (fun _ => 0) s.tierS.zeroDue p.pd.val 0
          scrubPos := mput (fun _ => 0) s.tierS.scrubPos p.pd.val 0 } }
    | none => s
  | .carousel => { s with mv := { s.mv with cars := mput (fun _ => {}) s.mv.cars p.pd.val {} } }
  | .mover => { s with mv := { s.mv with movers := mput (fun _ => {}) s.mv.movers (p.pd.val * 4 + p.inst.val) {} } }
  | .place => s.setPlace { s.place with cmds := s.place.cmds.filter fun c => c.page != pageKey p }
  | .xlate => { s with memsys := { s.memsys with xlate := { s.memsys.xlate with cmd := s.memsys.xlate.cmd.filter fun c => c.page != pageKey p } } }
  | .cmdq => s.setRing p.inst.val {}
  | .jport =>
    match (List.finRange 8).find? fun n => jportPd n == p.pd with
    | some n => s.setJport n.val {}
    | none => s
  | .evlog => { s with evlog := [] }
  | .pagent => { s with power := { s.power with agents := mput (fun _ => {}) s.power.agents p.pd.val {} } }
  | .rmstr => { s with power := { agents := s.power.agents, misses := s.power.misses, lastGood := s.power.lastGood, stop := s.power.stop } }
  | .sched => if p.pd = s.leadPd then { s with sched := {} } else s
  | _ => s

/-- A soft reset begins (R62): registers, staging, snapshots and the lock at once. -/
def State.softReset (s : State) (p : Page) : State :=
  let s1 := (s.resetRegs p).resetBlock p
  s1.setPage p { resetting := true, wedged := (s.page p).wedged }

/-- A soft reset completes. -/
def State.softResetDone (s : State) (p : Page) : State :=
  if (s.page p).resetting then s.setPage p { s.page p with resetting := false, wedged := false } else s

end Sys2Proof.Machine
end

