-- ==== Sys2Proof/Machine/Recover.lean ====
section
/-!
DEFINITION. Faults, substitution, the recovery gather and RESUME (spec/20_fault_containment.md R524 to R545).
-/
namespace Sys2Proof.Machine

/-! Substitution (R537, R542, R543). -/

/-- A core can take over on the die: MC16 carries no identity, is not fenced, and substitution is enabled. -/
def State.spareReady (s : State) (pd : PD) : Bool :=
  s.mcFree pd == 16 && !s.flag (mcorePage pd 16) Reg.BLK_STAT_FENCED && (s.core pd 16).status != .stoppedFault &&
  s.flag (pkgPage .evlog) Reg.EV_FLT_CFG_SUBST_EN && !(s.sched.subst.any fun x => x.1 == pd.val)

/-- A kind of R528 that can be replayed. -/
def kindReplays (k : Nat) : Bool := decide (1 ≤ k) && decide (k ≤ 8)

def State.setOutcome (s : State) (pd : PD) (mc : MC) (v : Nat) : State := s.setFld (mcorePage pd mc) Reg.MCORE_FLT_STAT_OUTCOME v

/-- The faulting core's outcome where it is not substituted: lost on a die without a spare, else partition stopped. -/
def State.loseCore (s : State) (pd : PD) (mc : MC) : State :=
  let lc := s.lcNo pd mc
  if s.mcFree pd = 16 ∧ !s.flag (mcorePage pd 16) Reg.BLK_STAT_FENCED then s.setOutcome pd mc 3
  else ((s.setOutcome pd mc 4).report (mcorePage pd mc) 5 (lc + mc.val * 2 ^ 16)).histAdd 2 pd.val mc.val 0 lc

/-- Faulting cores that carry a logical core and whose outcome is pending. -/
def State.pendingFaults (s : State) : List (PD × MC) :=
  allCores.filter fun c =>
    let p := mcorePage c.1 c.2
    s.flag p Reg.MCORE_FLT_STAT_VALID && s.fld p Reg.MCORE_FLT_STAT_OUTCOME == 0 && (s.core c.1 c.2).status == .stoppedFault

/-- A core fault is decided (R526, R535, R537, R542). -/
def State.faultDecided (s : State) (pd : PD) (mc : MC) (f : FaultPend) : State :=
  if (s.core pd mc).status = .stoppedFault then s
  else
    let lc := s.lcNo pd mc
    let k := s.ckpt lc
    let slot := (k.slot k.cur).valid
    let step := s.holdStep
    let running := s.schedRuns || s.sched.state == .held
    let spare := s.spareReady pd
    let s1 := s.coreFault pd mc f
    let again := s1.sched.state == .held && s1.sched.recoveryOwn.isSome
    let s2 := s1.raiseHold 0 s1.deviceNo step
    let s3 := if again then
        (s2.setSched fun c => { c with recoveryOwn := none, openAt := none, resumed := false }).flood (step + 1) (.hold 0 (BitVec.ofNat 32 s.sched.beat) 0)
      else s2
    let s4 := if running then s3.setSched fun c => { c with lastFault := 0x40 } else s3
    if s4.lcOf pd mc = none then s4
    else if kindReplays f.kind && spare && (slot || !running) then
      (s4.setSched fun c => { c with subst := c.subst ++ [(pd.val, mc.val)] }).setFld (pkgPage .evlog) Reg.EV_STAT_FLT_STATE 2
    else if running then s4.setSched fun c => { c with noContinue := some (c.noContinue.getD 0x40) }
    else s4.loseCore pd mc

/-- The Turnstiles of a core, live and in the snapshot, pass to MC16. -/
def State.moveTurnstiles (s : State) (pd : PD) (mc : MC) : State :=
  let move (m : List (Nat × TsCell)) : List (Nat × TsCell) := (List.range 64).foldl (fun (acc : List (Nat × TsCell)) n =>
    mput (fun _ => {}) acc (privKey pd 16 n) (mget (fun _ => {}) m (privKey pd mc n))) m
  { s with ts := { s.ts with cells := move s.ts.cells, snap := move s.ts.snap } }

/-- The configuration that MC16 takes over (R537 item 4). -/
def State.moveConfig (s : State) (pd : PD) (mc : MC) : State :=
  let a := mcorePage pd mc
  let b := mcorePage pd 16
  let s1 := [0x110, 0x114, 0x118, 0x12C, 0x130].foldl (fun (t : State) off => t.setReg b off (s.reg a off)) s
  (s1.setFlag b Reg.MCORE_CTRL_TRAP_NAN (s.flag a Reg.MCORE_CTRL_TRAP_NAN)).setReg (tcachePage pd 16) 0x100 (s.reg (tcachePage pd mc) 0x100)

/-- DC_MC_MAP, MC_FREE and SUBSTITUTED as the core map stands (R41, R66). -/
def State.showMap (s : State) (pd : PD) : State :=
  let p := diePage .dieCfg pd
  let s1 := (List.range 4).foldl (fun (t : State) k =>
    t.setFld p Reg.DC_MC_MAP ((List.range 4).foldl (fun v j => v + (s.mcOf pd (4 * k + j)).val * 2 ^ (8 * j)) 0) k) s
  s1.setFld p Reg.DC_MC_FREE (s.mcFree pd).val

/-- MC16 adopts the identity of a failed core (R537 items 3 and 4). -/
def State.substitute (s : State) (pd : PD) (mc : MC) : State :=
  match s.localOf pd mc with
  | none => s
  | some i =>
    let lc := s.lcNo pd mc
    let s1 := { s with dies := { s.dies with mcMap := mput (fun k => k % 16) s.dies.mcMap (pd.val * 16 + i) 16 } }
    let s2 := (((s1.showMap pd).setFlag (diePage .dieCfg pd) Reg.DC_SUBSTITUTED true).moveTurnstiles pd mc).moveConfig pd mc
    let p := mcorePage pd 16
    let len := s2.fld p Reg.MCORE_PROG_LEN_LEN
    let (code, s3) := (s2.setCore pd 16 { cmdAddr := s2.reg64 p 0x110, cmdLen := len }).loadProgram pd 16 .none
    let s4 := ((s3.report p 4 (lc + mc.val * 2 ^ 16 + 16 * 2 ^ 24)).bump (pkgPage .evlog) Reg.EV_FLT_SUBST_COUNT).histAdd 1 pd.val mc.val
      (s3.fld (mcorePage pd mc) Reg.MCORE_FLT_STAT_KIND) lc
    if code ≠ 0 then s4.cannotContinue 0x40
    else if s4.schedRuns || s4.sched.state == .held then s4
    else (s4.restoreCore pd 16).setOutcome pd mc 2

/-- MC16's built-in test ends (R537). fail: the number of the test that failed. -/
def State.bistDone (s : State) (pd : PD) (fail : Option Nat) : State :=
  match s.sched.subst.find? fun x => x.1 == pd.val with
  | none => s
  | some x =>
    let mc : MC := ⟨x.2 % 17, Nat.mod_lt _ (by decide)⟩
    let s1 := s.setSched fun c => { c with subst := c.subst.filter (· != x) }
    match fail with
    | none => s1.substitute pd mc
    | some n =>
      let s2 := s1.coreFault pd 16 { beat := s1.sched.beat, kind := 0x0A, index := n }
      if s2.schedRuns || s2.sched.state == .held then s2.setSched fun c => { c with noContinue := some (c.noContinue.getD 0x40) }
      else s2.loseCore pd mc

/-- A die fault (R524, R542). -/
def State.dieFault (s : State) (pd : PD) (what : DieFault) : State :=
  let s1 := if what = .router then
      { s.reportAs 0x19 pd.val 0 1 (Config.freeDWord s.freeCtr 0).toNat with freeCtr := s.freeCtr + 1 }
    else s
  let s2 := s1.setInt (pkgPage .evlog) 3
  (s2.raiseHold 0 s2.deviceNo s2.holdStep).cannotContinue 0x40

/-! RESUME (R539 to R542). -/

/-- Every pending outcome becomes substituted and replayed. -/
def State.outcomesDone (s : State) : State := s.pendingFaults.foldl (fun t c => t.setOutcome c.1 c.2 1) s

/-- The hold is resolved. -/
def State.holdOver (s : State) (fltState : Nat) : State :=
  (s.setJp Reg.JP_HOLD_HELD 0).setFld (pkgPage .evlog) Reg.EV_STAT_FLT_STATE fltState

/-- Substituted cores load the new current slot (R540). -/
def State.reloadSubst (s : State) : State :=
  s.eachCore fun t pd mc => if mc = 16 && (t.core pd mc).status == .idle then t.restoreCore pd mc else t

/-- The partition stops (R542): the tiered bytes of a step that did not commit are undefined. -/
def State.partitionStop (s : State) (code : Nat) : State :=
  let s1 := s.pendingFaults.foldl (fun t c => t.loseCore c.1 c.2) s
  let s2 := if s1.sched.committed then s1 else s1.stepUndefined
  (((s2.report s2.leadPage 7 code).setInt (pkgPage .evlog) 4).holdOver 4).endJob code 0

/-- A held device acts on RESUME. -/
def State.resume (s : State) (decision code attempt cats m t0 : Nat) : State :=
  if s.sched.state ≠ .held then s
  else
    let s1 := s.report s.leadPage 6 (decision + attempt * 2 ^ 8)
    match decision with
    | 0 =>
      let s2 := ((s1.holdOver 0).restoreStep.outcomesDone).setSched fun c => { c with openAt := some t0, attempt := attempt, resumed := true }
      s2
    | 1 =>
      let s2 := if s1.sched.committed then s1 else (s1.commitStep m cats false).parityFlip
      let s3 := ((s2.holdOver 0).reloadSubst).outcomesDone
      if s3.sched.state = .ended then s3
      else s3.setSched fun c => { c with openAt := some t0, attempt := attempt, resumed := true }
    | 2 => s1.partitionStop code
    | _ => s

/-- The combination of recovery reports (R538): the lower step, the larger stretch. -/
def Recovery.join (a b : Recovery) : Recovery :=
  { step := min a.step b.step, stretch := max a.stretch b.stretch, cats := a.cats ||| b.cats, stop := a.stop || b.stop
    reason := max a.reason b.reason, contrib := a.contrib + b.contrib }

def Recovery.body (r : Recovery) : GatherBody :=
  { stretch := BitVec.ofNat 32 r.stretch, cats := BitVec.ofNat 8 r.cats, flags := BitVec.ofNat 8 (4 + b2n r.stop * 2), ratio := 0
    trapStep := 0, trapSbeat := 0, trapLc := 0, trapDev := 0, trapCount := 0, contrib := BitVec.ofNat 16 r.contrib
    reason := BitVec.ofNat 32 r.reason }

def recoveryOf (h : TokHdr) (b : GatherBody) : Recovery :=
  { step := h.step.toNat, stretch := b.stretch.toNat, cats := b.cats.toNat, stop := bitOf b.flags.toNat 1, reason := b.reason.toNat % 256
    contrib := b.contrib.toNat }

/-- Once this device's recovery report and all its children's are there, they go up the tree; the root decides and floods
RESUME (R538, R539). -/
def State.recoveryTry (s : State) : State :=
  match s.sched.recoveryOwn with
  | none => s
  | some own =>
    if s.sched.resumed || !(s.childPorts.all fun n => s.sched.recoveryKids.any (·.1 == n)) then s
    else
      let r := s.sched.recoveryKids.foldl (fun a k => a.join k.2) own
      let s1 := s.setSched fun c => { c with recoveryKids := [] }
      if s.isRoot then
        if r.contrib ≠ s.devices then s
        else
          let attempt := if r.stretch = 0 then s.sched.attempt + 1 else 1
          let most := s.fld (pkgPage .evlog) Reg.EV_FLT_CFG_REPLAY_MAX
          let t0 := s.clock.time.toNat + 30 * s.diameter + 200
          let decision := if r.stop || decide (most < attempt) then 2 else if 1 ≤ r.stretch then 1 else 0
          let code := if r.stop then r.reason else s.sched.lastFault
          let s2 := s1.flood r.step (.resume
            { decision := BitVec.ofNat 8 decision, code := BitVec.ofNat 8 (if decision = 2 then code else 0), attempt := BitVec.ofNat 8 attempt
              cats := BitVec.ofNat 8 (if decision = 1 then r.cats else 0), m := BitVec.ofNat 32 (if decision = 1 then r.stretch - 1 else 0)
              t0 := BitVec.ofNat 64 t0 })
          s2.resume decision code attempt r.cats (r.stretch - 1) t0
      else s1.sendUp r.step (.gather r.body)

/-- A held device's recovery report, once its substitutions and link recoveries are over (R538). -/
def State.recoveryReport (s : State) : State :=
  let busy := !s.sched.subst.isEmpty || s.usedPorts.any fun n => s.jpState n == 9
  if s.sched.state ≠ .held || s.sched.recoveryOwn.isSome || s.sched.resumed || busy then s
  else
    let r : Recovery :=
      { step := s.sched.step.toNat, stretch := if s.sched.committed then s.sched.slip + 1 else 0
        cats := if s.sched.committed then (s.sched.release.map (·.cats)).getD 0 else 0
        stop := s.sched.noContinue.isSome, reason := s.sched.noContinue.getD 0, contrib := 1 }
    ((s.setSched fun c => { c with recoveryOwn := some r }).setFld (pkgPage .evlog) Reg.EV_STAT_FLT_STATE 3).recoveryTry

/-- A RESUME token comes in on a port. -/
def State.resumeIn (s : State) (n : Nat) (h : TokHdr) (b : ResumeBody) : State :=
  let (ok, s1) := s.tokenOk n h
  if !ok then s1
  else
    let (first, s2) := s1.floodIn n ⟨h, .resume b⟩
    if first then s2.resume b.decision.toNat b.code.toNat b.attempt.toNat b.cats.toNat b.m.toNat b.t0.toNat else s2

/-! Commands. -/

/-- CORE_FAULT: a fault is decided on a core: the one that issued work met, or one that its detectors found. -/
def execCoreFault (pd : PD) (mc : MC) (f : Option CoreFaultArg) (s : State) : Host.Outcome State Fault Refusal :=
  match f with
  | none =>
    match (s.core pd mc).faultPend with
    | some g => if g.beat < s.sched.beat then .next (s.faultDecided pd mc g) else .next s
    | none => .next s
  | some a => .next (s.faultDecided pd mc
      { beat := s.sched.beat, kind := a.kind.toNat, index := a.index.toNat, index2 := a.index2.toNat, bank := a.bank, p := a.p, q := a.q
        pc := a.pc.toNat, tile := a.tile.toNat })

/-- CORE_WATCHDOG: an operation of a queue is overdue, or dispatch stands still. -/
def execCoreWatchdog (pd : PD) (mc : MC) (q : WdQueue) (s : State) : Host.Outcome State Fault Refusal :=
  let ix := match q with | .lq => 0 | .sq => 1 | .dq => 2 | .vq => 3 | .mq => 4 | .dispatch => 7
  if (s.core pd mc).status = .running ∨ (q ≠ .dispatch ∧ (s.core pd mc).status.active) then
    .next (s.faultDecided pd mc { beat := s.sched.beat, kind := 7, index := ix, pc := (s.core pd mc).x.pc.toNat })
  else .next s

/-- DIE_FAULT: a fault of a router, the Turnstile block, the checkpoint store or the control cluster of a die. -/
def execDieFault (pd : PD) (what : DieFault) (s : State) : Host.Outcome State Fault Refusal := .next (s.dieFault pd what)

/-- SUBST_BIST_DONE: MC16's built-in test ends. -/
def execSubstBistDone (pd : PD) (fail : Option (BitVec 10)) (s : State) : Host.Outcome State Fault Refusal :=
  .next (s.bistDone pd (fail.map (·.toNat)))

/-- RECOVERY_REPORT: a held device sends its recovery report. -/
def execRecoveryReport (s : State) : Host.Outcome State Fault Refusal := .next s.recoveryReport

/-- RESUME with DECISION REPLAY. -/
def execResumeReplay (port : JPort) (hdr : TokHdr) (attempt : Byte) (t0 : DWord) (s : State) : Host.Outcome State Fault Refusal :=
  .next (s.resumeIn port.val hdr { decision := 0, code := 0, attempt := attempt, cats := 0, m := 0, t0 := t0 })

/-- RESUME with DECISION COMMIT. -/
def execResumeCommit (port : JPort) (hdr : TokHdr) (cats : Byte) (m : Word) (t0 : DWord) (s : State) : Host.Outcome State Fault Refusal :=
  .next (s.resumeIn port.val hdr { decision := 1, code := 0, attempt := 1, cats := cats, m := m, t0 := t0 })

/-- RESUME with DECISION STOP. -/
def execResumeStop (port : JPort) (hdr : TokHdr) (code : Byte) (s : State) : Host.Outcome State Fault Refusal :=
  .next (s.resumeIn port.val hdr { decision := 2, code := code, attempt := 0, cats := 0, m := 0, t0 := 0 })

/-- RESUME_STEP_OPEN: the time base reaches T0 and the resumed step opens. -/
def execResumeStepOpen (s : State) : Host.Outcome State Fault Refusal :=
  match s.sched.state, s.sched.openAt with
  | .held, some t0 =>
    if t0 ≤ s.clock.time.toNat then .next (s.openStep s.sched.attempt true (!s.sched.committed)) else .next s
  | _, _ => .next s

/-- RESUME_TIMEOUT: no RESUME within 10 ms of holding. -/
def execResumeTimeout (s : State) : Host.Outcome State Fault Refusal :=
  if s.sched.state = .held ∧ !s.sched.resumed then .next ((s.holdOver 0).endJob 0x41 0) else .next s

end Sys2Proof.Machine
end

