-- ==== Sys2Proof/Machine/FwOps.lean ====
section
/-!
DEFINITION. The firmware complex: the load frame, verification, start, stop and failures
(spec/22_barker_firmware.md R588 to R604).
-/
namespace Sys2Proof.Machine

/-- The firmware's block type (R602). -/
def fwBlk : Nat := 0x1A

/-- The load frame's address (R591). -/
def State.loadFrame (s : State) : Nat := s.reg64 (pkgPage .familyParam) 0x120 - 0x200000

/-- The Ringmaster serves the load frame: MEM_TOP is known and no emergency stop has begun. -/
def State.fwServed (s : State) : Bool := decide (0x200000 < s.reg64 (pkgPage .familyParam) 0x120) && s.power.stop == 0

def State.setFw (s : State) (f : FwSt → FwSt) : State := { s with fw := f s.fw }

/-- The Ringmaster's bytes 0x104 to 0x11F of the control block (R592). -/
def FwSt.status (f : FwSt) : List Byte :=
  leBytes f.state 1 ++ leBytes f.code 1 ++ leBytes f.reason 1 ++ leBytes 0 1 ++ leBytes f.ver 4 ++ leBytes f.ifv 2 ++ leBytes 0 2
    ++ leBytes f.build 8 ++ leBytes f.starts 4 ++ leBytes f.failPd 1 ++ leBytes f.failCore 1 ++ leBytes 0 2

/-- Writes the status fields; then, once a request is finished, ACK_SEQ (R593). -/
def State.fwShow (s : State) : State :=
  let (_, s1) := s.memWrite 0 (s.loadFrame + 0x104) s.fw.status
  (s1.memWrite 0 (s.loadFrame + 0x100) (leBytes s.fw.ack 4)).2

/-- The firmware state changes, with the event of sensor 201 (R624). -/
def State.fwState (s : State) (st : Nat) : State := (s.setFw fun f => { f with state := st }).stateEvent 201 st s.fw.state

/-- Every cluster is held in reset. -/
def State.holdClusters (s : State) : State := s.setFw fun f => { f with clusters := [] }

/-- The request taken ends with a code and a reason. -/
def State.fwEnd (s : State) (code reason : Nat) : State :=
  match s.fw.taken with
  | none => s
  | some n => (s.setFw fun f => { f with code := code, reason := reason, ack := n, taken := none }).fwShow

/-- A LOAD fails with a reason that leaves no firmware running (R596, R603). -/
def State.fwFail (s : State) (reason : Nat) : State :=
  ((s.holdClusters.fwState 4).reportAs fwBlk s.mgmtPd.val 0 6 reason).fwEnd 0x7F reason

/-- FW_POLL (R593, R596): the Ringmaster finds a new request in the load frame and takes it. A LOAD while firmware loads or
runs ends at once. -/
def execFwPoll (s : State) : Host.Outcome State Fault Refusal :=
  if !s.fwServed || s.fw.taken.isSome then .next s
  else
    let (code, bs, s1) := s.memRead 0 s.loadFrame 16
    let n := leNat bs
    let q := bitsOf n 0 32
    if code ≠ 0 ∨ q = s.fw.ack then .next s1
    else
      let op := bitsOf n 32 8
      let s2 := s1.setFw fun f => { f with taken := some q, op := op, drvIf := bitsOf n 64 16, len := bitsOf n 96 32 }
      if op = 2 then .next s2
      else if s.fw.state = 1 ∨ s.fw.state = 2 then .next ((s2.reportAs fwBlk s.mgmtPd.val 0 6 0x0A).fwEnd 0x7F 0x0A)
      else .next (s2.fwState 1).fwShow

/-! Verification (R594 to R596). -/

/-- A little-endian field of bytes; bytes past the end are 0. -/
def fieldAt (bs : List Byte) (off n : Nat) : Nat := leNat ((bs.drop off).take n)

def fwZero (bs : List Byte) (off n : Nat) : Bool := fieldAt bs off n == 0

/-- The public key of a KEY_ID, as (x, y) (R652). -/
def State.keyOf (s : State) (k : Nat) : Nat × Nat :=
  let b := (s.store.cur.keys.drop (96 * k)).take 96
  (beNat (b.take 48), beNat (b.drop 48))

/-- KEY_ID is in range and the key not revoked. -/
def State.keyUsable (s : State) (bs : List Byte) : Bool := decide (fieldAt bs 6 1 < 4) && !bitOf s.store.cur.revoked (fieldAt bs 6 1)

/-- The header's signature is valid under its key (R594). -/
def State.signatureOk (s : State) (bs : List Byte) : Bool :=
  let (x, y) := s.keyOf (fieldAt bs 6 1)
  ecdsaOk x y (sha384 (bs.take 0x1A0)) (beNat ((bs.drop 0x1A0).take 48)) (beNat ((bs.drop 0x1D0).take 48))

/-- Fields of image entry i. -/
def imgTarget (bs : List Byte) (i : Nat) : Nat := fieldAt bs (0x20 + 64 * i) 1
def imgWdog (bs : List Byte) (i : Nat) : Nat := fieldAt bs (0x22 + 64 * i) 2
def imgOff (bs : List Byte) (i : Nat) : Nat := fieldAt bs (0x24 + 64 * i) 4
def imgLen (bs : List Byte) (i : Nat) : Nat := fieldAt bs (0x28 + 64 * i) 4
def imgEntry (bs : List Byte) (i : Nat) : Nat := fieldAt bs (0x2C + 64 * i) 4
def imgBytes (bs : List Byte) (i : Nat) : List Byte := (bs.drop (imgOff bs i)).take (imgLen bs i)

/-- An image matches its DIGEST (R595). -/
def imgDigestOk (bs : List Byte) (i : Nat) : Bool :=
  sha384 (imgBytes bs i) == beNat ((bs.drop (0x30 + 64 * i)).take 48)

/-- An image entry with a largest SIZE (R595). -/
def imgEntryOk (bs : List Byte) (i most : Nat) : Bool :=
  decide (imgWdog bs i ≤ 1000) && imgOff bs i % 64 == 0 && decide (0x200 ≤ imgOff bs i) && decide (imgLen bs i ≤ most) &&
  decide (imgOff bs i + imgLen bs i ≤ fieldAt bs 0x18 4) && imgEntry bs i % 2 == 0 && decide (imgEntry bs i < imgLen bs i)

/-- Reserved bytes of a header with n image entries are 0. -/
def hdrReservedOk (bs : List Byte) (n : Nat) : Bool :=
  fwZero bs 7 1 && fwZero bs 0x0B 1 && fwZero bs 0x0E 2 && fwZero bs 0x1E 2 && fwZero bs (0x20 + 64 * n) (0x180 - 64 * n) &&
  (List.range n).all fun i => fwZero bs (0x21 + 64 * i) 1

/-- The image table of a bundle (R595). -/
def bundleTableOk (bs : List Byte) : Bool :=
  let most (i : Nat) : Nat := if imgTarget bs i = 0 then 786432 else 524288
  fieldAt bs 0x1C 2 == 2 && imgTarget bs 0 + imgTarget bs 1 == 1 && imgEntryOk bs 0 (most 0) && imgEntryOk bs 1 (most 1) &&
  (decide (imgOff bs 0 + imgLen bs 0 ≤ imgOff bs 1) || decide (imgOff bs 1 + imgLen bs 1 ≤ imgOff bs 0))

/-- The first check of a LOAD that fails, in the order of REASON; 0 where all pass (R596). -/
def State.bundleReason (s : State) (bs : List Byte) : Nat :=
  if s.fw.op ≠ 1 ∨ 2093056 < s.fw.len ∨ s.fw.len ≠ fieldAt bs 0x18 4 then 1
  else if fieldAt bs 0 4 ≠ 0x4B524142 ∨ fieldAt bs 4 2 ≠ 1 ∨ !hdrReservedOk bs 2 then 2
  else if !s.keyUsable bs then 3
  else if !s.signatureOk bs then 4
  else if !bundleTableOk bs then 5
  else if !(imgDigestOk bs 0 && imgDigestOk bs 1) then 6
  else if fieldAt bs 8 4 < s.store.cur.minFw then 7
  else 0

/-- FW_LOAD (R593, R596, R598): the bundle is copied and verified; then every powered cluster is given its image and starts. -/
def execFwLoad (s : State) : Host.Outcome State Fault Refusal :=
  if s.fw.taken.isNone ∨ s.fw.state ≠ 1 ∨ !s.fw.clusters.isEmpty then .next s
  else
    let (code, bs, s1) := if 2093056 < s.fw.len then (0, [], s) else s.memRead 0 (s.loadFrame + 0x1000) s.fw.len
    let reason := if code = 0 then s.bundleReason bs else 1
    if reason ≠ 0 then .next (s1.fwFail reason)
    else
      let b := if imgTarget bs 0 = 0 then 0 else 1
      let wd (i : Nat) : Nat := if imgWdog bs i = 0 then 10 else imgWdog bs i
      .next (s1.setFw fun f => { f with
        ver := fieldAt bs 8 4, ifv := fieldAt bs 0x0C 2, build := fieldAt bs 0x10 8, barker := imgBytes bs b, agent := imgBytes bs (1 - b)
        wdog0 := wd b, wdog1 := wd (1 - b)
        clusters := ((List.finRange 56).filter fun pd => s.role pd != .off).map fun pd => (pd.val, 1) })

/-! Start and stop (R597 to R599). -/

/-- Barker refuses the driver's interface version. -/
def FwSt.refuses (f : FwSt) : Bool := f.drvIf / 256 != f.ifv / 256 || decide (f.ifv % 256 < f.drvIf % 256)

/-- TB_STAGE changes (R637), with sensor 215's value and the STAGE interrupt. -/
def State.toStage (s : State) (n : Nat) : State :=
  if s.fld tbPage Reg.TB_STAGE_STAGE = n then s else (s.setFld tbPage Reg.TB_STAGE_STAGE n).setInt tbPage 2

/-- FW_START_DONE (R597, R598): Barker refuses, or the rings are reset and every agent is ready. -/
def execFwStartDone (s : State) : Host.Outcome State Fault Refusal :=
  if s.fw.state ≠ 1 ∨ s.fw.clusters.isEmpty then .next s
  else if s.fw.refuses then
    .next (((s.reportAs fwBlk s.mgmtPd.val 0 3 (s.fw.drvIf + s.fw.ifv * 2 ^ 16)).holdClusters.fwState 3).fwEnd 0x50 8)
  else
    let s1 := (List.range 64).foldl (fun (t : State) r => (t.softReset (ringPage r)).softResetDone (ringPage r)) s
    let s2 := s1.setFw fun f => { f with starts := min (f.starts + 1) 0xFFFFFFFF, clusters := f.clusters.map fun c => (c.1, 2) }
    let s3 := (s2.fwState 2).toStage 5
    .next ((s3.reportAs fwBlk s.mgmtPd.val 0 4 (s3.fw.ver % 2 ^ 24 + s3.fw.starts * 2 ^ 32)).fwEnd 0 0)

/-- FW_START_TIMEOUT (R596, R598): the start is not complete within its bound. -/
def execFwStartTimeout (s : State) : Host.Outcome State Fault Refusal :=
  if s.fw.state ≠ 1 ∨ s.fw.clusters.isEmpty then .next s else .next (s.fwFail 9)

/-- Firmware stops running: no cluster runs, the package is back in stage 4 (R637). -/
def State.fwStopped (s : State) : State := ((s.holdClusters.fwState 5).toStage 4).setFlag tbPage Reg.TB_STAGE_READY false

/-- FW_STOP (R599): the rings are flushed; once each is in RESET the clusters are held in reset. -/
def execFwStop (s : State) : Host.Outcome State Fault Refusal :=
  if s.fw.taken.isNone ∨ s.fw.op ≠ 2 then .next s
  else if s.fw.state ≠ 2 then .next (s.fwEnd 0 0)
  else if !s.schedRests then .next (s.fwEnd 0x7F 0x0B)
  else
    let s1 := (List.range 64).foldl (fun (t : State) r => t.ringFlush r) s
    if (List.range 64).all fun r => s1.ringState r == 0 then .next (s1.fwStopped.fwEnd 0 0) else .next s1

/-! Failures (R600, R601). -/

/-- A job counts as running: LOADING to TRAPPED. -/
def State.jobRuns (s : State) : Bool := !(s.sched.state == .idle || s.sched.state == .ended)

/-- The running job uses a die. -/
def State.jobUses (s : State) (pd : PD) : Bool := s.jobRuns && s.usedDies.contains pd

/-- A core of a cluster has failed: the cluster is held in reset, and what R601 says follows. -/
def State.clusterFail (s : State) (pd : PD) (core : Nat) : State :=
  let mark (t : State) : State := t.setFw fun f => { f with failPd := pd.val, failCore := core }
  let s1 := s.setFw fun f => { f with clusters := f.clusters.filter fun c => c.1 != pd.val }
  if s.fw.state = 1 then (mark s1).fwFail 0x0C
  else if pd = s.mgmtPd then
    let s2 := ((mark s1).fwState 4).fwShow.setInt (pkgPage .evlog) 3
    if s.jobRuns then
      let s3 := s2.setSched fun c => { c with noContinue := some 0x7F, lastFault := 0x7F }
      if s3.schedRuns || s3.sched.state == .held then (s3.raiseHold 0 s3.deviceNo s3.holdStep).recoveryReport else s3.endJob 0x7F 0
    else s2
  else
    let s2 := mark s1 |>.fwShow
    if s.jobUses pd then s2.dieFault pd .cluster else s2

/-- A cluster is out of reset. -/
def State.clusterUp (s : State) (pd : PD) : Bool := s.fw.clusters.any fun c => c.1 == pd.val

/-- The image a die's cluster runs: 0 Barker, 1 agent. -/
def State.clusterImage (s : State) (pd : PD) : Nat := if pd = s.mgmtPd then 0 else 1

/-- FW_WATCHDOG: a cluster core's watchdog expires. -/
def execFwWatchdog (pd : PD) (core : Fin 4) (s : State) : Host.Outcome State Fault Refusal :=
  if !s.clusterUp pd then .next s
  else .next ((s.reportAs fwBlk pd.val core.val 1 (s.clusterImage pd)).clusterFail pd core.val)

/-- FW_CLUSTER_UE: an uncorrectable error in cluster SRAM at an address, or in a core's state. -/
def execFwClusterUe (pd : PD) (core : Fin 4) (addr : Option (BitVec 24)) (s : State) : Host.Outcome State Fault Refusal :=
  if !s.clusterUp pd then .next s
  else .next ((s.reportAs fwBlk pd.val core.val 2 (s.clusterImage pd + (addr.getD 0).toNat * 2 ^ 8)).clusterFail pd core.val)

/-- AGENT_RESTART_DONE: a failed agent's cluster restarts from the verified copy (R601). -/
def execAgentRestartDone (pd : PD) (s : State) : Host.Outcome State Fault Refusal :=
  if s.fw.state ≠ 2 ∨ pd = s.mgmtPd ∨ s.role pd = .off ∨ s.clusterUp pd then .next s
  else .next ((s.setFw fun f => { f with clusters := (pd.val, 2) :: f.clusters }).reportAs fwBlk pd.val 0 5 0)

end Sys2Proof.Machine
end

