-- ==== Sys2Proof/Machine/StoreOps.lean ====
section
/-!
DEFINITION. The persistent store: banks, stored images, commits and commands (spec/24_clocks_bringup.md R649 to R660).
-/
namespace Sys2Proof.Machine

def psPage : Page := pkgPage .pstore

def Store.bank (t : Store) (b : Bool) : Bank := if b then t.bank1 else t.bank0
def Store.setBank (t : Store) (b : Bool) (v : Bank) : Store := if b then { t with bank1 := v } else { t with bank0 := v }

def State.setStore (s : State) (f : Store → Store) : State := { s with store := f s.store }

/-- The image of an entry: the bytes of the slot of the bank it names (R651). -/
def Store.image (t : Store) (b : Bank) (hb : Bool) : List Byte :=
  let e := if hb then b.imgHb else b.imgRm
  let from_ := t.bank e.bank
  (if hb then from_.slotHb else from_.slotRm).take e.len

/-- A slot's size (R649). -/
def slotSize (hb : Bool) : Nat := if hb then 0x1000000 else 0x400000

/-- Which image a header is of (R651). -/
def storedKind (bs : List Byte) : Option Bool :=
  if fieldAt bs 0 4 = 0x544D5252 then some false else if fieldAt bs 0 4 = 0x544F4248 then some true else none

/-- The header and image entry of a stored image are in order (R594, R595, R651). -/
def storedHdrOk (bs : List Byte) (hb : Bool) : Bool :=
  storedKind bs == some hb && fieldAt bs 4 2 == 1 && hdrReservedOk bs 1 && fieldAt bs 0x18 4 == bs.length && fieldAt bs 0x1C 2 == 1 &&
  imgTarget bs 0 == (if hb then 3 else 2) && imgEntryOk bs 0 (slotSize hb)

/-- The first check of a stored image that fails: 1 signature or digest, 2 version (R651, R658); 0 where it is verified. -/
def State.storedFault (s : State) (bs : List Byte) (hb : Bool) : Nat :=
  if !(storedHdrOk bs hb && s.keyUsable bs && s.signatureOk bs && imgDigestOk bs 0) then 1
  else if fieldAt bs 8 4 < (if hb then s.store.cur.minHb else s.store.cur.minRm) then 2
  else 0

/-! Commits (R654). -/

/-- The record sectors of a bank are erased: the bank is invalid from then on. -/
def State.eraseBank (s : State) (b : Bool) : State :=
  let n := (if b then s.store.erases1 else s.store.erases0) + 1
  let s1 := s.setStore fun t => (if b then { t with erases1 := n } else { t with erases0 := n }).setBank b { t.bank b with valid := false }
  if n = 90000 then s1.setInt psPage 3 else s1

/-- A commit writes the inactive bank and makes it active; with a failing flash the bank stays invalid. The images its
header names are given. -/
def State.commitWith (s : State) (rm hb : ImgEnt) (fails : Bool) : State :=
  let a := s.store.active
  let b := !a
  let s1 := s.eraseBank b
  if fails then (s1.report psPage 2 0)
  else
    let old := s1.store.bank a
    let s2 := s1.setStore fun t =>
      { t.setBank b { t.bank b with valid := true, seq := (old.seq + 1) % 2 ^ 32, imgRm := rm, imgHb := hb, rec_ := t.cur } with
        active := b, pending := false, pendingInfo := false }
    s2.bump psPage Reg.PS_COMMITS_COUNT

def State.commitStore (s : State) (fails : Bool) : State :=
  let b := s.store.bank s.store.active
  s.commitWith b.imgRm b.imgHb fails

/-! Record payloads (R652). -/

/-- A fault-history entry's 32 bytes (R655). -/
def HistEnt.bytes (e : HistEnt) : List Byte :=
  leBytes e.time.toNat 8 ++ leBytes e.boot 4 ++ leBytes e.kind 1 ++ leBytes e.pd 1 ++ leBytes e.unit 1 ++ leBytes (b2n e.resolved) 1 ++
  leBytes e.index 4 ++ leBytes e.aux 4 ++ leBytes e.tag 8

/-- The payload of a record by its TYPE. -/
def StoreRec.payload (r : StoreRec) (ty : Nat) : Option (List Byte) :=
  match ty with
  | 1 => some r.identity
  | 2 => some (r.keys ++ leBytes r.revoked 4 ++ leBytes r.minRm 4 ++ leBytes r.minFw 4 ++ leBytes r.minHb 4)
  | 3 => some ((List.range 56).flatMap fun i => leBytes (mget (fun _ => 0) r.dieMap i) 4)
  | 4 => some ((List.range 144).flatMap fun i => ((mget (fun _ => ([] : List Byte)) r.link i) ++ List.replicate 16 0).take 16)
  | 5 => some (leBytes r.history.length 4 ++ leBytes r.dropped 4 ++ leBytes r.boots 4 ++ leBytes 0 4 ++ r.history.flatMap HistEnt.bytes)
  | 6 => some (leBytes (b2n r.autoOn) 1)
  | _ => none

/-! Commands (R658). -/

/-- A command ends with a REASON; 0 is DONE. -/
def State.psEnd (s : State) (reason : Nat) : State :=
  let s1 := (s.setStore fun t => { t with busy := none }).setFlag psPage Reg.PS_CMD_GO false
  ((((s1.setFld psPage Reg.PS_CMD_STATUS_CODE (if reason = 0 then 0 else 0x7F)).setFld psPage Reg.PS_CMD_STATUS_REASON
    reason)).setFlag psPage Reg.PS_CMD_STATUS_VALID true).setInt psPage 1

/-- A failure for which the spec names no REASON: the REASON is a free value. -/
def State.psOpen (s : State) : State := (s.psEnd (Config.freeNat s.freeCtr 0 8)).nextFree

/-- A commit for a command, with the records it changes: DONE, or REASON 5 and nothing changed. -/
def State.psCommit (s : State) (fails : Bool) (f : StoreRec → StoreRec := id) : State :=
  ((if fails then s else s.setStore fun t => { t with cur := f t.cur }).commitStore fails).psEnd (if fails then 5 else 0)

def State.psAddr (s : State) : Nat := s.reg64 psPage 0x110 % 2 ^ 52

/-- UPDATE_IMAGE: the image goes into its slot of the inactive bank, and the header committed names that bank. -/
def State.psImage (s : State) (fails : Bool) : State :=
  let len := s.fld psPage Reg.PS_LEN_BYTES
  let (code, bs, s1) := s.memRead 0 s.psAddr len
  if code ≠ 0 then s1.psOpen
  else
    match storedKind bs with
    | none => s1.psEnd 1
    | some hb =>
      if slotSize hb < len then s1.psEnd 3
      else
        let f := s1.storedFault bs hb
        if f ≠ 0 then s1.psEnd f
        else
          let b := !s1.store.active
          let old := s1.store.bank s1.store.active
          let e : ImgEnt := { bank := b, len := len, ver := fieldAt bs 8 4 }
          let s2 := s1.setStore fun t => t.setBank b (if hb then { t.bank b with slotHb := bs } else { t.bank b with slotRm := bs })
          (s2.commitWith (if hb then old.imgRm else e) (if hb then e else old.imgHb) fails).psEnd (if fails then 5 else 0)

/-- UPDATE_CFG: the BOOT_CFG record at PS_ADDR. -/
def State.psCfg (s : State) (fails : Bool) : State :=
  let (code, h, s1) := s.memRead 0 s.psAddr 16
  if code ≠ 0 then s1.psOpen
  else
    let len := fieldAt h 4 4
    if fieldAt h 0 2 ≠ 6 ∨ len = 0 ∨ 4096 < len ∨ fieldAt h 12 4 ≠ 0 then s1.psEnd 4
    else
      let (c2, pl, s2) := s1.memRead 0 (s.psAddr + 16) len
      if c2 ≠ 0 then s2.psOpen
      else if crc32 pl ≠ fieldAt h 8 4 ∨ 1 < leNat pl then s2.psEnd 4
      else s2.psCommit fails fun r => { r with autoOn := leNat pl == 1 }

/-- REVOKE: a key in use by the running Ringmaster image cannot be revoked. -/
def State.psRevoke (s : State) (arg : Nat) (fails : Bool) : State :=
  let used := fieldAt (s.store.image (s.store.bank s.store.active) false) 6 1
  if bitOf (arg % 16) used then s.psOpen
  else
    let (code, bs, s1) := s.memRead 0 s.psAddr 12
    if code ≠ 0 then s1.psOpen
    else
      s1.psCommit fails fun r => { r with
        revoked := r.revoked ||| arg % 16
        minRm := max r.minRm (fieldAt bs 0 4)
        minFw := max r.minFw (fieldAt bs 4 4)
        minHb := max r.minHb (fieldAt bs 8 4) }

/-- READ_RECORD: the payload of a record is copied to PS_ADDR. -/
def State.psRead (s : State) : State :=
  match s.store.cur.payload (s.fld psPage Reg.PS_REC_TYPE_TYPE) with
  | none => s.psEnd 4
  | some pl =>
    if s.fld psPage Reg.PS_LEN_BYTES < pl.length then s.psEnd 3
    else
      let (code, s1) := s.memWrite 0 s.psAddr pl
      if code ≠ 0 then s1.psOpen else s1.psEnd 0

/-- The command in progress is performed. -/
def State.psRun (s : State) (cmd arg : Nat) (fails : Bool) : State :=
  match cmd with
  | 1 => s.psCommit fails
  | 2 => s.psImage fails
  | 3 => s.psCfg fails
  | 4 => s.psRevoke arg fails
  | 5 => s.psCommit fails fun r => { r with history := r.history.filter (·.kind != arg) }
  | 6 => s.psRead
  | _ => s.psEnd 0

/-- GO on PS_CMD: a command already running ends the new one with REASON 6. NONE ends at once. -/
def State.psGo (s : State) (cmd arg : Nat) : State :=
  if s.store.busy.isSome then
    ((s.setFld psPage Reg.PS_CMD_STATUS_CODE 0x7F).setFld psPage Reg.PS_CMD_STATUS_REASON 6).setFlag psPage Reg.PS_CMD_STATUS_VALID true
  else if cmd = 0 then (s.setFlag psPage Reg.PS_CMD_STATUS_VALID false).psEnd 0
  else ((s.setStore fun t => { t with busy := some (cmd, arg) }).setFlag psPage Reg.PS_CMD_GO true).setFlag psPage
    Reg.PS_CMD_STATUS_VALID false

/-- PS_CMD_DONE: the command in progress ends; flash: a program or read-back failed. -/
def execPsCmdDone (flash : Bool) (s : State) : Host.Outcome State Fault Refusal :=
  match s.store.busy with
  | some (cmd, arg) => .next (s.psRun cmd arg flash)
  | none => .next s

/-- PS_AUTO_COMMIT: entries that are pending are committed (R654). -/
def execPsAutoCommit (flash : Bool) (s : State) : Host.Outcome State Fault Refusal :=
  if (s.store.pending || s.store.pendingInfo) && s.store.busy.isNone && s.boot.rmRuns then .next (s.commitStore flash) else .next s

/-- The bank that the boot ROM selects (R653): the valid one whose SEQ does not precede the other's. -/
def Store.select (t : Store) : Option Bool :=
  match t.bank0.valid, t.bank1.valid with
  | false, false => none
  | true, false => some false
  | false, true => some true
  | true, true =>
    let d := (t.bank1.seq + 2 ^ 32 - t.bank0.seq) % 2 ^ 32
    some (decide (0 < d ∧ d < 2 ^ 31))

/-- The verified image of a bank, or of the other valid bank; whether that was a fallback (R653). -/
def State.bootImage (s : State) (b : Bool) (hb : Bool) : Option (Bool × List Byte) :=
  let ok (x : Bool) : Bool :=
    let bs := s.store.image (s.store.bank x) hb
    (s.store.bank x).valid && s.storedFault bs hb == 0
  if ok b then some (false, s.store.image (s.store.bank b) hb)
  else if ok (!b) then some (true, s.store.image (s.store.bank (!b)) hb)
  else none

/-- The other bank's image is used (R653). -/
def State.fellBack (s : State) : State := ((s.setFlag psPage Reg.PS_STAT_FALLBACK true).report psPage 1 0).setInt psPage 2

end Sys2Proof.Machine
end

