-- ==== Sys2Proof/Machine/BootOps.lean ====
section
/-!
DEFINITION. The staged start, power requests, power-down and resets (spec/24_clocks_bringup.md R626 to R648,
spec/01_architecture.md R17 to R24, spec/02_register_pages.md R65, R66, spec/25_package_signals.md R668, R674, R675).
-/
namespace Sys2Proof.Machine

def famPage : Page := pkgPage .familyParam

def State.stage (s : State) : Nat := s.fld tbPage Reg.TB_STAGE_STAGE

def State.setPins (s : State) (f : Pins → Pins) : State := { s with boot := { s.boot with pins := f s.boot.pins } }

def State.setBoot (s : State) (f : BootSt → BootSt) : State := { s with boot := f s.boot }

/-- TB_STAGE.POWER: 0 off, 1 powering up, 2 on, 3 powering down. -/
def State.powerSt (s : State) : Nat := s.fld tbPage Reg.TB_STAGE_POWER
def State.setPower (s : State) (n : Nat) : State := s.setFld tbPage Reg.TB_STAGE_POWER n

/-- A stage failure: FAIL, event 0x1501 and ALERT_N (R643). A condition that already shows is not recorded again. -/
def State.stageFail (s : State) (n : Nat) : State :=
  if s.fld tbPage Reg.TB_STAGE_FAIL = n then s
  else (((s.setFld tbPage Reg.TB_STAGE_FAIL n).report tbPage 1 n).setInt tbPage 2).alertCause

def State.clearFail (s : State) : State :=
  if s.fld tbPage Reg.TB_STAGE_FAIL = 0 then s else (s.setFld tbPage Reg.TB_STAGE_FAIL 0).setInt tbPage 2

/-! Resets (R634 to R636). -/

/-- The package with the system domain and the agents without power: what the management partition and the standby domain
hold stays. -/
def State.unpowered (s : State) : State :=
  { s with
    regs := s.regs.filter fun x => match blkOfCode (x.1 / 0x1000000) with | some .familyParam => false | some b => isPackage b | none => false
    pages := s.pages.filter fun x => match blkOfCode (x.1 / 0x1000) with | some b => isPackage b | none => false
    dies := { mgmtBackup := s.dies.mgmtBackup, boardId := s.dies.boardId }
    sched := {}, cores := [], tcs := [], ckpts := [], ts := {}, tierS := {}, traces := [], frozen := false, memsys := {}, cpu := {}
    mv := {}, pcie := { out := s.pcie.out }, jal := { out := s.jal.out, flits := s.jal.flits }
    fw := { starts := s.fw.starts }
    tap := { s.tap with dies := [], chain := 0, dm := {} }
    power := { s.power with agents := [] }
    boot := { s.boot with rails := 0, good := 0, pins := { s.boot.pins with perst := [], pwrOk := false } } }

/-- A system reset with its cause (R635, R636): everything but the standby domain, the store's contents and what has left the
package returns to reset; inputs keep their levels. -/
def State.sysReset (s : State) (cause : Nat) : State :=
  let s1 : State := { State.reset with
    pending := s.pending
    clock := s.clock
    freeCtr := s.freeCtr
    store := { s.store with busy := none }
    pcie := { out := s.pcie.out }
    jal := { out := s.jal.out, flits := s.jal.flits }
    tap := { s.tap with dies := [], chain := 0, dm := {} }
    boot := { vstby := s.boot.vstby, pins := { s.boot.pins with thermtrip := false, alert := false, syncOut := 0, perst := [] } } }
  s1.setFld tbPage Reg.TB_RESET_CAUSE_CAUSE cause

/-! Power requests (R645, R647, R648). -/

/-- The package powers up only through a system reset: after an emergency stop or a lost clock (R576, R630). -/
def State.barred (s : State) : Bool := s.power.stop != 0 || s.fld tbPage Reg.TB_STAGE_FAIL == 8

/-- An on request. -/
def State.onRequest (s : State) : State :=
  if s.barred || s.powerSt == 1 || s.powerSt == 2 then s else s.setFlag tbPage Reg.TB_PWR_REQ_ON true

/-- An off request: during a rail ramp it waits for the rails commanded to be in regulation; later work is at a safe
point. -/
def State.offRequest (s : State) : State :=
  let s1 := s.setFlag tbPage Reg.TB_PWR_REQ_ON false
  if s.powerSt = 0 ∨ s.powerSt = 3 then s1
  else if s.powerSt = 1 ∧ s.boot.good < s.boot.rails then s1.setFlag tbPage Reg.TB_PWR_REQ_OFF true
  else s1.setPower 3

/-! Power-down (R646, R675). -/

/-- A running job is held, and this device cannot continue (R575, R646). -/
def State.stopHold (s : State) : State :=
  if s.schedRuns || s.sched.state == .held then
    ((s.raiseHold 3 s.deviceNo s.holdStep).setSched fun c => { c with noContinue := some 0x7F }).recoveryReport
  else s

/-- Harts, movers, Carousel and exchange engines stop, and the PCIe links are taken down. -/
def State.stopAgents (s : State) : State :=
  let s1 := (List.range s.hartCount).foldl (fun (t : State) h => if (t.hart h).gone then t else t.hartTo h .reset) s
  let s2 := { s1 with mv := {}, memsys := { s1.memsys with place := { s1.memsys.place with engines := [], hintQ := [], promoQ := [] } } }
  (List.range 4).foldl (fun (t : State) n => if t.present (rpPage n) then (t.setPerst n true).linkControls n else t) s2

/-- Jallyn ports stop transmitting; DDR5 channels and stacks park, their buffers lost with them. -/
def State.parkLinks (s : State) : State :=
  let s1 := (List.range 8).foldl (fun (t : State) n => if t.jpState n = 0 then t else t.setFld (jpPage n) Reg.JP_STAT_STATE 0) s
  { s1 with jal := { s1.jal with ports := [], flipAt := none } }

/-- The rails are off: the package is in stage 1. -/
def State.railsOff (s : State) : State := ((((s.unpowered.toStage 1).setFlag tbPage Reg.TB_STAGE_READY false).setPower 0).setFlag tbPage
  Reg.TB_PWR_REQ_OFF false).stateEvent 201 0 s.fw.state

/-- Power-down from its item 1 (R646). -/
def State.powerDown (s : State) : State := ((s.stopHold.holdClusters).stopAgents.parkLinks).railsOff

/-- A stage failure that ends in stage 1 with the request cleared (R643). -/
def State.failDown (s : State) (n : Nat) : State := ((s.stageFail n).setFlag tbPage Reg.TB_PWR_REQ_ON false).powerDown

/-! Die map (R20 to R24, R66, R284, R544). -/

def rowOf (pd : PD) : Nat := pd.val / 8
def colOf (pd : PD) : Nat := pd.val % 8

/-- A number of an interface bonded at a die, or a value for none. -/
def bondNum (l : List Nat) (pd : PD) (none_ : Nat) : Nat := (l.findIdx? (· == pd.val)).getD none_

def bondedAny (pd : PD) : Bool := bondF.contains pd.val || bondJ.contains pd.val || bondP.contains pd.val || bondM.contains pd.val

def testOf (tests : List DieTest) (pd : PD) : DieTest := (tests.find? (·.pd == pd)).getD ⟨pd, false, false, [], []⟩

/-- Cores that fail: those that the test names, and those that the fault history records (R544). -/
def State.badCores (s : State) (tests : List DieTest) (pd : PD) : List MC :=
  (List.finRange 17).filter fun m => (testOf tests pd).cores.contains m ||
    s.store.cur.history.any fun h => (h.kind == 1 || h.kind == 2) && !h.resolved && h.pd == pd.val && h.unit == m.val

def State.mapBits (s : State) (pd : PD) : Nat := mget (fun _ => 0) s.store.cur.dieMap pd.val

/-- A die fails its compute test, or its stack has failed. -/
def State.dieBad (s : State) (tests : List DieTest) (pd : PD) : Bool :=
  let t := testOf tests pd
  t.compute || decide (2 ≤ (s.badCores tests pd).length) || decide (3 ≤ t.banks.eraseDups.length) || bitOf (s.mapBits pd) 4

/-- Spares in ascending order up to the number needed: those made full, and those tested and found bad (R21). -/
def State.takeSpares (s : State) (tests : List DieTest) : Nat → List PD → List PD × List PD
  | _, [] => ([], [])
  | 0, _ => ([], [])
  | n + 1, d :: ds =>
    if s.dieBad tests d then
      let r := s.takeSpares tests (n + 1) ds
      (r.1, d :: r.2)
    else
      let r := s.takeSpares tests n ds
      (d :: r.1, r.2)

/-- Numbering's outcome: the full dies, and dies whose test failed. -/
def State.chooseDies (s : State) (tests : List DieTest) : List PD × List PD :=
  let marked := (List.finRange 56).filter fun pd => bitOf (s.mapBits pd) 0
  let bad := marked.filter (s.dieBad tests ·)
  let pool := (List.finRange 56).filter fun pd => bitOf (s.mapBits pd) 1 && !bitOf (s.mapBits pd) 0 && pd.val != 0 && pd.val != 55
  let r := s.takeSpares tests bad.length pool
  (marked.filter (fun pd => !s.dieBad tests pd) ++ r.1, bad ++ r.2)

/-- The physical banks of a die in the order of the logical ones (R268): those that pass, ascending. -/
def bankOrder (bad : List (Fin 66)) : List Nat := ((List.finRange 66).filter fun b => !bad.contains b).map (·.val)

/-- A full die's core map under its failing core (R544): its key in the core map, and the core fenced. -/
def State.loadCores (s : State) (tests : List DieTest) (pd : PD) : State :=
  match s.badCores tests pd with
  | [] => s
  | m :: _ =>
    let s1 := if m.val < 16 then { s with dies := { s.dies with mcMap := mput (fun k => k % 16) s.dies.mcMap (pd.val * 16 + m.val) 16 } } else s
    let p := mcorePage pd m
    ((s1.setFlag p Reg.BLK_CTRL_FENCE true).setFlag p Reg.BLK_STAT_FENCED true).reportOpen (diePage .dieCfg pd) 5

/-- DIE_CFG and TSRAM of a powered die are loaded (R66, R268, R284). -/
def State.loadDie (s : State) (tests : List DieTest) (bad : List PD) (pd : PD) : State :=
  let p := diePage .dieCfg pd
  let full := s.role pd == .full
  let t := testOf tests pd
  let w0 := (if full then 2 else 1) + b2n (bitOf (s.mapBits pd) 1) * 4 + b2n (full && bitOf (s.mapBits pd) 1) * 8 +
    b2n (rowOf pd = 0 ∨ rowOf pd = 6 ∨ colOf pd = 0 ∨ colOf pd = 7) * 16 + b2n (bondM.contains pd.val) * 32 + b2n (s.mgmtPd == pd) * 64 +
    (if full then (s.ldOf pd).getD 0x3F else 0x3F) * 2 ^ 8 + rowOf pd * 2 ^ 16 + colOf pd * 2 ^ 20
  let w1 := b2n (bondF.contains pd.val) + b2n (bondJ.contains pd.val) * 2 + b2n (bondP.contains pd.val) * 4 + b2n (bondM.contains pd.val) * 8 +
    b2n (t.io && bondF.contains pd.val) * 2 ^ 8 + b2n (t.io && bondJ.contains pd.val) * 2 ^ 9 + b2n (t.io && bondP.contains pd.val) * 2 ^ 10 +
    bondNum bondF pd 0x1F * 2 ^ 16 + bondNum bondJ pd 0xF * 2 ^ 24 + bondNum bondP pd 7 * 2 ^ 28
  let s1 := ((s.setReg p 0x100 (BitVec.ofNat 32 w0)).setReg p 0x104 (BitVec.ofNat 32 w1)).setReg p 0x108
    (BitVec.ofNat 32 (3 + b2n (bondedAny pd) * 4 + b2n full * 8))
  let s2 := (s1.setFld p Reg.DC_HART_BASE (if full then 2 * (s.ldOf pd).getD 0 else 0xFF)).setReg p 0x124
    (BitVec.ofNat 32 (b2n (bad.contains pd) + b2n t.io * 2))
  let s3 := if t.io && bondedAny pd then s2.reportOpen p 4 else s2
  if !full then s3
  else
    let s4 := (s3.loadCores tests pd).showMap pd
    let s5 := s4.setFlag p Reg.DC_SUBSTITUTED ((s4.mcOf pd 0 :: (List.range 16).map (s4.mcOf pd ·)).any fun m => m.val == 16)
    let q := diePage .tsram pd
    let spared := t.banks.map (·.val)
    let order := bankOrder t.banks
    let s6 := (s5.setFld q Reg.TSRAM_REPAIR_SPARED0 (spared.getD 0 0x7F)).setFld q Reg.TSRAM_REPAIR_SPARED1 (spared.getD 1 0x7F)
    (List.range 16).foldl (fun (u : State) i =>
      u.setFld q Reg.TSRAM_BANK_MAP_MAP ((List.range 4).foldl (fun v k => v + order.getD (4 * i + k) 0 * 2 ^ (8 * k)) 0) i) s6

/-- FAMILY_PARAM's stage-2 fields (R65). -/
def State.loadFamily (s : State) : State :=
  let n := s.fullDies.length
  let map := s.fullDies.foldl (fun v pd => v + 2 ^ pd.val) 0
  let s1 := (((((s.setFld famPage Reg.FP_LOGICAL_DIES n).setFld famPage Reg.FP_LOGICAL_MC (16 * n)).setFld famPage Reg.FP_HARTS (2 * n)).setFld
    famPage Reg.FP_FULL_MAP_LO (map % 2 ^ 32)).setFld famPage Reg.FP_FULL_MAP_HI (map / 2 ^ 32)).setFlag famPage Reg.FP_SPARE_SHORT (decide (n < 50))
  let s2 := (List.range 16).foldl (fun (t : State) i =>
    t.setFld famPage Reg.FP_LD_MAP ((List.range 4).foldl (fun v k =>
      v + (match s.pdOfLd (4 * i + k) with | some pd => pd.val | none => 0xFF) * 2 ^ (8 * k)) 0) i) s1
  s2.setFlag famPage Reg.FP_DIE_MAP_VALID true

/-- The role of a die (R20). -/
def roleOf (full : List PD) (pd : PD) : Role := if full.contains pd then .full else if bondedAny pd then .ioOnly else .off

/-- Items 3 to 5 of stage 2 (R640): spares, numbering, the loading of pages and the default table, the commit of a changed die
map. -/
def State.mapDies (s : State) (tests : List DieTest) (flash : Bool) : State :=
  let (full, bad) := s.chooseDies tests
  let bits (pd : PD) : Nat :=
    let b := s.mapBits pd
    let b1 := withBits b 0 1 (b2n (full.contains pd))
    let b2 := if bad.contains pd && !bitOf b 4 then withBits b1 2 1 1 else b1
    if (testOf tests pd).io then withBits b2 3 1 1 else b2
  let map := (List.finRange 56).foldl (fun (m : List (Nat × Nat)) pd => mput (fun _ => 0) m pd.val (bits pd)) s.store.cur.dieMap
  let roles := (List.finRange 56).foldl (fun (m : List (Nat × Role)) pd => mput (fun _ => Role.off) m pd.val (roleOf full pd)) []
  let s1 := { s with dies := { s.dies with roles := roles, mcMap := [] } }
  let s2 := bad.foldl (fun (t : State) pd => t.reportOpen (diePage .dieCfg pd) 1) s1
  let s3 := (full.filter fun pd => !bitOf (s.mapBits pd) 0).foldl (fun (t : State) pd => t.reportOpen (diePage .dieCfg pd) 2) s2
  let s4 := if full.length < 50 then s3.reportOpen (diePage .dieCfg s.mgmtPd) 3 else s3
  let s5 := ((List.finRange 56).filter fun pd => roleOf full pd != .off).foldl (fun (t : State) pd => t.loadDie tests bad pd) s4
  let s6 := s5.loadFamily.loadFrac true
  if map = s.store.cur.dieMap then s6
  else (s6.setStore fun t => { t with cur := { t.cur with dieMap := map } }).commitStore flash

/-- The minimal service set at stage 2 (R644): a full die and a PCIe port whose I/O partition passes. -/
def State.serviceOk (s : State) : Bool :=
  !s.fullDies.isEmpty && (List.range 4).any fun n => s.present (rpPage n)

/-! Stage 3 (R641). -/

/-- A channel's training result is loaded. -/
def State.loadChan (s : State) (c : ChanTrain) : State :=
  let p := fchanPage c.ch
  if !s.present p then s
  else
    let s1 := ((s.setFld p Reg.FCHAN_STAT_STATE (if c.ready then 2 else 5)).setReg p 0x108 (c.dimm0.setWidth 32)).setReg p 0x10C (c.dimm1.setWidth 32)
    let s2 := ((s1.setFld p Reg.FCHAN_SPEED_RATE c.rate.val).setFlag p Reg.FCHAN_SPEED_DOWNBIN c.downbin).setFld p Reg.FCHAN_SPEED_CAP_GIB
      (if c.ready then c.cap.val else 0)
    let s3 := if c.downbin then s2.reportOpen p 7 else s2
    [c.dimm0, c.dimm1].foldl (fun (t : State) d => if bitsOf d.toNat 8 4 = 0 then t else t.reportOpen p 6) s3

/-- Slots per channel: 512 for each GiB in service. -/
def State.chanCaps (s : State) : List Nat :=
  (List.finRange 24).map fun c => if s.fld (fchanPage c) Reg.FCHAN_STAT_STATE = 2 then 512 * s.fld (fchanPage c) Reg.FCHAN_SPEED_CAP_GIB else 0

/-- Channels are taken out of service from the highest downward until the frames fit (R289): the capacities left, and the
channels taken out. -/
def fitCaps (most : Nat) : Nat → List Nat → List Nat × List Nat
  | 0, l => (l, [])
  | n + 1, l =>
    if l.foldl (· + ·) 0 ≤ most then (l, [])
    else if l.getD n 0 = 0 then fitCaps most n l
    else
      let r := fitCaps most n (l.set n 0)
      (r.1, n :: r.2)

/-- F_GIB, MEM_TOP and the placement table (R38, R289). -/
def State.loadMemory (s : State) : State :=
  let n := s.fullDies.length
  let (caps, gone) := fitCaps (122880 * n) 24 s.chanCaps
  let gib := caps.foldl (· + ·) 0 / 512
  let top := (16 * n + gib) * 2 ^ 30
  let s1 := (((s.setFld famPage Reg.FP_F_GIB gib).setReg64 famPage 0x120 top).setFlag famPage Reg.FP_TIER_F_VALID true).setPlace
    { s.place with ready := true, ldies := n, caps := caps }
  let s2 := gone.foldl (fun (t : State) c =>
    (t.setFld (fchanPage ⟨c % 24, Nat.mod_lt _ (by decide)⟩) Reg.FCHAN_STAT_STATE 5).report (t.ldPage .place 0) 6 c) s1
  s2.fullDies.foldl (fun (t : State) pd => t.setFlag (diePage .place pd) Reg.PLACE_STAT_TABLE_READY true) s2

/-- Frames are pinned with owner tag 0 (R591, R641). -/
def State.pinFrames (s : State) (f n : Nat) : State :=
  (List.range n).foldl (fun (t : State) i => t.setEntry (f + i) { t.entry (f + i) with pin := true, owner := 0 }) s

/-- A frame in Tier F changes places with the Tier N slot of the highest frame there (log entry 34). -/
def State.intoTierN (s : State) (f : Nat) : State :=
  let nf := 8192 * s.place.ldies
  if f < nf then s
  else
    let g := nf - 1
    let a := s.entry f
    let b := s.entry g
    let s1 := (s.setEntry f { a with tier := false, unit := b.unit, slot := b.slot }).setEntry g { b with tier := true, unit := a.unit, slot := a.slot }
    s1.setPlace { s1.place with
      revN := mput s1.place.initRevN s1.place.revN (b.unit * 8192 + b.slot) f
      revF := mput s1.place.initRevF s1.place.revF (a.unit * 2 ^ 17 + a.slot) g }

/-- The load frame is reserved: pinned in Tier N, its control block zero (R591). -/
def State.reserveFrame (s : State) : State :=
  let f := s.loadFrame / 2 ^ 21
  let s1 := (s.intoTierN f).pinFrames f 1
  (s1.memWrite 0 s1.loadFrame (List.replicate 4096 0)).2

/-- The host boot image is copied to address 0 and its frames pinned; its entry address; none where no image is
verified (R641). -/
def State.copyHost (s : State) : Option Nat × State :=
  match s.bootImage s.store.active true with
  | none => (none, s)
  | some (fell, bs) =>
    let img := imgBytes bs 0
    let s1 := if fell then s.fellBack else s
    (some (imgEntry bs 0), ((s1.memWrite 0 0 img).2).pinFrames 0 ((img.length + 2 ^ 21 - 1) / 2 ^ 21))

/-- The boot hart starts: the lowest that passed its test (R444, R641). -/
def State.startBoot (s : State) (entry : Nat) : State :=
  match (List.range s.hartCount).find? fun h => !(s.hart h).gone with
  | none => s
  | some h =>
    let s1 := s.setReg64 (cpuclPageOf s h) 0x108 entry
    (((s1.setHart h { s1.hart h with pc := BitVec.ofNat 64 entry, priv := 3 }).hartTo h .running).setPower 2).toStage 4

/-- Rows that hPPR repaired are resolved in the fault history (R378, R656). -/
def State.resolveRows (s : State) (l : List (Fin 4096)) : State :=
  let done (x : HistEnt × Nat) : HistEnt :=
    if x.1.kind == 5 && (l.map (·.val)).contains x.2 then { x.1 with resolved := true } else x.1
  s.setStore fun t => { t with cur := { t.cur with history := t.cur.history.zipIdx.map done } }

end Sys2Proof.Machine
end

