-- ==== Sys2Proof/Machine/DbgOps.lean ====
section
/-!
DEFINITION. The debug block: halting and stepping cores, memory accesses, region blocks and the trace buffer's views
(spec/26_test_debug.md R692 to R703).
-/
namespace Sys2Proof.Machine

def dbgPage (pd : PD) : Page := diePage .dbg pd

/-- The intrusive functions of a die's debug block are on (R692). -/
def State.dbgEn (s : State) (pd : PD) : Bool := s.flag (dbgPage pd) Reg.DBG_CTRL_EN

/-- The core that DBG_CORE_SEL selects. -/
def State.dbgCore (s : State) (pd : PD) : MC := ⟨s.fld (dbgPage pd) Reg.DBG_CORE_SEL_SLOT % 17, Nat.mod_lt _ (by decide)⟩

/-- A core that the debug block holds. -/
def CoreSt.isHalted (c : CoreSt) : Bool := c.dhalt.isSome && c.status == .stoppedReq

/-- HALT stops a core's dispatch at its next boundary, and with FREEZE a device that is its own partition (R695, R696). -/
def State.dbgHalt (s : State) (pd : PD) : State :=
  let mc := s.dbgCore pd
  let st := (s.core pd mc).status
  if !s.dbgEn pd || !(st == .running || st == .waitTs || st == .waitStep || st == .armed) then s
  else
    let s1 := (s.debugTouch pd).debugHalted pd mc
    { s1 with frozen := s1.frozen || (s.flag (dbgPage pd) Reg.DBG_CTRL_FREEZE && s.devices == 1) }

/-- The status a halted core takes up again; one whose wait was withdrawn stands before its wait (R153, R695). -/
def CoreSt.released (c : CoreSt) (st : CoreStatus) : CoreSt :=
  match st with
  | .waitTs => { c with status := .running, hold := .none, dhalt := none }
  | _ => { c with status := st, dhalt := none }

/-- RESUME (R695, R696). -/
def State.dbgResume (s : State) (pd : PD) : State :=
  let mc := s.dbgCore pd
  let c := s.core pd mc
  if !s.dbgEn pd then s
  else
    let s1 := { s with frozen := false }
    match c.dhalt with
    | some st => if c.isHalted then s1.setCore pd mc (c.released st) else s1
    | none => s1

/-- STEP: the next instruction dispatches, and the core halts again (R695). -/
def State.dbgStep (s : State) (pd : PD) : State :=
  let mc := s.dbgCore pd
  let c := s.core pd mc
  if !s.dbgEn pd || !c.isHalted then s
  else
    match c.dhalt with
    | some st => (((s.debugTouch pd).setCore pd mc { c.released st with dstep := true })).setFlag (dbgPage pd) Reg.DBG_CORE_CMD_STEP true
    | none => s

/-! Memory (R698). -/

/-- A write past the protection of frozen frames and step inputs: those two checks are lifted for it alone. -/
def State.debugWrite (s : State) (a : Nat) (bs : List Byte) : Nat × State :=
  let f := a / 2 ^ 21
  let was := (s.entry f).frozen
  let ins := s.sched.inputCur
  let s1 := (s.setEntry f { s.entry f with frozen := false }).setSched fun c => { c with inputCur := [] }
  let (code, s2) := s1.memWrite 0 a bs
  (code, (s2.setEntry f { s2.entry f with frozen := was }).setSched fun c => { c with inputCur := ins })

/-- One aligned 4 B access: its code, the word read, and the state. -/
def State.dbgAccess (s : State) (pd : PD) (write : Bool) (err : TierFail) : Nat × Word × State :=
  let p := dbgPage pd
  let a := s.reg64 p 0x120 % 2 ^ 52 / 4 * 4
  let data := s.reg p 0x128
  if s.flag p Reg.DBG_MEM_ADDR_HI_SPACE then
    if !s.saOk a then (0x13, 0, s)
    else if write then (0, data, (s.sPut a (leBytes data.toNat 4)).debugTouch pd)
    else if (s.poisonIn a 4).isSome then (0x7F, 0, s)
    else (0, BitVec.ofNat 32 (leNat (s.sRead a 4)), s)
  else if !s.backed a then (0x13, 0, s)
  else if write then
    let (code, s1) := s.debugWrite a (leBytes data.toNat 4)
    if code ≠ 0 then (code, data, s1)
    else
      let (c2, s2) := s1.tierFails a err
      (c2, data, s2.debugTouch pd)
  else
    let (code, bs, s1) := s.sysRead 0 a 4 err (.data 0)
    (code, BitVec.ofNat 32 (leNat bs), s1)

/-- GO on DBG_MEM_CMD: the access, its code and the MEM_DONE interrupt. A write acts only while EN is set (R692). -/
def State.dbgMem (s : State) (pd : PD) (op : Nat) (err : TierFail) : State :=
  let p := dbgPage pd
  if op = 2 ∧ !s.dbgEn pd then s
  else
    let (code, w, s1) := s.dbgAccess pd (op == 2) err
    let s2 := if op = 1 ∧ code = 0 then s1.setReg p 0x128 w else s1
    ((s2.setFld p Reg.DBG_MEM_STATUS_CODE code).setFlag p Reg.DBG_MEM_STATUS_VALID true).setInt p 3

/-! Views (R699, R700). -/

/-- The region block of the slot that DBG_RB_SEL selects: of a mover's MVR or ring slot, or of the record of Carousel in that
place of flight. -/
def State.rbSelected (s : State) (pd : PD) : Option RegBlock :=
  let sel := (s.reg (dbgPage pd) 0x170).toNat
  let slot := bitsOf sel 3 4
  let m := s.mover pd (bitsOf sel 1 2)
  if bitOf sel 0 then ((s.car pd).inflight[slot]?).bind (·.x.blk)
  else if slot < 8 then (m.slot slot).bind (·.x.blk)
  else (m.rslot (slot - 8)).bind (·.x.blk)

/-- Word k of the selected region block, 0 where the slot holds none. -/
def State.rbWord (s : State) (pd : PD) (k : Nat) : Nat :=
  match s.rbSelected pd with
  | some b => leNat ((b.bytes.drop (4 * k)).take 4)
  | none => 0

def State.trace (s : State) (pd : PD) : TraceSt := mget (fun _ => {}) s.traces pd.val

/-- Entries that the trace buffer holds. -/
def TraceSt.held (t : TraceSt) : Nat := min t.written 16384

/-- DBG_TRC_STAT. -/
def State.traceStat (s : State) (pd : PD) : Nat :=
  let t := s.trace pd
  let full := decide (16384 ≤ t.written)
  t.held + b2n full * 2 ^ 15 + b2n (s.traceOn pd && !(full && s.fld (dbgPage pd) Reg.DBG_TRC_CTRL_MODE == 1)) * 2 ^ 16

/-- Word k of the entry at DBG_TRC_RD, 0 being the oldest. -/
def State.traceWord (s : State) (pd : PD) (k : Nat) : Nat :=
  let t := s.trace pd
  let i := s.fld (dbgPage pd) Reg.DBG_TRC_RD_INDEX
  if t.held ≤ i then 0 else bitsOf (mget (fun _ => 0) t.buf ((t.written - t.held + i) % 16384)).toNat (32 * k) 32

/-- DBG_CORE_STAT. -/
def State.coreStat (s : State) (pd : PD) : Nat :=
  let c := s.core pd (s.dbgCore pd)
  b2n c.isHalted + b2n s.frozen * 2 + c.x.pc.toNat * 2 ^ 4

end Sys2Proof.Machine
end

