-- ==== Sys2Proof/Machine/DmOps.lean ====
section
/-!
DEFINITION. The hart debug module behind DMI (spec/26_test_debug.md R701, spec/17_cpu_complex.md R443, R445, R467; the layout
of its registers is that of the RISC-V Debug Specification 1.0, log entry 37).
-/
namespace Sys2Proof.Machine

def State.dm (s : State) : DmSt := s.tap.dm

def State.setDm (s : State) (d : DmSt) : State := { s with tap := { s.tap with dm := d } }

/-- The debug block of a hart's die lets it be debugged (R692). -/
def State.hartDebug (s : State) (h : Nat) : Bool := decide (h < s.hartCount) && s.dbgEn ((s.pdOfLd (h / 2)).getD 0)

/-- A hart halts into debug with a cause for dcsr (R701). -/
def State.hartHalt (s : State) (h cause : Nat) : State :=
  let v := s.hart h
  if !s.hartDebug h || !(v.state == .running || v.state == .wfi) then s
  else
    let dcsr := (mget (fun _ => 0) v.csr 0x7B0).toNat
    (s.setHart h { v with csr := mput (fun _ => 0) v.csr 0x7B0 (BitVec.ofNat 64 (withBits dcsr 6 3 cause)) }).hartTo h .debugHalt

/-- A halted hart resumes; with dcsr.step it halts again behind one instruction, whose address the model does not have. -/
def State.hartResume (s : State) (h : Nat) : State :=
  let v := s.hart h
  if !s.hartDebug h || v.state != .debugHalt then s
  else
    let s1 := (s.hartTo h .running).setDm { s.dm with resumeAck := mput (fun _ => false) s.dm.resumeAck h true }
    if bitOf (mget (fun _ => 0) v.csr 0x7B0).toNat 2 then
      let s2 := s1.hartHalt h 4
      (s2.setHart h { s2.hart h with pc := Config.freeDWord s.freeCtr 0 }).nextFree
    else s1

/-- A hart that leaves reset halts at once where a request is set (R701). -/
def State.resetHalts (s : State) (h : Nat) : State :=
  if mget (fun _ => false) s.dm.resetHalt h then s.hartHalt h 5
  else if s.dm.active && s.dm.haltReq && s.dm.hartsel == h then s.hartHalt h 3
  else s

/-! CSRs (R443, R445). -/

/-- CSR numbers that the harts implement (R445), as ranges. -/
def csrRanges : List (Nat × Nat) :=
  [(0x001, 0x003), (0x008, 0x00A), (0x00F, 0x00F), (0x100, 0x100), (0x104, 0x106), (0x10A, 0x10A), (0x140, 0x144), (0x14D, 0x14D),
   (0x150, 0x151), (0x15C, 0x15C), (0x180, 0x180), (0x200, 0x200), (0x204, 0x205), (0x240, 0x244), (0x24D, 0x24D), (0x250, 0x251),
   (0x25C, 0x25C), (0x280, 0x280), (0x300, 0x306), (0x308, 0x30A), (0x320, 0x320), (0x323, 0x344), (0x34A, 0x34B), (0x350, 0x351),
   (0x35C, 0x35C), (0x3A0, 0x3A0), (0x3A2, 0x3A2), (0x3B0, 0x3BF), (0x5C0, 0x5C0), (0x600, 0x600), (0x602, 0x60A), (0x643, 0x647),
   (0x64A, 0x64A), (0x680, 0x680), (0x7A0, 0x7A4), (0x7B0, 0x7B3), (0xB00, 0xB00), (0xB02, 0xB1F), (0xC00, 0xC1F), (0xC20, 0xC22),
   (0xDB0, 0xDB0), (0xE12, 0xE12), (0xEB0, 0xEB0), (0xF11, 0xF15), (0xFB0, 0xFB0)]

def csrThere (n : Nat) : Bool := csrRanges.any fun r => decide (r.1 ≤ n) && decide (n ≤ r.2)

/-- The place of a CSR: the trigger registers are one set for each of four triggers. -/
def HartSt.csrKey (v : HartSt) (n : Nat) : Nat :=
  if 0x7A1 ≤ n ∧ n ≤ 0x7A3 then n + 4096 * ((mget (fun _ => 0) v.csr 0x7A0).toNat % 4) else n

/-- The value of a CSR of hart h. -/
def State.csrRead (s : State) (h n : Nat) : DWord :=
  let v := s.hart h
  let raw := mget (fun _ => 0) v.csr (v.csrKey n)
  match n with
  | 0xF11 => 0
  | 0xF12 => 0x8000000000005A39
  | 0xF13 => 0xB1
  | 0xF14 => BitVec.ofNat 64 h
  | 0x301 => 0x80000000003411AD
  | 0xC01 => s.clock.time
  | 0xC22 => 64
  | 0x5C0 => v.zctxid.setWidth 64
  | 0x7B1 => v.pc
  | 0x7B0 => BitVec.ofNat 64 (withBits (withBits (withBits raw.toNat 0 2 v.priv) 5 1 (b2n v.virt)) 28 4 4)
  | 0x7A4 => 0x40
  | _ => if (0xC0B ≤ n ∧ n ≤ 0xC1F) ∨ (0xB0B ≤ n ∧ n ≤ 0xB1F) ∨ (0x32B ≤ n ∧ n ≤ 0x33F) then 0 else raw

/-- A CSR written: misa, the counters past 10 and tinfo ignore it. -/
def State.csrWrite (s : State) (h n : Nat) (x : DWord) : State :=
  let v := s.hart h
  let put : HartSt := { v with csr := mput (fun _ => 0) v.csr (v.csrKey n) x }
  match n with
  | 0x301 => s
  | 0x7A4 => s
  | 0x5C0 => s.setHart h { v with zctxid := x.setWidth 16 }
  | 0x7B1 => s.setHart h { v with pc := x }
  | 0x7B0 => s.setHart h { put with priv := bitsOf x.toNat 0 2, virt := bitOf x.toNat 5 }
  | _ => if (0xB0B ≤ n ∧ n ≤ 0xB1F) ∨ (0x32B ≤ n ∧ n ≤ 0x33F) then s else s.setHart h put

/-! Abstract commands. -/

/-- A register by its abstract number; none where there is none. -/
def State.absRead (s : State) (h n : Nat) : Option DWord :=
  let v := s.hart h
  if n < 0x1000 then (if csrThere n then some (s.csrRead h n) else none)
  else if n < 0x1020 then some (if n = 0x1000 then 0 else mget (fun _ => 0) v.x (n - 0x1000))
  else if n < 0x1040 then some (mget (fun _ => 0) v.f (n - 0x1020))
  else none

/-- A register written by its abstract number; none where that fails: no such register, or a read-only CSR. -/
def State.absWrite (s : State) (h n : Nat) (x : DWord) : Option State :=
  let v := s.hart h
  if n < 0x1000 then (if csrThere n && bitsOf n 10 2 != 3 then some (s.csrWrite h n x) else none)
  else if n < 0x1020 then some (if n = 0x1000 then s else s.setHart h { v with x := mput (fun _ => 0) v.x (n - 0x1000) x })
  else if n < 0x1040 then some (s.setHart h { v with f := mput (fun _ => 0) v.f (n - 0x1020) x })
  else none

/-- The two data words that an argument takes. -/
def DmSt.arg (d : DmSt) : DWord := (mget (fun _ => 0) d.data 1) ++ (mget (fun _ => 0) d.data 0)

def State.dmErr (s : State) (e : Nat) : State := s.setDm { s.dm with cmderr := e }

/-- The transfer of an access-register command of 32 (size 2) or 64 bits. -/
def State.absTransfer (s : State) (h c : Nat) : State :=
  let n := bitsOf c 0 16
  let wide := bitsOf c 20 3 == 3
  if bitOf c 16 then
    let old := ((s.absRead h n).getD 0).toNat
    let x := if wide then s.dm.arg else BitVec.ofNat 64 (withBits old 0 32 s.dm.arg.toNat)
    match s.absWrite h n x with
    | some s1 => s1
    | none => s.dmErr 3
  else
    match s.absRead h n with
    | some x =>
      let lo := mput (fun _ => 0) s.dm.data 0 (x.setWidth 32)
      s.setDm { s.dm with data := if wide then mput (fun _ => 0) lo 1 ((x >>> 32).setWidth 32) else lo }
    | none => s.dmErr 3

/-- Runs the abstract command that was written: access register alone is there, of a halted hart. What the program buffer's
instructions do is not part of the command (log entry 37). -/
def State.absRun (s : State) : State :=
  let d := s.dm
  let c := d.command
  let size := bitsOf c 20 3
  if d.cmderr ≠ 0 then s
  else if bitsOf c 24 8 ≠ 0 ∨ (bitOf c 17 && !(size == 2 || size == 3)) then s.dmErr 2
  else if !s.hartDebug d.hartsel || (s.hart d.hartsel).state != .debugHalt then s.dmErr 4
  else
    let s1 := if bitOf c 17 then s.absTransfer d.hartsel c else s
    if bitOf c 19 && s1.dm.cmderr == 0 then s1.setDm { s1.dm with command := withBits c 0 16 (bitsOf c 0 16 + 1) } else s1

/-! The registers that DMI reaches. -/

/-- dmstatus of the selected hart. -/
def State.dmStatus (s : State) : Nat :=
  let h := s.dm.hartsel
  let v := s.hart h
  let there := decide (h < s.hartCount)
  let two (b : Bool) (i : Nat) : Nat := b2n b * (3 * 2 ^ i)
  3 + 2 ^ 5 + 2 ^ 7 + two (there && v.state == .debugHalt) 8 + two (there && (v.state == .running || v.state == .wfi)) 10 +
    two (there && (v.state == .reset || v.gone)) 12 + two (!there) 14 + two (there && mget (fun _ => false) s.dm.resumeAck h) 16 +
    two (there && !mget (fun _ => false) s.dm.ackReset h) 18

/-- A word of the halt summary: harts 32n on, each bit a group of k. -/
def State.haltSum (s : State) (first k : Nat) : Nat :=
  (List.range 32).foldl (fun v b =>
    v + b2n ((List.range k).any fun j => decide (first + b * k + j < s.hartCount) && (s.hart (first + b * k + j)).state == .debugHalt) * 2 ^ b) 0

def State.dmRead (s : State) (a : Nat) : Nat :=
  let d := s.dm
  if 0x04 ≤ a ∧ a < 0x10 then (mget (fun _ => 0) d.data (a - 4)).toNat
  else if 0x20 ≤ a ∧ a < 0x28 then (mget (fun _ => 0) d.progbuf (a - 0x20)).toNat
  else
    match a with
    | 0x10 => b2n d.active + d.hartsel * 2 ^ 16
    | 0x11 => s.dmStatus
    | 0x13 => s.haltSum 0 32
    | 0x16 => 12 + d.cmderr * 2 ^ 8 + 8 * 2 ^ 24
    | 0x18 => d.auto
    | 0x40 => s.haltSum (d.hartsel / 32 * 32) 1
    | _ => 0

/-- dmcontrol: deactivation returns the module to reset; a halt request stands above a resume request. -/
def State.dmControl (s : State) (w : Nat) : State :=
  if !bitOf w 0 then s.setDm {}
  else
    let h := bitsOf w 16 7
    let d0 := s.dm
    let d : DmSt := { d0 with
      active := true, hartsel := h, haltReq := bitOf w 31
      ackReset := if bitOf w 28 then mput (fun _ => false) d0.ackReset h true else d0.ackReset
      resetHalt := if bitOf w 2 then mput (fun _ => false) d0.resetHalt h false
        else if bitOf w 3 then mput (fun _ => false) d0.resetHalt h true else d0.resetHalt
      resumeAck := if bitOf w 30 && !bitOf w 31 then mput (fun _ => false) d0.resumeAck h false else d0.resumeAck }
    let s1 := s.setDm d
    if bitOf w 31 then s1.hartHalt h 3 else if bitOf w 30 then s1.hartResume h else s1

/-- Runs the command again where abstractauto names the word accessed. -/
def State.dmAuto (s : State) (a : Nat) : State :=
  let i := if 0x04 ≤ a ∧ a < 0x10 then some (a - 4) else if 0x20 ≤ a ∧ a < 0x28 then some (a - 0x20 + 16) else none
  match i with
  | some i => if bitOf s.dm.auto i then s.absRun else s
  | none => s

def State.dmWrite (s : State) (a w : Nat) : State :=
  let d := s.dm
  if a = 0x10 then s.dmControl w
  else if !d.active then s
  else if 0x04 ≤ a ∧ a < 0x10 then s.setDm { d with data := mput (fun _ => 0) d.data (a - 4) (BitVec.ofNat 32 w) }
  else if 0x20 ≤ a ∧ a < 0x28 then s.setDm { d with progbuf := mput (fun _ => 0) d.progbuf (a - 0x20) (BitVec.ofNat 32 w) }
  else
    match a with
    | 0x16 => s.setDm { d with cmderr := d.cmderr &&& (7 - bitsOf w 8 3) }
    | 0x17 => if d.cmderr = 0 then (s.setDm { d with command := w }).absRun else s
    | 0x18 => s.setDm { d with auto := w % 2 ^ 12 + bitsOf w 16 8 * 2 ^ 16 }
    | _ => s

end Sys2Proof.Machine
end

