-- ==== Sys2Proof/Machine/Boot.lean ====
section
/-!
DEFINITION. The commands of the staged start, of resets, clocks and the emergency stop
(spec/24_clocks_bringup.md R626 to R648, spec/21_power_thermal.md R574 to R577).
-/
namespace Sys2Proof.Machine

/-- POWER_ON: VSTBY reaches regulation; the time base starts at 0 (R631, R635). -/
def execPowerOn (s : State) : Host.Outcome State Fault Refusal :=
  let s1 := (s.sysReset 0).setBoot fun b => { b with vstby := true }
  .next { s1 with clock := {}, store := { s1.store with pending := false, pendingInfo := false } }

/-- VSTBY_POWER_LOSS: everything but the banks of the store is lost, with pending entries (R648, R654). -/
def execVstbyPowerLoss (s : State) : Host.Outcome State Fault Refusal :=
  .next { State.reset with
    pending := s.pending
    freeCtr := s.freeCtr
    boot := { vstby := false }
    store := { bank0 := s.store.bank0, bank1 := s.store.bank1, active := s.store.active, erases0 := s.store.erases0, erases1 := s.store.erases1 } }

/-- The parts of an emergency stop that remain, up to the rails (R575, R684). -/
def State.stopPhase (s : State) : State :=
  let s1 := { s with power := { s.power with stop := s.power.stop + 1 } }
  match s.power.stop with
  | 1 => s1.stopHold
  | 2 => s1.stopAgents
  | 3 => s1.parkLinks
  | 4 => s1.holdClusters
  | 5 => s1.railsOff
  | _ => s

/-- EMERGENCY_STOP: the next part of a stop that has begun: hold and recovery report, agents and PCIe, Jallyn and memory,
clocks, rails. -/
def execEmergencyStop (s : State) : Host.Outcome State Fault Refusal := .next s.stopPhase

/-- RAILS_OFF_TIMEOUT: the rails are not off 1 ms after the trigger (R577). -/
def execRailsOffTimeout (s : State) : Host.Outcome State Fault Refusal :=
  if s.power.stop = 0 then .next s else .next (s.setPins fun p => { p with thermtrip := true })

/-- SYS_RESET_PIN: SYS_RESET_N low for 10 µs, or released. A running stop completes its rail removal first (R684). -/
def execSysResetPin (low : Bool) (s : State) : Host.Outcome State Fault Refusal :=
  if !low then .next (s.setPins fun p => { p with sysResetN := true })
  else
    let s1 := if s.power.stop = 0 then s else (List.range 5).foldl (fun (t : State) _ => t.stopPhase) s
    .next ((s1.sysReset 1).setPins fun p => { p with sysResetN := false })

/-- PWR_OK_LOST: PWR_OK low while the Ringmaster holds rails on, outside a ramp, a stop or a power-down (R635, R684). -/
def execPwrOkLost (s : State) : Host.Outcome State Fault Refusal :=
  let s1 := s.setPins fun p => { p with pwrOk := false }
  if s.boot.rails = 7 ∧ s.boot.pins.pwrOk ∧ s.powerSt ≠ 3 ∧ s.power.stop = 0 then .next (s1.sysReset 2) else .next s1

/-- RM_WATCHDOG: the Ringmaster did not restart its watchdog. -/
def execRmWatchdog (s : State) : Host.Outcome State Fault Refusal := if s.boot.rmRuns then .next (s.sysReset 4) else .next s

/-- A failure of stage 0: it stays there (R643). -/
def State.bootFail (s : State) (n : Nat) : State := s.stageFail n

/-- STAGE0_BOOT: the boot ROM selects the store's bank, verifies the Ringmaster image and starts it (R638, R653). -/
def execStage0Boot (backup : Bool) (boardId : BitVec 4) (refclk : Bool) (s : State) : Host.Outcome State Fault Refusal :=
  if !s.boot.vstby || s.boot.rmRuns || !s.boot.pins.sysResetN || s.stage != 0 then .next s
  else
    let s1 := { s with dies := { s.dies with mgmtBackup := backup, boardId := boardId }
                       boot := { s.boot with rails := 0, good := 0, pins := { s.boot.pins with pwrOk := false, refclk := refclk } } }
    let s2 := ((s1.setFlag tbPage Reg.TB_STAT_REF_OK refclk).setFlag tbPage Reg.TB_STAT_RPLL_LOCK true).setFlag tbPage Reg.TB_STAT_ON_SOSC (!refclk)
    let cause := s2.fld tbPage Reg.TB_RESET_CAUSE_CAUSE
    match s2.store.select with
    | none => .next (s2.bootFail 1)
    | some b =>
      let keep := s2.store.pending || s2.store.pendingInfo
      let rec_ := if keep then s2.store.cur else (s2.store.bank b).rec_
      let s3 := s2.setStore fun t =>
        { t with active := b, cur := { rec_ with boots := if cause = 0 then (rec_.boots + 1) % 2 ^ 32 else rec_.boots } }
      match s3.bootImage b false with
      | none => .next (s3.bootFail 2)
      | some (fell, _) =>
        let s4 := if fell then (s3.setStore fun t => { t with active := !b }).fellBack else s3
        let s5 := (s4.setBoot fun x => { x with rmRuns := true }).toStage 1
        .next (if cause ≠ 0 ∨ s5.store.cur.autoOn then s5.onRequest else s5)

/-- POWER_UP: an on request is pending; the first rail is commanded on, unless REFCLK100 is absent or COOLANT_FAULT_N low
(R639, R674). -/
def execPowerUp (refclk coolantLow : Bool) (s : State) : Host.Outcome State Fault Refusal :=
  if !s.boot.rmRuns || s.stage != 1 || s.powerSt != 0 || s.barred || !s.flag tbPage Reg.TB_PWR_REQ_ON then .next s
  else
    let s1 := (s.setPins fun p => { p with refclk := refclk, coolantN := coolantLow }).stateEvent 214 (b2n (!coolantLow)) (b2n (!s.boot.pins.coolantN))
    if !refclk then .next (s1.stageFail 3)
    else if coolantLow then .next (s1.stageFail 7)
    else
      let s2 := ((s1.clearFail.setFlag tbPage Reg.TB_PWR_REQ_ON false).setPower 1).setBoot fun b => { b with rails := 1, good := 0 }
      .next { s2 with power := { s2.power with volt := 0 } }

/-- RAIL_POWER_GOOD: the rails of the step commanded last are in regulation: the next step is commanded, or after step 7
PWR_OK rises. An off request that waits takes effect here (R647, R674). -/
def execRailPowerGood (s : State) : Host.Outcome State Fault Refusal :=
  if s.powerSt ≠ 1 ∨ s.boot.rails = 0 ∨ s.boot.rails ≤ s.boot.good then .next s
  else
    let n := s.boot.rails
    let s1 := s.setBoot fun b => { b with good := n }
    if s.flag tbPage Reg.TB_PWR_REQ_OFF then .next (s1.setPower 3)
    else if n < 7 then .next (s1.setBoot fun b => { b with rails := n + 1 })
    else .next (s1.setPins fun p => { p with pwrOk := true })

/-- PWR_OK_TIMEOUT: PWR_OK is not high 100 ms after the first rail command (R639, R643). -/
def execPwrOkTimeout (s : State) : Host.Outcome State Fault Refusal :=
  if s.powerSt = 1 ∧ s.stage = 1 ∧ !s.boot.pins.pwrOk then .next (s.failDown 4) else .next s

/-- STAGE2_START: routers train, partitions are tested, spares join, dies are numbered and pages loaded (R640). links: every
router and die-to-die link works; flash: a commit fails. -/
def execStage2Start (links : Bool) (tests : List DieTest) (flash : Bool) (s : State) : Host.Outcome State Fault Refusal :=
  if s.stage ≠ 1 ∨ s.powerSt ≠ 1 ∨ !s.boot.pins.pwrOk then .next s
  else
    let s1 := s.toStage 2
    if !links then .next (s1.failDown 5)
    else
      let s2 := s1.mapDies tests flash
      .next (if s2.serviceOk then s2 else s2.failDown 6)

/-- STAGE3_START: the directories are ready and PERST_N of the present ports is released; a die that came in at a return
only trains its stack (R616, R641, R642). In test mode the start does not advance (R691). -/
def execStage3Start (s : State) : Host.Outcome State Fault Refusal :=
  if s.stage ≠ 2 ∨ s.powerSt ≠ 1 ∨ s.boot.testMode ∨ !s.flag famPage Reg.FP_DIE_MAP_VALID then .next s
  else
    let s1 := s.fullDies.foldl (fun (t : State) pd => t.setFlag (diePage .home pd) Reg.HOME_STAT_DIR_READY true) (s.toStage 3)
    .next ((List.range 4).foldl (fun (t : State) n => if t.present (rpPage n) && t.perstLow n then t.perstFollow n true else t) s1)

/-- STACK_TRAINING_FAIL: a stack fails training: the die is marked, and stage 2 runs again from the spares; at most six
returns are made (R352, R642; log entry 35). -/
def execStackTrainingFail (pd : PD) (tests : List DieTest) (flash : Bool) (s : State) : Host.Outcome State Fault Refusal :=
  if s.stage ≠ 3 ∨ !s.isFull pd ∨ s.place.ready then .next s
  else
    let s1 := (s.reportOpen (diePage .nstack pd) 5).histAdd 4 pd.val 0 0 0
    let s2 := s1.setStore fun t => { t with cur := { t.cur with
      dieMap := mput (fun _ => 0) t.cur.dieMap pd.val (withBits (mget (fun _ => 0) t.cur.dieMap pd.val) 4 1 1) } }
    let n := s2.fld tbPage Reg.TB_STAGE_RETURNS
    let s3 := if n < 6 then (s2.toStage 2).setFld tbPage Reg.TB_STAGE_RETURNS (n + 1) else s2
    let s4 := s3.mapDies tests flash
    .next (if s4.serviceOk then s4 else s4.failDown 6)

/-- MEMORY_TRAINING_DONE: Tier N and Tier F are trained and the harts tested: memory is sized and placed, the load frame
reserved, the host boot image copied, the boot hart released (R641, R643). -/
def execMemoryTrainingDone (spares : List (PD × Fin 32 × Word)) (chans : List ChanTrain) (harts : List HartId) (repaired : List (Fin 4096))
    (s : State) : Host.Outcome State Fault Refusal :=
  if s.stage ≠ 3 ∨ s.powerSt ≠ 1 ∨ s.place.ready then .next s
  else
    let s1 := s.fullDies.foldl (fun (t : State) pd =>
      (t.setFlag (diePage .nstack pd) Reg.NS_STAT_TRAINED true).setReg (diePage .nstack pd) 0x240 0) s
    let s2 := s1.fullDies.foldl (fun (t : State) pd => (List.range 16).foldl (fun (u : State) c =>
      (u.setReg (diePage .nstack pd) (0x240 + 8 * c) 0x3FFFFFFF).setReg (diePage .nstack pd) (0x244 + 8 * c) 0xFFFFFF) t) s1
    let s3 := spares.foldl (fun (t : State) x => if t.isFull x.1 then t.setReg (diePage .nstack x.1) (0x240 + 4 * x.2.1.val) x.2.2 else t) s2
    let s4 := (chans.foldl State.loadChan s3).resolveRows repaired
    let s5 := harts.foldl (fun (t : State) h =>
      if h.val < t.hartCount then
        (t.hartTo h.val .removed).setFld (cpuclPageOf t h.val) (if h.val % 2 = 0 then Reg.CPUCL_HART_STAT_CAUSE0 else Reg.CPUCL_HART_STAT_CAUSE1) 5
      else t) s4
    let s6 := s5.loadMemory.reserveFrame
    if (List.range s6.hartCount).all fun h => (s6.hart h).gone then .next (s6.failDown 6)
    else
      match s6.copyHost with
      | (none, s7) => .next (s7.stageFail 9)
      | (some e, s7) =>
        let s8 := s7.startBoot e
        .next ((List.range s8.hartCount).foldl (fun (t : State) h => t.resetHalts h) s8)

/-- POWER_DOWN: the sequence of a power-down that has begun (R646). -/
def execPowerDown (s : State) : Host.Outcome State Fault Refusal := if s.powerSt = 3 then .next s.powerDown else .next s

/-- REFCLK_RELOCK: REFCLK100 appears in stage 0 or 1, and RPLL relocks to it (R629). -/
def execRefclkRelock (s : State) : Host.Outcome State Fault Refusal :=
  if 1 < s.stage then .next s
  else
    let s1 := ((s.setPins fun p => { p with refclk := true }).setFlag tbPage Reg.TB_STAT_REF_OK true).setFlag tbPage Reg.TB_STAT_ON_SOSC false
    .next (if s1.fld tbPage Reg.TB_STAGE_FAIL = 3 then s1.clearFail else s1)

/-- CLOCK_LOSS: REFCLK100 is lost (R630): at stages 2 to 5 the package goes down to stage 1 without a hold; at stages 0 and 1
RPLL locks to SOSC. -/
def execClockLoss (s : State) : Host.Outcome State Fault Refusal :=
  let s1 := ((s.setPins fun p => { p with refclk := false }).setFlag tbPage Reg.TB_STAT_REF_OK false).setFlag tbPage Reg.TB_STAT_ON_SOSC true
  if s.stage < 2 then .next s1
  else
    let s2 := ((s1.setFlag tbPage Reg.TB_STAT_CLK_LOST true).report tbPage 2 0).stageFail 8
    .next ((((s2.setFlag tbPage Reg.TB_PWR_REQ_ON false).holdClusters).stopAgents.parkLinks).railsOff)

/-- SYNC_PULSE: an alignment pulse (R632): taken where the port receives, is armed and no partition is formed or runs; seen
without effect otherwise while armed. -/
def execSyncPulse (s : State) : Host.Outcome State Fault Refusal :=
  if s.fld tbPage Reg.TB_SYNC_CTRL_MODE ≠ 1 ∨ !s.flag tbPage Reg.TB_SYNC_CTRL_ARM then .next s
  else
    let s1 := s.bump tbPage Reg.TB_SYNC_COUNT_COUNT
    if !(s.sched.state == .idle || s.sched.state == .ended) || s.formState == 2 then .next s1
    else
      let s2 := ((s1.setFlag tbPage Reg.TB_SYNC_CTRL_ARM false).setFlag tbPage Reg.TB_STAT_SYNCED true).report tbPage 3 s.clock.time.toNat
      let s3 := s2.setInt tbPage 1
      .next { s3 with clock := { s3.clock with time := BitVec.ofNat 64 (s.reg64 tbPage 0x110), rpll := 0 } }

end Sys2Proof.Machine
end

