-- ==== Sys2Proof/Machine/CoreExec.lean ====
section
/-!
DEFINITION. The tile-program instructions as the sequencer dispatches them
(spec/05_matrix_core_programming.md R133 to R147, spec/09_turnstiles.md R252 to R258).
-/
namespace Sys2Proof.Machine

/-! Control (R137 to R141). -/

/-- NOP (R147). -/
def execNop (pd : PD) (mc : MC) (s : State) : Host.Outcome State Fault Refusal :=
  .next (s.dispatch pd mc 0x00 fun i => match i with | .nop => some fun t => t.simple pd mc id | _ => none)

/-- HALT (R141): dispatch stops; the queues go on. -/
def execHalt (pd : PD) (mc : MC) (s : State) : Host.Outcome State Fault Refusal :=
  .next (s.dispatch pd mc 0x01 fun i => match i with
    | .halt => some fun t => (t.simple pd mc id).modCore pd mc fun c => { c with hold := .halt }
    | _ => none)

/-- The core holds a HALT and its queues are empty, so it enters HALTED (R141). -/
def execHaltedEntry (pd : PD) (mc : MC) (s : State) : Host.Outcome State Fault Refusal :=
  let c := s.core pd mc
  if c.status = .running ∧ c.hold = .halt ∧ c.queuesEmpty then
    .next ((s.setCore pd mc { c with status := .halted, hold := .none }).setInt (mcorePage pd mc) 1)
  else .next s

/-- LSET (R137). -/
def execLset (pd : PD) (mc : MC) (s : State) : Host.Outcome State Fault Refusal :=
  .next (s.dispatch pd mc 0x02 fun i => match i with
    | .lset n count => some fun t => t.simple pd mc fun x => x.wrL n (BitVec.ofNat 32 count)
    | _ => none)

/-- LBNZ (R137): a counter that is not 0 falls by 1, and a result that is not 0 branches. -/
def State.lbnz (s : State) (pd : PD) (mc : MC) (n : Nat) (off : Int) : State :=
  let v := (s.core pd mc).x.rdL n
  if v = 0 then s.simple pd mc id
  else if v = 1 then s.simple pd mc fun x => x.wrL n 0
  else
    let s1 := s.branch pd mc off (s.sched.beat + 2)
    if (s1.core pd mc).status = .stoppedError then s1 else s1.modCore pd mc fun c => { c with x := c.x.wrL n (v - 1) }

def execLbnz (pd : PD) (mc : MC) (s : State) : Host.Outcome State Fault Refusal :=
  .next (s.dispatch pd mc 0x03 fun i => match i with
    | .lbnz n off => some fun t => t.lbnz pd mc n off
    | _ => none)

/-- JMP (R137). -/
def execJmp (pd : PD) (mc : MC) (s : State) : Host.Outcome State Fault Refusal :=
  .next (s.dispatch pd mc 0x04 fun i => match i with
    | .jmp off => some fun t => t.branch pd mc off (t.sched.beat + 2)
    | _ => none)

/-- The Turnstile that CLASS and INDEX name for a core (R251). -/
def tsKeyOf (pd : PD) (mc : MC) (cls index : Nat) : Nat := if cls = 0 then privKey pd mc index else poolKey pd index

/-- A core waits on a Turnstile from this beat on (R138, R252). -/
def State.startWait (s : State) (pd : PD) (mc : MC) (key n : Nat) (kind : WaitKind) (hold : DHold) : State :=
  let c := s.core pd mc
  let w : TsWait := { key := key, kind := kind, n := n, pd := pd, mc := mc, d := s.sched.beat, w := s.sched.beat - c.stall }
  { s.setCore pd mc { c with status := .waitTs, hold := hold } with ts := { s.ts with waits := s.ts.waits ++ [w] } }

/-- The ALTERNATIVES record of an ALT (R221, R240). -/
def State.altRec (s : State) (lc pc : Nat) : Option AltRec :=
  s.sched.image.bind fun i => i.alts.find? fun a => a.lc == lc && a.altPc == pc

/-- ALT (R138): it waits for a selector; a site without a record is a schedule error (R240). -/
def execAlt (pd : PD) (mc : MC) (s : State) : Host.Outcome State Fault Refusal :=
  .next (s.dispatch pd mc 0x05 fun i => match i with
    | .alt cls index count => some fun t =>
      let lc := t.lcNo pd mc
      let pc := (t.core pd mc).x.pc.toNat
      let t1 := if (t.altRec lc pc).isSome then t else t.schedError 0x0A lc pc 0x30
      t1.startWait pd mc (tsKeyOf pd mc cls index) 1 .alt (.alt count)
    | _ => none)

/-- SYNCB (R139, R208): dispatch holds until BEAT; the stall count shrinks by what the wait absorbs. -/
def execSyncb (pd : PD) (mc : MC) (s : State) : Host.Outcome State Fault Refusal :=
  .next (s.dispatch pd mc 0x06 fun i => match i with
    | .syncb beat => some fun t =>
      let d := t.sched.beat
      t.modCore pd mc fun c =>
        { c.next (max (d + 1) beat) with
          stall := max (d + 1) beat - max (d - c.stall + 1) beat
          hold := if d + 1 < beat then .sync beat else .none }
    | _ => none)

/-- The beat of a held SYNCB has come (R139). -/
def execSyncbRelease (pd : PD) (mc : MC) (s : State) : Host.Outcome State Fault Refusal :=
  match (s.core pd mc).hold with
  | .sync beat => if beat ≤ s.sched.beat then .next (s.modCore pd mc fun c => { c with hold := .none }) else .next s
  | _ => .next s

/-- STEP (R140): the merging buffer is written out, and the core waits for the commit. -/
def execStep (pd : PD) (mc : MC) (s : State) : Host.Outcome State Fault Refusal :=
  .next (s.dispatch pd mc 0x07 fun i => match i with
    | .step => some fun t => (t.simple pd mc id).mbFlush pd mc |>.modCore pd mc fun c =>
        if c.status = .running then { c with status := .waitStep, hold := .step } else c
    | _ => none)

/-- SFENCE (R147, R178). -/
def execSfence (pd : PD) (mc : MC) (s : State) : Host.Outcome State Fault Refusal :=
  .next (s.dispatch pd mc 0x23 fun i => match i with
    | .sfence => some fun t => (t.simple pd mc id).mbFlush pd mc |>.modCore pd mc fun c =>
        if c.status = .running then { c with hold := .sfence t.sched.beat c.seq, seq := c.seq + 1 } else c
    | _ => none)

/-! Address registers, descriptors, stripe configurations (R133, R136). -/

def addInt (v : DWord) (i : Int) : DWord := v + BitVec.ofInt 64 i

def execAmovi (pd : PD) (mc : MC) (s : State) : Host.Outcome State Fault Refusal :=
  .next (s.dispatch pd mc 0x10 fun i => match i with
    | .amovi d imm => some fun t => t.simple pd mc fun x => x.wrA d (BitVec.ofNat 64 imm)
    | _ => none)

def execAaddi (pd : PD) (mc : MC) (s : State) : Host.Outcome State Fault Refusal :=
  .next (s.dispatch pd mc 0x11 fun i => match i with
    | .aaddi d a imm => some fun t => t.simple pd mc fun x => x.wrA d (addInt (x.rdA a) imm)
    | _ => none)

def execAadd (pd : PD) (mc : MC) (s : State) : Host.Outcome State Fault Refusal :=
  .next (s.dispatch pd mc 0x12 fun i => match i with
    | .aadd d a b => some fun t => t.simple pd mc fun x => x.wrA d (x.rdA a + x.rdA b)
    | _ => none)

/-- AIDX: D ← S + LN × IMM. -/
def execAidx (pd : PD) (mc : MC) (s : State) : Host.Outcome State Fault Refusal :=
  .next (s.dispatch pd mc 0x13 fun i => match i with
    | .aidx d a n imm => some fun t => t.simple pd mc fun x => x.wrA d (addInt (x.rdA a) ((x.rdL n).toNat * imm))
    | _ => none)

/-- TSETB: BASE ← S[32:0]. -/
def execTsetb (pd : PD) (mc : MC) (s : State) : Host.Outcome State Fault Refusal :=
  .next (s.dispatch pd mc 0x18 fun i => match i with
    | .tsetb n a => some fun t => t.simple pd mc fun x => x.wrT n (tdSetBase (x.rdT n) ((x.rdA a).toNat % 2 ^ 33))
    | _ => none)

def execTsetg (pd : PD) (mc : MC) (s : State) : Host.Outcome State Fault Refusal :=
  .next (s.dispatch pd mc 0x19 fun i => match i with
    | .tsetg n fmt width rows pitch => some fun t => t.simple pd mc fun x => x.wrT n (tdSetGeom (x.rdT n) fmt width rows pitch)
    | _ => none)

/-- TADV: BASE ← (BASE + DELTA × 128) mod 2^33. -/
def execTadv (pd : PD) (mc : MC) (s : State) : Host.Outcome State Fault Refusal :=
  .next (s.dispatch pd mc 0x1A fun i => match i with
    | .tadv n delta => some fun t => t.simple pd mc fun x =>
        x.wrT n (tdSetBase (x.rdT n) (((tdBase (x.rdT n) : Int) + delta * 128) % 2 ^ 33).toNat)
    | _ => none)

def execKset (pd : PD) (mc : MC) (s : State) : Host.Outcome State Fault Refusal :=
  .next (s.dispatch pd mc 0x1B fun i => match i with
    | .kset k half imm => some fun t => t.simple pd mc fun x =>
        x.wrK k (BitVec.ofNat 64 (withBits (x.rdK k).toNat (if half then 32 else 0) 32 imm))
    | _ => none)

/-! Queued work (R142 to R146). -/

/-- The bank BSEL selects (R143). -/
def selBank (bsel : Nat) (last : Bool) : Bool := if bsel = 2 then !last else bsel == 1

def execWld (pd : PD) (mc : MC) (s : State) : Host.Outcome State Fault Refusal :=
  .next (s.dispatch pd mc 0x20 (q := some .lq) fun i => match i with
    | .wld bsel n k => some fun t =>
      let b := selBank bsel (t.core pd mc).x.lastW
      (t.enqueue pd mc .lq (fun x => { x with lastW := b }) fun x => .wld b (x.rdT n) (x.rdK k)).modCore pd mc fun c =>
        if b then { c with wldSeen1 := true } else { c with wldSeen0 := true }
    | _ => none)

def execStr (pd : PD) (mc : MC) (s : State) : Host.Outcome State Fault Refusal :=
  .next (s.dispatch pd mc 0x21 (q := some .sq) fun i => match i with
    | .str bsel n set wide accBase tileId => some fun t =>
      let c := t.core pd mc
      let b := selBank bsel c.x.lastS
      t.enqueue pd mc .sq (fun x => { x with lastS := b }) fun x =>
        .str b (x.rdT n) set wide accBase tileId (if b then c.wldSeen1 else c.wldSeen0)
    | _ => none)

def execDrn (pd : PD) (mc : MC) (s : State) : Host.Outcome State Fault Refusal :=
  .next (s.dispatch pd mc 0x22 (q := some .dq) fun i => match i with
    | .drn n ofmt sat rsEn csEn rs cs dst vd tileId accBase => some fun t =>
      t.enqueue pd mc .dq id fun x => .drn (x.rdT n) ofmt sat rsEn csEn (x.rdA rs) (x.rdA cs) dst vd tileId accBase
    | _ => none)

def execVmv (pd : PD) (mc : MC) (s : State) : Host.Outcome State Fault Refusal :=
  .next (s.dispatch pd mc 0x28 (q := some .vq) fun i => match i with
    | .vmv vd vs ntok n src a wfmt => some fun t =>
      t.enqueue pd mc .vq id fun x => .vmv vd vs ntok (x.rdT n) src (x.rdA a) wfmt
    | _ => none)

def execVld (pd : PD) (mc : MC) (s : State) : Host.Outcome State Fault Refusal :=
  .next (s.dispatch pd mc 0x29 (q := some .vq) fun i => match i with
    | .vld v space n a fmt => some fun t => t.enqueue pd mc .vq id fun x => .vld v space (x.rdT n) (x.rdA a) fmt
    | _ => none)

def execVst (pd : PD) (mc : MC) (s : State) : Host.Outcome State Fault Refusal :=
  .next (s.dispatch pd mc 0x2A (q := some .vq) fun i => match i with
    | .vst v space n a fmt sat => some fun t => t.enqueue pd mc .vq id fun x => .vst v space (x.rdT n) (x.rdA a) fmt sat
    | _ => none)

/-- A VOP with a function code enters VQ (R144). -/
def State.vopRow (s : State) (pd : PD) (mc : MC) (fn : Nat) : State :=
  s.dispatch pd mc 0x2B (q := some .vq) fun i => match i with
    | .vop func vd va vb vc bf16 bcast =>
      if func = fn then some fun t => t.enqueue pd mc .vq id fun _ => .vop func vd va vb vc bf16 bcast else none
    | _ => none

def execVadd (pd : PD) (mc : MC) (s : State) : Host.Outcome State Fault Refusal := .next (s.vopRow pd mc 0x00)
def execVsub (pd : PD) (mc : MC) (s : State) : Host.Outcome State Fault Refusal := .next (s.vopRow pd mc 0x01)
def execVmul (pd : PD) (mc : MC) (s : State) : Host.Outcome State Fault Refusal := .next (s.vopRow pd mc 0x02)
def execVfma (pd : PD) (mc : MC) (s : State) : Host.Outcome State Fault Refusal := .next (s.vopRow pd mc 0x03)
def execVmax (pd : PD) (mc : MC) (s : State) : Host.Outcome State Fault Refusal := .next (s.vopRow pd mc 0x04)
def execVmin (pd : PD) (mc : MC) (s : State) : Host.Outcome State Fault Refusal := .next (s.vopRow pd mc 0x05)
def execVexp2 (pd : PD) (mc : MC) (s : State) : Host.Outcome State Fault Refusal := .next (s.vopRow pd mc 0x06)
def execVrcp (pd : PD) (mc : MC) (s : State) : Host.Outcome State Fault Refusal := .next (s.vopRow pd mc 0x07)
def execVrsqrt (pd : PD) (mc : MC) (s : State) : Host.Outcome State Fault Refusal := .next (s.vopRow pd mc 0x08)
def execVredsum (pd : PD) (mc : MC) (s : State) : Host.Outcome State Fault Refusal := .next (s.vopRow pd mc 0x09)
def execVredmax (pd : PD) (mc : MC) (s : State) : Host.Outcome State Fault Refusal := .next (s.vopRow pd mc 0x0A)
def execVcvt (pd : PD) (mc : MC) (s : State) : Host.Outcome State Fault Refusal := .next (s.vopRow pd mc 0x0B)
def execVmov (pd : PD) (mc : MC) (s : State) : Host.Outcome State Fault Refusal := .next (s.vopRow pd mc 0x0C)
def execVsplat (pd : PD) (mc : MC) (s : State) : Host.Outcome State Fault Refusal := .next (s.vopRow pd mc 0x0D)

/-- MVR enters MQ (R145). -/
def execMvr (pd : PD) (mc : MC) (s : State) : Host.Outcome State Fault Refusal :=
  .next (s.dispatch pd mc 0x34 (q := some .mq) fun i => match i with
    | .mvr mover a cpl cts => some fun t => t.enqueue pd mc .mq id fun x => .mvr mover (x.rdA a) cpl cts
    | _ => none)

/-! Turnstile operations (R252 to R257). -/

/-- A TSOP add or subtract is on its way: D + 3, D + 12, or over Midway D + 180 (R254). -/
def State.tsopPost (s : State) (pd : PD) (mc : MC) (sub : Bool) (cls ldie index k : Nat) : State :=
  let c := s.core pd mc
  let lat := if cls = 0 then 3 else if cls = 1 then 12 else 180
  let key := if cls = 2 then poolKey ((s.pdOfLd ldie).getD pd) index else tsKeyOf pd mc cls index
  let o : TsOp := { key := key, y := s.clock.beats.toNat + lat, sub := sub, ring := false, who := whoCore (s.lcNo pd mc), k := k,
                    sbeat := s.sched.beat - c.stall + lat, lc := s.lcNo pd mc, src := 0 }
  let s1 := s.simple pd mc id
  if cls = 2 then { s1 with ts := { s1.ts with remote := s1.ts.remote ++ [o] } } else s1.tsPost o

def execTsopAdd (pd : PD) (mc : MC) (s : State) : Host.Outcome State Fault Refusal :=
  .next (s.dispatch pd mc 0x30 fun i => match i with
    | .tsop 0 cls ldie index k => some fun t => t.tsopPost pd mc false cls ldie index k
    | _ => none)

def execTsopSubtract (pd : PD) (mc : MC) (s : State) : Host.Outcome State Fault Refusal :=
  .next (s.dispatch pd mc 0x30 fun i => match i with
    | .tsop 1 cls ldie index k => some fun t => t.tsopPost pd mc true cls ldie index k
    | _ => none)

def execTsopWaitAtLeast (pd : PD) (mc : MC) (s : State) : Host.Outcome State Fault Refusal :=
  .next (s.dispatch pd mc 0x30 fun i => match i with
    | .tsop 2 cls _ index n => some fun t => t.startWait pd mc (tsKeyOf pd mc cls index) n .atLeast .wait
    | _ => none)

def execTsopWaitThenSubtract (pd : PD) (mc : MC) (s : State) : Host.Outcome State Fault Refusal :=
  .next (s.dispatch pd mc 0x30 fun i => match i with
    | .tsop 3 cls _ index n => some fun t => t.startWait pd mc (tsKeyOf pd mc cls index) n .thenSub .wait
    | _ => none)

/-! Releases (R138, R147, R208, R252, R255, R257, R258). -/

/-- The core of a released wait goes on: its stall count, and the beat of its next dispatch. -/
def State.resumeWait (s : State) (w : TsWait) (rel sched jump : Nat) : State :=
  let lat := (if keyIsPool w.key then 12 else 3) + jump
  s.modCore w.pd w.mc fun c => { c with status := .running, hold := .none, stall := rel - sched, nextD := rel + lat }

/-- The chosen entry of an ALT's table is dispatched (R138, R239). -/
def State.altJump (s : State) (w : TsWait) (count v rel sched : Nat) : State :=
  let c := s.core w.pd w.mc
  let pc := c.x.pc.toNat
  let lc := s.lcNo w.pd w.mc
  let ent := pc + v
  let s1 := s.resumeWait w rel sched 1
  if count + 1 < v then s1.coreStop w.pd w.mc pc 0x09
  else if c.progLen ≤ ent then s1.coreStop w.pd w.mc ent 0x03
  else
    match decodeT s.fullDies.length (c.fetch ent) with
    | .ok (.jmp off) =>
      let n := (s1.core w.pd w.mc).nextD
      let s2 := (s1.modCore w.pd w.mc fun c => { c with x := { c.x with pc := BitVec.ofNat 14 ent } }).branch w.pd w.mc off n
      match s.altRec lc pc with
      | some a => s2.modCore w.pd w.mc fun c => { c with altRun := some { joinPc := a.joinPc, due := w.w + a.length } }
      | none => s2
    | _ => s1.coreStop w.pd w.mc pc 0x09

/-- A pending wait is released now: its grant, and the core goes on. -/
def State.grantWait (s : State) (w : TsWait) : State :=
  let v := (s.tsCell w.key).v
  let rel := max w.d s.sched.beat
  let sched := max w.w (tsSince s.sched.step.toNat (s.tsCell w.key) w.n)
  let s1 := { s with ts := { s.ts with waits := s.ts.waits.filter fun x => x != w } }
  match w.kind with
  | .atLeast => (s1.resumeWait w rel sched 0).modCore w.pd w.mc fun c => { c with x := { c.x with pc := c.x.pc + 1 } }
  | .thenSub =>
    ((s1.tsStore w.key (v - w.n) sched).resumeWait w rel sched 0).modCore w.pd w.mc fun c => { c with x := { c.x with pc := c.x.pc + 1 } }
  | .alt =>
    let count := match (s.core w.pd w.mc).hold with | .alt n => n | _ => 0
    (s1.tsStore w.key 0 sched).altJump w count v rel sched

/-- A waiting core may be released: its die runs, and its wait counts from this beat on. -/
def State.waitLive (s : State) (w : TsWait) : Bool :=
  s.coresGo && (s.core w.pd w.mc).status == .waitTs && decide (w.d ≤ s.sched.beat)

/-- Inserts a wait by its core's LC (R255). -/
def insWait (lc : TsWait → Nat) (w : TsWait) : List TsWait → List TsWait
  | [] => [w]
  | x :: xs => if lc w < lc x then w :: x :: xs else x :: insWait lc w xs

/-- The pending requests on a Turnstile are judged in the order of R255: grants that subtract, each against what the one
before left, then wait-at-least against the beat's final value. A subtracting request that a grant takes the value from is
CONTENDED (R258). -/
def State.judgeWaits (s : State) (key : Nat) : State :=
  let lcOf (w : TsWait) := s.lcNo w.pd w.mc
  let mine := (s.ts.waits.filter fun w => w.key == key && s.waitLive w).foldr (insWait lcOf) []
  let subs := mine.filter (·.kind != .atLeast)
  let s1 := subs.foldl (fun t w =>
    let v := (t.tsCell key).v
    if w.n ≤ v then
      let t1 := t.grantWait w
      let v1 := (t1.tsCell key).v
      if t1.ts.waits.any fun x => x.key == key && x.kind != WaitKind.atLeast && decide (x.n ≤ v) && decide (v1 < x.n) && t.waitLive x then
        t1.tsMisuse key 2 v (lcOf w) 0
      else t1
    else t) s
  (mine.filter (·.kind == .atLeast)).foldl (fun t w => if w.n ≤ (t.tsCell key).v then t.grantWait w else t) s1

/-- TS_WAIT_RELEASE: the waits and ALTs pending on a Turnstile (mc: core-private of that core; none: the die pool) are
judged at this beat. -/
def execTsWaitRelease (pd : PD) (mc : Option MC) (index : Fin 4096) (s : State) : Host.Outcome State Fault Refusal :=
  let key := match mc with | some m => privKey pd m index.val | none => poolKey pd index.val
  if (s.tsCell key).poke = some s.clock.beats.toNat then .next s else .next (s.judgeWaits key)

/-- RESERVED_OPCODE: a word that does not decode stands at PC; the core stops (R134, R151). -/
def execReservedOpcode (pd : PD) (mc : MC) (s : State) : Host.Outcome State Fault Refusal :=
  let c := s.core pd mc
  if s.canDispatch pd mc ∧ c.x.pc.toNat < c.progLen ∧ c.stopPend = none then
    match decodeT s.fullDies.length (c.fetch c.x.pc.toNat) with
    | .error r => .next (s.coreStop pd mc c.x.pc.toNat r)
    | .ok _ => .next s
  else .next s

end Sys2Proof.Machine
end

