-- ==== Sys2Proof/Machine/EvLog.lean ====
section
/-!
DEFINITION. The event log: reports of sources, entries accepted and fetched (spec/00_scope.md R13,
spec/20_fault_containment.md R546, R547, R549).
-/
namespace Sys2Proof.Machine

def evPage : Page := pkgPage .evlog

/-- EV_STAT.OCC after a change of EV_WRITTEN or EV_CONSUMED; reaching THR raises OCC_THR (R549). -/
def State.evOcc (s : State) : State :=
  let occ := min 8192 (s.reg64 evPage 0x108 - s.reg64 evPage 0x110)
  let old := s.fld evPage Reg.EV_STAT_OCC
  let thr := s.fld evPage Reg.EV_OCC_THR_THR
  let s1 := s.setFld evPage Reg.EV_STAT_OCC occ
  if old < thr ∧ thr ≤ occ then s1.setInt evPage 1 else s1

/-- An unconsumed entry is overwritten (R547, R548): EV_DROP rises, and its leaving 0 is itself an event. -/
def State.evDropped (s : State) : State :=
  let s1 := (s.bump evPage Reg.EV_DROP_COUNT).setInt evPage 2
  if s.fld evPage Reg.EV_DROP_COUNT = 0 then s1.reportOpen evPage 1 else s1

/-- What a source lost is added to EV_SRC_DROP when its next event is accepted (R546). -/
def State.evSrcLost (s : State) (k : Nat) : State :=
  let q := mget (fun _ => {}) s.evq k
  if q.lost = 0 then s
  else (({ s with evq := mput (fun _ => {}) s.evq k { q with lost := 0 } }).bump evPage Reg.EV_SRC_DROP_COUNT q.lost.toNat).setInt
    evPage 2

/-- The log takes the oldest event of a source into place s mod 8192 (R546, R547). -/
def State.evAccept (s : State) (k : Nat) : State :=
  let q := mget (fun _ => {}) s.evq k
  match q.q with
  | [] => s
  | e :: es =>
    let n := s.reg64 evPage 0x108
    let s1 := ({ s with evq := mput (fun _ => {}) s.evq k { q with q := es }
                        evlog := minsert s.evlog (n % 8192) e }).bump64 evPage 0x108
    let s2 := if 8192 ≤ n ∧ s.reg64 evPage 0x110 ≤ n - 8192 then s1.evDropped else s1
    (s2.evSrcLost k).evOcc

/-- The 32 bytes of an entry as a number, little-endian (R13). -/
def Event.bits (e : Event) : Nat :=
  e.timestamp.toNat + e.step.toNat * 2 ^ 64 + e.beat.toNat / 4 * 2 ^ 112 + e.pdie * 2 ^ 128 + e.blkType * 2 ^ 136 +
  e.inst * 2 ^ 144 + e.code.toNat * 2 ^ 160 + e.beat.toNat % 4 * 2 ^ 176 + b2n e.stepValid * 2 ^ 178 +
  b2n e.deviation * 2 ^ 179 + e.data.toNat * 2 ^ 192

/-- EV_RD_SEQ is committed: the entry or its absence (R547). A fetch that returns no entry leaves EV_ENTRY as it is. -/
def State.evFetch (s : State) : State :=
  let n := s.reg64 evPage 0x120
  let w := s.reg64 evPage 0x108
  let st (v g y : Bool) : State :=
    ((s.setFlag evPage Reg.EV_RD_STAT_VALID v).setFlag evPage Reg.EV_RD_STAT_GONE g).setFlag evPage Reg.EV_RD_STAT_NOT_YET y
  if w ≤ n then st false false true
  else if n + 8192 < w then st false true false
  else
    match s.evlog.lookup (n % 8192) with
    | none => st false true false
    | some e => (List.range 8).foldl (fun (t : State) i => t.setReg evPage (0x140 + 4 * i) (BitVec.ofNat 32 (e.bits / 2 ^ (32 * i))))
        (st true false false)

/-- EVENT_REPORT (R14, R546): the block of a page reports an event. -/
def execEventReport (p : Page) (num : Byte) (data : DWord) (s : State) : Host.Outcome State Fault Refusal :=
  .next (if s.present p then s.report p num.toNat data.toNat else s)

/-- EVENT_LOG_WRITE (R546, R547): the log accepts the oldest event that waits at a source. -/
def execEventLogWrite (blk : Byte) (pd : PD) (inst : Fin 64) (s : State) : Host.Outcome State Fault Refusal :=
  .next (s.evAccept (srcKey blk.toNat pd.val inst.val))

end Sys2Proof.Machine
end

