-- ==== Sys2Proof/Machine/Hart.lean ====
section
/-!
DEFINITION. The commands of the harts that reach no register: stores past the caches, fences, watchdogs, removal and the
timer (spec/17_cpu_complex.md).
-/
namespace Sys2Proof.Machine

/-- A hart retires instructions. -/
def State.hartRuns (s : State) (h : HartId) : Bool := decide (h.val < s.hartCount) && (s.hart h.val).state == .running

/-- The hart's own copies go before a non-temporal store, dirty ones written back first (R456). -/
def State.dropOwn (s : State) (h line : Nat) : State :=
  match s.l2Line h line with
  | some c =>
    let s1 := (s.setL2 h line none).dirDrop h line
    if c.st = .m ∨ c.st = .o then s1.setL3 line (some { data := c.data, dirty := true, ctx := c.ctx }) else s1
  | none => s

/-- Merges bytes into the combining entry of a hart's line; an entry whose mask becomes all ones drains (R456, R457). -/
def State.cbMerge (s : State) (h line mask : Nat) (bs : List Byte) : State :=
  let merge (e : CbEnt) : CbEnt :=
    { e with
      mask := e.mask ||| mask
      bytes := mputs (fun _ => 0) [] 0 (overlay mask (mgets (fun _ => 0) e.bytes 0 64) bs) }
  let s1 := (s.setHome { s.homeSt with cb := s.homeSt.cb.map fun e => if e.hart == h && e.line == line then merge e else e }).dropResv line
  s1.cbDrain fun e => e.hart == h && e.line == line && e.mask == 2 ^ 64 - 1

/-- HART_NT_STORE: a non-temporal store merges into its line's combining entry; a new entry first obtains write permission
for the line, or the store takes an access fault. -/
def execHartNtStore (h : HartId) (va : DWord) (line : BitVec 46) (mask : BitVec 64) (data : BitVec 512) (s : State) :
    Host.Outcome State Fault Refusal :=
  let l := line.toNat
  let bs := leBytes data.toNat 64
  if !s.hartRuns h then .next s
  else if !s.backed (l * 64) then .next (s.hartFault h.val va (l * 64) 0x13 2)
  else if s.homeSt.cb.any (fun e => e.hart == h.val && e.line == l) then .next (s.cbMerge h.val l mask.toNat bs)
  else
    let mine := s.homeSt.cb.filter fun e => e.hart == h.val
    let s1 := if mine.length < 16 then s
      else match mine.head? with
        | some o => s.cbDrain fun e => e.hart == h.val && e.line == o.line
        | none => s
    let ctx := (s.hart h.val).ctxid
    let t : Txn := { line := l, req := .claim, who := none, tag := 0, ctx := ctx }
    let (code, s2) := s1.grantCheck t
    if code ≠ 0 then .next (s2.hartFault h.val va (l * 64) code 2)
    else
      let s3 := (s2.dropOwn h.val l)
      let s4 := match s3.dirGet l with | some d => s3.invalAll d | none => s3
      /- dirty data that a snoop returned stays behind the entry's bytes -/
      let s5 := match s4.l3Line l with
        | some c =>
          if c.dirty && !c.poison then
            let (_, s') := s4.lineToAgent c.ctx l (2 ^ 64 - 1) c.data true
            s'.setL3 l none
          else s4
        | none => s4
      let s6 := (s5.dirErase l).dirPut { line := l, st := .owned, owner := h.val }
      .next ((s6.setHome { s6.homeSt with cb := s6.homeSt.cb ++ [⟨h.val, l, 0, [], ctx⟩] }).cbMerge h.val l mask.toNat bs)

/-- CB_AGE_DRAIN: an entry with no store for 256 CCLK cycles drains. -/
def execCbAgeDrain (h : HartId) (line : BitVec 46) (s : State) : Host.Outcome State Fault Refusal :=
  .next (s.cbDrain fun e => e.hart == h.val && e.line == line.toNat)

/-- HART_FENCE: a predecessor set with W or O, or FENCE.TSO, drains every entry of the hart, oldest first. -/
def execHartFence (h : HartId) (predWO tso : Bool) (s : State) : Host.Outcome State Fault Refusal :=
  if predWO || tso then .next (s.cbDrain fun e => e.hart == h.val) else .next s

/-- HART_WATCHDOG: no instruction retired for CPUCL_WDOG.MS; not in WFI, nor halted by debug, nor with MS = 0. -/
def execHartWatchdog (h : HartId) (s : State) : Host.Outcome State Fault Refusal :=
  if s.hartRuns h && s.fld (cpuclPageOf s h.val) Reg.CPUCL_WDOG_MS != 0 then .next (s.hartRemove h.val 3) else .next s

/-- HART_STATE_UE: an uncorrectable error in architectural state, or in tags. -/
def execHartStateUe (h : HartId) (tags : Bool) (s : State) : Host.Outcome State Fault Refusal :=
  if h.val < s.hartCount then .next (s.hartRemove h.val (if tags then 2 else 1)) else .next s

/-- HART_REMOVAL_DONE: the core's lines are written back and it becomes REMOVED. -/
def execHartRemovalDone (h : HartId) (s : State) : Host.Outcome State Fault Refusal :=
  let v := s.hart h.val
  if v.state ≠ .removing then .next s
  else
    let p := cpuclPageOf s h.val
    let (n, s1) := s.hartFlush h.val (v.cause == 2)
    let s2 := (s1.setHart h.val { v with x := [], f := [], v := [], csr := [], eip := [], resv := none }).hartTo h.val .removed
    let s3 := s2.setFld p (if h.val % 2 = 0 then Reg.CPUCL_HART_STAT_CAUSE0 else Reg.CPUCL_HART_STAT_CAUSE1) v.cause
    let s4 := if v.cause = 4 then s3.setFlag p Reg.CPUCL_CMD_GO false else s3
    .next (((s4.setInt p 1).report p 1 (h.val + v.cause * 2 ^ 8 + n * 2 ^ 16)).histAdd 10 p.pd.val (h.val % 2) 0 v.cause)

/-- MTIMER_INTERRUPT: the M-level timer interrupt is pending while time has reached MTIMECMPc. -/
def execMtimerInterrupt (h : HartId) (s : State) : Host.Outcome State Fault Refusal :=
  let p := cpuclPageOf s h.val
  let cmp := s.reg64 p (if h.val % 2 = 0 then 0x118 else 0x120)
  let v := s.hart h.val
  if (s.hart h.val).gone then .next s
  else
    let due := decide (cmp ≤ s.clock.time.toNat)
    let s1 := s.setHart h.val { v with mtip := due }
    .next (if due && v.state == .wfi then s1.hartTo h.val .running else s1)

/-- ZCTXID_WRITE: a CSR write to zctxid; from U-mode illegal, from a virtual mode a virtual-instruction exception. -/
def execZctxidWrite (h : HartId) (value : DWord) (s : State) : Host.Outcome State Fault Refusal :=
  let v := s.hart h.val
  if !s.hartRuns h then .next s
  else if v.virt then .next { s with reply := some .virtualInstr }
  else if v.priv = 0 then .next { s with reply := some .illegal }
  else .next (s.setHart h.val { v with zctxid := value.setWidth 16 })

end Sys2Proof.Machine
end

