-- ==== Sys2Proof/Machine/Jallyn.lean ====
section
/-!
DEFINITION. The commands of the Jallyn ports (spec/19_jallyn_links.md R497 to R521).
-/
namespace Sys2Proof.Machine

/-- JP_DETECT_TIMEOUT: DETECT has lasted 100 ms. -/
def execJpDetectTimeout (port : JPort) (s : State) : Host.Outcome State Fault Refusal := .next (s.detectTimeout port.val)

/-- JP_TRAIN_DONE: training ends. -/
def execJpTrainDone (port : JPort) (out : TrainOut) (s : State) : Host.Outcome State Fault Refusal := .next (s.trainDone port.val out)

/-- JP_SIGNAL_LOST: the partner's signalling is lost. -/
def execJpSignalLost (port : JPort) (s : State) : Host.Outcome State Fault Refusal := .next (s.signalLost port.val)

/-- LP_REQ: the partner asks for low power; the port answers and quiesces. -/
def execLpReq (port : JPort) (hdr : TokHdr) (s : State) : Host.Outcome State Fault Refusal :=
  let n := port.val
  let st := s.jpState n
  if st ≠ 4 ∧ st ≠ 5 ∧ st ≠ 6 then .next s
  else if st ≠ 6 ∧ hdr.partId ≠ s.reg jp0 0x118 then .next (s.linkFault n 3)
  else if !s.schedRests then .next s
  else
    let s1 := if st = 6 then s else s.modJport n fun q => { q with before := st }
    .next ((s1.sendTok n ⟨s1.tokHdr s1.sched.step.toNat, .lpAck⟩).setJpState n 7)

/-- LP_ACK: the partner agrees to low power. -/
def execLpAck (port : JPort) (_hdr : TokHdr) (s : State) : Host.Outcome State Fault Refusal :=
  if s.jpState port.val = 6 then .next (s.setJpState port.val 7) else .next s

/-- LP_EXIT_DONE: the exit from low power completes, or fails. -/
def execLpExitDone (port : JPort) (ok : Bool) (s : State) : Host.Outcome State Fault Refusal :=
  let n := port.val
  if s.jpState n ≠ 7 ∧ s.jpState n ≠ 8 then .next s
  else if ok then .next ((s.setJpState n (s.jport n).before).startTry)
  else .next (s.portDown n 4)

/-- IDENT: the partner's identity. -/
def execIdent (port : JPort) (_hdr : TokHdr) (b : IdentBody) (s : State) : Host.Outcome State Fault Refusal := .next (s.identIn port.val b)

/-- FORM_GATHER: a child's CONTRIB. -/
def execFormGather (port : JPort) (hdr : TokHdr) (contrib : Half) (s : State) : Host.Outcome State Fault Refusal :=
  let (ok, s1) := s.tokenOk port.val hdr
  if !ok || !s1.childPort port.val then .next s1
  else
    .next (({ s1 with jal := { s1.jal with formKids := (port.val, contrib.toNat) :: s1.jal.formKids.filter (·.1 != port.val) } }).formTry)

/-- FORM_RELEASE: the partition forms; the token goes on down the tree. -/
def execFormRelease (port : JPort) (hdr : TokHdr) (s : State) : Host.Outcome State Fault Refusal :=
  let (ok, s1) := s.tokenOk port.val hdr
  if !ok || s1.parentPort != some port.val || s1.formState != 1 then .next s1
  else .next ((s1.sendToks s1.childPorts ⟨{ hdr with hops := hdr.hops + 1 }, .formRelease⟩).formed)

/-- FORM_TIMEOUT: 2 s have passed since GO. -/
def execFormTimeout (s : State) : Host.Outcome State Fault Refusal := if s.formState = 1 then .next (s.formEnd 3 3) else .next s

/-- DATA_FLIT: a DATA flit comes in; lanes: those on which symbols of its codeword were corrected, with their counts. -/
def execDataFlit (port : JPort) (flit : Flit) (lanes : List (Fin 9 × Fin 16)) (s : State) : Host.Outcome State Fault Refusal :=
  .next (s.dataFlit port.val flit lanes)

/-- JP_TX_ENTRY_READY: the next transmit entry becomes ready, reads and is sent. -/
def execJpTxEntryReady (port : JPort) (s : State) : Host.Outcome State Fault Refusal :=
  if s.fenced (jpPage port.val) then .next s else
  .next (s.txReady port.val)

/-- JP_RX_ENTRY: the next receive entry is written. -/
def execJpRxEntry (port : JPort) (s : State) : Host.Outcome State Fault Refusal := .next (s.rxEntry port.val)

/-- JP_RX_POST: a receive entry posts at y. -/
def execJpRxPost (port : JPort) (s : State) : Host.Outcome State Fault Refusal := .next (s.rxPost port.val)

/-- JP_LINK_FAULT: a link fault found on a port. -/
def execJpLinkFault (port : JPort) (cause : LinkCause) (s : State) : Host.Outcome State Fault Refusal :=
  .next (s.linkFault port.val (match cause with | .fecUe => 1 | .lockLost => 2 | .alignLost => 3 | .overflow => 5))

/-- JP_SILENT: no flit has come for 2 µs. -/
def execJpSilent (port : JPort) (s : State) : Host.Outcome State Fault Refusal := .next (s.linkFault port.val 4)

/-- JP_RECOVER_DONE: recovery completes, with the lanes that L8 replaced. -/
def execJpRecoverDone (port : JPort) (spareTx spareRx : Option (Fin 8)) (s : State) : Host.Outcome State Fault Refusal :=
  .next (s.recoverDone port.val spareTx spareRx)

/-- JP_RECOVER_TIMEOUT: recovery fails, or has lasted 400 µs. -/
def execJpRecoverTimeout (port : JPort) (s : State) : Host.Outcome State Fault Refusal := .next (s.recoverFail port.val)

/-- J_LANE_CE_DECAY: the corrected counts of a port's lanes are halved. -/
def execJLaneCeDecay (port : JPort) (s : State) : Host.Outcome State Fault Refusal :=
  let p := jpPage port.val
  .next ((List.range 9).foldl (fun t l => t.setFld p Reg.JP_LANE_CE_COUNT (t.fld p Reg.JP_LANE_CE_COUNT l / 2) l) s)

end Sys2Proof.Machine
end

