-- ==== Sys2Proof/Machine/Ring.lean ====
section
/-!
DEFINITION. The commands of the rings: polls, descriptors by kind, the ends of transfers, jobs and flushes
(spec/16_command_rings.md R417 to R440).
-/
namespace Sys2Proof.Machine

/-- RING_POLL: Barker's turn at a ring. -/
def execRingPoll (ring : RingId) (s : State) : Host.Outcome State Fault Refusal := .next (s.ringPoll ring.val)

/-- FLUSH_COMPLETE. -/
def execFlushComplete (ring : RingId) (s : State) : Host.Outcome State Fault Refusal := .next (s.flushDone ring.val)

/-- CPL_COAL_TIMEOUT: TIME_US since the first record not yet signalled. -/
def execCplCoalTimeout (ring : RingId) (s : State) : Host.Outcome State Fault Refusal :=
  let us := s.fld (ringPage ring.val) Reg.CMDQ_IRQ_COAL_TIME_US
  let g := s.ring ring.val
  match g.unsigAt with
  | some t => if us ≠ 0 ∧ 0 < g.unsig ∧ t + us * 100 ≤ s.clock.time.toNat then .next (s.setCpl ring.val) else .next s
  | none => .next s

/-- The head slot of a ring is accepted if it is of a kind, with an operation where op is given. -/
def State.takeKind (s : State) (ring : RingId) (kind : Nat) (opAt : Nat) (op : Option Nat) : State :=
  (s.ringTake ring.val fun w =>
    bitsOf w 8 8 == kind && (match op with | some n => bitsOf w (8 * opAt) 8 == n | none => true)).2

/-- A slot with a reserved KIND, or a reserved OP within its kind. -/
def slotReserved (w : Nat) : Bool :=
  let k := bitsOf w 8 8
  decide (8 ≤ k) || (k == 2 && decide (2 < bitsOf w (8 * 0x10) 8)) || (k == 6 && decide (1 < bitsOf w (8 * 0x11) 8)) ||
  (k == 7 && decide (3 < bitsOf w (8 * 0x10) 8))

/-- NOP. -/
def execRingNop (ring : RingId) (s : State) : Host.Outcome State Fault Refusal := .next (s.takeKind ring 0 0 none)

/-- JOB_SUBMIT. -/
def execJobSubmit (ring : RingId) (s : State) : Host.Outcome State Fault Refusal := .next (s.takeKind ring 1 0 none)

/-- JOB_START: the next job starts; err: a tier failed a read of its image. -/
def execJobStart (err : TierFail) (s : State) : Host.Outcome State Fault Refusal := .next (s.jobStart err)

/-- JOB_CTL END. -/
def execJobCtlEnd (ring : RingId) (s : State) : Host.Outcome State Fault Refusal := .next (s.takeKind ring 2 0x10 (some 0))

/-- JOB_CTL RERUN. -/
def execJobCtlRerun (ring : RingId) (s : State) : Host.Outcome State Fault Refusal := .next (s.takeKind ring 2 0x10 (some 1))

/-- JOB_CTL RERUN_NOTRAP. -/
def execJobCtlRerunNotrap (ring : RingId) (s : State) : Host.Outcome State Fault Refusal := .next (s.takeKind ring 2 0x10 (some 2))

/-- MOVE. -/
def execMove (ring : RingId) (s : State) : Host.Outcome State Fault Refusal := .next (s.takeKind ring 3 0 none)

/-- INLINE_WRITE. -/
def execInlineWrite (ring : RingId) (s : State) : Host.Outcome State Fault Refusal := .next (s.takeKind ring 4 0 none)

/-- INLINE_READ. -/
def execInlineRead (ring : RingId) (s : State) : Host.Outcome State Fault Refusal := .next (s.takeKind ring 5 0 none)

/-- INLINE_TRANSFER_DONE: every line of the transfer with a SEQ is performed. -/
def execInlineTransferDone (ring : RingId) (seq : Word) (err : PieceErr) (s : State) : Host.Outcome State Fault Refusal :=
  match s.findReq ring.val seq.toNat with
  | some q => if (q.kind = 4 ∨ q.kind = 5) ∧ q.isRunning then .next (s.inlineDone ring.val q err) else .next s
  | none => .next s

/-- TSOP add. -/
def execRingTsopAdd (ring : RingId) (s : State) : Host.Outcome State Fault Refusal := .next (s.takeKind ring 6 0x11 (some 0))

/-- TSOP subtract. -/
def execRingTsopSubtract (ring : RingId) (s : State) : Host.Outcome State Fault Refusal := .next (s.takeKind ring 6 0x11 (some 1))

/-- MGMT BARRIER. -/
def execMgmtBarrier (ring : RingId) (s : State) : Host.Outcome State Fault Refusal := .next (s.takeKind ring 7 0x10 (some 0))

/-- MGMT ADVANCE. -/
def execMgmtAdvance (ring : RingId) (s : State) : Host.Outcome State Fault Refusal := .next (s.takeKind ring 7 0x10 (some 1))

/-- MGMT PLACE. -/
def execMgmtPlace (ring : RingId) (s : State) : Host.Outcome State Fault Refusal := .next (s.takeKind ring 7 0x10 (some 2))

/-- MGMT TIMESTAMP. -/
def execMgmtTimestamp (ring : RingId) (s : State) : Host.Outcome State Fault Refusal := .next (s.takeKind ring 7 0x10 (some 3))

/-- A reserved KIND or OP. -/
def execReservedKind (ring : RingId) (s : State) : Host.Outcome State Fault Refusal := .next (s.ringTake ring.val slotReserved).2

/-- A piece of a transfer is performed by a mover. -/
def execMoverPieceDone (pd : PD) (i : MoverIx) (src : MvSrc) (err : PieceErr) (s : State) : Host.Outcome State Fault Refusal :=
  if s.fenced (mvPage pd i.val) then .next s else
  match src with
  | .mvr slot =>
    match (s.mover pd i.val).slot slot.val with
    | some v => if v.fetched && v.x.done.isNone then .next (s.mvrPiece pd i.val slot.val v err) else .next s
    | none => .next s
  | .ring slot =>
    match (s.mover pd i.val).rslot slot.val with
    | some v => if v.go && v.x.done.isNone then .next (s.ringPiece pd i.val slot.val v err) else .next s
    | none => .next s
  | .carousel slot => .next (s.carPiece pd i.val slot.val err)


end Sys2Proof.Machine
end

