-- ==== Sys2Proof/Machine/SchedCmd.lean ====
section
/-!
DEFINITION. The commands of the schedule: load, start, the step boundary, and the tokens of the sync tree
(spec/08_static_schedule.md R227 to R248, spec/19_jallyn_links.md R504 to R508).
-/
namespace Sys2Proof.Machine

/-- IMAGE_LOAD_DONE: Barker's work after a successful load. -/
def execImageLoadDone (s : State) : Host.Outcome State Fault Refusal := .next s.afterLoad.startTry

/-- START_GATHER: a child's values. -/
def execStartGather (port : JPort) (hdr : TokHdr) (b : StartBody) (s : State) : Host.Outcome State Fault Refusal :=
  let (ok, s1) := s.tokenOk port.val hdr
  if !ok || !s1.childPort port.val then .next s1
  else
    .next ((s1.setSched fun c => { c with startKids :=
      (port.val, ⟨b.buildId.toNat, b.jobSteps.toNat, b.descCrc.toNat, b.hdrCrc.toNat, b.contrib.toNat⟩) :: c.startKids.filter (·.1 != port.val) }).startTry)

/-- START_RELEASE: go with T0, or the end of the job on a mismatch; it goes on down the tree. -/
def execStartRelease (port : JPort) (hdr : TokHdr) (result : Byte) (t0 : DWord) (s : State) : Host.Outcome State Fault Refusal :=
  let (ok, s1) := s.tokenOk port.val hdr
  if !ok || s1.parentPort != some port.val then .next s1
  else
    let f : Tok := ⟨{ hdr with hops := hdr.hops + 1 }, .startRelease result t0⟩
    let s2 := s1.sendToks s1.childPorts f
    if result = 0 then .next (s2.setSched fun c => { c with startAt := some t0.toNat })
    else if result = 5 then .next ((s2.schedError 5 0 0 0x30).endJob 0x30 5)
    else .next s2

/-- FIRST_STEP_OPEN: the time base reaches T0. -/
def execFirstStepOpen (s : State) : Host.Outcome State Fault Refusal := .next s.firstOpen

/-- GATHER_REPORT: the device's gather report. -/
def execGatherReport (s : State) : Host.Outcome State Fault Refusal := .next s.gatherReport

/-- GATHER_TOKEN: a child's gather report, or its recovery report where FLAGS bit 2 is set. -/
def execGatherToken (port : JPort) (hdr : TokHdr) (b : GatherBody) (s : State) : Host.Outcome State Fault Refusal :=
  let (ok, s1) := s.tokenOk port.val hdr
  if !ok || !s1.childPort port.val then .next s1
  else if bitOf b.flags.toNat 2 then
    .next ((s1.setSched fun c => { c with recoveryKids :=
      (port.val, recoveryOf hdr b) :: c.recoveryKids.filter (·.1 != port.val) }).recoveryTry)
  else
    .next ((s1.setSched fun c => { c with children :=
      (port.val, reportOf b hdr.origin.toNat) :: c.children.filter (·.1 != port.val) }).gatherTry)

/-- RELEASE_TOKEN: the root's answer; it goes on down the tree. A device that holds takes no release any more (R536). -/
def execReleaseToken (port : JPort) (hdr : TokHdr) (b : GatherBody) (s : State) : Host.Outcome State Fault Refusal :=
  let (ok, s1) := s.tokenOk port.val hdr
  if !ok || s1.parentPort != some port.val then .next s1
  else
    let s2 := s1.sendToks s1.childPorts ⟨{ hdr with hops := hdr.hops + 1 }, .release b⟩
    if s2.sched.state = .commit ∧ s2.sched.release.isNone then .next (s2.takeRelease (reportOf b hdr.origin.toNat)) else .next s2

/-- STEP_COMMIT: the decision at the end of beat C; flushed: another device of the partition flushes the job (R439). -/
def execStepCommit (flushed : Bool) (s : State) : Host.Outcome State Fault Refusal := .next (s.boundary flushed)

/-- PARITY_FLIP: the receive buffers flip at C + 1600. -/
def execParityFlip (s : State) : Host.Outcome State Fault Refusal :=
  match s.jal.flipAt with
  | some b => if b ≤ s.sched.beat then .next s.parityFlip else .next s
  | none => .next s

/-- STEP_OPEN: beat 0 of the next step, at C + 2400. -/
def execStepOpen (s : State) : Host.Outcome State Fault Refusal :=
  if s.sched.state = .commit ∧ s.sched.committed ∧ s.beatC + 2400 ≤ s.sched.beat then .next (s.openStep 1 false false) else .next s

/-- INPUT_SET_DISTRIBUTE: the next step's input set goes to every home, agent and hart, and the protection sweep runs. -/
def execInputSetDistribute (s : State) : Host.Outcome State Fault Refusal :=
  if s.schedRuns && decide (s.sched.len - 6000 ≤ s.sched.beat) && !s.homeSt.sweep then
    let next := s.inputsAt (s.sched.jstep.toNat + 1)
    let s1 := s.setSched fun c => { c with inputNext := next }
    .next ((s1.setHome { s1.homeSt with sweep := true }).sweepFrames (inRanges next))
  else .next s

/-- STEP_OVERRUN: the beat-in-step reaches 262,143 before the commit. -/
def execStepOverrun (s : State) : Host.Outcome State Fault Refusal :=
  if s.schedRuns && !s.sched.committed && decide (262143 ≤ s.sched.beat) && !(s.sched.stepErr.any (·.reason == 0x0C)) then
    let s1 := s.schedError 0x0C 0x3FF 0 0x30
    .next (s1.setSched fun c => { c with stepErr := some ((c.stepErr.getD ⟨0x0C, 0x3FF, 0, 0x30⟩)) })
  else .next s

/-- HOLD_TOKEN: acted on the first time it comes, and flooded on (R507, R535). -/
def execHoldToken (port : JPort) (hdr : TokHdr) (cause : Byte) (beat : Word) (detail : DWord) (s : State) : Host.Outcome State Fault Refusal :=
  let (ok, s1) := s.tokenOk port.val hdr
  if !ok then .next s1
  else
    let (first, s2) := s1.floodIn port.val ⟨hdr, .hold cause beat detail⟩
    if !first || decide (hdr.step.toNat < s2.sched.step.toNat) then .next s2
    else if s2.schedRuns then .next (s2.raiseHold cause.toNat hdr.origin.toNat hdr.step.toNat (here := false))
    else if s2.sched.state = .held then .next (s2.noteHold hdr.origin.toNat cause.toNat)
    else .next s2

/-- TRAP_RECORD: the partition's earliest trap record, flooded (R197). -/
def execTrapRecord (port : JPort) (hdr : TokHdr) (rec_ : BitVec 256) (s : State) : Host.Outcome State Fault Refusal :=
  let (ok, s1) := s.tokenOk port.val hdr
  if !ok then .next s1
  else
    let (first, s2) := s1.floodIn port.val ⟨hdr, .trapRecord rec_⟩
    if first then .next ((s2.setSched fun c => { c with trapRec := some rec_.toNat }).postTrap) else .next s2

end Sys2Proof.Machine
end

