-- ==== Sys2Proof/Machine/RegView.lean ====
section
/-!
DEFINITION. What a register reads as (spec/02_register_pages.md R53 to R66 and the register table of each block's
chapter): a field whose value the machine holds elsewhere is computed from there, any other field is the stored one.
-/
namespace Sys2Proof.Machine

/-- Bits of INT_STAT, INT_EN and INT_SET that a page defines (R58 and the chapters). -/
def intBits : Blk → Nat
  | .dieCfg | .familyParam => 0
  | .tstile | .carousel | .mover | .xlate | .timebase => 4
  | .tcache | .cmdq | .pstore | .dbg => 5
  | .mcore | .tsram | .place | .cpucl | .home | .evlog | .pagent => 6
  | .sched => 7
  | .jport => 8
  | .nstack | .rmstr | .pcierp => 9
  | .fchan => 11

/-- The page is read-only (R65, R66). -/
def readOnlyPage (b : Blk) : Bool := b == .dieCfg || b == .familyParam

/-- The physical core of a core's page. -/
def mcOfPage (p : Page) : MC := ⟨p.inst.val % 17, Nat.mod_lt _ (by decide)⟩

/-- The port number of a JPORT page, and of a PCIERP page. -/
def jportOf (p : Page) : Nat := ((List.range 8).find? fun n => jpPage n == p).getD 0
def rpNumber (p : Page) : Nat := ((List.range 4).find? fun n => rpPage n == p).getD 0

/-- A 32-bit word of a 64-bit number: the high one for the register at hi. -/
def half (n off hi : Nat) : Nat := if off = hi then n / 2 ^ 32 % 2 ^ 32 else n % 2 ^ 32

/-! The header (R53 to R63). -/

/-- BLK_ID. -/
def State.blkId (s : State) (p : Page) : Nat :=
  let pd := s.hostPd p
  blkCode p.blk + p.inst.val * 2 ^ 8 + pd.val * 2 ^ 16 + (s.ldOf pd).getD 0x3F * 2 ^ 24 + b2n (isPackage p.blk) * 2 ^ 30

/-- The block has accepted work that is not complete (R57; log entry 40). -/
def State.busy (s : State) (p : Page) : Bool :=
  match p.blk with
  | .mcore =>
    let c := s.core p.pd (mcOfPage p)
    !c.queuesEmpty || c.status == .running || c.status == .waitTs || c.status == .waitStep || c.status == .cmdBusy
  | .tcache => !(s.tc p.pd (mcOfPage p)).fills.isEmpty || !(s.tc p.pd (mcOfPage p)).mb.isEmpty
  | .tsram => s.flag p Reg.TSRAM_CMD_GO
  | .tstile => s.flag p Reg.TS_CMD_GO
  | .carousel => !(s.car p.pd).inflight.isEmpty
  | .place => s.place.cmds.any (fun c => c.page == pageKey p) || (List.range 4).any fun e => (s.engine ((s.ldOf p.pd).getD 0 * 4 + e)).isSome
  | .mover => (s.mover p.pd p.inst.val).used != 0 || (s.mover p.pd p.inst.val).ringUsed != 0
  | .xlate => s.flag p Reg.XLATE_CMD_GO
  | .cmdq => !(s.ring p.inst.val).reqs.isEmpty
  | .home => s.homeSt.open_.any fun t => s.homePage t.line == p
  | .cpucl => s.flag p Reg.CPUCL_CMD_GO
  | .jport => let st := s.jpState (jportOf p); st == 1 || st == 2 || st == 3 || st == 6 || st == 8 || st == 9
  | .sched => s.jobActive && s.sched.state != .loaded
  | .pcierp => s.pcie.np.any fun q => q.port == rpNumber p
  | .pstore => s.store.busy.isSome
  | _ => false

/-- A header register's value. -/
def State.headerWord (s : State) (p : Page) (off : Nat) : Nat :=
  let st := s.page p
  match off with
  | 0x000 => s.blkId p
  | 0x004 => (Config.blkVersion (blkCode p.blk)).toNat + 0xB1 * 2 ^ 16
  | 0x008 => if readOnlyPage p.blk then 1 else withBits (s.reg p 0x008).toNat 1 1 (b2n st.resetting)
  | 0x00C =>
    let ready := !st.resetting && (!isPackage p.blk || s.boot.rmRuns)
    withBits (withBits (s.reg p 0x00C).toNat 0 1 (b2n ready)) 1 1 (b2n (s.busy p))
  | 0x018 => (s.reg p 0x010).toNat
  | 0x040 =>
    match st.lock with
    | .locked => 0
    | .armed _ => 2 ^ 16
    | .unlocked _ => 2 ^ 17
  | _ => (s.reg p off).toNat

/-! Cores and operand caches (R153, R182, R201, R534). -/

def posWord (v : Option (Nat × Nat)) : Nat :=
  match v with
  | some (r, c) => r + c * 2 ^ 16 + 2 ^ 31
  | none => 0

/-- NF_STAT. -/
def NumFlags.stat (f : NumFlags) : Nat :=
  b2n f.lastNan + b2n f.lastInf * 2 + b2n f.lastValid * 4 + b2n f.stickyNan * 2 ^ 8 + b2n f.stickyInf * 2 ^ 9 +
  b2n f.firstRec.isSome * 2 ^ 10 + b2n f.trapRec.isSome * 2 ^ 11

/-- MCORE_STAT. -/
def CoreSt.stat (c : CoreSt) : Nat :=
  c.status.code + c.lq.length * 2 ^ 8 + c.sq.length * 2 ^ 12 + c.dq.length * 2 ^ 16 + c.vq.length * 2 ^ 20 + c.mq.length * 2 ^ 24 +
  b2n c.x.bank0.valid * 2 ^ 28 + b2n c.x.bank1.valid * 2 ^ 29

/-- MCORE_CKPT_STAT of a logical core. -/
def CkptPair.stat (k : CkptPair) : Nat := b2n k.cur + b2n k.s0.valid * 2 + b2n k.s1.valid * 4 + b2n k.capturing * 8

def State.mcoreWord (s : State) (p : Page) (off : Nat) : Option Nat :=
  let mc := mcOfPage p
  let c := s.core p.pd mc
  match off with
  | 0x104 => some c.stat
  | 0x108 => some c.x.pc.toNat
  | 0x10C => some (s.lcoreWord p.pd mc)
  | 0x200 => some c.nf.stat
  | 0x204 => some (posWord c.nf.lastNanPos)
  | 0x208 => some (posWord c.nf.lastInfPos)
  | 0x20C => some (c.nf.lastTile + c.nf.lastAcc * 2 ^ 16)
  | 0x210 => some c.nf.flagged.toNat
  | 0x304 => some (match s.lcOf p.pd mc with | some l => (s.ckpt l).stat | none => 0)
  | _ =>
    if 0x220 ≤ off ∧ off < 0x240 then some ((recWords c.nf.firstRec).getD ((off - 0x220) / 4) 0).toNat
    else if 0x240 ≤ off ∧ off < 0x260 then some ((recWords c.nf.trapRec).getD ((off - 0x240) / 4) 0).toNat
    else none

def State.tcacheWord (s : State) (p : Page) (off : Nat) : Option Nat :=
  let t := s.tc p.pd (mcOfPage p)
  match off with
  | 0x104 =>
    some (s.fld p Reg.TCACHE_STAT_WAY_DIS + b2n (s.tcBypass p.pd (mcOfPage p)) * 2 ^ 16 + t.mb.length * 2 ^ 17 + t.side.length * 2 ^ 23)
  | _ => none

/-! The schedule (R250). -/

def SchedState.code : SchedState → Nat
  | .idle => 0 | .loading => 1 | .loaded => 2 | .armed => 3 | .running => 4 | .commit => 5 | .held => 6 | .replay => 7
  | .trapped => 8 | .ended => 9

def State.schedWord (s : State) (p : Page) (off : Nat) : Option Nat :=
  let c := s.sched
  match off with
  | 0x100 => some (b2n (c.state == .armed) * 2)
  | 0x104 =>
    some (c.state.code + b2n (s.ldOf p.pd == some 0) * 2 ^ 4 + b2n c.deviated * 2 ^ 5 + s.fld p Reg.SCHED_STAT_DEBUG_TOUCHED * 2 ^ 6)
  | 0x108 | 0x10C | 0x110 => some (s.reg s.leadPage off).toNat
  | 0x118 | 0x11C => some (half c.step.toNat off 0x11C)
  | 0x120 | 0x124 => some (half c.jstep.toNat off 0x124)
  | 0x128 => some (c.beat % 2 ^ 18)
  | 0x12C => some c.len
  | 0x130 => some c.cwin
  | 0x134 => some c.sd
  | 0x138 => some c.slip
  | 0x13C =>
    let next := c.ratioNext.orElse fun _ => c.ratioDue
    some (c.ratioCur + next.getD 0 * 4 + b2n next.isSome * 2 ^ 4 + s.fld s.leadPage Reg.SCHED_RATIO_REQ * 2 ^ 8)
  | 0x154 => some (c.inputCur.length + c.inputNext.length * 2 ^ 8)
  | _ => none

/-! Turnstiles and Tier S (R266, R279, R285, R697). -/

/-- A die's selected Turnstile through a page: its value, flag and tag; sel: the selection register's value. -/
def State.tsView (s : State) (pd : PD) (sel what : Nat) : Nat :=
  let k := s.selKey pd sel
  match what with
  | 0 => (s.tsCell k).v
  | 1 => b2n (s.tsCell k).sticky + b2n (s.ts.waits.any fun w => w.key == k) * 2
  | _ => (s.tsCell k).tag % 2 ^ 18

def State.tstileWord (s : State) (p : Page) (off : Nat) : Option Nat :=
  let sel := (s.reg p 0x100).toNat
  match off with
  | 0x104 => some (s.tsView p.pd sel 0)
  | 0x108 => some (s.tsView p.pd sel 1)
  | 0x10C => some (s.tsView p.pd sel 2)
  | 0x110 => some (s.stickyNext p.pd)
  | _ => none

def SlabState.code : SlabState → Nat
  | .static => 0 | .free => 1 | .allocated => 2 | .imageRo => 3

/-- Ones among the low n bits. -/
def onesOf (v n : Nat) : Nat := ((List.range n).filter (bitOf v ·)).length

def State.tsramWord (s : State) (p : Page) (off : Nat) : Option Nat :=
  match off with
  | 0x104 => some (onesOf (s.reg64 p 0x108) 64 + s.fld p Reg.TSRAM_STAT_POISON * 2 ^ 7)
  | 0x114 => some (s.slab ((s.ldOf p.pd).getD 0) (s.fld p Reg.TSRAM_SLAB_SEL_SLAB)).code
  | _ => none

/-! Placement, Carousel, movers and translation (R314, R335, R336, R412). -/

def State.placeWord (s : State) (p : Page) (off : Nat) : Option Nat :=
  match off with
  | 0x10C =>
    let ld := (s.ldOf p.pd).getD 0
    let busy := (List.range 4).foldl (fun v e => v + b2n (s.engine (ld * 4 + e)).isSome * 2 ^ e) 0
    some (busy + (mget (fun _ => []) s.place.hintQ ld).length * 2 ^ 4 + (mget (fun _ => []) s.place.promoQ ld).length * 2 ^ 11 +
      b2n s.place.ready * 2 ^ 16 + s.fld p Reg.PLACE_STAT_ENT_VALID * 2 ^ 17)
  | 0x110 =>
    let n := s.place.frames
    let l := max 1 s.place.ldies
    some (n / l + b2n (decide ((s.ldOf p.pd).getD 0 < n % l)))
  | _ => none

/-- CAR_STAT.STATE. -/
def State.carStateCode (s : State) : Nat :=
  match s.sched.state with
  | .idle | .loading => 0
  | .loaded | .armed => 1
  | .running | .commit | .replay => 2
  | .held | .trapped => 3
  | .ended => 4

def State.carWord (s : State) (p : Page) (off : Nat) : Option Nat :=
  let c := s.car p.pd
  match off with
  | 0x104 => some (s.carStateCode + c.inflight.length * 2 ^ 3)
  | 0x114 => some (c.first.2 % 2 ^ 24 + b2n (s.jobActive && s.sched.state != .loading && s.sched.state != .loaded) * 2 ^ 31)
  | 0x118 => some (c.front % 2 ^ 24)
  | 0x11C => some (((c.hinted.head?).map (·.2)).getD 0 % 2 ^ 24)
  | _ => none

/-- MV_STAT; how many pieces of its transfers a mover has in flight at the read is a free value up to 16. -/
def State.moverWord (s : State) (p : Page) (off : Nat) : Option Nat :=
  let m := s.mover p.pd p.inst.val
  match off with
  | 0x100 =>
    let idle := m.used = 0 ∧ m.ringUsed = 0
    some (m.used + m.ringUsed * 2 ^ 4 + (if idle then 0 else Config.freeNat s.freeCtr 0 5 % 17) * 2 ^ 8)
  | _ => none

def State.xlateWord (s : State) (p : Page) (off : Nat) : Option Nat :=
  match off with
  | 0x13C | 0x140 => some (half (s.epoch (s.fld p Reg.XLATE_EPOCH_SEL_CTXID)) off 0x140)
  | _ => none

/-! Rings, CPU cluster and homes (R441, R468, R489). -/

def State.cmdqWord (s : State) (p : Page) (off : Nat) : Option Nat :=
  match off with
  | 0x100 => some (b2n (s.ringState p.inst.val == 4))
  | _ => none

/-- The pages of a class of a die that request an interrupt. -/
def State.reqBits (s : State) (b : Blk) (pd : PD) (n : Nat) : Nat :=
  (List.range n).foldl (fun v i => v + b2n (s.requests (mkPage b pd i)) * 2 ^ i) 0

/-- CPUCL_APLIC_SEL as a requester holds it. -/
def State.aplicSel (s : State) (who : Requester) : Nat := mget (fun _ => 0) s.cpu.sel (sidOf who)

def State.cpuclWord (s : State) (who : Requester) (p : Page) (off : Nat) : Option Nat :=
  let sel := s.aplicSel who
  match off with
  | 0x130 => some sel
  | 0x134 => some (s.aplicRead (bitOf sel 0) (bitsOf sel 2 14 * 4))
  | 0x138 => some (s.reqBits .mcore p.pd 17)
  | 0x13C => some (s.reqBits .tcache p.pd 17)
  | 0x140 => some (s.reqBits .mover p.pd 4)
  | _ => none

def State.homeWord (s : State) (p : Page) (off : Nat) : Option Nat :=
  match off with
  | 0x104 => some (withBits (s.reg p 0x104).toNat 1 1 (b2n s.homeSt.sweep))
  | _ => none

/-! Links, root ports, clocks and the store (R523, R585, R587, R619, R659, R660). -/

def State.jportWord (s : State) (p : Page) (off : Nat) : Option Nat :=
  match off with
  | 0x100 =>
    let st := s.jpState (jportOf p)
    some ((s.reg p 0x100).toNat / 2 * 2 + b2n (st == 1 || st == 2 || st == 3))
  | 0x11C => some ((s.reg p 0x11C).toNat / 4 * 4 + b2n (s.formState == 1))
  | _ => none

def State.rmWord (s : State) (p : Page) (off : Nat) : Option Nat :=
  let i := s.fld p Reg.RM_ATTR_SEL_SLOT
  let a := s.attrSlot i
  let map := a.newMap.getD (a.ctx, a.valid)
  match off with
  | 0x144 => some (if 62 ≤ i then 0 else map.1 % 2 ^ 16 + b2n map.2 * 2 ^ 16)
  | 0x148 | 0x14C => some (half a.energy off 0x14C)
  | 0x150 | 0x154 => some (half (a.model / 10 ^ 9) off 0x154)
  | 0x158 | 0x15C => some (half a.budget off 0x15C)
  | 0x164 => some (s.coef (s.fld p Reg.RM_COEF_SEL_CLASS))
  | _ => none

def State.paWord (s : State) (p : Page) (off : Nat) : Option Nat :=
  match off with
  | 0x134 | 0x138 =>
    let n := mget (fun _ => 0) (s.agent p.pd).act (s.fld p Reg.PA_ACT_SEL_SLOT * 16 + s.fld p Reg.PA_ACT_SEL_CLASS)
    some (half n off 0x138)
  | _ => none

def State.tbWord (s : State) (p : Page) (off : Nat) : Option Nat :=
  match off with
  | 0x100 | 0x104 => some (half s.clock.time.toNat off 0x104)
  | 0x10C => some (withBits (s.reg p 0x10C).toNat 3 1 (b2n (decide (0 < s.boot.pins.syncOut))))
  | _ => none

def State.psWord (s : State) (p : Page) (off : Nat) : Option Nat :=
  let t := s.store
  match off with
  | 0x100 =>
    some (b2n t.active + b2n t.bank0.valid * 2 + b2n t.bank1.valid * 4 + s.fld p Reg.PS_STAT_FALLBACK * 8 + b2n t.busy.isSome * 2 ^ 4 +
      b2n (t.pending || t.pendingInfo) * 2 ^ 5 + b2n (decide (90000 < t.erases0) || decide (90000 < t.erases1)) * 2 ^ 6)
  | 0x104 => some (t.bank t.active).seq
  | 0x120 => some t.cur.history.length
  | 0x12C => some t.erases0
  | 0x130 => some t.erases1
  | _ => none

/-! Debug (R695 to R703). -/

def State.dbgWord (s : State) (p : Page) (off : Nat) : Option Nat :=
  let sel := (s.reg p 0x110).toNat
  match off with
  | 0x10C => some (s.coreStat p.pd)
  | 0x114 => some (s.tsView p.pd sel 0)
  | 0x118 => some (s.tsView p.pd sel 1)
  | 0x14C => some (s.traceStat p.pd)
  | 0x170 => some (withBits (s.reg p 0x170).toNat 31 1 (b2n (s.rbSelected p.pd).isSome))
  | _ =>
    if 0x160 ≤ off ∧ off < 0x170 then some (s.traceWord p.pd ((off - 0x160) / 4))
    else if 0x200 ≤ off ∧ off < 0x290 then some (s.rbWord p.pd ((off - 0x200) / 4))
    else none

/-! Any register. -/

/-- The value of a register that its block holds elsewhere. -/
def State.blockWord (s : State) (who : Requester) (p : Page) (off : Nat) : Option Nat :=
  match p.blk with
  | .mcore => s.mcoreWord p off
  | .tcache => s.tcacheWord p off
  | .sched => s.schedWord p off
  | .tstile => s.tstileWord p off
  | .tsram => s.tsramWord p off
  | .place => s.placeWord p off
  | .carousel => s.carWord p off
  | .mover => s.moverWord p off
  | .xlate => s.xlateWord p off
  | .cmdq => s.cmdqWord p off
  | .cpucl => s.cpuclWord who p off
  | .home => s.homeWord p off
  | .jport => s.jportWord p off
  | .rmstr => s.rmWord p off
  | .pagent => s.paWord p off
  | .timebase => s.tbWord p off
  | .pstore => s.psWord p off
  | .dbg => s.dbgWord p off
  | _ => none

/-- A register's live word: every field at its current value, write-only fields as stored. -/
def State.liveWord (s : State) (who : Requester) (p : Page) (off : Nat) : Nat :=
  if off < 0x100 then s.headerWord p off else (s.blockWord who p off).getD (s.reg p off).toNat

/-- What a read returns: write-only fields read 0 (R6). -/
def State.readWord (s : State) (who : Requester) (p : Page) (off : Nat) : Word :=
  BitVec.ofNat 32 ((fieldsAt p.blk off).foldl (fun n f => if f.acc == .wo then withBits n f.lo f.w 0 else n) (s.liveWord who p off))

end Sys2Proof.Machine
end

