-- ==== Sys2Proof/Machine/RegAct.lean ====
section
/-!
DEFINITION. What a write of a register does beside storing its fields: the actions of the register tables. old and v are
the register's value before the write and the value written, protected fields that stay replaced by what stays; for a
64-bit pair both are 64 bits and off is its _LO register.
-/
namespace Sys2Proof.Machine

/-- The logical die of a page. -/
def State.ldIx (s : State) (p : Page) : Nat := (s.ldOf p.pd).getD 0

/-- The action is taken only by a block that takes new work (R56, R60). -/
def State.ifWorks (s : State) (p : Page) (f : State → State) : State := if s.takesWork p then f s else s

/-! Cores and operand caches. -/

/-- MCORE_CTRL: a new TRAP_NAN applies from the next beat on (R193); HALT_REQ stops the core at its next instruction
boundary (R153). -/
def State.actMcoreCtrl (s : State) (pd : PD) (mc : MC) (old v : Nat) : State :=
  let s1 := if bitOf old 0 = bitOf v 0 then s
    else s.modCore pd mc fun c => { c with trapOn := (s.sched.beat + 1, bitOf v 0) :: c.trapOn }
  let st := (s1.core pd mc).status
  if bitOf v 1 && (st == .running || st == .waitTs || st == .waitStep) then s1.enterStopped pd mc .stoppedReq else s1

/-- NF_STAT: the sticky bits and the first-flag record (R188, R189). -/
def State.actNfStat (s : State) (pd : PD) (mc : MC) (v : Nat) : State :=
  s.modCore pd mc fun c => { c with nf := { c.nf with
    stickyNan := c.nf.stickyNan && !bitOf v 8
    stickyInf := c.nf.stickyInf && !bitOf v 9
    firstRec := if bitOf v 10 then none else c.nf.firstRec } }

def State.actMcore (s : State) (p : Page) (off old v : Nat) : State :=
  let mc := mcOfPage p
  match off with
  | 0x100 => s.actMcoreCtrl p.pd mc old v
  | 0x124 => if bitOf v 3 then s.ifWorks p fun t => t.mcoreGo p.pd mc (bitsOf v 0 3) else s
  | 0x12C => (s.modTc p.pd mc fun t => { t with ctxPending := some (BitVec.ofNat 16 v) }).tcCtxNow p.pd mc
  | 0x200 => s.actNfStat p.pd mc v
  | 0x210 => s.modCore p.pd mc fun c => { c with nf := { c.nf with flagged := BitVec.ofNat 32 v } }
  | _ => s

/-- TCACHE_WAY_REEN: the ways are enabled again and their counts cleared; BYPASS for want of a way ends (R180, R182). -/
def State.actWayReen (s : State) (p : Page) (v : Nat) : State :=
  let w := v % 2 ^ 16
  let s1 := s.setFld p Reg.TCACHE_STAT_WAY_DIS (s.fld p Reg.TCACHE_STAT_WAY_DIS &&& (0xFFFF - w))
  let s2 := (List.range 16).foldl (fun (t : State) i => if bitOf w i then t.setFld p Reg.TCACHE_WAY_ERR_COUNT 0 i else t) s1
  if w = 0 then s2 else s2.modTc p.pd (mcOfPage p) fun t => { t with lastWay := false }

def State.actTcache (s : State) (p : Page) (off v : Nat) : State :=
  match off with
  | 0x108 => s.setFld p Reg.TCACHE_LFSR_STATE (if v % 2 ^ 16 = 0 then 0xACE1 else v % 2 ^ 16)
  | 0x10C => if bitOf v 0 then s.modTc p.pd (mcOfPage p) fun t => { t with lines := [], side := [] } else s
  | 0x110 => s.actWayReen p v
  | _ => s

/-! The schedule, Turnstiles and Tier S. -/

/-- SCHED_CTRL acts on the lead page alone (R250). -/
def State.actSched (s : State) (p : Page) (off v : Nat) (err : TierFail) : State :=
  match off with
  | 0x100 =>
    s.ifWorks p fun t =>
      let t1 := if bitOf v 0 then (t.schedLoad err).startTry else t
      if bitOf v 1 then t1.schedArm.startTry else t1
  | _ => s

/-- The sticky flag of the selected Turnstile is cleared. -/
def State.actTsFlag (s : State) (pd : PD) (sel v : Nat) : State :=
  let k := s.selKey pd sel
  if bitOf v 0 then s.setTsCell k { s.tsCell k with sticky := false } else s

def State.actTstile (s : State) (p : Page) (off v : Nat) : State :=
  let sel := (s.reg p 0x100).toNat
  match off with
  | 0x104 => s.tsPoke (s.selKey p.pd sel) (v % 2 ^ 31)
  | 0x108 => s.actTsFlag p.pd sel v
  | 0x120 => if bitOf v 2 then s.ifWorks p fun t => t.tstileGo p.pd (bitsOf v 0 2) else s
  | _ => s

def State.actTsram (s : State) (p : Page) (off v : Nat) : State :=
  match off with
  | 0x108 => s.poolMaskWrite p.pd v
  | 0x118 => if bitOf v 2 then s.ifWorks p fun t => t.tsramGo p.pd (bitsOf v 0 2) else s
  | _ => s

/-! Placement and translation. -/

def State.actPlace (s : State) (p : Page) (off v : Nat) : State :=
  match off with
  | 0x120 => s.entSel p (v % 2 ^ 22)
  | 0x170 => if bitOf v 4 then s.ifWorks p fun t => t.placeGo p (bitsOf v 0 4) else s
  | _ => s

/-- A package-scope register of XLATE: every full die's page takes it (R412). -/
def State.xlateSame (s : State) (p : Page) (off : Nat) : State :=
  s.fullDies.foldl (fun (t : State) pd => t.setReg (diePage .xlate pd) off (s.reg p off)) s

def State.actXlate (s : State) (p : Page) (off v : Nat) : State :=
  match off with
  | 0x100 => s.xlateSame p 0x100
  | 0x130 => if bitOf v 4 then (s.xlateSame p 0x130).ifWorks p fun t => t.xlateGo p v else s.xlateSame p 0x130
  | _ => if off = 0x104 ∨ (0x110 ≤ off ∧ off < 0x130) then (s.xlateSame p off).xlateSame p (off + 4) else s

/-! Rings, CPU cluster and homes. -/

def State.actCmdq (s : State) (p : Page) (off v : Nat) : State :=
  match off with
  | 0x100 => if bitOf v 0 then s.ringFlush p.inst.val else s
  | 0x13C => if s.fenced p then s else s.ringPoll p.inst.val
  | _ => s

/-- RUNc: a hart in RESET starts in M-mode at BOOT_ADDR (R444); the bit is set with it. -/
def State.hartRun (s : State) (p : Page) (c : Nat) : State :=
  match s.ldOf p.pd with
  | none => s
  | some ld =>
    let h := 2 * ld + c
    let v := s.hart h
    if v.state ≠ .reset then s
    else
      let pc := BitVec.ofNat 64 (s.reg64 p 0x108 % 2 ^ 52)
      (((s.setFlag p (if c = 0 then Reg.CPUCL_HART_CTRL_RUN0 else Reg.CPUCL_HART_CTRL_RUN1) true).setHart h
        { v with pc := pc, priv := 3 }).hartTo h .running).resetHalts h

/-- CPUCL_CMD: NONE, and REMOVE of a core that is gone, end at once; a removal holds GO until it is complete (R465, R467). -/
def State.actCpuclCmd (s : State) (p : Page) (v : Nat) : State :=
  match s.ldOf p.pd with
  | none => s
  | some ld =>
    let h := 2 * ld + bitsOf v 4 1
    if bitsOf v 0 2 = 0 ∨ (s.hart h).gone then s else (s.setFlag p Reg.CPUCL_CMD_GO true).hartRemove h 4

/-- MTIMECMP: the timer interrupt is pending while time has reached it (R463). -/
def State.actMtimecmp (s : State) (p : Page) (c v : Nat) : State :=
  match s.ldOf p.pd with
  | none => s
  | some ld =>
    let h := 2 * ld + c
    if (s.hart h).gone then s else s.setHart h { s.hart h with mtip := decide (v ≤ s.clock.time.toNat) }

def State.actCpucl (s : State) (who : Requester) (p : Page) (off v : Nat) : State :=
  match off with
  | 0x100 =>
    s.ifWorks p fun t =>
      let t1 := if bitOf v 0 then t.hartRun p 0 else t
      if bitOf v 1 then t1.hartRun p 1 else t1
  | 0x110 => if bitOf v 8 then s.ifWorks p fun t => t.actCpuclCmd p v else s
  | 0x118 => s.actMtimecmp p 0 v
  | 0x120 => s.actMtimecmp p 1 v
  | 0x128 => s.msiTo p (bitsOf v 0 7) (bitsOf v 8 4) (bitsOf v 16 8)
  | 0x130 => { s with cpu := { s.cpu with sel := mput (fun _ => 0) s.cpu.sel (sidOf who) (v &&& 0xFFFD) } }
  | 0x134 =>
    let sel := s.aplicSel who
    s.aplicWrite (bitOf sel 0) (bitsOf sel 2 14 * 4) v
  | _ => s

/-- HOME_LOOKUP: the home and the placement agent of the address (R287, R471, R489). -/
def State.actLookup (s : State) (p : Page) (v : Nat) : State :=
  let a := v % 2 ^ 52
  let n := max 1 s.fullDies.length
  let s1 := (s.setFld p Reg.HOME_LOOKUP_RES_HOME_LD (homeLd a n)).setFld p Reg.HOME_LOOKUP_RES_AGENT_LD (a / 2 ^ 21 % n)
  s1.setFlag p Reg.HOME_LOOKUP_RES_VALID (decide (a < s.reg64 (pkgPage .familyParam) 0x120))

/-! Links. -/

/-- Package-scope registers of JPORT: every present page takes them (R523). -/
def State.jpSame (s : State) (p : Page) (off : Nat) : State :=
  (List.range 8).foldl (fun (t : State) n => t.setReg (jpPage n) off (s.reg p off)) s

def State.actJpCtrl (s : State) (p : Page) (old v : Nat) : State :=
  let n := jportOf p
  let s1 := (s.setFlag p Reg.JP_CTRL_LP_REQ (bitOf v 1)).setFlag p Reg.JP_CTRL_FORCE_DOWN (bitOf v 2)
  let s2 := if bitOf v 2 && !bitOf old 2 then s1.forceDown n else s1
  let s3 := if bitOf v 1 = bitOf old 1 then s2 else s2.lpWrite n (bitOf v 1)
  if bitOf v 0 then s3.ifWorks p fun t => t.trainWrite n else s3

def State.actJport (s : State) (p : Page) (off old v : Nat) : State :=
  match off with
  | 0x100 => s.actJpCtrl p old v
  | 0x110 | 0x114 | 0x118 => s.jpSame p off
  | 0x11C =>
    let s1 := if bitOf v 1 then s.dissolve p else s
    if bitOf v 0 then s1.ifWorks p fun t => t.formGo p else s1
  | _ => s

/-! Power, ports, clocks, the log and the store. -/

/-- RM_ATTR_CTXID: the map changes at the next interval boundary; slots 62 and 63 have none (R579, R585). -/
def State.actAttrMap (s : State) (i v : Nat) : State :=
  if 62 ≤ i then s else s.setAttrSlot i { s.attrSlot i with newMap := some (v % 2 ^ 16, bitOf v 16) }

def State.actRmstr (s : State) (p : Page) (off v : Nat) : State :=
  match off with
  | 0x100 =>
    let s1 := s.modeWrite (bitOf v 0)
    if bitOf v 6 then s1.stopBegin 5 0 0 else s1
  | 0x134 => if bitOf v 2 then s.ifWorks p fun t => t.rmGo (bitsOf v 0 2) else s
  | 0x144 => s.actAttrMap (s.fld p Reg.RM_ATTR_SEL_SLOT) v
  | 0x158 =>
    let i := s.fld p Reg.RM_ATTR_SEL_SLOT
    s.setAttrSlot i { s.attrSlot i with budget := v % 2 ^ 64 }
  | 0x164 => { s with power := { s.power with coef := mput coefReset s.power.coef (s.fld p Reg.RM_COEF_SEL_CLASS) (v % 2 ^ 32) } }
  | _ => s

/-- PRP_CMD: both commands end at once with DONE (R613, R619). -/
def State.prpGo (s : State) (p : Page) (cmd : Nat) : State :=
  let n := rpNumber p
  let s1 := if cmd = 1 then s.setRport n { s.rport n with msis := [] } else s
  ((s1.setFld p Reg.PRP_CMD_STATUS_CODE 0).setFlag p Reg.PRP_CMD_STATUS_VALID true).setInt p 6

def State.actPcierp (s : State) (p : Page) (off old v : Nat) : State :=
  let n := rpNumber p
  match off with
  | 0x100 =>
    let s1 := if bitOf v 0 = bitOf old 0 then s else s.perstFollow n (decide (3 ≤ s.stage))
    let s2 := if bitOf v 1 = bitOf old 1 then s1 else s1.linkControls n
    if bitOf v 2 then s2.ifWorks p fun t => t.rpRetrain n else s2
  | 0x128 => if bitOf v 2 then s.ifWorks p fun t => t.prpGo p (bitsOf v 0 2) else s
  | _ => s

/-- TB_PWR_REQ: an on and an off request in one write are off (R645 to R647). -/
def State.actPwrReq (s : State) (v : Nat) : State :=
  if bitOf v 1 then s.offRequest else if bitOf v 0 then s.onRequest else s

def State.actTimebase (s : State) (p : Page) (off v : Nat) : State :=
  match off with
  | 0x10C =>
    if bitOf v 3 && s.fld p Reg.TB_SYNC_CTRL_MODE == 2 then s.setPins fun q => { q with syncOut := 4 } else s
  | 0x124 => s.actPwrReq v
  | 0x128 => if bitOf v 0 then s.sysReset 3 else s
  | _ => s

def State.actEvlog (s : State) (off : Nat) : State :=
  match off with
  | 0x110 => s.evOcc
  | 0x120 => s.evFetch
  | _ => s

def State.actPstore (s : State) (p : Page) (off v : Nat) : State :=
  match off with
  | 0x108 => if bitOf v 4 then s.ifWorks p fun t => t.psGo (bitsOf v 0 4) (bitsOf v 8 8) else s
  | _ => s

/-! Debug. -/

/-- DBG_TRC_CTRL: a capture that is turned on starts with an empty buffer. -/
def State.actTrcCtrl (s : State) (p : Page) (old v : Nat) : State :=
  if bitsOf old 0 2 = 0 ∧ bitsOf v 0 2 ≠ 0 then { s with traces := mput (fun _ => {}) s.traces p.pd.val {} } else s

def State.actDbg (s : State) (p : Page) (off old v : Nat) (err : TierFail) : State :=
  let pd := p.pd
  let sel := (s.reg p 0x110).toNat
  match off with
  | 0x108 =>
    let s1 := if bitOf v 0 then s.dbgHalt pd else s
    let s2 := if bitOf v 1 then s1.dbgResume pd else s1
    if bitOf v 2 then s2.dbgStep pd else s2
  | 0x114 => if s.dbgEn pd then s.tsPoke (s.selKey pd sel) (v % 2 ^ 31) else s
  | 0x118 => if s.dbgEn pd then s.actTsFlag pd sel v else s
  | 0x12C => if bitOf v 2 then s.ifWorks p fun t => t.dbgMem pd (bitsOf v 0 2) err else s
  | 0x140 => s.actTrcCtrl p old v
  | _ => s

/-- The actions of a write. -/
def State.regAct (s : State) (who : Requester) (p : Page) (off old v : Nat) (err : TierFail) : State :=
  match p.blk with
  | .mcore => s.actMcore p off old v
  | .tcache => s.actTcache p off v
  | .sched => s.actSched p off v err
  | .tstile => s.actTstile p off v
  | .tsram => s.actTsram p off v
  | .place => s.actPlace p off v
  | .xlate => s.actXlate p off v
  | .cmdq => s.actCmdq p off v
  | .cpucl => s.actCpucl who p off v
  | .home => if off = 0x10C then s.actLookup p v else s
  | .jport => s.actJport p off old v
  | .rmstr => s.actRmstr p off v
  | .pcierp => s.actPcierp p off old v
  | .timebase => s.actTimebase p off v
  | .evlog => s.actEvlog off
  | .pstore => s.actPstore p off v
  | .dbg => s.actDbg p off old v err
  | _ => s

end Sys2Proof.Machine
end

