-- ==== Sys2Proof/Machine/RegBus.lean ====
section
/-!
DEFINITION. Accesses to register pages: the header, pairs, reserved values, locks and the fields of a write, reads with
their snapshots (spec/00_scope.md R6 to R9, spec/02_register_pages.md R42, R46 to R66).
-/
namespace Sys2Proof.Machine

/-! The lock (R63, R64). -/

/-- A write of BLK_LOCK. -/
def State.lockWrite (s : State) (p : Page) (who : Requester) (v : Word) : State :=
  let key := v.toNat
  if key = 0x5EED then s.setLock p (.armed who)
  else if key = 0x0B1A ∧ (s.page p).lock = .armed who then s.setLock p (.unlocked who)
  else s.setLock p .locked

/-- A requester's write to a register that holds a protected field uses up its unlock. -/
def State.useUnlock (s : State) (p : Page) (who : Requester) (prot : Bool) : State :=
  if prot && s.unlockedFor p who then s.setLock p .locked else s

/-! The header. -/

/-- ENABLE (R56): a ring is enabled or stopped; any other block stops taking new work at a change from 1 to 0. -/
def State.enableWrite (s : State) (p : Page) (on : Bool) : State :=
  let was := s.flag p Reg.BLK_CTRL_ENABLE
  if p.blk = .cmdq then if on = was then s else s.ringEnable p.inst.val on
  else
    let s1 := s.setFlag p Reg.BLK_CTRL_ENABLE on
    if on then s1.setPage p { s1.page p with disabled := false }
    else if was then s1.setPage p { s1.page p with disabled := true }
    else s1

/-- FENCE (R60): setting it isolates the block; clearing it needs the unlock. opened: the page was unlocked for the
requester. -/
def State.fenceWrite (s : State) (p : Page) (who : Requester) (opened : Bool) (v : Word) : State :=
  let on := v.getLsbD 2
  let was := s.flag p Reg.BLK_CTRL_FENCE
  if on then (s.setFlag p Reg.BLK_CTRL_FENCE true).setFlag p Reg.BLK_STAT_FENCED true
  else if !was then s
  else if opened then (s.setFlag p Reg.BLK_CTRL_FENCE false).setFlag p Reg.BLK_STAT_FENCED false
  else s.headerError p 2 0x008 who v

/-- A write of BLK_CTRL (R56). -/
def State.ctrlWrite (s : State) (p : Page) (who : Requester) (v : Word) : State :=
  let opened := s.unlockedFor p who
  let s1 := ((s.useUnlock p who true).fenceWrite p who opened v).enableWrite p (v.getLsbD 0)
  if v.getLsbD 1 && !(s.page p).resetting then s1.softReset p else s1

/-- A cleared cause that still holds sets itself again (R606, R7). -/
def State.intAgain (s : State) (p : Page) : State := if p.blk = .pcierp then s.rpEvent (rpNumber p) else s

/-- A write of a header register other than BLK_LOCK (R52, R57, R58). -/
def State.headerWrite (s : State) (p : Page) (who : Requester) (off : Nat) (v : Word) : State :=
  if readOnlyPage p.blk then s
  else
    let old := s.srcLevel p
    let bits := v &&& BitVec.ofNat 32 (2 ^ max 1 (intBits p.blk) - 1)
    match off with
    | 0x008 => s.ctrlWrite p who v
    | 0x00C => if v.getLsbD 3 then s.setFlag p Reg.BLK_STAT_ERR false else s
    | 0x010 => (s.setReg p 0x010 (s.reg p 0x010 &&& ~~~v)).intAgain p
    | 0x014 => (s.setReg p 0x014 bits).irqEdge p old
    | 0x018 => (s.orInt p bits.toNat).irqEdge p old
    | _ => s

/-! Writes of block registers. -/

/-- The fields of a register, or of a pair with the high half's fields 32 bits up. -/
def regFields (b : Blk) (off : Nat) (pair : Bool) : List RegField :=
  let lo := fieldsAt b off
  if pair then lo ++ (fieldsAt b (off + 4)).map (fun (f : RegField) => { f with lo := f.lo + 32 }) else lo

/-- The live value of a register or pair. -/
def State.liveValue (s : State) (who : Requester) (p : Page) (off : Nat) (pair : Bool) : Nat :=
  s.liveWord who p off + (if pair then s.liveWord who p (off + 4) * 2 ^ 32 else 0)

/-- A field's bits of a register value. -/
def RegField.get (f : RegField) (n : Nat) : Nat := bitsOf n f.lo f.w

/-- Software writes the field at all. -/
def RegField.writable (f : RegField) : Bool := f.acc != .ro

/-- The write would change the field. -/
def RegField.changes (f : RegField) (old v : Nat) : Bool :=
  match f.acc with
  | .ro => false
  | .rw => f.get old != f.get v
  | .w1c => f.get old &&& f.get v != 0
  | .wo | .w1s | .sc => f.get v != 0

/-- What a register value holds of a protected field that keeps its value. -/
def RegField.kept (f : RegField) (old v : Nat) : Nat := withBits v f.lo f.w (if f.acc = .rw then f.get old else 0)

/-- A 1 written to an SC bit whose action is in progress is ignored (R7); PS_CMD says otherwise of its own (R660). -/
def heldSc (b : Blk) (fs : List RegField) (old v : Nat) : Nat :=
  if b = .pstore then v
  else fs.foldl (fun (n : Nat) (f : RegField) => if f.acc = .sc ∧ f.get old = 1 then withBits n f.lo f.w 0 else n) v

/-- Eight level bytes do not increase (R569). -/
def levelsFall (v : Nat) : Bool := (List.range 7).all fun i => decide (bitsOf v (8 * (i + 1)) 8 ≤ bitsOf v (8 * i) 8)

/-- Values that are reserved in combination, or that another register bounds (R9, R266, R569, R585, R632, R703). -/
def State.reservedCombo (s : State) (p : Page) (off v : Nat) : Bool :=
  match p.blk, off with
  | .tstile, 0x100 => selReserved v
  | .dbg, 0x110 => selReserved v
  | .dbg, 0x170 => decide ((if bitOf v 0 then 7 else 11) < bitsOf v 3 4)
  | .timebase, 0x110 => v % 5 != 0
  | .rmstr, 0x124 => !levelsFall v
  | .rmstr, 0x10C => decide (s.fld p Reg.RM_PEAK_CAP_WATTS < bitsOf v 0 13)
  | _, _ => false

/-- A reserved value is written (R9). -/
def State.reservedWrite (s : State) (p : Page) (off : Nat) (fs : List RegField) (v : Nat) : Bool :=
  fs.any (fun (f : RegField) => (f.acc == .rw || f.acc == .wo) && !f.permits (f.get v)) || s.reservedCombo p off v

/-- The stored word of a register after a write: plain fields by their access codes (R6). -/
def storedWord (fs : List RegField) (n v : Nat) : Nat :=
  fs.foldl (fun (m : Nat) (f : RegField) => if f.own || !f.writable then m else withBits m f.lo f.w (f.written (f.get n) (f.get v))) n

/-- The plain fields of a write are stored. -/
def State.storeFields (s : State) (p : Page) (off : Nat) (pair : Bool) (fs : List RegField) (v : Nat) : State :=
  if pair then s.setReg64 p off (storedWord fs (s.reg64 p off) v)
  else s.setReg p off (BitVec.ofNat 32 (storedWord fs (s.reg p off).toNat v))

/-- A write to a block register or a committed pair: refused whole for a reserved value; protected fields held without an
unlock; the rest stored and acted on, a register all of whose fields are held not at all. False: refused for a reserved
value. -/
def State.regWrite (s : State) (who : Requester) (p : Page) (off : Nat) (pair : Bool) (value : Nat) (err : TierFail) : Bool × State :=
  let fs := regFields p.blk off pair
  let at_ := if pair then off + 4 else off
  let shown := BitVec.ofNat 32 (if pair then value / 2 ^ 32 else value)
  let old := s.liveValue who p off pair
  let v := heldSc p.blk fs old value
  if s.reservedWrite p off fs v then (false, s.headerError p 1 at_ who shown)
  else
    let prot := fs.any (·.prot)
    let opened := s.unlockedFor p who
    let kept := fs.filter fun (f : RegField) => f.prot && !opened && f.changes old v
    let wv := kept.foldl (fun (n : Nat) (f : RegField) => f.kept old n) v
    let s1 := s.useUnlock p who prot
    let s2 := if kept.isEmpty then s1 else s1.headerError p 2 at_ who shown
    let s3 := s2.storeFields p off pair fs wv
    (true, if opened || fs.any (fun f => f.writable && !f.prot) then s3.regAct who p off old wv err else s3)

/-- The configuration of a ring is written in RESET alone (R417). -/
def State.ringFixed (s : State) (p : Page) (off : Nat) : Bool :=
  (off == 0x10C || off == 0x114 || off == 0x118 || off == 0x11C || off == 0x120 || off == 0x12C) && s.ringState p.inst.val != 0

/-- A register whose write the block discards where it stands (R250, R417). -/
def State.discards (s : State) (p : Page) (off : Nat) : Bool :=
  match p.blk with
  | .sched =>
    ((off == 0x100 || off == 0x108 || off == 0x10C || off == 0x110 || off == 0x13C) && p.pd != s.leadPd) ||
    (off == 0x110 && !(s.sched.state == .idle || s.sched.state == .loaded || s.sched.state == .ended))
  | .cmdq => s.ringFixed p off
  | _ => false

/-- A discarded write of a ring's configuration is an error of the ring (R417). -/
def State.discarded (s : State) (p : Page) : State := if p.blk = .cmdq then s.ringErr p.inst.val 0 2 else s

/-! Pairs (R47). -/

def State.stagedAt (s : State) (p : Page) (off : Nat) : Option Staged := (s.page p).staged.find? fun x => x.off == off

def State.setStaged (s : State) (p : Page) (off : Nat) (v : Option Staged) : State :=
  let g := s.page p
  let rest := g.staged.filter fun x => x.off != off
  s.setPage p { g with staged := match v with | some x => rest ++ [x] | none => rest }

/-- A write to _LO stages its value, in place of any other. -/
def State.loWrite (s : State) (who : Requester) (p : Page) (off : Nat) (v : Word) : State :=
  s.setStaged p off (some ⟨off, v, some who⟩)

/-- A write to _HI, at off + 4, commits the pair. -/
def State.hiWrite (s : State) (who : Requester) (p : Page) (off : Nat) (v : Word) (err : TierFail) : State :=
  match s.stagedAt p off with
  | some x =>
    if x.tag = some who then
      let (ok, s1) := s.regWrite who p off true (x.value.toNat + v.toNat * 2 ^ 32) err
      if ok then s1.setStaged p off none else s1
    else s.headerError p 3 (off + 4) who v
  | none => (s.regWrite who p off true (s.liveWord who p off + v.toNat * 2 ^ 32) err).2

/-- The offset begins a pair of the page (R47). -/
def isLo (b : Blk) (off : Nat) : Bool := (pairLos b).contains off

/-- The offset ends a pair of the page. -/
def isHi (b : Blk) (off : Nat) : Bool := decide (4 ≤ off) && isLo b (off - 4)

/-- A write to a block-specific register. -/
def State.blockWrite (s : State) (who : Requester) (p : Page) (off : Nat) (v : Word) (err : TierFail) : State :=
  if !s.accessible p || readOnlyPage p.blk then s
  else if s.discards p off then s.discarded p
  else if isLo p.blk off then s.loWrite who p off v
  else if isHi p.blk off then s.hiWrite who p (off - 4) v err
  else (s.regWrite who p off false v.toNat err).2

/-- Package-wide pages have no die. -/
def normPage (p : Page) : Page := if isPackage p.blk then { p with pd := 0 } else p

/-- A 32-bit write that arrives at a page (R42, R46, R59, R64). err: what a memory access that the write starts meets. -/
def State.busWrite (s : State) (who : Requester) (p0 : Page) (off : Nat) (v : Word) (err : TierFail := .none) : State :=
  let p := normPage p0
  if !s.present p then s
  else
    let s1 := s.countWrite p
    if readOnlyPage p.blk then s1
    else if off = 0x040 then s1.lockWrite p who v
    else
      let s2 := s1.disarm p who
      if off < 0x100 then s2.headerWrite p who off v else s2.blockWrite who p off v err

/-! Reads (R48). -/

def State.takeSnap (s : State) (who : Requester) (p : Page) (off : Nat) (hi : Word) : State :=
  let g := s.page p
  s.setPage p { g with snaps := (g.snaps.filter fun x => !(x.off == off && x.who == who)) ++ [⟨off, who, hi⟩] }

def State.snapAt (s : State) (who : Requester) (p : Page) (off : Nat) : Option Snap :=
  (s.page p).snaps.find? fun x => x.off == off && x.who == who

def State.dropSnap (s : State) (who : Requester) (p : Page) (off : Nat) : State :=
  let g := s.page p
  s.setPage p { g with snaps := g.snaps.filter fun x => !(x.off == off && x.who == who) }

/-- A read that a mover's free PIECES field answers uses it up. -/
def State.readUses (s : State) (p : Page) (off : Nat) : State := if p.blk = .mover ∧ off = 0x100 then s.nextFree else s

/-- A read of a block-specific register. -/
def State.blockRead (s : State) (who : Requester) (p : Page) (off : Nat) : Word × State :=
  if isLo p.blk off then (s.readWord who p off, s.takeSnap who p off (s.readWord who p (off + 4)))
  else if isHi p.blk off then
    match s.snapAt who p (off - 4) with
    | some x => (x.hi, s.dropSnap who p (off - 4))
    | none => (s.readWord who p off, s)
  else (s.readWord who p off, s.readUses p off)

/-- A 32-bit read that arrives at a page: 0 from an absent page (R42) and from a fenced or resetting block's registers
(R60, R62). -/
def State.busRead (s : State) (who : Requester) (p0 : Page) (off : Nat) : Word × State :=
  let p := normPage p0
  if !s.present p then (0, s)
  else if off < 0x100 then (s.readWord who p off, s)
  else if !s.accessible p then (0, s)
  else s.blockRead who p off

/-- A read answered to its requester. -/
def State.readReply (s : State) (who : Requester) (p : Page) (off : Nat) : State :=
  let (w, s1) := s.busRead who p off
  { s1 with reply := some (.word w) }

end Sys2Proof.Machine
end

