-- ==== Sys2Proof/Machine/CoreReg.lean ====
section
/-!
DEFINITION. Register writes with rows of their own: matrix cores, operand caches, schedule, Turnstiles and Tier S
(spec/05_matrix_core_programming.md R153 to R157, spec/06_vector_matrix_path.md R182, spec/07_numeric_exceptions.md R201,
spec/08_static_schedule.md R250, spec/09_turnstiles.md R266, spec/10_tier_s_scratch.md R285).
-/
namespace Sys2Proof.Machine

/-- A control register as it stands, with one field written. -/
def State.withField (s : State) (p : Page) (f : RegField) (v : Nat) : Word :=
  BitVec.ofNat 32 (withBits (s.reg p f.off).toNat f.lo f.w v)

/-- HALT_REQ_WRITE: MCORE_CTRL.HALT_REQ. -/
def execHaltReqWrite (who : Requester) (pd : PD) (mc : MC) (on : Bool) (s : State) : Host.Outcome State Fault Refusal :=
  .next (s.busWrite who (mcorePage pd mc) 0x100 (s.withField (mcorePage pd mc) Reg.MCORE_CTRL_HALT_REQ (b2n on)))

/-- TRAP_NAN_WRITE: MCORE_CTRL.TRAP_NAN. -/
def execTrapNanWrite (who : Requester) (pd : PD) (mc : MC) (on : Bool) (s : State) : Host.Outcome State Fault Refusal :=
  .next (s.busWrite who (mcorePage pd mc) 0x100 (s.withField (mcorePage pd mc) Reg.MCORE_CTRL_TRAP_NAN (b2n on)))

/-- MCORE_CTXID_WRITE. -/
def execMcoreCtxidWrite (who : Requester) (pd : PD) (mc : MC) (ctx : Half) (s : State) : Host.Outcome State Fault Refusal :=
  .next (s.busWrite who (mcorePage pd mc) 0x12C (ctx.setWidth 32))

/-- MCORE_CMD with GO. -/
def State.mcoreCmd (s : State) (who : Requester) (pd : PD) (mc : MC) (cmd : Nat) : State :=
  s.busWrite who (mcorePage pd mc) 0x124 (BitVec.ofNat 32 (cmd + 8))

def execMcoreCmdNone (who : Requester) (pd : PD) (mc : MC) (s : State) : Host.Outcome State Fault Refusal := .next (s.mcoreCmd who pd mc 0)
def execLoadProgram (who : Requester) (pd : PD) (mc : MC) (s : State) : Host.Outcome State Fault Refusal := .next (s.mcoreCmd who pd mc 1)
def execMcoreStart (who : Requester) (pd : PD) (mc : MC) (s : State) : Host.Outcome State Fault Refusal := .next (s.mcoreCmd who pd mc 2)
def execSaveCtx (who : Requester) (pd : PD) (mc : MC) (s : State) : Host.Outcome State Fault Refusal := .next (s.mcoreCmd who pd mc 3)
def execRestoreCtx (who : Requester) (pd : PD) (mc : MC) (s : State) : Host.Outcome State Fault Refusal := .next (s.mcoreCmd who pd mc 4)
def execMcoreClear (who : Requester) (pd : PD) (mc : MC) (s : State) : Host.Outcome State Fault Refusal := .next (s.mcoreCmd who pd mc 5)

/-- TC_INV_ALL: TCACHE_INV.INV_ALL. -/
def execTcInvAll (who : Requester) (pd : PD) (mc : MC) (s : State) : Host.Outcome State Fault Refusal :=
  .next (s.busWrite who (tcachePage pd mc) 0x10C 1)

/-- TC_WAY_REEN: TCACHE_WAY_REEN. -/
def execTcWayReen (who : Requester) (pd : PD) (mc : MC) (ways : Half) (s : State) : Host.Outcome State Fault Refusal :=
  .next (s.busWrite who (tcachePage pd mc) 0x110 (ways.setWidth 32))

/-- TC_LFSR_WRITE: TCACHE_LFSR. -/
def execTcLfsrWrite (who : Requester) (pd : PD) (mc : MC) (value : Half) (s : State) : Host.Outcome State Fault Refusal :=
  .next (s.busWrite who (tcachePage pd mc) 0x108 (value.setWidth 32))

/-- NF_FIRST_VALID_CLEAR: NF_STAT.FIRST_VALID written 1. -/
def execNfFirstValidClear (who : Requester) (pd : PD) (mc : MC) (s : State) : Host.Outcome State Fault Refusal :=
  .next (s.busWrite who (mcorePage pd mc) 0x200 0x400)

/-- SCHED_LOAD: SCHED_CTRL.LOAD; err: what the tier makes of the image's reads. -/
def execSchedLoad (who : Requester) (pd : PD) (err : TierFail) (s : State) : Host.Outcome State Fault Refusal :=
  .next (s.busWrite who (diePage .sched pd) 0x100 1 err)

/-- SCHED_ARM: SCHED_CTRL.ARM. -/
def execSchedArm (who : Requester) (pd : PD) (s : State) : Host.Outcome State Fault Refusal :=
  .next (s.busWrite who (diePage .sched pd) 0x100 2)

/-- TS_VALUE_WRITE. -/
def execTsValueWrite (who : Requester) (pd : PD) (value : Word) (s : State) : Host.Outcome State Fault Refusal :=
  .next (s.busWrite who (diePage .tstile pd) 0x104 value)

/-- TS_SEL_WRITE. -/
def execTsSelWrite (who : Requester) (pd : PD) (value : Word) (s : State) : Host.Outcome State Fault Refusal :=
  .next (s.busWrite who (diePage .tstile pd) 0x100 value)

/-- TS_CMD with GO. -/
def State.tstileCmd (s : State) (who : Requester) (pd : PD) (cmd : Nat) : State :=
  s.busWrite who (diePage .tstile pd) 0x120 (BitVec.ofNat 32 (cmd + 4))

def execTstileCmdNone (who : Requester) (pd : PD) (s : State) : Host.Outcome State Fault Refusal := .next (s.tstileCmd who pd 0)
def execTstileSave (who : Requester) (pd : PD) (s : State) : Host.Outcome State Fault Refusal := .next (s.tstileCmd who pd 1)
def execTstileRestore (who : Requester) (pd : PD) (s : State) : Host.Outcome State Fault Refusal := .next (s.tstileCmd who pd 2)
def execTstileClear (who : Requester) (pd : PD) (s : State) : Host.Outcome State Fault Refusal := .next (s.tstileCmd who pd 3)

/-- TSRAM_POOL_MASK_WRITE: both halves of the mask, which commits with the high one. -/
def execTsramPoolMaskWrite (who : Requester) (pd : PD) (mask : DWord) (s : State) : Host.Outcome State Fault Refusal :=
  .next ((s.busWrite who (diePage .tsram pd) 0x108 (mask.setWidth 32)).busWrite who (diePage .tsram pd) 0x10C ((mask >>> 32).setWidth 32))

/-- TSRAM_CMD with GO. -/
def State.tsramCmd (s : State) (who : Requester) (pd : PD) (cmd : Nat) : State :=
  s.busWrite who (diePage .tsram pd) 0x118 (BitVec.ofNat 32 (cmd + 4))

def execTsramCmdNone (who : Requester) (pd : PD) (s : State) : Host.Outcome State Fault Refusal := .next (s.tsramCmd who pd 0)
def execZero (who : Requester) (pd : PD) (s : State) : Host.Outcome State Fault Refusal := .next (s.tsramCmd who pd 1)

end Sys2Proof.Machine
end

