-- ==== Sys2Proof/Machine/CoreWork.lean ====
section
/-!
DEFINITION. The commands of a core's queues, its operand cache and the movers
(spec/04_matrix_array.md R101, spec/05_matrix_core_programming.md R148, spec/06_vector_matrix_path.md R158 to R181,
spec/07_numeric_exceptions.md R192, R193, spec/12_carousel.md R330 to R333).
-/
namespace Sys2Proof.Machine

/-! Queue issue (R148, R158, R330). -/

def execLqIssue (pd : PD) (mc : MC) (err : IssueErr) (s : State) : Host.Outcome State Fault Refusal := .next (s.lqIssue pd mc err)

def execSqIssue (pd : PD) (mc : MC) (err : IssueErr) (s : State) : Host.Outcome State Fault Refusal := .next (s.sqIssue pd mc err)

def execDqIssue (pd : PD) (mc : MC) (err : IssueErr) (s : State) : Host.Outcome State Fault Refusal := .next (s.dqIssue pd mc err)

/-- A vector instruction that reaches memory through the operand cache issues (R165, R166, R174, R177). -/
def State.vqCached (s : State) (pd : PD) (mc : MC) (ent : QEnt) (err : IssueErr) : State :=
  let e := s.sched.beat
  match ent.op with
  | .vld _ true _ a fmt =>
    let n := 2 * fmtWidth fmt
    (s.vIssued pd mc ent e).tcAccess pd mc ent a.toNat n 0 n [] err
  | .vmv _ vs ntok _ true a wfmt =>
    let src := (List.range (ntok + 1)).map fun k => (s.core pd mc).x.rdV (vs + k)
    (s.vIssued pd mc ent e).tcAccess pd mc ent a.toNat (512 * fmtWidth wfmt) (s.vmvQ pd mc true wfmt) (2 * fmtWidth wfmt) src err
  | .vst v true _ a fmt sat =>
    let bs := narrowRow fmt sat ((s.core pd mc).x.rdV v)
    let s1 := s.vIssued pd mc ent e
    match s1.tcLines pd mc ent.pc a.toNat (2 * fmtWidth fmt) true with
    | (none, s2) => s2.tcFail pd mc ent.pc a.toNat 0x13
    | (some lines, s2) =>
      lines.zipIdx.foldl (fun (t : State) (x : Nat × Nat) => t.mbWrite pd mc x.1 (e + 4) ((bs.drop (128 * x.2)).take 128)) s2
  | _ => s

/-- Work that uses the operand cache. -/
def QOp.cached : QOp → Bool
  | .vld _ space _ _ _ => space
  | .vst _ space _ _ _ _ => space
  | .vmv _ _ _ _ src _ _ => src
  | _ => false

/-- The VQ head issues. -/
def execVqIssue (pd : PD) (mc : MC) (err : IssueErr) (s : State) : Host.Outcome State Fault Refusal :=
  match s.headAt pd mc .vq, s.ldOf pd with
  | some e, some ld =>
    if !s.vqReady pd mc e s.sched.beat then .next s
    else
      match vqBad ld e.op with
      | some r => .next (s.coreStop pd mc e.pc r)
      | none => .next (if e.op.cached then s.vqCached pd mc e err else s.vqLocal pd mc ld e err)
  | _, _ => .next s

/-- The MQ head issues to a free slot of its mover; a beat for which it waits only for one is a stall (R330). -/
def execMqIssue (pd : PD) (mc : MC) (s : State) : Host.Outcome State Fault Refusal :=
  match s.headAt pd mc .mq with
  | some e =>
    match e.op with
    | .mvr i addr cpl cts =>
      let c := s.core pd mc
      let now := s.sched.beat
      if now < c.hist.mqNext then .next s
      else
        match (if s.takesWork (mvPage pd i) then (s.mover pd i).freeMvr else none) with
        | none =>
          if c.hist.holdBeat = some now then .next s
          else .next (s.setCore pd mc { c with
            stall := c.stall + 1, mqWait := some (c.mqWait.getD 0 + 1), hist := { c.hist with holdBeat := some now } })
        | some k =>
          let v : Mvr :=
            { pd := pd, mc := mc, pc := e.pc, e := s.clock.beats.toNat, sbeat := now - c.stall, room := s.sched.len + c.stall - now
              addr := addr.toNat, cpl := cpl, cts := cts, ctx := s.fld (mcorePage pd mc) Reg.MCORE_CTXID_CTXID }
          let s1 := (s.modCore pd mc fun c =>
            let c1 := c.popQueue .mq now
            { c1 with mqWait := none, hist := { c1.hist with mqNext := now + 1 } }).setMvr pd i k (some v)
          .next (match c.mqWait with | some n => s1.lateMover pd i n e.pc (s.lcNo pd mc) | none => s1)
    | _ => .next s
  | none => .next s

/-- The last weight row of a load is written, and the bank is VALID (R101). -/
def execWeightLoadDone (pd : PD) (mc : MC) (bank : Bool) (s : State) : Host.Outcome State Fault Refusal :=
  let c := s.core pd mc
  let b := c.x.bank bank
  match b.loadL with
  | some l => if l + 255 ≤ s.sched.beat then .next (s.setCore pd mc { c with x := c.x.setBank bank { b with valid := true } }) else .next s
  | none => .next s

/-- The work of a trapped core is done: it enters STOPPED_TRAP, with its record and its event (R192, R193). -/
def execTrapStopDone (pd : PD) (mc : MC) (s : State) : Host.Outcome State Fault Refusal :=
  let c := s.core pd mc
  match c.trapRow with
  | some r =>
    if r.d + 6 < s.sched.beat ∧ c.hist.allDone < s.sched.beat ∧ c.tcAcc.isEmpty ∧ c.status.issues then
      let s1 := (s.setCore pd mc { c.discard with nanRows := [], stopPend := none, nf := { c.nf with trapRec := some r.rec_ } }).enterStopped
        pd mc .stoppedTrap
      .next (s1.report (mcorePage pd mc) 2 (r.pc + r.tile * 2 ^ 16 + r.row * 2 ^ 32 + r.chan * 2 ^ 42) (beat := some r.d))
    else .next s
  | none => .next s

/-! The operand cache (R175 to R181). -/

/-- A demand fill or a prefetch arrives: it serves the accesses that wait for it and is installed, unless an invalidation
crossed it. A failed demand fill stops the core. -/
def execTcFillArrive (pd : PD) (mc : MC) (line : BitVec 45) (err : TierFail) (s : State) : Host.Outcome State Fault Refusal :=
  if s.fenced (tcachePage pd mc) then .next s else
  let l := line.toNat
  match (s.tc pd mc).inSlot l with
  | none => .next s
  | some f =>
    let (c0, bs, s1) := s.tcFill pd mc l
    let (c1, s2) := if c0 = 0 then s1.tierFails (l * 128) err else (c0, s1)
    let s3 := s2.modTc pd mc fun t => { t with fills := t.fills.filter (·.line != l) }
    if c1 ≠ 0 then
      if f.demand then .next (s3.tcFail pd mc (s.core pd mc).x.pc.toNat (l * 128) c1) else .next s3
    else
      let fresh := ((s2.tc pd mc).fills.find? (·.line == l)).any fun g => !g.dropInst
      let got := (s3.tc pd mc).forward l bs
      if f.demand then .next ((if fresh then s3.tcInstall pd mc l bs else s3).tcDeliver pd mc l got)
      else .next (if fresh && !s3.tcBypass pd mc then s3.sidePut pd mc l bs else s3)

/-- An invalidation from a home (R179). -/
def execTcSnoopInval (pd : PD) (mc : MC) (line : BitVec 45) (s : State) : Host.Outcome State Fault Refusal :=
  .next (s.tcInval (coreKey pd mc) line.toNat)

/-- A merging-buffer entry without a write for 64 beats (R177). -/
def execMbAgeTimeout (pd : PD) (mc : MC) (line : BitVec 45) (s : State) : Host.Outcome State Fault Refusal :=
  if s.fenced (tcachePage pd mc) then .next s else
  match (s.tc pd mc).mb.find? (·.line == line.toNat) with
  | some e => if e.last + 64 ≤ s.sched.beat then .next (s.mbIssue pd mc e) else .next s
  | none => .next s

/-- Every way's error count is halved (R180). -/
def execTcWayErrDecay (pd : PD) (mc : MC) (s : State) : Host.Outcome State Fault Refusal :=
  let p := tcachePage pd mc
  .next ((List.range 16).foldl (fun t w => t.setFld p Reg.TCACHE_WAY_ERR_COUNT (t.fld p Reg.TCACHE_WAY_ERR_COUNT w / 2) w) s)

/-! Movers (R330 to R333). -/

/-- A mover's fetch of an MVR's descriptor completes; ue: its words hold a double-bit error. -/
def execMoverDescFetch (pd : PD) (i : MoverIx) (slot : Fin 8) (ue : Option (BitVec 33)) (s : State) : Host.Outcome State Fault Refusal :=
  if s.fenced (mvPage pd i.val) then .next s else
  match (s.mover pd i.val).slot slot.val with
  | some v =>
    if v.fetched then .next s
    else
      let s1 := match ue with | some a => s.sPoison (a.toNat / 16) | none => s
      .next (s1.mvrFetch pd i.val slot.val v)
  | none => .next s

/-- The post of an MVR, once its beat has come. -/
def execMoverPost (pd : PD) (i : MoverIx) (slot : Fin 8) (s : State) : Host.Outcome State Fault Refusal :=
  if s.fenced (mvPage pd i.val) then .next s else
  match (s.mover pd i.val).slot slot.val with
  | some v =>
    match v.postBeat with
    | some y => if y ≤ s.clock.beats.toNat then .next (s.mvrPost pd i.val slot.val v y) else .next s
    | none => .next s
  | none => .next s

end Sys2Proof.Machine
end

