-- ==== Sys2Proof/Machine/HartMem.lean ====
section
/-!
DEFINITION. A hart's memory access: tiered memory through its caches, register space, PCIe windows, and the exceptions of
what fails (spec/01_architecture.md R29, spec/02_register_pages.md R36, R37, R45, spec/17_cpu_complex.md R446, R451, R452).
-/
namespace Sys2Proof.Machine

/-- The access fault's kind: 0 load, 1 fetch, 2 store or AMO. -/
def HartOp.kind : HartOp → Nat
  | .load | .lr => 0
  | .fetch => 1
  | .store | .sc | .amo _ => 2

def HartOp.writes : HartOp → Bool
  | .store | .sc | .amo _ => true
  | .load | .lr | .fetch => false

/-- An access fault that no memory access was made for: it carries no completion code. -/
def State.hartRefuse (s : State) (h : Nat) (va : DWord) (op : HartOp) : State :=
  s.hartAnswer h (match HartOp.kind op with | 0 => .loadFault va | 1 => .fetchFault va | _ => .storeFault va)

/-- An AMO's result on n-byte values. -/
def amoResult (op : AmoOp) (n old new : Nat) : Nat :=
  let m := 2 ^ (8 * n)
  match op with
  | .swap => new
  | .add => (old + new) % m
  | .xor => old ^^^ new
  | .and => old &&& new
  | .or => old ||| new
  | .min => if signedOf old (8 * n) ≤ signedOf new (8 * n) then old else new
  | .max => if signedOf old (8 * n) ≤ signedOf new (8 * n) then new else old
  | .minu => min old new
  | .maxu => max old new

/-- The hart's copy of a line, with what the tier makes of a line that it does not hold yet. -/
def State.hartGet (s : State) (h line : Nat) (write : Bool) (err : TierFail) : Nat × List Byte × State :=
  let held := (s.l2Line h line).isSome
  let (code, bs, s1) := s.hartLine h line write
  if code ≠ 0 ∨ held then (code, bs, s1)
  else
    let (c2, s2) := s1.tierFails (line * 64) err
    if c2 = 0 then (0, bs, s2) else (c2, [], (s2.setL2 h line none).dirDrop h line)

/-- The bytes of an access, part by part, each brought with the permission asked for; the first failure ends it, with its
address. -/
def State.hartBytes (s : State) (h : Nat) (parts : List (Nat × Nat × Nat)) (write : Bool) (err : TierFail) :
    Nat × Nat × List Byte × State :=
  parts.foldl (fun (acc : Nat × Nat × List Byte × State) (x : Nat × Nat × Nat) =>
    if acc.1 ≠ 0 then acc
    else
      let (code, bs, t) := acc.2.2.2.hartGet h x.1 write err
      (code, x.1 * 64 + x.2.1, acc.2.2.1 ++ (bs.drop x.2.1).take x.2.2, t)) (0, 0, [], s)

/-- Bytes into lines that are held with permission. -/
def State.hartStore (s : State) (h : Nat) (parts : List (Nat × Nat × Nat)) (bs : List Byte) : State :=
  (parts.foldl (fun (acc : List Byte × State) (x : Nat × Nat × Nat) =>
    let data := List.replicate x.2.1 0 ++ acc.1.take x.2.2 ++ List.replicate (64 - x.2.1 - x.2.2) 0
    (acc.1.drop x.2.2, acc.2.hartPut h x.1 ((2 ^ x.2.2 - 1) * 2 ^ x.2.1) data)) (bs, s)).2

/-- The lines of n bytes at a, or of the bytes on either side of a 4 KiB page's end: pb is where the second page lies. -/
def accessParts (a n : Nat) (pb : Option Nat) : List (Nat × Nat × Nat) :=
  let k := 4096 - a % 4096
  match pb with
  | some b => if n ≤ k then rpParts a n else rpParts a k ++ rpParts (b / 4096 * 4096) (n - k)
  | none => rpParts a n

/-- LR takes the reservation of its 64 B granule; SC uses it up, and drains the combining buffer where it stores. -/
def State.setResv (s : State) (h : Nat) (r : Option Nat) : State := s.setHart h { s.hart h with resv := r }

/-- An SC: it stores while its reservation stands; 0 or 1 is answered. -/
def State.hartSc (s : State) (h : Nat) (va : DWord) (a n : Nat) (data : List Byte) (err : TierFail) : State :=
  let parts := rpParts a n
  if (s.hart h).resv ≠ some (a / 64) then (s.setResv h none).hartAnswer h (.bytes (leBytes 1 8))
  else
    let (code, fa, _, s1) := (s.cbDrain fun e => e.hart == h).hartBytes h parts true err
    if code ≠ 0 then (s1.setResv h none).hartFault h va fa code 2
    else if (s1.hart h).resv ≠ some (a / 64) then (s1.setResv h none).hartAnswer h (.bytes (leBytes 1 8))
    else ((s1.setResv h none).hartStore h parts data).hartAnswer h (.bytes (leBytes 0 8))

/-- An access to tiered memory. -/
def State.hartTiered (s : State) (h : Nat) (va : DWord) (op : HartOp) (a n : Nat) (pb : Option Nat) (data : List Byte) (rl : Bool)
    (err : TierFail) : State :=
  let parts := accessParts a n pb
  let s0 := if rl && HartOp.writes op && !(op == .store) then s.cbDrain fun e => e.hart == h else s
  match op with
  | .sc => s0.hartSc h va a n data err
  | _ =>
    let (code, fa, bs, s1) := s0.hartBytes h parts (HartOp.writes op) err
    if code ≠ 0 then s1.hartFault h va fa code (HartOp.kind op)
    else
      match op with
      | .store => s1.hartStore h parts data
      | .lr => (s1.setResv h (some (a / 64))).hartAnswer h (.bytes bs)
      | .amo o => (s1.hartStore h parts (leBytes (amoResult o n (leNat bs) (leNat data)) n)).hartAnswer h (.bytes bs)
      | _ => s1.hartAnswer h (.bytes bs)

/-- An access to register space (R45): aligned 32-bit loads and stores alone. -/
def State.hartRegister (s : State) (h : HartId) (va : DWord) (op : HartOp) (a n : Nat) (vec : Bool) (data : Nat) : State :=
  let ok := n == 4 && a % 4 == 0 && !vec
  match op, s.decodeReg a with
  | .load, some (p, off) =>
    if !ok then s.hartRefuse h.val va op
    else
      let (w, s1) := s.busRead (.hart h) p off
      s1.hartAnswer h.val (.word w)
  | .store, some (p, off) => if !ok then s.hartRefuse h.val va op else s.busWrite (.hart h) p off (BitVec.ofNat 32 data)
  | _, some _ => s.hartRefuse h.val va op
  | _, none => s.hartFault h.val va a 0x13 (HartOp.kind op)

/-- The address lies in register space's ranges or in reserved space above the windows. -/
def aboveWindows (a : Nat) : Bool := decide (2 ^ 43 + 2 ^ 42 ≤ a)

/-- AMOs, LR and SC that are not aligned take address-misaligned exceptions in tiered memory (R446). -/
def misalignedAtomic (op : HartOp) (a n : Nat) : Bool :=
  match op with
  | .amo _ | .lr | .sc => a % n != 0
  | .load | .store | .fetch => false

/-- A translated access of n bytes at system address a. -/
def State.hartAt (s : State) (h : HartId) (va : DWord) (op : HartOp) (a n : Nat) (pb : Option Nat) (data : Nat) (rl vec : Bool)
    (err : TierFail) : State :=
  if aboveWindows a then s.hartRegister h va op a n vec data
  else
    match windowPort a with
    | some p => if vec then s.hartRefuse h.val va op else s.hartWindow h.val va op p a n (leBytes data n)
    | none =>
      if misalignedAtomic op a n then s.hartAnswer h.val (.misaligned va)
      else if !(accessParts a n pb).all fun x => s.backed (x.1 * 64) then s.hartFault h.val va a 0x13 (HartOp.kind op)
      else s.hartTiered h.val va op a n pb (leBytes data n) rl err

/-- HART_MEMORY_ACCESS: a hart's access of 2 ^ size bytes at va, translated to pa, and to pb on a second 4 KiB page; without
a translation the exception is the privileged specification's. -/
def execHartMemoryAccess (h : HartId) (op : HartOp) (va : DWord) (pa pb : Option (BitVec 52)) (size : Fin 4) (data : DWord)
    (rl vec : Bool) (err : TierFail) (s : State) : Host.Outcome State Fault Refusal :=
  let n := 2 ^ size.val
  if !s.hartRuns h then .next s
  else
    match pa with
    | none => .next (s.hartAnswer h.val (.translation va))
    | some a =>
      if 4096 < va.toNat % 4096 + n ∧ pb = none ∧ !misalignedAtomic op a.toNat n then .next (s.hartAnswer h.val (.translation va))
      else .next (s.hartAt h va op a.toNat n (pb.map (·.toNat)) data.toNat rl vec err)

end Sys2Proof.Machine
end

