-- ==== Sys2Proof/Machine/MemReg.lean ====
section
/-!
DEFINITION. Register writes with rows of their own: placement, translation, rings, the CPU complex, homes and links
(spec/11_memory_placement.md R309, R314, spec/15_address_translation.md R412, spec/16_command_rings.md R441,
spec/17_cpu_complex.md R468, spec/18_coherence.md R489, spec/19_jallyn_links.md R523).
-/
namespace Sys2Proof.Machine

/-- PLACE_CMD with GO: the command of a die's page. -/
def State.placeCmd (s : State) (who : Requester) (pd : PD) (cmd : Nat) : State :=
  s.busWrite who (diePage .place pd) 0x170 (BitVec.ofNat 32 (cmd + 16))

def execPlaceCmdNone (who : Requester) (pd : PD) (s : State) : Host.Outcome State Fault Refusal := .next (s.placeCmd who pd 0)
def execSetOwner (who : Requester) (pd : PD) (s : State) : Host.Outcome State Fault Refusal := .next (s.placeCmd who pd 1)
def execDiscard (who : Requester) (pd : PD) (s : State) : Host.Outcome State Fault Refusal := .next (s.placeCmd who pd 2)
def execSetFrozen (who : Requester) (pd : PD) (s : State) : Host.Outcome State Fault Refusal := .next (s.placeCmd who pd 3)
def execClrFrozen (who : Requester) (pd : PD) (s : State) : Host.Outcome State Fault Refusal := .next (s.placeCmd who pd 4)
def execPin (who : Requester) (pd : PD) (s : State) : Host.Outcome State Fault Refusal := .next (s.placeCmd who pd 5)
def execUnpin (who : Requester) (pd : PD) (s : State) : Host.Outcome State Fault Refusal := .next (s.placeCmd who pd 6)
def execPlacePromote (who : Requester) (pd : PD) (s : State) : Host.Outcome State Fault Refusal := .next (s.placeCmd who pd 7)
def execPlaceDemote (who : Requester) (pd : PD) (s : State) : Host.Outcome State Fault Refusal := .next (s.placeCmd who pd 8)
def execRecount (who : Requester) (pd : PD) (s : State) : Host.Outcome State Fault Refusal := .next (s.placeCmd who pd 9)

/-- PLACE_ENT_SEL_WRITE. -/
def execPlaceEntSelWrite (who : Requester) (pd : PD) (frame : BitVec 22) (s : State) : Host.Outcome State Fault Refusal :=
  .next (s.busWrite who (diePage .place pd) 0x120 (frame.setWidth 32))

/-- XLATE_CMD with GO. -/
def State.xlateCmd (s : State) (who : Requester) (pd : PD) (cmd port ctx : Nat) : State :=
  s.busWrite who (diePage .xlate pd) 0x130 (BitVec.ofNat 32 (cmd + 16 + port * 32 + ctx * 65536))

def execXlateCmdNone (who : Requester) (pd : PD) (s : State) : Host.Outcome State Fault Refusal := .next (s.xlateCmd who pd 0 0 0)
def execAdvance (who : Requester) (pd : PD) (ctx : Half) (s : State) : Host.Outcome State Fault Refusal := .next (s.xlateCmd who pd 1 0 ctx.toNat)
def execAdvanceAll (who : Requester) (pd : PD) (s : State) : Host.Outcome State Fault Refusal := .next (s.xlateCmd who pd 2 0 0)
def execRidFlush (who : Requester) (pd : PD) (port : RPort) (s : State) : Host.Outcome State Fault Refusal :=
  .next (s.xlateCmd who pd 3 port.val 0)

/-- CMDQ_DOORBELL: any value. -/
def execCmdqDoorbell (who : Requester) (ring : RingId) (value : Word) (s : State) : Host.Outcome State Fault Refusal :=
  .next (s.busWrite who (cmdqPage ring) 0x13C value)

/-- CMDQ_ENABLE: BLK_CTRL.ENABLE of the ring, FENCE as it stands. -/
def execCmdqEnable (who : Requester) (ring : RingId) (on : Bool) (s : State) : Host.Outcome State Fault Refusal :=
  .next (s.busWrite who (cmdqPage ring) 0x008 (BitVec.ofNat 32 (b2n on + b2n (s.flag (cmdqPage ring) Reg.BLK_CTRL_FENCE) * 4)))

/-- CMDQ_FLUSH: CMDQ_CTRL.FLUSH. -/
def execCmdqFlush (who : Requester) (ring : RingId) (s : State) : Host.Outcome State Fault Refusal :=
  .next (s.busWrite who (cmdqPage ring) 0x100 1)

/-- HART_RUN: CPUCL_HART_CTRL.RUNc. -/
def execHartRun (who : Requester) (pd : PD) (core : Fin 2) (s : State) : Host.Outcome State Fault Refusal :=
  .next (s.busWrite who (diePage .cpucl pd) 0x100 (BitVec.ofNat 32 (2 ^ core.val)))

/-- CPUCL_CMD_NONE. -/
def execCpuclCmdNone (who : Requester) (pd : PD) (s : State) : Host.Outcome State Fault Refusal :=
  .next (s.busWrite who (diePage .cpucl pd) 0x110 0x100)

/-- REMOVE: of a core of the die. -/
def execRemove (who : Requester) (pd : PD) (core : Fin 2) (s : State) : Host.Outcome State Fault Refusal :=
  .next (s.busWrite who (diePage .cpucl pd) 0x110 (BitVec.ofNat 32 (0x101 + core.val * 16)))

/-- MSI_SEND: CPUCL_MSI_SEND. -/
def execMsiSend (who : Requester) (pd : PD) (value : Word) (s : State) : Host.Outcome State Fault Refusal :=
  .next (s.busWrite who (diePage .cpucl pd) 0x128 value)

/-- APLIC_ACCESS: a write or a read of CPUCL_APLIC_DATA. -/
def execAplicAccess (who : Requester) (pd : PD) (write : Option Word) (s : State) : Host.Outcome State Fault Refusal :=
  match write with
  | some v => .next (s.busWrite who (diePage .cpucl pd) 0x134 v)
  | none => .next (s.readReply who (diePage .cpucl pd) 0x134)

/-- HOME_LOOKUP: a write of HOME_LOOKUP_HI. -/
def execHomeLookup (who : Requester) (pd : PD) (hi : Word) (s : State) : Host.Outcome State Fault Refusal :=
  .next (s.busWrite who (diePage .home pd) 0x110 hi)

/-- JP_TRAIN: JP_CTRL.TRAIN. -/
def execJpTrain (who : Requester) (port : JPort) (s : State) : Host.Outcome State Fault Refusal :=
  .next (s.busWrite who (jportPage port) 0x100 (s.withField (jportPage port) Reg.JP_CTRL_TRAIN 1))

/-- LP_REQ_WRITE: JP_CTRL.LP_REQ. -/
def execLpReqWrite (who : Requester) (port : JPort) (on : Bool) (s : State) : Host.Outcome State Fault Refusal :=
  .next (s.busWrite who (jportPage port) 0x100 (s.withField (jportPage port) Reg.JP_CTRL_LP_REQ (b2n on)))

/-- FORCE_DOWN_WRITE: JP_CTRL.FORCE_DOWN. -/
def execForceDownWrite (who : Requester) (port : JPort) (on : Bool) (s : State) : Host.Outcome State Fault Refusal :=
  .next (s.busWrite who (jportPage port) 0x100 (s.withField (jportPage port) Reg.JP_CTRL_FORCE_DOWN (b2n on)))

/-- FORM_GO: JP_FORM.GO. -/
def execFormGo (who : Requester) (port : JPort) (s : State) : Host.Outcome State Fault Refusal :=
  .next (s.busWrite who (jportPage port) 0x11C 1)

/-- DISSOLVE: JP_FORM.DISSOLVE. -/
def execDissolve (who : Requester) (port : JPort) (s : State) : Host.Outcome State Fault Refusal :=
  .next (s.busWrite who (jportPage port) 0x11C 2)

end Sys2Proof.Machine
end

