-- ==== Sys2Proof/Machine/MgmtOps.lean ====
section
/-!
DEFINITION. The management sideband: the endpoint, sensors, effecters, events and FRU data
(spec/23_pcie_management.md R621 to R625, spec/24_clocks_bringup.md R645). Layouts of messages are those of the DMTF
standards that R622 names (log entry 36).
-/
namespace Sys2Proof.Machine

def State.setMgmt (s : State) (f : MgmtSt → MgmtSt) : State := { s with mgmt := f s.mgmt }

/-- The SMBus target address, and I3C static address (R621). -/
def State.targetAddr (s : State) : Nat := 0x40 + s.dies.boardId.toNat

/-- A command reaches the endpoint on a bus (R622, R625): from stage 1 on, on the bus used first; on I3C once it has a dynamic
address. -/
def State.mctp (s : State) (i3c : Bool) (f : State → State × List Byte) : State :=
  if !s.boot.rmRuns || s.mgmt.bus == some (!i3c) || (i3c && s.mgmt.dynAddr.isNone) then s
  else
    let (t, bs) := f (s.setMgmt fun m => { m with bus := some i3c })
    { t with reply := some (.bytes bs) }

/-- A reading that changes nothing. -/
def State.mctpGet (s : State) (i3c : Bool) (f : State → List Byte) : State := s.mctp i3c fun t => (t, f t)

/-! Sensors (R623). -/

/-- A numeric sensor: its data size code, its bytes, whether the part is up, and whether it has and meets a critical
threshold. -/
structure NumSensor where
  size : Nat
  bytes : List Byte
  up : Bool
  thr : Bool := false
  crit : Bool := false

/-- A temperature part is up. -/
def State.tempUp (s : State) (id : Nat) : Bool :=
  if id = 4 then (List.finRange 56).any fun p => s.role p != .off
  else if id = 5 then !s.fullDies.isEmpty && s.place.ready
  else if id < 72 then s.role (pdOf (id - 16)) != .off
  else if id < 136 then s.isFull (pdOf (id - 80)) && s.flag (diePage .nstack (pdOf (id - 80))) Reg.NS_STAT_TRAINED
  else
    let p := diePage .fchan (pdOf (bondF.getD (id - 144) 0))
    s.present p && s.flag p Reg.FCHAN_TEMP_SENSOR_VALID

def State.numSensor (s : State) (id : Nat) : Option NumSensor :=
  if id = 1 then some { size := 4, bytes := leBytes (s.fld rmPage Reg.RM_PKG_POWER_P1MS) 4, up := true }
  else if id = 2 then some { size := 4, bytes := leBytes (s.fld rmPage Reg.RM_PKG_POWER_P1S) 4, up := true }
  else if id = 3 then some { size := 4, bytes := leBytes (s.reg64 rmPage 0x114 / 1000000) 4, up := true }
  else if id = 4 ∨ id = 5 ∨ (16 ≤ id ∧ id ≤ 71) ∨ (80 ≤ id ∧ id ≤ 135) ∨ (144 ≤ id ∧ id ≤ 167) then
    some { size := 1, bytes := leBytes (s.tempSensor id).1 1, up := s.tempUp id, thr := true, crit := s.sensorCrit id }
  else none

/-- A state sensor: whether the part is up, and its state. -/
def State.stateSensor (s : State) (id : Nat) : Option (Bool × Nat) :=
  if id = 200 then some (true, s.fld rmPage Reg.RM_STAT_STOP_CAUSE)
  else if id = 201 then some (true, s.fw.state)
  else if 202 ≤ id ∧ id ≤ 205 then some (s.present (rpPage (id - 202)), s.fld (rpPage (id - 202)) Reg.PRP_STAT_STATE)
  else if 206 ≤ id ∧ id ≤ 213 then some (s.present (jpPage (id - 206)), s.jpState (id - 206))
  else if id = 214 then some (true, b2n (!s.boot.pins.coolantN))
  else if id = 215 then some (true, s.stage)
  else none

def State.readNumeric (s : State) (id : Nat) : List Byte :=
  match s.numSensor id with
  | none => [0x80]
  | some x =>
    let st := if !x.up then 0 else if x.crit then 9 else 1
    [0x00] ++ leBytes x.size 1 ++ leBytes (if x.up then 0 else 2) 1 ++ leBytes (if x.thr then 2 else 0) 1 ++ leBytes st 1 ++ leBytes st 1 ++
      leBytes st 1 ++ (if x.up then x.bytes else List.replicate x.bytes.length 0)

def State.readState (s : State) (id : Nat) : List Byte :=
  match s.stateSensor id with
  | none => [0x80]
  | some (up, v) => [0x00, 0x01] ++ leBytes (if up then 0 else 2) 1 ++ leBytes (if up then v else 0) 1 ++ leBytes (if up then v else 0) 1 ++
      leBytes (if up then v else 0) 1

/-! Effecters (R623, R645). -/

def State.setNumEffecter (s : State) (id v : Nat) : State × List Byte :=
  if id = 300 then
    if 1000 ≤ v ∧ v ≤ 5400 then (s.setFld rmPage Reg.RM_PEAK_CAP_WATTS v, [0x00]) else (s, [0x02])
  else if id = 301 then
    if 1000 ≤ v ∧ v ≤ s.fld rmPage Reg.RM_PEAK_CAP_WATTS then (s.setFld rmPage Reg.RM_SUST_CAP_WATTS v, [0x00]) else (s, [0x02])
  else (s, [0x80])

def State.getNumEffecter (s : State) (id : Nat) : List Byte :=
  let ans (v : Nat) : List Byte := [0x00, 0x02, 0x01] ++ leBytes v 2 ++ leBytes v 2
  if id = 300 then ans (s.fld rmPage Reg.RM_PEAK_CAP_WATTS)
  else if id = 301 then ans (s.fld rmPage Reg.RM_SUST_CAP_WATTS)
  else [0x80]

/-- A state effecter is set: the ratio limit, the emergency stop, the power requests. request: false leaves it. -/
def State.setStateEffecter (s : State) (id : Nat) (request : Bool) (v : Nat) : State × List Byte :=
  if id < 302 ∨ 304 < id then (s, [0x80])
  else if !request then (s, [0x00])
  else if id = 302 then
    if v = 0 then (s.setFlag rmPage Reg.RM_CTRL_FORCE_EN false, [0x00])
    else if v ≤ 4 then ((s.setFlag rmPage Reg.RM_CTRL_FORCE_EN true).setFld rmPage Reg.RM_CTRL_FORCE (v - 1), [0x00])
    else (s, [0x02])
  else if id = 303 then (if v = 1 then ((s.setFlag rmPage Reg.RM_CTRL_STOP_REQ true).stopBegin 5 0 0, [0x00]) else (s, [0x02]))
  else if v = 1 then (s.onRequest, [0x00])
  else if v = 2 then (s.offRequest, [0x00])
  else (s, [0x02])

def State.getStateEffecter (s : State) (id : Nat) : List Byte :=
  let ans (v : Nat) : List Byte := [0x00, 0x01, 0x01] ++ leBytes v 1 ++ leBytes v 1
  if id = 302 then ans (if s.flag rmPage Reg.RM_CTRL_FORCE_EN then s.fld rmPage Reg.RM_CTRL_FORCE + 1 else 0)
  else if id = 303 then ans (b2n (s.flag rmPage Reg.RM_CTRL_STOP_REQ))
  else if id = 304 then ans (if s.flag tbPage Reg.TB_PWR_REQ_ON then 1 else if s.flag tbPage Reg.TB_PWR_REQ_OFF then 2 else 0)
  else [0x80]

/-! Events (R624). -/

/-- The oldest event leaves the list; ALERT_N is released once none is pending. -/
def State.dropEvent (s : State) : State :=
  let l := s.mgmt.events.tail
  let s1 := s.setMgmt fun m => { m with events := l, overflow := false }
  if l.isEmpty then s1.setPins fun p => { p with alert := false } else s1

/-- The data of a sensor event. -/
def PlatEvent.data (e : PlatEvent) : List Byte :=
  if e.state then leBytes e.sensor 2 ++ [0x01, 0x00] ++ leBytes e.now 1 ++ leBytes e.was 1
  else leBytes e.sensor 2 ++ [0x02] ++ leBytes (if e.sensor < 200 ∧ 3 < e.sensor then 9 else 0) 1 ++ leBytes 1 1 ++ [0x01] ++ leBytes e.now 1

/-- The answer to a poll: the oldest event, with the overflow indication where an event was lost before it. -/
def State.pollEvent (s : State) : List Byte :=
  match s.mgmt.events with
  | [] => [0x00] ++ leBytes s.mgmt.tid 1 ++ leBytes 0 2
  | e :: _ => [0x00] ++ leBytes s.mgmt.tid 1 ++ leBytes (if s.mgmt.overflow then 0xFFFF else 1) 2 ++ leBytes 0 4 ++ [0x05, 0x00] ++
      leBytes e.data.length 4 ++ e.data

/-! PDRs and FRU data (R622). -/

/-- CRC-8 of the polynomial x^8 + x^2 + x + 1. -/
def crc8 (bs : List Byte) : Nat :=
  bs.foldl (fun c b => (List.range 8).foldl (fun (v : Nat) _ => if bitOf v 7 then (2 * v % 256).xor 7 else 2 * v % 256) (c.xor b.toNat)) 0

def pdrInfo : List Byte :=
  [0x00, 0x00] ++ (List.range 26).map Config.pdrTimes ++ leBytes Config.pdrs.length 4 ++ leBytes ((Config.pdrs.map List.length).foldl (· + ·) 0) 4 ++
    leBytes ((Config.pdrs.map List.length).foldl max 0) 4 ++ [0x00]

/-- One part of a PDR: the first (opFlag 1), or from an offset on. -/
def pdrPart (handle off : Nat) (first : Bool) (count : Nat) : List Byte :=
  let h := if handle = 0 then 1 else handle
  match Config.pdrs[h - 1]? with
  | none => [0x82]
  | some r =>
    let o := if first then 0 else off
    if o ≠ 0 ∧ r.length ≤ o then [0x80]
    else
      let d := (r.drop o).take count
      let last := decide (r.length ≤ o + d.length)
      let flag := if o = 0 then (if last then 5 else 0) else if last then 4 else 1
      [0x00] ++ leBytes (if h < Config.pdrs.length then h + 1 else 0) 4 ++ leBytes (if last then 0 else o + d.length) 4 ++ leBytes flag 1 ++
        leBytes d.length 2 ++ d ++ (if flag = 4 then leBytes (crc8 r) 1 else [])

/-- The FRU table: one general record with part number, serial number and stepping from the IDENTITY record (R652). -/
def State.fruTable (s : State) : List Byte :=
  let id := s.store.cur.identity
  let fld (ty : Nat) (v : List Byte) : List Byte := leBytes ty 1 ++ leBytes v.length 1 ++ v
  leBytes 1 2 ++ [0x01, 0x03, 0x01] ++ fld 3 ((id.drop 16).take 16) ++ fld 4 (id.take 16) ++ fld 10 ((id.drop 32).take 1)

/-- PLDM types answered. -/
def pldmType (ty : Nat) : Bool := ty == 0 || ty == 2 || ty == 4

/-- The commands answered of a PLDM type, as bits. -/
def pldmCommands (ty : Nat) : Nat :=
  let bits (l : List Nat) : Nat := l.foldl (fun v i => v + 2 ^ i) 0
  if ty = 0 then bits [1, 2, 3, 4, 5]
  else if ty = 2 then bits [0x04, 0x0B, 0x11, 0x21, 0x31, 0x32, 0x39, 0x3A, 0x50, 0x51]
  else bits [1, 2]

end Sys2Proof.Machine
end

