-- ==== Sys2Proof/Machine/Mgmt.lean ====
section
/-!
DEFINITION. The commands of the management sideband (spec/23_pcie_management.md R621 to R625).
-/
namespace Sys2Proof.Machine

/-- SMBUS_ALERT_RESPONSE: while this device asserts ALERT_N it answers with its target address. -/
def execSmbusAlertResponse (s : State) : Host.Outcome State Fault Refusal :=
  if s.boot.pins.alert && s.mgmt.bus != some true then .next { s with reply := some (.bytes (leBytes (2 * s.targetAddr) 1)) } else .next s

/-- SETDASA: the dynamic address from the static one. -/
def execSetdasa (static dyn : BitVec 7) (s : State) : Host.Outcome State Fault Refusal :=
  if !s.boot.rmRuns || s.mgmt.bus == some false || static.toNat != s.targetAddr || s.mgmt.dynAddr.isSome then .next s
  else .next (s.setMgmt fun m => { m with dynAddr := some dyn.toNat, bus := some true })

/-- ENTDAA: a dynamic address through arbitration, where the device has none. -/
def execEntdaa (dyn : BitVec 7) (s : State) : Host.Outcome State Fault Refusal :=
  if !s.boot.rmRuns || s.mgmt.bus == some false || s.mgmt.dynAddr.isSome then .next s
  else .next (s.setMgmt fun m => { m with dynAddr := some dyn.toNat, bus := some true })

/-- SET_ENDPOINT_ID: operations 0 and 1 set it; 0 and 0xFF are no endpoint IDs. -/
def execSetEndpointId (i3c : Bool) (op : BitVec 2) (eid : Byte) (s : State) : Host.Outcome State Fault Refusal :=
  .next (s.mctp i3c fun t =>
    if op.toNat < 2 ∧ eid ≠ 0 ∧ eid ≠ 0xFF then (t.setMgmt fun m => { m with eid := eid.toNat }, [0x00, 0x00, eid, 0x00]) else (t, [0x02]))

/-- GET_ENDPOINT_ID: a simple endpoint with a dynamic endpoint ID. -/
def execGetEndpointId (i3c : Bool) (s : State) : Host.Outcome State Fault Refusal :=
  .next (s.mctpGet i3c fun t => [0x00] ++ leBytes t.mgmt.eid 1 ++ [0x00, 0x00])

/-- GET_ENDPOINT_UUID. -/
def execGetEndpointUuid (i3c : Bool) (s : State) : Host.Outcome State Fault Refusal :=
  .next (s.mctpGet i3c fun _ => [0x00] ++ (List.range 16).map Config.uuid)

/-- GET_MCTP_VERSION_SUPPORT: MCTP base and control 1.3; another type than 0, 1 and 0xFF is not supported. -/
def execGetMctpVersionSupport (i3c : Bool) (ty : Byte) (s : State) : Host.Outcome State Fault Refusal :=
  .next (s.mctpGet i3c fun _ =>
    if ty = 0xFF ∨ ty = 0 then [0x00, 0x01, 0xF1, 0xF3, 0xFF, 0x00]
    else if ty = 1 then [0x00, 0x01] ++ leBytes Config.pldmMctp.toNat 4
    else [0x80])

/-- GET_MESSAGE_TYPE_SUPPORT: control and PLDM. -/
def execGetMessageTypeSupport (i3c : Bool) (s : State) : Host.Outcome State Fault Refusal :=
  .next (s.mctpGet i3c fun _ => [0x00, 0x02, 0x00, 0x01])

/-- GETTID. -/
def execGettid (i3c : Bool) (s : State) : Host.Outcome State Fault Refusal :=
  .next (s.mctpGet i3c fun t => [0x00] ++ leBytes t.mgmt.tid 1)

/-- SETTID: 0 and 0xFF are no terminus IDs. -/
def execSettid (i3c : Bool) (tid : Byte) (s : State) : Host.Outcome State Fault Refusal :=
  .next (s.mctp i3c fun t => if tid = 0 ∨ tid = 0xFF then (t, [0x02]) else (t.setMgmt fun m => { m with tid := tid.toNat }, [0x00]))

/-- GETPLDMVERSION: one part with its CRC-32. -/
def execGetpldmversion (i3c : Bool) (opFlag ty : Byte) (s : State) : Host.Outcome State Fault Refusal :=
  .next (s.mctpGet i3c fun _ =>
    if !pldmType ty.toNat then [0x83]
    else if opFlag ≠ 1 then [0x80]
    else
      let v := leBytes (Config.pldmVersion ty.toNat).toNat 4
      [0x00] ++ leBytes 0 4 ++ [0x05] ++ v ++ leBytes (crc32 v) 4)

/-- GETPLDMTYPES: base, platform monitoring and control, FRU data. -/
def execGetpldmtypes (i3c : Bool) (s : State) : Host.Outcome State Fault Refusal :=
  .next (s.mctpGet i3c fun _ => [0x00] ++ leBytes 0x15 8)

/-- GETPLDMCOMMANDS. -/
def execGetpldmcommands (i3c : Bool) (ty : Byte) (version : Word) (s : State) : Host.Outcome State Fault Refusal :=
  .next (s.mctpGet i3c fun _ =>
    if !pldmType ty.toNat then [0x83]
    else if version ≠ Config.pldmVersion ty.toNat then [0x84]
    else [0x00] ++ leBytes (pldmCommands ty.toNat) 32)

/-- GET_SENSOR_READING. -/
def execGetSensorReading (i3c : Bool) (id : Half) (s : State) : Host.Outcome State Fault Refusal :=
  .next (s.mctpGet i3c fun t => t.readNumeric id.toNat)

/-- GET_STATE_SENSOR_READINGS. -/
def execGetStateSensorReadings (i3c : Bool) (id : Half) (s : State) : Host.Outcome State Fault Refusal :=
  .next (s.mctpGet i3c fun t => t.readState id.toNat)

/-- SET_NUMERIC_EFFECTER_VALUE: a power cap. -/
def execSetNumericEffecterValue (i3c : Bool) (id : Half) (value : Word) (s : State) : Host.Outcome State Fault Refusal :=
  .next (s.mctp i3c fun t => t.setNumEffecter id.toNat value.toNat)

/-- GET_NUMERIC_EFFECTER_VALUE. -/
def execGetNumericEffecterValue (i3c : Bool) (id : Half) (s : State) : Host.Outcome State Fault Refusal :=
  .next (s.mctpGet i3c fun t => t.getNumEffecter id.toNat)

/-- SET_STATE_EFFECTER_STATES. -/
def execSetStateEffecterStates (i3c : Bool) (id : Half) (request : Bool) (value : Byte) (s : State) : Host.Outcome State Fault Refusal :=
  .next (s.mctp i3c fun t => t.setStateEffecter id.toNat request value.toNat)

/-- GET_STATE_EFFECTER_STATES. -/
def execGetStateEffecterStates (i3c : Bool) (id : Half) (s : State) : Host.Outcome State Fault Refusal :=
  .next (s.mctpGet i3c fun t => t.getStateEffecter id.toNat)

/-- GET_PDR_REPOSITORY_INFO. -/
def execGetPdrRepositoryInfo (i3c : Bool) (s : State) : Host.Outcome State Fault Refusal := .next (s.mctpGet i3c fun _ => pdrInfo)

/-- GET_PDR. -/
def execGetPdr (i3c : Bool) (handle transfer : Word) (opFlag : Byte) (count : Half) (s : State) : Host.Outcome State Fault Refusal :=
  .next (s.mctpGet i3c fun _ => pdrPart handle.toNat transfer.toNat (opFlag == 1) count.toNat)

/-- SET_EVENT_RECEIVER: 0 none, 1 messages are sent to the receiver, 2 it polls. -/
def execSetEventReceiver (i3c : Bool) (enable transport address : Byte) (s : State) : Host.Outcome State Fault Refusal :=
  .next (s.mctp i3c fun t =>
    if transport ≠ 0 then (t, [0x80])
    else if 2 < enable.toNat then (t, [0x81])
    else (t.setMgmt fun m => { m with receiver := if enable = 1 then some address.toNat else none }, [0x00]))

/-- POLL_FOR_PLATFORM_EVENT_MESSAGE: the oldest pending event is collected. -/
def execPollForPlatformEventMessage (i3c : Bool) (s : State) : Host.Outcome State Fault Refusal :=
  .next (s.mctp i3c fun t => (if t.mgmt.events.isEmpty then t else t.dropEvent, t.pollEvent))

/-- PLATFORM_EVENT_ACCEPTED: the receiver accepts the message of the oldest event. -/
def execPlatformEventAccepted (s : State) : Host.Outcome State Fault Refusal :=
  if s.mgmt.receiver.isSome && !s.mgmt.events.isEmpty then .next s.dropEvent else .next s

/-- GET_FRU_RECORD_TABLE_METADATA. -/
def execGetFruRecordTableMetadata (i3c : Bool) (s : State) : Host.Outcome State Fault Refusal :=
  .next (s.mctpGet i3c fun t =>
    let n := t.fruTable.length
    [0x00, 0x01, 0x00] ++ leBytes n 4 ++ leBytes n 4 ++ leBytes 1 2 ++ leBytes 1 2 ++ leBytes (crc32 t.fruTable) 4)

/-- GET_FRU_RECORD_TABLE: the table in one part, padded to 4 bytes, with its CRC-32. -/
def execGetFruRecordTable (i3c : Bool) (s : State) : Host.Outcome State Fault Refusal :=
  .next (s.mctpGet i3c fun t =>
    let b := t.fruTable
    let pad := b ++ List.replicate ((4 - b.length % 4) % 4) 0
    [0x00] ++ leBytes 0 4 ++ [0x05] ++ pad ++ leBytes (crc32 pad) 4)

end Sys2Proof.Machine
end

