-- ==== Sys2Proof/Machine/Pcie.lean ====
section
/-!
DEFINITION. The commands of the PCIe root ports that reach no register (spec/23_pcie_management.md R605 to R617).
-/
namespace Sys2Proof.Machine

/-- The port's link is up, so that TLPs arrive. -/
def State.linkUp (s : State) (n : RPort) : Bool := s.present (rportPage n) && s.portUp n.val

/-- A posted write to the doorbell page: requester table first, then the MSI (R610). -/
def State.inMsi (s : State) (n rid : Nat) (at_ : Bool) (addr len data : Nat) : State :=
  match s.ridLookup n rid at_ with
  | (.error e, s1) => s1.inXlateFail n rid 0 addr false e
  | (.ok _, s1) => s1.msiWrite n rid addr len data

/-- PCIE_INBOUND: a memory TLP passes the requester table, the doorbell page, translation and the homes; kinds that are not
supported are answered UR or discarded, a request that crosses 4 KiB is malformed. corr: correctable link events. -/
def execPcieInbound (port : RPort) (rid : Half) (at_ : Bool) (kind : InTlp) (addr : DWord) (err : TierFail) (corr : Byte) (s0 : State) :
    Host.Outcome State Fault Refusal :=
  if !s0.linkUp port then .next s0
  else
    let n := port.val
    let a := addr.toNat
    let s := if corr = 0 then s0 else s0.bump (rportPage port) Reg.PRP_CORR_COUNT corr.toNat
    match kind with
    | .unsupported posted => .next ((if posted then s else s.sendTlp ⟨n, .cplUr, a, 0, []⟩).aerLog n 20)
    | .read len =>
      if 4096 < a % 4096 + len.val then .next (s.aerLog n 18)
      else
        match s.ridLookup n rid.toNat at_ with
        | (.error e, s1) => .next ((s1.sendTlp ⟨n, .cplUr, a, 0, []⟩).inXlateFail n rid.toNat 0 a true e)
        | (.ok (ctx, ro), s1) => .next (s1.inMemory n rid.toNat ctx a ro kind err)
    | .write len data _ =>
      if 4096 < a % 4096 + len.val then .next (s.aerLog n 18)
      else if s.doorbell n a then .next (s.inMsi n rid.toNat at_ a len.val (data.toNat % 2 ^ 32))
      else
        match s.ridLookup n rid.toNat at_ with
        | (.error e, s1) => .next (s1.inXlateFail n rid.toNat 0 a false e)
        | (.ok (ctx, ro), s1) => .next (s1.inMemory n rid.toNat ctx a ro kind err)

/-- PCIE_MSI: a posted write at an address of the doorbell page. -/
def execPcieMsi (port : RPort) (rid : Half) (at_ : Bool) (addr : DWord) (len : Fin 513) (data : Word) (s : State) :
    Host.Outcome State Fault Refusal :=
  if s.linkUp port && s.doorbell port.val addr.toNat then .next (s.inMsi port.val rid.toNat at_ addr.toNat len.val data.toNat)
  else .next s

/-- PCIE_INTX: the message is discarded and counted. -/
def execPcieIntx (port : RPort) (s : State) : Host.Outcome State Fault Refusal :=
  if s.linkUp port then .next (s.bump (rportPage port) Reg.PRP_INTX_DROP_COUNT) else .next s

/-- PCIE_OUTBOUND: a hart's access to a window. -/
def execPcieOutbound (h : HartId) (va : DWord) (op : HartOp) (addr : BitVec 52) (size : Fin 65) (data : DWord) (s : State) :
    Host.Outcome State Fault Refusal :=
  match windowPort addr.toNat with
  | some n =>
    if (s.hart h.val).state = .running ∧ h.val < s.hartCount then
      .next (s.hartWindow h.val va op n addr.toNat size.val (leBytes data.toNat size.val))
    else .next s
  | none => .next s

/-- PCIE_COMPLETION: the completion of a hart's outbound request arrives. -/
def execPcieCompletion (port : RPort) (h : HartId) (write : Bool) (st : CplSt) (data : DWord) (s : State) :
    Host.Outcome State Fault Refusal :=
  match s.npOf port.val h.val write with
  | some q => .next (s.npComplete q st data)
  | none => .next s

/-- PCIE_CPL_TIMEOUT: no completion within PRP_CPL_TMO. -/
def execPcieCplTimeout (port : RPort) (h : HartId) (write : Bool) (s : State) : Host.Outcome State Fault Refusal :=
  match s.npOf port.val h.val write with
  | some q =>
    let s1 := (s.npDrop q).winTimeout port.val q.addr
    .next (if write then s1 else s1.hartFault h.val (BitVec.ofNat 64 q.va) q.addr 0x11 0)
  | none => .next s

/-- PCIE_LINK_UP: training reaches UP at a rate and width. -/
def execPcieLinkUp (port : RPort) (speed : Fin 6) (width : Fin 5) (flit : Bool) (s : State) : Host.Outcome State Fault Refusal :=
  let p := rportPage port
  let st := s.fld p Reg.PRP_STAT_STATE
  if !s.present p || (s.linkHeld port.val).isSome || !(st == 1 || st == 3) then .next s
  else
    let w := 2 ^ width.val
    let s1 := ((((s.setLink port.val 2).setFld p Reg.PRP_STAT_SPEED speed.val).setFld p Reg.PRP_STAT_WIDTH w).setFlag p Reg.PRP_STAT_FLIT
      flit).setInt p 1
    .next (if w < 16 ∨ speed.val < 5 then s1.report p 5 (speed.val + w * 2 ^ 4) else s1)

/-- PCIE_LINK_DOWN: the link leaves DL_Active, or DPC triggers. -/
def execPcieLinkDown (port : RPort) (dpc : Bool) (s : State) : Host.Outcome State Fault Refusal :=
  if s.linkUp port then .next (s.linkLost port.val (b2n dpc)) else .next s

/-- ENDPOINT_ERROR_MESSAGE: an error or PME message is recorded; an error may trigger DPC as its control enables. -/
def execEndpointErrorMessage (port : RPort) (msg : EpMsg) (s : State) : Host.Outcome State Fault Refusal :=
  if !s.linkUp port then .next s
  else
    let n := port.val
    let r := s.rport n
    let trig := (s.cfgByte n (Config.dpcOff + 6)).toNat % 4
    match msg with
    | .correctable => .next ((s.setRport n { r with rootErr := r.rootErr ||| 1 }).rpEvent n)
    | .pme => .next ((s.setRport n { r with pme := true }).rpEvent n)
    | .nonFatal =>
      let s1 := (s.setRport n { r with rootErr := r.rootErr ||| 0x24 }).rpEvent n
      .next (if trig = 2 then s1.linkLost n 1 else s1)
    | .fatal =>
      let s1 := (s.setRport n { r with rootErr := r.rootErr ||| 0x44 }).rpEvent n
      .next (if trig = 1 ∨ trig = 2 then s1.linkLost n 1 else s1)

end Sys2Proof.Machine
end

