-- ==== Sys2Proof/Machine/Place.lean ====
section
/-!
DEFINITION. The commands of the placement agents: requests, zero fills, exchanges, tier answers, decay and hints
(spec/11_memory_placement.md).
-/
namespace Sys2Proof.Machine

/-- A double-bit error in an entry: rebuilt from the reverse maps and the engine's copy (R312). -/
def State.rebuildEntry (s : State) (f : Nat) : State :=
  let e := s.entry f
  let s1 := s.setEntry f { e with
    owner := 0, zmap := 0, frozen := false, pin := false, keep := false, count := 0, prefLd := 0 }
  (s1.report (s.agentPage f) 5 f).setInt (s.agentPage f) 4

/-- AGENT_REQUEST: a request reaches the agent of its frame. entryUe: its entry reads with a double-bit error. A request
for no backed frame is not routable (R29) and reaches no agent. -/
def execAgentRequest (r : AReq) (entryUe : Bool) (s : State) : Host.Outcome State Fault Refusal :=
  .next (if s.place.ready && !decide (aFrame r < s.place.frames) then s
    else if s.place.ready && entryUe then (s.rebuildEntry (aFrame r)).agentTake r
    else s.agentTake r)

/-- ZERO_FILL_DONE: the chunk's ZMAP bit clears and the waiting writes are performed in arrival order. A fill that meets
the commit phase of its chunk ends after it. -/
def execZeroFillDone (frame : BitVec 22) (chunk : Fin 32) (s : State) : Host.Outcome State Fault Refusal :=
  let f := frame.toNat
  match s.place.fills.find? (fun z => z.frame == f && z.chunk == chunk.val) with
  | none => .next s
  | some z =>
    if (s.entry f).route (f * 2 ^ 14 + chunk.val * 512) = .buffer then .next s
    else
      let s1 := s.zeroFill f chunk.val
      let s2 := s1.setPlace { s1.place with fills := s1.place.fills.filter fun y => !(y.frame == f && y.chunk == chunk.val) }
      .next (z.waiting.foldl State.routeReq s2)

/-- A frame taken from a queue still meets its conditions (R305). -/
def State.promotable (s : State) (ld f : Nat) (hint : Bool) : Bool :=
  let e := s.entry f
  e.tier && !e.exchanging && !e.pin && (hint || s.flag (s.ldPage .place ld) Reg.PLACE_CFG_MIG_EN)

/-- The first frame of a queue that still meets its conditions, and the queue behind it. -/
def State.takeFrame (s : State) (ld : Nat) (hint : Bool) : List Nat → Option Nat × List Nat
  | [] => (none, [])
  | f :: fs => if s.promotable ld f hint then (some f, fs) else s.takeFrame ld hint fs

/-- VICTIM_SCAN: a free engine of a die takes the head of the hint queue, else of the promotion queue, and the target
die's agent scans for a victim. -/
def execVictimScan (ld : LD) (eng : Fin 4) (s : State) : Host.Outcome State Fault Refusal :=
  let k := ld.val * 4 + eng.val
  let p := s.ldPage .place ld.val
  if s.fld p Reg.PLACE_CFG_ENGINES < eng.val ∨ (s.engine k).isSome then .next s
  else
    let (h, hq) := s.takeFrame ld.val true (mget (fun _ => []) s.place.hintQ ld.val)
    let s1 := (s.setPlace { s.place with hintQ := mput (fun _ => []) s.place.hintQ ld.val hq }).setFld p Reg.PLACE_STAT_HINTQ_OCC hq.length
    match h with
    | some a => .next (s1.scan k a true false)
    | none =>
      let (c, pq) := s1.takeFrame ld.val false (mget (fun _ => []) s1.place.promoQ ld.val)
      let s2 := (s1.setPlace { s1.place with promoQ := mput (fun _ => []) s1.place.promoQ ld.val pq }).setFld p
        Reg.PLACE_STAT_PROMQ_OCC pq.length
      match c with
      | some a => .next (s2.scan k a false false)
      | none => .next s2

/-- EXCHANGE_CLAIM: both frames become EXCHANGING, or the claim fails and the scan is made once more. -/
def execExchangeClaim (ld : LD) (eng : Fin 4) (s : State) : Host.Outcome State Fault Refusal :=
  let k := ld.val * 4 + eng.val
  match s.engine k with
  | none => .next s
  | some g =>
    if g.phase ≠ .scanned then .next s
    else if !(s.eligible g.a false && s.eligible g.b true) then
      .next (if g.rescanned then s.setEngine k none else s.scan k g.a g.hint true)
    else
      let ea := s.entry g.a
      let eb := s.entry g.b
      let claim (s : State) (f other : Nat) (dst : PEntry) : State :=
        let e := s.entry f
        s.setEntry f { e with
          exchanging := true, partner := other, ntier := dst.tier, nunit := dst.unit, nslot := dst.slot, moved := 0
          flightValid := false, flight := 0 }
      let s1 := claim (claim s g.a g.b eb) g.b g.a ea
      .next (s1.exchangeFrom k g 32 0)

/-- A forwarded request to a chunk of a frame has not been performed yet. -/
def State.chunkBusy (s : State) (f k : Nat) : Bool :=
  s.place.fwd.any fun w => w.answer.isNone && aFrame w.req == f && chunkOfLine w.req.line.toNat == k

/-- One line of a chunk is read into its buffer; uncorrectable data is marked poisoned (R301). -/
def State.captureLine (s : State) (ld f k : Nat) (bad : Bool) (b : EngBuf) (i : Nat) : EngBuf × State :=
  let e := s.entry f
  let line := slotLine e.tier e.unit e.slot (k * 512 + i)
  let (dead, bs, s1) :=
    if s.locFailed (line * 128) then (true, List.replicate 128 (0 : Byte), s) else s.readLine line (if bad then .ue else .none)
  let b' : EngBuf := { b with
    bytes := mputs (fun _ => 0) b.bytes (i * 128) bs
    poison := mput (fun _ => false) b.poison i dead }
  let p := s.ldPage .place ld
  if dead then (b', (s1.bump p Reg.PLACE_MIG_POISON_COUNT).reportOpen p 3) else (b', s1)

/-- The 512 lines of a chunk at a controller, which carry no context (R579). -/
def State.actExchange (s : State) (tierF : Bool) (line : Nat) : State :=
  s.actAdd (s.ctlPage (line * 128)).pd none (if tierF then 6 else 5) 512

/-- One side of a chunk is captured, if it is live. -/
def State.captureSide (s : State) (ld f k : Nat) (bad : List Nat) : EngBuf × State :=
  if bitOf (s.entry f).zmap k then ({}, s)
  else
    (List.range 512).foldl (fun (b, t) i => t.captureLine ld f k (bad.contains i) b i) ({ live := true }, s.actExchange (s.entry f).tier (slotLine (s.entry f).tier (s.entry f).unit (s.entry f).slot 0))

/-- CAPTURE_DONE: the live sides of the chunk are in the buffers and COMMIT begins; bad names the lines of A (false) and
B (true) that read uncorrectable. A chunk that is live on neither side any more is skipped. -/
def execCaptureDone (ld : LD) (eng : Fin 4) (bad : List (Bool × Fin 512)) (s : State) : Host.Outcome State Fault Refusal :=
  let k := ld.val * 4 + eng.val
  match s.engine k with
  | none => .next s
  | some g =>
    if g.phase ≠ .capture ∨ s.chunkBusy g.a g.k ∨ s.chunkBusy g.b g.k then .next s
    else if bitOf (s.entry g.a).zmap g.k && bitOf (s.entry g.b).zmap g.k then .next (s.exchangeFrom k g (32 - g.k) g.k)
    else
      let lines (side : Bool) := (bad.filter fun x => x.1 == side).map fun x => x.2.val
      let (ba, s1) := s.captureSide ld.val g.a g.k (lines false)
      let (bb, s2) := s1.captureSide ld.val g.b g.k (lines true)
      let fly (s : State) (f : Nat) : State := s.setEntry f { s.entry f with flightValid := true, flight := g.k }
      .next ((fly (fly s2 g.a) g.b).setEngine k (some { g with phase := .commit, bufA := ba, bufB := bb, retried := false }))

/-- A captured side is written to its new slot, poisoned lines with poison (R295, R301). -/
def State.commitSide (s : State) (f k : Nat) (b : EngBuf) : State :=
  let e := s.entry f
  if !b.live || s.locFailed (slotLine e.ntier e.nunit e.nslot 0 * 128) then s
  else
    (List.range 512).foldl (fun t i =>
      let (dead, bs) := b.read i
      let line := slotLine e.ntier e.nunit e.nslot (k * 512 + i)
      let t1 := t.writeLine line fullMask bs .none
      if dead then t1.arrayWrite line bs true else t1) (s.actExchange e.ntier (slotLine e.ntier e.nunit e.nslot 0))

/-- Held writes of a chunk are performed at the new slot, in arrival order (R298). -/
def State.releaseHeld (s : State) (g : Engine) : State :=
  let mine (r : AReq) : Bool := (aFrame r == g.a || aFrame r == g.b) && chunkOfLine r.line.toNat == g.k
  let due := s.place.held.filter mine
  (due.foldl State.placeReq (s.setPlace { s.place with held := s.place.held.filter fun r => !mine r })).wakeWaiting

/-- COMMIT_CHUNK_DONE: the commit writes are performed, MOVED is set, held writes go on, and the next live chunk is
captured or the exchange finishes. -/
def execCommitChunkDone (ld : LD) (eng : Fin 4) (s : State) : Host.Outcome State Fault Refusal :=
  let k := ld.val * 4 + eng.val
  match s.engine k with
  | none => .next s
  | some g =>
    if g.phase ≠ .commit then .next s
    else
      let s1 := (s.commitSide g.a g.k g.bufA).commitSide g.b g.k g.bufB
      let s2 := s1.markMoved g g.k
      .next ((s2.exchangeFrom k g (31 - g.k) (g.k + 1)).releaseHeld g)

/-- HELD_WRITE_TIMEOUT: 2 us have passed since the held write arrived; it is applied to the buffer and counts as
performed. A write to a never-written chunk goes on waiting for MOVED. -/
def execHeldWriteTimeout (tag : Half) (s : State) : Host.Outcome State Fault Refusal :=
  match s.place.held.find? (fun r => r.tag == tag) with
  | none => .next s
  | some r =>
    if bitOf (s.entry (aFrame r)).zmap (chunkOfLine r.line.toNat) then .next s
    else
      let s1 := s.bufWrite (aFrame r) r.line.toNat r.mask.toNat (aBytes r)
      let s2 := s1.setPlace { s1.place with held := s1.place.held.filter fun x => x.tag != tag }
      .next (((s2.bump (s.agentPage (aFrame r)) Reg.PLACE_WR_HELD_TMO_COUNT).answer tag.toNat 0 []).wakeWaiting)

/-- A request brings its rank out of precharge power-down (R384). -/
def State.wakeRank (s : State) (loc : Nat) : State :=
  if locIsF loc then
    let c := locUnit loc
    let f := s.faddr c (locAddr loc)
    s.setChan c { s.chan c with powerDown := mput (fun _ => false) (s.chan c).powerDown (f.dimm * 2 + f.rank) false }
  else s

/-- A forwarded request is performed by its controller, in arrival order for its line (R339, R370). -/
def State.perform (s : State) (tierF : Bool) (tag : Half) (err : MemErr) : State :=
  match s.place.fwd.find? (fun w => w.req.tag == tag && w.answer.isNone) with
  | none => s
  | some w =>
    let first := (s.place.fwd.find? (fun x => x.loc == w.loc && x.answer.isNone)).map (·.req.tag)
    let wait := if tierF then s.fld (s.ctlPage w.loc) Reg.FCHAN_STAT_STATE != 2 && !s.locFailed w.loc
      else s.inWindow (locUnit w.loc)
    if locIsF w.loc != tierF || first != some tag || wait then s
    else
      let s := (s.wakeRank w.loc).actAdd (s.ctlPage w.loc).pd (some w.req.ctx.toNat) (if tierF then 6 else 5) 1
      let fin (s : State) (a : Nat × List Byte) : State := s.setPlace { s.place with fwd := s.place.fwd.map fun x =>
        if x.req.tag == tag && x.answer.isNone then { x with answer := some a } else x }
      if aWrites w.req then
        fin (if s.locFailed w.loc then s else s.writeLine (w.loc / 128) w.req.mask.toNat (aBytes w.req) err) (0, [])
      else if s.locFailed w.loc then fin s (0x11, [])
      else
        let (bad, bs, s1) := s.readLine (w.loc / 128) err
        fin s1 (if bad then (0x10, []) else (0, bs))

/-- NSTACK_REQUEST: the stack's controller performs the forwarded request with this tag. -/
def execNstackRequest (tag : Half) (err : MemErr) (s : State) : Host.Outcome State Fault Refusal :=
  .next (s.perform false tag err)

/-- FCHAN_REQUEST: the channel's controller performs the forwarded request with this tag; a FAILED channel ends reads with
TIER_TIMEOUT and discards writes (R377). -/
def execFchanRequest (tag : Half) (err : MemErr) (s : State) : Host.Outcome State Fault Refusal :=
  .next (s.perform true tag err)

/-- Ends a forwarded request. -/
def State.dropFwd (s : State) (tag : Half) : State :=
  s.setPlace { s.place with fwd := s.place.fwd.filter fun w => w.req.tag != tag }

/-- TIER_RESPONSE: a performed request ends with its answer. -/
def execTierResponse (tag : Half) (s : State) : Host.Outcome State Fault Refusal :=
  match s.place.fwd.find? (fun w => w.req.tag == tag && w.answer.isSome) with
  | some w =>
    let (code, bs) := w.answer.getD (0, [])
    let s1 := s.dropFwd tag
    let s2 := if code = 0 then s1 else s1.tierErr (aFrame w.req) w.req.line.toNat (code == 0x11)
    .next (s2.answer tag.toNat code bs)
  | none => .next s

/-- TIER_TIMEOUT: a forwarded request ends with TIER_TIMEOUT, and the bytes of a write are undefined; or the commit
writes of an engine are retried, counted each time and recorded once. -/
def execTierTimeout (target : TmoTarget) (s : State) : Host.Outcome State Fault Refusal :=
  match target with
  | .request tag =>
    match s.place.fwd.find? (fun w => w.req.tag == tag) with
    | some w =>
      let s1 := ((s.dropFwd tag).tierErr (aFrame w.req) w.req.line.toNat true).answer tag.toNat 0x11 []
      if aWrites w.req && !s.locFailed w.loc then
        let undef := (List.range 128).map (Config.freeByte s.freeCtr)
        .next ((s1.writeLine (w.loc / 128) w.req.mask.toNat undef .none).nextFree)
      else .next s1
    | none => .next s
  | .commit ld eng =>
    let k := ld.val * 4 + eng.val
    match s.engine k with
    | some g =>
      if g.phase ≠ .commit then .next s
      else
        let p := s.ldPage .place ld.val
        let s1 := (s.bump p Reg.PLACE_TIER_TMO_COUNT).setInt p 2
        let s2 := if g.retried then s1 else s1.reportOpen p 4
        .next (s2.setEngine k (some { g with retried := true }))
    | none => .next s

/-- COUNT_DECAY: the entry at the index of the beat count has its COUNT halved (R303). -/
def execCountDecay (ld : LD) (index : Fin 131072) (s : State) : Host.Outcome State Fault Refusal :=
  let f := index.val * s.place.ldies + ld.val
  if ld.val < s.place.ldies ∧ f < s.place.frames then
    let e := s.entry f
    .next (s.setEntry f { e with count := e.count / 2 })
  else .next s

/-- HINT_PROMOTE: Carousel's PROMOTE hint reaches the holding agent. -/
def execHintPromote (frame : BitVec 22) (ld : LD) (until_ : Word) (s : State) : Host.Outcome State Fault Refusal :=
  if frame.toNat < s.place.frames then .next (s.hinted frame.toNat fun t => t.hintPromote frame.toNat ld.val until_.toNat) else .next s

/-- HINT_KEEP: KEEP and KEEP_UNTIL are set. -/
def execHintKeep (frame : BitVec 22) (until_ : Word) (s : State) : Host.Outcome State Fault Refusal :=
  if frame.toNat < s.place.frames then .next (s.hinted frame.toNat fun t => t.hintKeep frame.toNat until_.toNat) else .next s

/-- HINT_DEMOTE: COUNT becomes 0 and KEEP clears. -/
def execHintDemote (frame : BitVec 22) (s : State) : Host.Outcome State Fault Refusal :=
  if frame.toNat < s.place.frames then .next (s.hinted frame.toNat fun t => t.hintDemote frame.toNat) else .next s

end Sys2Proof.Machine
end

