-- ==== Sys2Proof/Machine/RegRows.lean ====
section
/-!
DEFINITION. The commands of the page header and of any register (spec/00_scope.md R6, spec/02_register_pages.md R42 to R64).
A register is named by its page and its number, offset ÷ 4.
-/
namespace Sys2Proof.Machine

/-- REGISTER_WRITE: a 32-bit write of any register. -/
def execRegisterWrite (who : Requester) (p : Page) (reg : Fin 1024) (value : Word) (s : State) : Host.Outcome State Fault Refusal :=
  .next (s.busWrite who p (4 * reg.val) value)

/-- ABSENT_PAGE_ACCESS: a write, or a read answered to its requester. -/
def execAbsentPageAccess (who : Requester) (p : Page) (reg : Fin 1024) (write : Option Word) (s : State) :
    Host.Outcome State Fault Refusal :=
  match write with
  | some v => .next (s.busWrite who p (4 * reg.val) v)
  | none => .next (s.readReply who p (4 * reg.val))

/-- LO_WRITE: a write of the _LO half of a pair. -/
def execLoWrite (who : Requester) (p : Page) (reg : Fin 1024) (value : Word) (s : State) : Host.Outcome State Fault Refusal :=
  .next (s.busWrite who p (4 * reg.val) value)

/-- HI_WRITE: a write of the _HI half of a pair. -/
def execHiWrite (who : Requester) (p : Page) (reg : Fin 1024) (value : Word) (s : State) : Host.Outcome State Fault Refusal :=
  .next (s.busWrite who p (4 * reg.val) value)

/-- LO_READ: a read of the _LO half of a pair. -/
def execLoRead (who : Requester) (p : Page) (reg : Fin 1024) (s : State) : Host.Outcome State Fault Refusal :=
  .next (s.readReply who p (4 * reg.val))

/-- HI_READ: a read of the _HI half of a pair. -/
def execHiRead (who : Requester) (p : Page) (reg : Fin 1024) (s : State) : Host.Outcome State Fault Refusal :=
  .next (s.readReply who p (4 * reg.val))

/-- BLK_SYNC_READ: every write that arrived before is performed (R50). -/
def execBlkSyncRead (who : Requester) (p : Page) (s : State) : Host.Outcome State Fault Refusal := .next (s.readReply who p 0x01C)

/-- The outcome of a pending write is undefined (R51): the plain fields of its register hold undefined values, and a
write of BLK_STAT or of an interrupt register of the header had an undefined value. -/
def State.pendingLost (s : State) (p : Page) (off : Nat) : State :=
  if off = 0x00C ∨ off = 0x010 ∨ off = 0x014 ∨ off = 0x018 then
    (s.headerWrite p (.debug 0) off (Config.freeWord s.freeCtr off)).nextFree
  else if off < 0x100 then s
  else (s.storeFields p off false (fieldsAt p.blk off) (Config.freeNat s.freeCtr off 32)).nextFree

/-- The time-out of a BLK_SYNC read: recorded, and the page waits for a soft reset. -/
def State.syncTimeout (s : State) (who : Requester) (p : Page) (pend : List Nat) : State :=
  let s1 := pend.foldl (fun (t : State) off => t.pendingLost p off) s
  let s2 := (s1.setPage p { s1.page p with wedged := true }).headerError p 4 0x01C who 0
  { s2 with reply := some (.word (BitVec.ofNat 32 (s.fld p Reg.BLK_SYNC_WRITE_COUNT + 2 ^ 31))) }

/-- SYNC_TIMEOUT: 10 µs pass with the writes of the registers in pend not performed. -/
def execSyncTimeout (who : Requester) (p : Page) (pend : List (Fin 1024)) (s : State) : Host.Outcome State Fault Refusal :=
  let q := normPage p
  if !s.present q || readOnlyPage q.blk then .next (s.readReply who p 0x01C)
  else .next (s.syncTimeout who q (pend.map fun r => 4 * r.val))

/-- BLK_CTRL as it stands, with ENABLE and FENCE. -/
def State.ctrlWord (s : State) (p : Page) : Nat := b2n (s.flag p Reg.BLK_CTRL_ENABLE) + b2n (s.flag p Reg.BLK_CTRL_FENCE) * 4

/-- ENABLE_WRITE: BLK_CTRL.ENABLE, FENCE as it stands. -/
def execEnableWrite (who : Requester) (p : Page) (on : Bool) (s : State) : Host.Outcome State Fault Refusal :=
  .next (s.busWrite who p 0x008 (BitVec.ofNat 32 (withBits (s.ctrlWord (normPage p)) 0 1 (b2n on))))

/-- SOFT_RESET: BLK_CTRL.SOFT_RESET, the rest as it stands. -/
def execSoftReset (who : Requester) (p : Page) (s : State) : Host.Outcome State Fault Refusal :=
  .next (s.busWrite who p 0x008 (BitVec.ofNat 32 (withBits (s.ctrlWord (normPage p)) 1 1 1)))

/-- SOFT_RESET_DONE: the reset of a page completes. -/
def execSoftResetDone (p : Page) (s : State) : Host.Outcome State Fault Refusal := .next (s.softResetDone (normPage p))

/-- FENCE_WRITE: BLK_CTRL.FENCE, ENABLE as it stands. -/
def execFenceWrite (who : Requester) (p : Page) (on : Bool) (s : State) : Host.Outcome State Fault Refusal :=
  .next (s.busWrite who p 0x008 (BitVec.ofNat 32 (withBits (s.ctrlWord (normPage p)) 2 1 (b2n on))))

/-- BLK_INT_SET_WRITE: causes set for test. -/
def execBlkIntSetWrite (who : Requester) (p : Page) (bits : Word) (s : State) : Host.Outcome State Fault Refusal :=
  .next (s.busWrite who p 0x018 bits)

/-- BLK_LOCK_WRITE: a step of the unlock sequence. -/
def execBlkLockWrite (who : Requester) (p : Page) (value : Word) (s : State) : Host.Outcome State Fault Refusal :=
  .next (s.busWrite who p 0x040 value)

end Sys2Proof.Machine
end

