-- ==== Sys2Proof/Machine/Regulator.lean ====
section
/-!
DEFINITION. The board regulators (spec/25_package_signals.md R676, R677). Rails: VCORE PG0 to PG7 are 0 to 7, then VSRAM,
VDRAM, VPP, VIO_F, VSER, VAUX.
-/
namespace Sys2Proof.Machine

/-- An event for which the spec names no number: number and DATA are free values (log entry 10). -/
def State.reportAny (s : State) (p : Page) : State :=
  (s.report p (Config.freeNat s.freeCtr 1 8) (Config.freeDWord s.freeCtr 0).toNat).nextFree

/-- A read that a regulator misses, answers wrongly or answers with a fault; the tenth in a row at stage 2 or later is
recorded. -/
def State.railMiss (s : State) (r : Nat) : State :=
  if s.stage < 2 then s
  else
    let n := min 10 (mget (fun _ => 0) s.power.misses r + 1)
    let s1 := { s with power := { s.power with misses := mput (fun _ => 0) s.power.misses r n } }
    if n = 10 ∧ mget (fun _ => 0) s.power.misses r < 10 then (s1.reportAny rmPage).alertCause else s1

/-- REGULATOR_POLL: a rail's output power in mW, none where the regulator does not answer; fault: its STATUS_WORD reports
one. -/
def execRegulatorPoll (rail : Fin 14) (mw : Option (BitVec 24)) (fault : Bool) (s : State) : Host.Outcome State Fault Refusal :=
  if !s.boot.rmRuns then .next s
  else
    match mw, fault with
    | some w, false =>
      .next { s with power := { s.power with
        misses := mput (fun _ => 0) s.power.misses rail.val 0
        lastGood := mput (fun _ => 0) s.power.lastGood rail.val w.toNat } }
    | _, _ => .next (s.railMiss rail.val)

/-- PMB_ALERT: every regulator's STATUS_WORD is read; those that report a fault count as missed (R677). -/
def execPmbAlert (faults : List (Fin 14)) (s : State) : Host.Outcome State Fault Refusal :=
  if !s.boot.rmRuns then .next s else .next (faults.foldl (fun (t : State) r => t.railMiss r.val) s)

end Sys2Proof.Machine
end

