-- ==== Sys2Proof/Machine/Tap.lean ====
section
/-!
DEFINITION. The test access ports (spec/26_test_debug.md R685 to R691, R701). A row is a scan of its instruction and of the data
register that the instruction selects; tap: none for the package TAP, a die for its die TAP.
-/
namespace Sys2Proof.Machine

/-- A die TAP in the path: included, with its control partition on, from stage 2 (R685). -/
def State.tapThere (s : State) : Option PD → Bool
  | none => s.boot.vstby
  | some pd => bitOf s.tap.chain pd.val && s.role pd != .off && decide (2 ≤ s.stage)

def State.tapOf (s : State) : Option PD → Tap
  | none => s.tap.pkg
  | some pd => mget (fun _ => {}) s.tap.dies pd.val

def State.setTap (s : State) (tap : Option PD) (t : Tap) : State :=
  match tap with
  | none => { s with tap := { s.tap with pkg := t } }
  | some pd => { s with tap := { s.tap with dies := mput (fun _ => {}) s.tap.dies pd.val t } }

/-- Cells of a boundary register (R664, R690): 16 lands of the management and control set and 6 of the regulator bus set on the
package TAP and on PD55, the 156 signals of a DDR5 channel, PERST_N of a PCIe port. -/
def State.cells (s : State) : Option PD → Nat
  | none => 22
  | some pd =>
    (if bondF.contains pd.val && !s.flag (diePage .dieCfg pd) Reg.DC_F_ABSENT then 156 else 0) + (if bondP.contains pd.val then 1 else 0) +
      (if pd = 55 then 22 else 0)

/-- A TAP with an instruction that leaves every pin and interface in its functional state. -/
def Tap.quiet (t : Tap) (code : Nat) : Tap := { t with ir := code, drives := false, hiz := false, wrapDrives := false, isolated := false }

/-- A scan: the instruction register takes its code, f is the data register's update, and the capture is shifted out. A TAP that
is not in the path sees nothing. -/
def State.tapScan (s : State) (tap : Option PD) (code : Nat) (f : Tap → Tap) (out : List Byte) : State :=
  if s.tapThere tap then { s.setTap tap (f ((s.tapOf tap).quiet code)) with reply := some (.bytes out) } else s

/-- A scan whose pins and update act only in test mode (R691). -/
def State.scanTest (s : State) (tap : Option PD) (code : Nat) (f : Tap → Tap) (out : List Byte) : State :=
  s.tapScan tap code (fun t => if s.boot.testMode then f t else t) out

/-- What a boundary scan captures: the lands' levels, over the cells there are. -/
def State.landBytes (s : State) (tap : Option PD) (lands : BitVec 192) : List Byte :=
  leBytes (lands.toNat % 2 ^ s.cells tap) ((s.cells tap + 7) / 8)

/-- The bypass bit captures 0. -/
def bypassOut : List Byte := [0]

/-- TAP_RESET: TRST_N low holds every TAP in Test-Logic-Reset: IDCODE is selected and nothing is driven. -/
def execTapReset (s : State) : Host.Outcome State Fault Refusal :=
  .next { s with tap := { s.tap with
    pkg := s.tap.pkg.quiet 3
    dies := s.tap.dies.foldl (fun (m : List (Nat × Tap)) (x : Nat × Tap) => mput (fun _ => {}) m x.1 (x.2.quiet 3)) [] } }

/-- EXTEST: captures the lands, and in test mode drives them from the boundary register. -/
def execExtest (tap : Option PD) (data lands : BitVec 192) (s : State) : Host.Outcome State Fault Refusal :=
  .next (s.scanTest tap 0 (fun t => { t with bound := data.toNat % 2 ^ s.cells tap, drives := true }) (s.landBytes tap lands))

/-- SAMPLE: captures the lands. -/
def execSample (tap : Option PD) (lands : BitVec 192) (s : State) : Host.Outcome State Fault Refusal :=
  .next (s.tapScan tap 1 id (s.landBytes tap lands))

/-- PRELOAD: loads the boundary register. -/
def execPreload (tap : Option PD) (data : BitVec 192) (s : State) : Host.Outcome State Fault Refusal :=
  .next (s.tapScan tap 2 (fun t => { t with bound := data.toNat % 2 ^ s.cells tap })
    (leBytes ((s.tapOf tap).bound) ((s.cells tap + 7) / 8)))

/-- IDCODE (R687). -/
def execIdcode (tap : Option PD) (s : State) : Host.Outcome State Fault Refusal :=
  .next (s.tapScan tap 3 id (leBytes (if tap.isNone then 0x15A39D97 else 0x15A3AD97) 4))

/-- CLAMP: in test mode the outputs hold what the boundary register says. -/
def execClamp (tap : Option PD) (s : State) : Host.Outcome State Fault Refusal :=
  .next (s.scanTest tap 4 (fun t => { t with drives := true }) bypassOut)

/-- HIGHZ: in test mode the outputs are at high impedance. -/
def execHighz (tap : Option PD) (s : State) : Host.Outcome State Fault Refusal :=
  .next (s.scanTest tap 5 (fun t => { t with hiz := true }) bypassOut)

/-- CHAIN_CFG: die TAPs join or leave the path at Update-DR; a bit of a die that is off stays 0 (R685). -/
def execChainCfg (bits : BitVec 56) (s : State) : Host.Outcome State Fault Refusal :=
  let on (v : Nat) : Nat := (List.finRange 56).foldl (fun n pd => n + b2n (bitOf v pd.val && s.role pd != .off && decide (2 ≤ s.stage)) * 2 ^ pd.val) 0
  if !s.tapThere none then .next s
  else
    let s1 := s.tapScan none 8 id (leBytes (on s.tap.chain) 7)
    .next { s1 with tap := { s1.tap with chain := on bits.toNat } }

/-- DIE_POS: PD [5:0] and the role [7:6]. -/
def execDiePos (pd : PD) (s : State) : Host.Outcome State Fault Refusal :=
  .next (s.tapScan (some pd) 9 id (leBytes (pd.val + s.fld (diePage .dieCfg pd) Reg.DC_ROLE * 2 ^ 6) 1))

/-- TEST_MODE: a 1 sets test mode, in stage 2 before stage 3 begins (R691). -/
def execTestMode (on : Bool) (s : State) : Host.Outcome State Fault Refusal :=
  let s1 := s.tapScan none 0x0A id [BitVec.ofNat 8 (b2n s.boot.testMode)]
  .next (if on && s.tapThere none && s.stage == 2 then s1.setBoot fun b => { b with testMode := true } else s1)

/-- WS_EXTEST: captures the die-to-die and stack interfaces, and in test mode drives them. -/
def execWsExtest (pd : PD) (data lanes : BitVec 4096) (s : State) : Host.Outcome State Fault Refusal :=
  .next (s.scanTest (some pd) 0x10 (fun t => { t with wrap := data.toNat, wrapDrives := true }) (leBytes lanes.toNat 512))

/-- WS_INTEST: in test mode the die's core is isolated. -/
def execWsIntest (pd : PD) (data lanes : BitVec 4096) (s : State) : Host.Outcome State Fault Refusal :=
  .next (s.scanTest (some pd) 0x11 (fun t => { t with wrap := data.toNat, isolated := true }) (leBytes lanes.toNat 512))

/-- WS_PRELOAD: loads the wrapper register. -/
def execWsPreload (pd : PD) (data : BitVec 4096) (s : State) : Host.Outcome State Fault Refusal :=
  .next (s.tapScan (some pd) 0x12 (fun t => { t with wrap := data.toNat }) (leBytes (s.tapOf (some pd)).wrap 512))

/-- WS_BYPASS: the 1-bit wrapper bypass. -/
def execWsBypass (pd : PD) (s : State) : Host.Outcome State Fault Refusal := .next (s.tapScan (some pd) 0x13 id bypassOut)

/-- The codes that a TAP knows (R686). -/
def tapCodes : Option PD → List Nat
  | none => [0, 1, 2, 3, 4, 5, 8, 0x0A, 0x20, 0x21]
  | some _ => [0, 1, 2, 3, 4, 5, 9, 0x10, 0x11, 0x12, 0x13]

/-- BYPASS, and every reserved code: the 1-bit bypass register. -/
def execBypass (tap : Option PD) (code : Byte) (s : State) : Host.Outcome State Fault Refusal :=
  .next (if (tapCodes tap).contains code.toNat then s else s.tapScan tap code.toNat id bypassOut)

/-- DMI: a read (op 1) or a write (op 2) of the debug module (R701). -/
def execDmi (op : BitVec 2) (addr : BitVec 7) (data : Word) (s : State) : Host.Outcome State Fault Refusal :=
  if !s.tapThere none then .next s
  else
    let s1 := s.setTap none ((s.tapOf none).quiet 0x21)
    let a := addr.toNat
    if op = 1 then .next ({ s1 with reply := some (.word (BitVec.ofNat 32 (s1.dmRead a))) }.dmAuto a)
    else if op = 2 then .next ((s1.dmWrite a data.toNat).dmAuto a)
    else .next s1

end Sys2Proof.Machine
end

