-- ==== Sys2Proof/Machine/SysReg.lean ====
section
/-!
DEFINITION. Register writes with rows of their own: the event log, the Ringmaster, root ports, clocks, the persistent store
and debug, and register accesses of the test port (spec/20_fault_containment.md R547, spec/21_power_thermal.md R585,
spec/23_pcie_management.md R619, spec/24_clocks_bringup.md R659, R660, spec/26_test_debug.md R694, R703).
-/
namespace Sys2Proof.Machine

/-- EVENT_FETCH: a write of EV_RD_SEQ_HI. -/
def execEventFetch (who : Requester) (hi : Word) (s : State) : Host.Outcome State Fault Refusal :=
  .next (s.busWrite who evPage 0x124 hi)

/-- STOP_REQ: RM_CTRL.STOP_REQ. -/
def execStopReq (who : Requester) (s : State) : Host.Outcome State Fault Refusal :=
  .next (s.busWrite who rmPage 0x100 (s.withField rmPage Reg.RM_CTRL_STOP_REQ 1))

/-- RM_CMD with GO. -/
def State.rmCmd (s : State) (who : Requester) (cmd : Nat) : State := s.busWrite who rmPage 0x134 (BitVec.ofNat 32 (cmd + 4))

def execRmCmdNone (who : Requester) (s : State) : Host.Outcome State Fault Refusal := .next (s.rmCmd who 0)
def execFracCommit (who : Requester) (s : State) : Host.Outcome State Fault Refusal := .next (s.rmCmd who 1)
def execFracDefault (who : Requester) (s : State) : Host.Outcome State Fault Refusal := .next (s.rmCmd who 2)

/-- RM_MODE_WRITE: RM_CTRL.MODE, without STOP_REQ. -/
def execRmModeWrite (who : Requester) (on : Bool) (s : State) : Host.Outcome State Fault Refusal :=
  .next (s.busWrite who rmPage 0x100 (s.withField rmPage Reg.RM_CTRL_MODE (b2n on) &&& 0xFFFFFFBF))

/-- PERST_ASSERT_WRITE: PRP_CTRL.PERST_ASSERT. -/
def execPerstAssertWrite (who : Requester) (port : RPort) (on : Bool) (s : State) : Host.Outcome State Fault Refusal :=
  .next (s.busWrite who (rportPage port) 0x100 (s.withField (rportPage port) Reg.PRP_CTRL_PERST_ASSERT (b2n on)))

/-- PRP_RETRAIN: PRP_CTRL.RETRAIN. -/
def execPrpRetrain (who : Requester) (port : RPort) (s : State) : Host.Outcome State Fault Refusal :=
  .next (s.busWrite who (rportPage port) 0x100 (s.withField (rportPage port) Reg.PRP_CTRL_RETRAIN 1))

/-- LINK_DISABLE_WRITE: PRP_CTRL.LINK_DISABLE. -/
def execLinkDisableWrite (who : Requester) (port : RPort) (on : Bool) (s : State) : Host.Outcome State Fault Refusal :=
  .next (s.busWrite who (rportPage port) 0x100 (s.withField (rportPage port) Reg.PRP_CTRL_LINK_DISABLE (b2n on)))

def execPrpCmdNone (who : Requester) (port : RPort) (s : State) : Host.Outcome State Fault Refusal :=
  .next (s.busWrite who (rportPage port) 0x128 4)

/-- MSI_FLUSH: PRP_CMD with GO. -/
def execMsiFlush (who : Requester) (port : RPort) (s : State) : Host.Outcome State Fault Refusal :=
  .next (s.busWrite who (rportPage port) 0x128 5)

/-- SYS_RESET_REQ: TB_CTRL.SYS_RESET_REQ. -/
def execSysResetReq (who : Requester) (s : State) : Host.Outcome State Fault Refusal := .next (s.busWrite who tbPage 0x128 1)

/-- POWER_ON_REQUEST: TB_PWR_REQ.ON, or PLDM state effecter 304 value 1 where no requester writes it (R645). -/
def execPowerOnRequest (who : Option Requester) (s : State) : Host.Outcome State Fault Refusal :=
  match who with
  | some w => .next (s.busWrite w tbPage 0x124 1)
  | none => .next s.onRequest

/-- POWER_OFF_REQUEST: TB_PWR_REQ.OFF, or effecter 304 value 2. -/
def execPowerOffRequest (who : Option Requester) (s : State) : Host.Outcome State Fault Refusal :=
  match who with
  | some w => .next (s.busWrite w tbPage 0x124 2)
  | none => .next s.offRequest

/-- SYNC_FIRE: TB_SYNC_CTRL.FIRE. -/
def execSyncFire (who : Requester) (s : State) : Host.Outcome State Fault Refusal :=
  .next (s.busWrite who tbPage 0x10C (s.withField tbPage Reg.TB_SYNC_CTRL_FIRE 1))

/-- PS_CMD with GO. -/
def State.psCmd (s : State) (who : Requester) (cmd arg : Nat) : State :=
  s.busWrite who psPage 0x108 (BitVec.ofNat 32 (cmd + 16 + arg * 256))

def execPsCmdNone (who : Requester) (s : State) : Host.Outcome State Fault Refusal := .next (s.psCmd who 0 0)
def execCommit (who : Requester) (s : State) : Host.Outcome State Fault Refusal := .next (s.psCmd who 1 0)
def execUpdateImage (who : Requester) (s : State) : Host.Outcome State Fault Refusal := .next (s.psCmd who 2 0)
def execUpdateCfg (who : Requester) (s : State) : Host.Outcome State Fault Refusal := .next (s.psCmd who 3 0)
def execRevoke (who : Requester) (mask : Byte) (s : State) : Host.Outcome State Fault Refusal := .next (s.psCmd who 4 mask.toNat)
def execClearKind (who : Requester) (kind : Byte) (s : State) : Host.Outcome State Fault Refusal := .next (s.psCmd who 5 kind.toNat)
def execReadRecord (who : Requester) (s : State) : Host.Outcome State Fault Refusal := .next (s.psCmd who 6 0)

/-! Register accesses of the test port (R694). -/

/-- The captured REG_ACCESS register: status, address and data of the last access. -/
def State.raBytes (s : State) : List Byte := leBytes (s.tap.raStatus + s.tap.raAddr + s.tap.raData.toNat * 2 ^ 48) 10

/-- An access of the chain as the debug block of PD0; none: a read. -/
def State.regAccess (s : State) (addr : Nat) (write : Option Word) : State :=
  let s1 := s.tapScan none 0x20 id s.raBytes
  let set (t : State) (st : Nat) (w : Word) : State := { t with tap := { t.tap with raStatus := st, raAddr := addr, raData := w } }
  match s1.decodeReg addr, write with
  | none, _ => set s1 2 s1.tap.raData
  | some (p, off), some v => set (s1.busWrite (.debug 0) p off v) 0 s1.tap.raData
  | some (p, off), none =>
    let (w, s2) := s1.busRead (.debug 0) p off
    set s2 0 w

/-- REG_ACCESS_READ: addr is the register address [47:2]. -/
def execRegAccessRead (addr : BitVec 46) (s : State) : Host.Outcome State Fault Refusal :=
  if s.tapThere none then .next (s.regAccess (addr.toNat * 4) none) else .next s

/-- REG_ACCESS_WRITE, with the BLK_SYNC read that the block makes itself. -/
def execRegAccessWrite (addr : BitVec 46) (data : Word) (s : State) : Host.Outcome State Fault Refusal :=
  if s.tapThere none then .next (s.regAccess (addr.toNat * 4) (some data)) else .next s

/-! Debug (R695 to R699). -/

def execDbgHalt (who : Requester) (pd : PD) (s : State) : Host.Outcome State Fault Refusal := .next (s.busWrite who (dbgPage pd) 0x108 1)
def execDbgResume (who : Requester) (pd : PD) (s : State) : Host.Outcome State Fault Refusal := .next (s.busWrite who (dbgPage pd) 0x108 2)
def execDbgStep (who : Requester) (pd : PD) (s : State) : Host.Outcome State Fault Refusal := .next (s.busWrite who (dbgPage pd) 0x108 4)

/-- DBG_TS_VALUE_WRITE. -/
def execDbgTsValueWrite (who : Requester) (pd : PD) (value : Word) (s : State) : Host.Outcome State Fault Refusal :=
  .next (s.busWrite who (dbgPage pd) 0x114 value)

/-- DBG_MEM_READ: DBG_MEM_CMD with OP read and GO; err: what the tier makes of the access. -/
def execDbgMemRead (who : Requester) (pd : PD) (err : TierFail) (s : State) : Host.Outcome State Fault Refusal :=
  .next (s.busWrite who (dbgPage pd) 0x12C 5 err)

/-- DBG_MEM_WRITE: DBG_MEM_CMD with OP write and GO. -/
def execDbgMemWrite (who : Requester) (pd : PD) (err : TierFail) (s : State) : Host.Outcome State Fault Refusal :=
  .next (s.busWrite who (dbgPage pd) 0x12C 6 err)

/-- DBG_RB_SEL_WRITE. -/
def execDbgRbSelWrite (who : Requester) (pd : PD) (value : Word) (s : State) : Host.Outcome State Fault Refusal :=
  .next (s.busWrite who (dbgPage pd) 0x170 value)

end Sys2Proof.Machine
end

