-- ==== Sys2Proof/Machine/TierF.lean ====
section
/-!
DEFINITION. The commands of the DDR5 channel controllers (spec/14_tier_f_ddr5.md R370 to R386).
-/
namespace Sys2Proof.Machine

/-- FCHAN_STAT.STATE. -/
def State.chanState (s : State) (c : FChan) : Nat := s.fld (fchanPage c) Reg.FCHAN_STAT_STATE

/-- The channel enters FAILED (R377): its buffered writes are discarded. -/
def State.chanFail (s : State) (c : FChan) : State :=
  let p := fchanPage c
  let s1 := (s.setFld p Reg.FCHAN_STAT_STATE 4).setWcb (locF c.val 0) []
  ((s1.reportOpen p 5).setInt p 7).histAdd 7 p.pd.val c.val 0 0

/-- A retrain begins (R376); the eighth within a second fails the channel (R377). -/
def State.retrain (s : State) (c : FChan) : State :=
  let p := fchanPage c
  let now := s.clock.time.toNat
  let st := s.chan c.val
  let recent := st.retrainAt.filter (fun t => decide (now < t + 100000000)) ++ [now]
  let s1 := s.setChan c.val { st with replays := 0, retrainAt := recent }
  let s2 := ((((s1.setFld p Reg.FCHAN_STAT_STATE 3).bump p Reg.FCHAN_RETRAINS_COUNT)).reportOpen p 4).setInt p 6
  if 8 ≤ recent.length then s2.chanFail c else s2

/-- FCHAN_WCB_AGE_RETIRE: an idle entry retires by read-modify-write, unless a retrain makes it wait. -/
def execFchanWcbAgeRetire (c : FChan) (addr : BitVec 38) (err : MemErr) (s : State) : Host.Outcome State Fault Refusal :=
  let line := locF c.val addr.toNat / 128
  if s.retireWait (line * 128) then .next s else .next (s.retireLine line err)

/-- FCHAN_ALERT: the commands are replayed, counted by their cause; cleared: the replay cleared the alert. The fifth in a
row that does not starts a retrain. -/
def execFchanAlert (c : FChan) (crc cleared : Bool) (s : State) : Host.Outcome State Fault Refusal :=
  let p := fchanPage c
  if s.chanState c ≠ 2 then .next s
  else
    let s1 := s.bump p (if crc then Reg.FCHAN_CRC_RETRY_COUNT else Reg.FCHAN_CAPAR_RETRY_COUNT)
    let st := s.chan c.val
    if cleared then .next (s1.setChan c.val { st with replays := 0 })
    else if 5 ≤ st.replays + 1 then .next (s1.retrain c)
    else .next (s1.setChan c.val { st with replays := st.replays + 1 })

/-- Every entry of a channel's buffer retires, oldest first. -/
def State.drainWcb (s : State) (c : FChan) : State :=
  (s.wcb (chanKey (locF c.val 0))).foldl (fun t e => t.retireLine e.line .none) s

/-- FCHAN_RETRAIN_DONE: the channel returns to READY and drains its buffered writes; a second failure in a row fails it. -/
def execFchanRetrainDone (c : FChan) (ok : Bool) (s : State) : Host.Outcome State Fault Refusal :=
  let p := fchanPage c
  let st := s.chan c.val
  if s.chanState c ≠ 3 then .next s
  else if ok then .next (((s.setFld p Reg.FCHAN_STAT_STATE 2).setChan c.val { st with failedRetrains := 0 }).drainWcb c)
  else if 2 ≤ st.failedRetrains + 1 then .next (s.chanFail c)
  else .next ((s.setChan c.val { st with failedRetrains := st.failedRetrains + 1 }).retrain c)

/-- FCHAN_REFRESH: the rank's refresh timer: with demand pending up to 4 refreshes are postponed, then all are issued. -/
def execFchanRefresh (c : FChan) (rank : Fin 4) (demand : Bool) (s : State) : Host.Outcome State Fault Refusal :=
  let st := s.chan c.val
  let n := mget (fun _ => 0) st.postponed rank.val
  let n' := if demand && decide (n < 4) then n + 1 else 0
  .next (s.setChan c.val { st with postponed := mput (fun _ => 0) st.postponed rank.val n' })

/-- FCHAN_TEMP_READ: a reading of the DIMM sensors, or none where it failed. -/
def execFchanTempRead (c : FChan) (temp : Option (BitVec 8)) (s : State) : Host.Outcome State Fault Refusal :=
  let p := fchanPage c
  let st := s.chan c.val
  match temp with
  | none =>
    let s1 := s.setChan c.val { st with sensorMiss := st.sensorMiss + 1 }
    if st.sensorMiss + 1 = 3 then
      let s2 := (s1.setFlag p Reg.FCHAN_TEMP_SENSOR_VALID false).reportOpen p 10
      .next (if s.flag p Reg.FCHAN_STAT_REF_2X then s2 else (s2.setFlag p Reg.FCHAN_STAT_REF_2X true).setInt p 3)
    else .next s1
  | some v =>
    let t := v.toInt
    let hot := signedOf (s.fld p Reg.FCHAN_THERM_HOT_LIMIT) 8
    let s1 := ((s.setChan c.val { st with sensorMiss := 0 }).setFld p Reg.FCHAN_TEMP_TDIMM v.toNat).setFlag p
      Reg.FCHAN_TEMP_SENSOR_VALID true
    let s2 := if 85 < t ∧ !s.flag p Reg.FCHAN_STAT_REF_2X then (s1.setFlag p Reg.FCHAN_STAT_REF_2X true).setInt p 3
      else if t ≤ 82 then s1.setFlag p Reg.FCHAN_STAT_REF_2X false else s1
    let s3 := if hot < t ∧ !s.flag p Reg.FCHAN_STAT_THROTTLE then (s2.setFlag p Reg.FCHAN_STAT_THROTTLE true).setInt p 4
      else if t ≤ hot - 5 then s2.setFlag p Reg.FCHAN_STAT_THROTTLE false else s2
    .next ((if 95 ≤ t ∧ !s.flag p Reg.FCHAN_STAT_CRIT then
        ((s3.setFlag p Reg.FCHAN_STAT_CRIT true).setInt p 5).reportOpen p 9
      else s3).dimmSeen s c.val)

/-- FCHAN_POWER_DOWN: a rank idle for 256 cycles enters precharge power-down where PD_EN allows it. -/
def execFchanPowerDown (c : FChan) (rank : Fin 4) (s : State) : Host.Outcome State Fault Refusal :=
  let st := s.chan c.val
  if s.flag (fchanPage c) Reg.FCHAN_CFG_PD_EN then
    .next (s.setChan c.val { st with powerDown := mput (fun _ => false) st.powerDown rank.val true })
  else .next s

/-- FCHAN_SCRUB: the patrol scrubber reads the line at its position; a corrected line is written back corrected, an
uncorrectable one as poison, and a finished pass starts anew. -/
def execFchanScrub (c : FChan) (err : MemErr) (s : State) : Host.Outcome State Fault Refusal :=
  let p := fchanPage c
  let lines := s.fld p Reg.FCHAN_SPEED_CAP_GIB * 2 ^ 23
  if !s.flag p Reg.FCHAN_CFG_SCRUB_EN || s.chanState c != 2 || lines == 0 then .next s
  else
    let pos := s.fld p Reg.FCHAN_SCRUB_POS_LINE
    let (_, s1) := s.decodeLine (locF c.val 0 / 128 + pos) err
    if lines ≤ pos + 1 then
      .next ((((s1.setFld p Reg.FCHAN_SCRUB_POS_LINE 0).bump p Reg.FCHAN_SCRUB_PASSES_COUNT).setFld p Reg.FCHAN_SCRUB_AGE_SECONDS
        0).setFlag p Reg.FCHAN_STAT_SCRUB_PRIO false)
    else .next (s1.setFld p Reg.FCHAN_SCRUB_POS_LINE (pos + 1))

/-- FCHAN_SCRUB_PRIORITY: the pass is not complete after 24 h. -/
def execFchanScrubPriority (c : FChan) (s : State) : Host.Outcome State Fault Refusal :=
  let p := fchanPage c
  if s.flag p Reg.FCHAN_STAT_SCRUB_PRIO || !s.flag p Reg.FCHAN_CFG_SCRUB_EN then .next s
  else .next ((((s.setFlag p Reg.FCHAN_STAT_SCRUB_PRIO true).bump p Reg.FCHAN_SCRUB_PRIO_COUNT).setInt p 9).reportOpen p 8)

/-- F_DEV_CE_DECAY: every device's corrected count of the channel is halved. -/
def execFDevCeDecay (c : FChan) (s : State) : Host.Outcome State Fault Refusal :=
  let st := s.chan c.val
  .next (s.setChan c.val { st with devCe := st.devCe.foldl (fun m (k, n) => mput (fun _ => 0) m k (n / 2)) st.devCe })

end Sys2Proof.Machine
end

