-- ==== Sys2Proof/Machine/TierN.lean ====
section
/-!
DEFINITION. The commands of the stack controllers: retirement, refresh, windows, steals, temperature and decay
(spec/13_tier_n_stacked_dram.md R345 to R363).
-/
namespace Sys2Proof.Machine

def nsPage (s : State) (ld : Nat) : Page := s.ldPage .nstack ld

/-- Beats of a 160 ns refresh at the current ratio (R356). -/
def refreshBeats (ratio : Nat) : Nat := match ratio with | 0 => 192 | 1 => 154 | 2 => 128 | _ => 96

/-- Beats of a microsecond at a ratio (R242). -/
def beatsPerUs (ratio : Nat) : Nat := match ratio with | 0 => 1200 | 1 => 960 | 2 => 800 | _ => 600

/-- A window of the running step on die ld that begins at this beat (R218, R225). -/
def State.windowNow (s : State) (ld : Nat) : Option MaintWin :=
  match s.sched.image, s.curDesc with
  | some i, some d =>
    ((i.maint.drop d.mwFirst).take d.mwCount).find? fun w => (w.ld == ld || w.ld == 0xFF) && w.begin_ == s.sched.beat
  | _, _ => none

/-- NS_STAT.DEBT shows the debt. -/
def State.setDebt (s : State) (ld : Nat) (d : Int) : State :=
  (s.setStack ld { s.stack ld with debt := d }).setFld (nsPage s ld) Reg.NS_STAT_DEBT (if d < 0 then (256 + d).toNat else d.toNat)

/-- Lines of a stack. -/
def stackLines : Nat := 2 ^ 27

/-- n lines scrubbed without an error found: the position moves on, and a completed pass counts (R354, R365). -/
def State.scrubLines (s : State) (ld n : Nat) : State :=
  let p := nsPage s ld
  let pos := s.fld p Reg.NS_SCRUB_POS_LINE + n
  if !s.flag p Reg.NS_CFG_SCRUB_EN then s
  else
    let s1 := s.setFld p Reg.NS_SCRUB_POS_LINE (pos % stackLines)
    if stackLines ≤ pos then (s1.bump p Reg.NS_SCRUB_PASSES_COUNT).setFld p Reg.NS_SCRUB_AGE_SECONDS 0 else s1

/-- Calibration of all channels: the interval and the temperature start anew. -/
def State.calibrate (s : State) (ld : Nat) : State :=
  s.setStack ld { s.stack ld with zqDue := false, zqTemp := signedOf (s.fld (nsPage s ld) Reg.NS_TEMP_TSTACK) 8 }

/-- A steal run of n beats in the beat after its deadline, behind another that still runs (R357, R358). -/
def State.steal (s : State) (ld kind n : Nat) (ctr : RegField) : State :=
  let p := nsPage s ld
  let now := s.clock.beats.toNat
  let b := max (now + 1) (s.stack ld).stealEnd
  let s1 := (((s.deviate p 1 .maint 3 n (aux := kind)).bump p ctr).setInt p 6).setStack ld { s.stack ld with stealEnd := b + n }
  s1.holdDie p.pd b n

/-- The window in progress names a kind. -/
def State.windowNames (s : State) (ld kind : Nat) : Bool := s.inWindow ld && bitOf (s.stack ld).windowKinds kind

/-- NS_WCB_AGE_RETIRE: an idle entry retires by read-modify-write, unless maintenance makes retirements wait. -/
def execNsWcbAgeRetire (ld : LD) (addr : BitVec 34) (err : MemErr) (s : State) : Host.Outcome State Fault Refusal :=
  let line := locN ld.val addr.toNat / 128
  if s.retireWait (line * 128) then .next s else .next (s.retireLine line err)

/-- REFRESH_TICK: outside a schedule a refresh is performed at once; while one runs the debt rises, a window that names
refresh serves it, and a debt of 64 steals eight refreshes. -/
def execRefreshTick (ld : LD) (s : State) : Host.Outcome State Fault Refusal :=
  if !s.schedRuns then .next s
  else
    let st := s.stack ld.val
    let t := refreshBeats s.sched.ratioCur
    let now := s.clock.beats.toNat
    let b := max now st.windowBusy
    if s.windowNames ld.val 0 && decide (b + t ≤ st.windowEnd + 1) then
      .next (s.setStack ld.val { st with windowBusy := b + t })
    else
      let d := min (st.debt + 1) 64
      if 64 ≤ d ∧ !s.windowNames ld.val 0 then
        .next ((s.setDebt ld.val (d - 8)).steal ld.val 0 (8 * t) Reg.NS_STEAL_REF_COUNT)
      else .next (s.setDebt ld.val d)

/-- MAINT_WINDOW_BEGIN: a reserved window that begins at this beat serves refresh, then ZQ, then scrub, each only where it
ends within the window. -/
def execMaintWindowBegin (ld : LD) (s : State) : Host.Outcome State Fault Refusal :=
  if !s.schedRuns then .next s
  else
    match s.windowNow ld.val with
    | none => .next s
    | some w =>
      let st := s.stack ld.val
      let now := s.clock.beats.toNat
      let t := refreshBeats s.sched.ratioCur
      let us := beatsPerUs s.sched.ratioCur
      let n := if bitOf w.kinds 0 then min (st.debt + 8).toNat (w.length / t) else 0
      let s1 := (s.setDebt ld.val (st.debt - n)).setStack ld.val
        { (s.setDebt ld.val (st.debt - n)).stack ld.val with
          windowEnd := now + w.length - 1, windowKinds := w.kinds, windowBusy := now + n * t }
      let zq := bitOf w.kinds 1 && st.zqDue && decide (n * t + us ≤ w.length)
      let s2 := if zq then s1.calibrate ld.val else s1
      let rest := w.length - n * t - (if zq then us else 0)
      .next (if bitOf w.kinds 2 then s2.scrubLines ld.val (rest * 8192 / us) else s2)

/-- ZQ_DEADLINE: while a schedule runs and outside a window that names ZQ, one calibration is stolen; otherwise it runs
freely. -/
def execZqDeadline (ld : LD) (s : State) : Host.Outcome State Fault Refusal :=
  if !s.schedRuns then .next (s.calibrate ld.val)
  else if s.windowNames ld.val 1 then .next s
  else .next ((s.calibrate ld.val).steal ld.val 1 (beatsPerUs s.sched.ratioCur) Reg.NS_STEAL_ZQ_COUNT)

/-- ZQ_INTERVAL: the interval or an 8 °C move: outside a schedule the stack calibrates; while one runs it is due for the
next window that names it. -/
def execZqInterval (ld : LD) (s : State) : Host.Outcome State Fault Refusal :=
  if s.schedRuns then .next (s.setStack ld.val { s.stack ld.val with zqDue := true }) else .next (s.calibrate ld.val)

/-- SCRUB_DEADLINE: the pass is not complete after 24 h: 256 beats of scrub are stolen, once for every run. -/
def execScrubDeadline (ld : LD) (s : State) : Host.Outcome State Fault Refusal :=
  if !s.flag (nsPage s ld.val) Reg.NS_CFG_SCRUB_EN then .next s
  else
    let s1 := s.scrubLines ld.val (256 * 8192 / beatsPerUs s.sched.ratioCur)
    if !s.schedRuns then .next s1
    else if s.windowNames ld.val 2 then .next s
    else .next (s1.steal ld.val 2 256 Reg.NS_STEAL_SCRUB_COUNT)

/-- STACK_TEMP_SAMPLE: the highest of the eight layer readings and its layer. -/
def execStackTempSample (ld : LD) (layer : Fin 8) (temp : BitVec 8) (s : State) : Host.Outcome State Fault Refusal :=
  let p := nsPage s ld.val
  let t := temp.toInt
  let hot := signedOf (s.fld p Reg.NS_THERM_HOT_LIMIT) 8
  let s1 := (s.setFld p Reg.NS_TEMP_TSTACK temp.toNat).setFld p Reg.NS_TEMP_HOTTEST layer.val
  let s2 := if 85 < t ∧ !s.flag p Reg.NS_STAT_REF_2X then (s1.setFlag p Reg.NS_STAT_REF_2X true).setInt p 3
    else if t ≤ 82 then s1.setFlag p Reg.NS_STAT_REF_2X false else s1
  let s3 := if hot < t ∧ !s.flag p Reg.NS_STAT_THROTTLE then (s2.setFlag p Reg.NS_STAT_THROTTLE true).setInt p 4
    else if t ≤ hot - 5 then s2.setFlag p Reg.NS_STAT_THROTTLE false else s2
  let s4 := if 105 ≤ t ∧ !s.flag p Reg.NS_STAT_CRIT then
      ((s3.setFlag p Reg.NS_STAT_CRIT true).setInt p 5).reportOpen p 7
    else s3
  let st := s.stack ld.val
  let s5 := s4.stackSeen p.pd temp
  .next (if 8 ≤ (t - st.zqTemp).natAbs ∧ s.schedRuns then s5.setStack ld.val { s5.stack ld.val with zqDue := true } else s5)

/-- NS_LANE_CE_DECAY: every lane's corrected count of the die is halved; a flagged lane's count has stopped. -/
def execNsLaneCeDecay (ld : LD) (s : State) : Host.Outcome State Fault Refusal :=
  let st := s.stack ld.val
  .next (s.setStack ld.val { st with
    laneCe := st.laneCe.foldl (fun m (k, n) =>
      if mget (fun _ => false) st.flagged k then m else mput (fun _ => 0) m k (n / 2)) st.laneCe })

end Sys2Proof.Machine
end

