-- ==== Sys2Proof/Machine/Dispatch.lean ====
section
/-!
DEFINITION. One arm per command: its meaning, or its rejection by name.
-/
namespace Sys2Proof.Machine

def exec (i : Instr) (s : State) : Host.Outcome State Fault Refusal :=
  match i with
  | .registerWrite who p reg value => Sys2Proof.Machine.execRegisterWrite who p reg value s
  | .absentPageAccess who p reg write => Sys2Proof.Machine.execAbsentPageAccess who p reg write s
  | .loWrite who p reg value => Sys2Proof.Machine.execLoWrite who p reg value s
  | .hiWrite who p reg value => Sys2Proof.Machine.execHiWrite who p reg value s
  | .loRead who p reg => Sys2Proof.Machine.execLoRead who p reg s
  | .hiRead who p reg => Sys2Proof.Machine.execHiRead who p reg s
  | .blkSyncRead who p => Sys2Proof.Machine.execBlkSyncRead who p s
  | .syncTimeout who p pend => Sys2Proof.Machine.execSyncTimeout who p pend s
  | .enableWrite who p on => Sys2Proof.Machine.execEnableWrite who p on s
  | .softReset who p => Sys2Proof.Machine.execSoftReset who p s
  | .softResetDone p => Sys2Proof.Machine.execSoftResetDone p s
  | .fenceWrite who p on => Sys2Proof.Machine.execFenceWrite who p on s
  | .blkIntSetWrite who p bits => Sys2Proof.Machine.execBlkIntSetWrite who p bits s
  | .blkLockWrite who p value => Sys2Proof.Machine.execBlkLockWrite who p value s
  | .nop pd mc => Sys2Proof.Machine.execNop pd mc s
  | .halt pd mc => Sys2Proof.Machine.execHalt pd mc s
  | .haltedEntry pd mc => Sys2Proof.Machine.execHaltedEntry pd mc s
  | .lset pd mc => Sys2Proof.Machine.execLset pd mc s
  | .lbnz pd mc => Sys2Proof.Machine.execLbnz pd mc s
  | .jmp pd mc => Sys2Proof.Machine.execJmp pd mc s
  | .alt pd mc => Sys2Proof.Machine.execAlt pd mc s
  | .syncb pd mc => Sys2Proof.Machine.execSyncb pd mc s
  | .syncbRelease pd mc => Sys2Proof.Machine.execSyncbRelease pd mc s
  | .step pd mc => Sys2Proof.Machine.execStep pd mc s
  | .amovi pd mc => Sys2Proof.Machine.execAmovi pd mc s
  | .aaddi pd mc => Sys2Proof.Machine.execAaddi pd mc s
  | .aadd pd mc => Sys2Proof.Machine.execAadd pd mc s
  | .aidx pd mc => Sys2Proof.Machine.execAidx pd mc s
  | .tsetb pd mc => Sys2Proof.Machine.execTsetb pd mc s
  | .tsetg pd mc => Sys2Proof.Machine.execTsetg pd mc s
  | .tadv pd mc => Sys2Proof.Machine.execTadv pd mc s
  | .kset pd mc => Sys2Proof.Machine.execKset pd mc s
  | .wld pd mc => Sys2Proof.Machine.execWld pd mc s
  | .str pd mc => Sys2Proof.Machine.execStr pd mc s
  | .drn pd mc => Sys2Proof.Machine.execDrn pd mc s
  | .sfence pd mc => Sys2Proof.Machine.execSfence pd mc s
  | .vmv pd mc => Sys2Proof.Machine.execVmv pd mc s
  | .vld pd mc => Sys2Proof.Machine.execVld pd mc s
  | .vst pd mc => Sys2Proof.Machine.execVst pd mc s
  | .vadd pd mc => Sys2Proof.Machine.execVadd pd mc s
  | .vsub pd mc => Sys2Proof.Machine.execVsub pd mc s
  | .vmul pd mc => Sys2Proof.Machine.execVmul pd mc s
  | .vfma pd mc => Sys2Proof.Machine.execVfma pd mc s
  | .vmax pd mc => Sys2Proof.Machine.execVmax pd mc s
  | .vmin pd mc => Sys2Proof.Machine.execVmin pd mc s
  | .vexp2 pd mc => Sys2Proof.Machine.execVexp2 pd mc s
  | .vrcp pd mc => Sys2Proof.Machine.execVrcp pd mc s
  | .vrsqrt pd mc => Sys2Proof.Machine.execVrsqrt pd mc s
  | .vredsum pd mc => Sys2Proof.Machine.execVredsum pd mc s
  | .vredmax pd mc => Sys2Proof.Machine.execVredmax pd mc s
  | .vcvt pd mc => Sys2Proof.Machine.execVcvt pd mc s
  | .vmov pd mc => Sys2Proof.Machine.execVmov pd mc s
  | .vsplat pd mc => Sys2Proof.Machine.execVsplat pd mc s
  | .tsopAdd pd mc => Sys2Proof.Machine.execTsopAdd pd mc s
  | .tsopSubtract pd mc => Sys2Proof.Machine.execTsopSubtract pd mc s
  | .tsopWaitAtLeast pd mc => Sys2Proof.Machine.execTsopWaitAtLeast pd mc s
  | .tsopWaitThenSubtract pd mc => Sys2Proof.Machine.execTsopWaitThenSubtract pd mc s
  | .mvr pd mc => Sys2Proof.Machine.execMvr pd mc s
  | .tsWaitRelease pd mc index => Sys2Proof.Machine.execTsWaitRelease pd mc index s
  | .lqIssue pd mc err => Sys2Proof.Machine.execLqIssue pd mc err s
  | .weightLoadDone pd mc bank => Sys2Proof.Machine.execWeightLoadDone pd mc bank s
  | .sqIssue pd mc err => Sys2Proof.Machine.execSqIssue pd mc err s
  | .dqIssue pd mc err => Sys2Proof.Machine.execDqIssue pd mc err s
  | .trapStopDone pd mc => Sys2Proof.Machine.execTrapStopDone pd mc s
  | .vqIssue pd mc err => Sys2Proof.Machine.execVqIssue pd mc err s
  | .mqIssue pd mc => Sys2Proof.Machine.execMqIssue pd mc s
  | .haltReqWrite who pd mc on => Sys2Proof.Machine.execHaltReqWrite who pd mc on s
  | .trapNanWrite who pd mc on => Sys2Proof.Machine.execTrapNanWrite who pd mc on s
  | .mcoreCtxidWrite who pd mc ctx => Sys2Proof.Machine.execMcoreCtxidWrite who pd mc ctx s
  | .mcoreCmdNone who pd mc => Sys2Proof.Machine.execMcoreCmdNone who pd mc s
  | .loadProgram who pd mc => Sys2Proof.Machine.execLoadProgram who pd mc s
  | .mcoreStart who pd mc => Sys2Proof.Machine.execMcoreStart who pd mc s
  | .saveCtx who pd mc => Sys2Proof.Machine.execSaveCtx who pd mc s
  | .restoreCtx who pd mc => Sys2Proof.Machine.execRestoreCtx who pd mc s
  | .mcoreClear who pd mc => Sys2Proof.Machine.execMcoreClear who pd mc s
  | .mcoreCmdDone pd mc err => Sys2Proof.Machine.execMcoreCmdDone pd mc err s
  | .tcFillArrive pd mc line err => Sys2Proof.Machine.execTcFillArrive pd mc line err s
  | .tcSnoopInval pd mc line => Sys2Proof.Machine.execTcSnoopInval pd mc line s
  | .mbAgeTimeout pd mc line => Sys2Proof.Machine.execMbAgeTimeout pd mc line s
  | .tcWayErrDecay pd mc => Sys2Proof.Machine.execTcWayErrDecay pd mc s
  | .tcInvAll who pd mc => Sys2Proof.Machine.execTcInvAll who pd mc s
  | .tcWayReen who pd mc ways => Sys2Proof.Machine.execTcWayReen who pd mc ways s
  | .tcLfsrWrite who pd mc value => Sys2Proof.Machine.execTcLfsrWrite who pd mc value s
  | .nfFirstValidClear who pd mc => Sys2Proof.Machine.execNfFirstValidClear who pd mc s
  | .schedLoad who pd err => Sys2Proof.Machine.execSchedLoad who pd err s
  | .imageLoadDone => Sys2Proof.Machine.execImageLoadDone s
  | .schedArm who pd => Sys2Proof.Machine.execSchedArm who pd s
  | .startGather port hdr b => Sys2Proof.Machine.execStartGather port hdr b s
  | .startRelease port hdr result t0 => Sys2Proof.Machine.execStartRelease port hdr result t0 s
  | .firstStepOpen => Sys2Proof.Machine.execFirstStepOpen s
  | .gatherReport => Sys2Proof.Machine.execGatherReport s
  | .gatherToken port hdr b => Sys2Proof.Machine.execGatherToken port hdr b s
  | .releaseToken port hdr b => Sys2Proof.Machine.execReleaseToken port hdr b s
  | .stepCommit flushed => Sys2Proof.Machine.execStepCommit flushed s
  | .parityFlip => Sys2Proof.Machine.execParityFlip s
  | .stepOpen => Sys2Proof.Machine.execStepOpen s
  | .inputSetDistribute => Sys2Proof.Machine.execInputSetDistribute s
  | .stepOverrun => Sys2Proof.Machine.execStepOverrun s
  | .tsRemotePost pd => Sys2Proof.Machine.execTsRemotePost pd s
  | .tsValueWrite who pd value => Sys2Proof.Machine.execTsValueWrite who pd value s
  | .tsSelWrite who pd value => Sys2Proof.Machine.execTsSelWrite who pd value s
  | .tstileCmdNone who pd => Sys2Proof.Machine.execTstileCmdNone who pd s
  | .tstileSave who pd => Sys2Proof.Machine.execTstileSave who pd s
  | .tstileRestore who pd => Sys2Proof.Machine.execTstileRestore who pd s
  | .tstileClear who pd => Sys2Proof.Machine.execTstileClear who pd s
  | .tstileCmdDone pd err => Sys2Proof.Machine.execTstileCmdDone pd err s
  | .tsramScrubTick pd ce ue => Sys2Proof.Machine.execTsramScrubTick pd ce ue s
  | .tsramPoolMaskWrite who pd mask => Sys2Proof.Machine.execTsramPoolMaskWrite who pd mask s
  | .tsramCmdNone who pd => Sys2Proof.Machine.execTsramCmdNone who pd s
  | .zero who pd => Sys2Proof.Machine.execZero who pd s
  | .tsramCmdDone pd => Sys2Proof.Machine.execTsramCmdDone pd s
  | .agentRequest r entryUe => Sys2Proof.Machine.execAgentRequest r entryUe s
  | .zeroFillDone frame chunk => Sys2Proof.Machine.execZeroFillDone frame chunk s
  | .victimScan ld eng => Sys2Proof.Machine.execVictimScan ld eng s
  | .exchangeClaim ld eng => Sys2Proof.Machine.execExchangeClaim ld eng s
  | .captureDone ld eng bad => Sys2Proof.Machine.execCaptureDone ld eng bad s
  | .commitChunkDone ld eng => Sys2Proof.Machine.execCommitChunkDone ld eng s
  | .heldWriteTimeout tag => Sys2Proof.Machine.execHeldWriteTimeout tag s
  | .tierResponse tag => Sys2Proof.Machine.execTierResponse tag s
  | .tierTimeout target => Sys2Proof.Machine.execTierTimeout target s
  | .countDecay ld index => Sys2Proof.Machine.execCountDecay ld index s
  | .hintPromote frame ld until_ => Sys2Proof.Machine.execHintPromote frame ld until_ s
  | .hintKeep frame until_ => Sys2Proof.Machine.execHintKeep frame until_ s
  | .hintDemote frame => Sys2Proof.Machine.execHintDemote frame s
  | .placeCmdNone who pd => Sys2Proof.Machine.execPlaceCmdNone who pd s
  | .setOwner who pd => Sys2Proof.Machine.execSetOwner who pd s
  | .discard who pd => Sys2Proof.Machine.execDiscard who pd s
  | .setFrozen who pd => Sys2Proof.Machine.execSetFrozen who pd s
  | .clrFrozen who pd => Sys2Proof.Machine.execClrFrozen who pd s
  | .pin who pd => Sys2Proof.Machine.execPin who pd s
  | .unpin who pd => Sys2Proof.Machine.execUnpin who pd s
  | .placePromote who pd => Sys2Proof.Machine.execPlacePromote who pd s
  | .placeDemote who pd => Sys2Proof.Machine.execPlaceDemote who pd s
  | .recount who pd => Sys2Proof.Machine.execRecount who pd s
  | .placeCmdDone pd => Sys2Proof.Machine.execPlaceCmdDone pd s
  | .placeEntSelWrite who pd frame => Sys2Proof.Machine.execPlaceEntSelWrite who pd frame s
  | .placeEntSnapshot pd => Sys2Proof.Machine.execPlaceEntSnapshot pd s
  | .carouselBegin pd => Sys2Proof.Machine.execCarouselBegin pd s
  | .carouselPost pd => Sys2Proof.Machine.execCarouselPost pd s
  | .carouselSelector pd site => Sys2Proof.Machine.execCarouselSelector pd site s
  | .moverDescFetch pd ix slot ue => Sys2Proof.Machine.execMoverDescFetch pd ix slot ue s
  | .moverPieceDone pd ix src err => Sys2Proof.Machine.execMoverPieceDone pd ix src err s
  | .moverPost pd ix slot => Sys2Proof.Machine.execMoverPost pd ix slot s
  | .nstackRequest tag err => Sys2Proof.Machine.execNstackRequest tag err s
  | .nsWcbAgeRetire ld addr err => Sys2Proof.Machine.execNsWcbAgeRetire ld addr err s
  | .refreshTick ld => Sys2Proof.Machine.execRefreshTick ld s
  | .maintWindowBegin ld => Sys2Proof.Machine.execMaintWindowBegin ld s
  | .zqDeadline ld => Sys2Proof.Machine.execZqDeadline ld s
  | .scrubDeadline ld => Sys2Proof.Machine.execScrubDeadline ld s
  | .stackTempSample ld layer temp => Sys2Proof.Machine.execStackTempSample ld layer temp s
  | .nsLaneCeDecay ld => Sys2Proof.Machine.execNsLaneCeDecay ld s
  | .fchanRequest tag err => Sys2Proof.Machine.execFchanRequest tag err s
  | .fchanWcbAgeRetire c addr err => Sys2Proof.Machine.execFchanWcbAgeRetire c addr err s
  | .fchanAlert c crc cleared => Sys2Proof.Machine.execFchanAlert c crc cleared s
  | .fchanRetrainDone c ok => Sys2Proof.Machine.execFchanRetrainDone c ok s
  | .fchanRefresh c rank demand => Sys2Proof.Machine.execFchanRefresh c rank demand s
  | .fchanTempRead c temp => Sys2Proof.Machine.execFchanTempRead c temp s
  | .fchanPowerDown c rank => Sys2Proof.Machine.execFchanPowerDown c rank s
  | .fchanScrub c err => Sys2Proof.Machine.execFchanScrub c err s
  | .fchanScrubPriority c => Sys2Proof.Machine.execFchanScrubPriority c s
  | .fDevCeDecay c => Sys2Proof.Machine.execFDevCeDecay c s
  | .dtuTranslate pd cls ctx tag spans => Sys2Proof.Machine.execDtuTranslate pd cls ctx tag spans s
  | .xlateCmdNone who pd => Sys2Proof.Machine.execXlateCmdNone who pd s
  | .advance who pd ctx => Sys2Proof.Machine.execAdvance who pd ctx s
  | .advanceAll who pd => Sys2Proof.Machine.execAdvanceAll who pd s
  | .ridFlush who pd port => Sys2Proof.Machine.execRidFlush who pd port s
  | .xlateCmdDone late => Sys2Proof.Machine.execXlateCmdDone late s
  | .zctxidWrite h value => Sys2Proof.Machine.execZctxidWrite h value s
  | .ringPoll ring => Sys2Proof.Machine.execRingPoll ring s
  | .cmdqDoorbell who ring value => Sys2Proof.Machine.execCmdqDoorbell who ring value s
  | .cmdqEnable who ring on => Sys2Proof.Machine.execCmdqEnable who ring on s
  | .cmdqFlush who ring => Sys2Proof.Machine.execCmdqFlush who ring s
  | .flushComplete ring => Sys2Proof.Machine.execFlushComplete ring s
  | .cplCoalTimeout ring => Sys2Proof.Machine.execCplCoalTimeout ring s
  | .ringNop ring => Sys2Proof.Machine.execRingNop ring s
  | .jobSubmit ring => Sys2Proof.Machine.execJobSubmit ring s
  | .jobStart err => Sys2Proof.Machine.execJobStart err s
  | .jobCtlEnd ring => Sys2Proof.Machine.execJobCtlEnd ring s
  | .jobCtlRerun ring => Sys2Proof.Machine.execJobCtlRerun ring s
  | .jobCtlRerunNotrap ring => Sys2Proof.Machine.execJobCtlRerunNotrap ring s
  | .move ring => Sys2Proof.Machine.execMove ring s
  | .inlineWrite ring => Sys2Proof.Machine.execInlineWrite ring s
  | .inlineRead ring => Sys2Proof.Machine.execInlineRead ring s
  | .inlineTransferDone ring seq err => Sys2Proof.Machine.execInlineTransferDone ring seq err s
  | .ringTsopAdd ring => Sys2Proof.Machine.execRingTsopAdd ring s
  | .ringTsopSubtract ring => Sys2Proof.Machine.execRingTsopSubtract ring s
  | .mgmtBarrier ring => Sys2Proof.Machine.execMgmtBarrier ring s
  | .mgmtAdvance ring => Sys2Proof.Machine.execMgmtAdvance ring s
  | .mgmtPlace ring => Sys2Proof.Machine.execMgmtPlace ring s
  | .mgmtTimestamp ring => Sys2Proof.Machine.execMgmtTimestamp ring s
  | .hartRun who pd core => Sys2Proof.Machine.execHartRun who pd core s
  | .hartMemoryAccess h op va pa pb size data rl vec err => Sys2Proof.Machine.execHartMemoryAccess h op va pa pb size data rl vec err s
  | .hartNtStore h va line mask data => Sys2Proof.Machine.execHartNtStore h va line mask data s
  | .cbAgeDrain h line => Sys2Proof.Machine.execCbAgeDrain h line s
  | .hartWatchdog h => Sys2Proof.Machine.execHartWatchdog h s
  | .hartStateUe h tags => Sys2Proof.Machine.execHartStateUe h tags s
  | .cpuclCmdNone who pd => Sys2Proof.Machine.execCpuclCmdNone who pd s
  | .remove who pd core => Sys2Proof.Machine.execRemove who pd core s
  | .hartRemovalDone h => Sys2Proof.Machine.execHartRemovalDone h s
  | .msiSend who pd value => Sys2Proof.Machine.execMsiSend who pd value s
  | .mtimerInterrupt h => Sys2Proof.Machine.execMtimerInterrupt h s
  | .aplicAccess who pd write => Sys2Proof.Machine.execAplicAccess who pd write s
  | .homeReadS h tag ctx line dir => Sys2Proof.Machine.execHomeReadS h tag ctx line dir s
  | .homeReadX who tag ctx line dir => Sys2Proof.Machine.execHomeReadX who tag ctx line dir s
  | .homeUpgrade h tag ctx line dir => Sys2Proof.Machine.execHomeUpgrade h tag ctx line dir s
  | .homeClaim who tag ctx line data dir => Sys2Proof.Machine.execHomeClaim who tag ctx line data dir s
  | .homeEvictE h line => Sys2Proof.Machine.execHomeEvictE h line s
  | .homeWb who line => Sys2Proof.Machine.execHomeWb who line s
  | .homeFillS pd mc tag ctx line dir => Sys2Proof.Machine.execHomeFillS pd mc tag ctx line dir s
  | .homeRead tag ctx line dir => Sys2Proof.Machine.execHomeRead tag ctx line dir s
  | .homeWrite tag ctx line mask data own dir => Sys2Proof.Machine.execHomeWrite tag ctx line mask data own dir s
  | .snpShare who line => Sys2Proof.Machine.execSnpShare who line s
  | .snpInval who line => Sys2Proof.Machine.execSnpInval who line s
  | .snpCur who line => Sys2Proof.Machine.execSnpCur who line s
  | .snoopResponse who line => Sys2Proof.Machine.execSnoopResponse who line s
  | .compAck line => Sys2Proof.Machine.execCompAck line s
  | .wbAck who line => Sys2Proof.Machine.execWbAck who line s
  | .snoopTimeout who line => Sys2Proof.Machine.execSnoopTimeout who line s
  | .rpLineRelease p line => Sys2Proof.Machine.execRpLineRelease p line s
  | .homeLookup who pd hi => Sys2Proof.Machine.execHomeLookup who pd hi s
  | .jpTrain who port => Sys2Proof.Machine.execJpTrain who port s
  | .jpDetectTimeout port => Sys2Proof.Machine.execJpDetectTimeout port s
  | .jpTrainDone port out => Sys2Proof.Machine.execJpTrainDone port out s
  | .jpSignalLost port => Sys2Proof.Machine.execJpSignalLost port s
  | .lpReqWrite who port on => Sys2Proof.Machine.execLpReqWrite who port on s
  | .lpReq port hdr => Sys2Proof.Machine.execLpReq port hdr s
  | .lpAck port hdr => Sys2Proof.Machine.execLpAck port hdr s
  | .lpExitDone port ok => Sys2Proof.Machine.execLpExitDone port ok s
  | .forceDownWrite who port on => Sys2Proof.Machine.execForceDownWrite who port on s
  | .formGo who port => Sys2Proof.Machine.execFormGo who port s
  | .ident port hdr b => Sys2Proof.Machine.execIdent port hdr b s
  | .formGather port hdr contrib => Sys2Proof.Machine.execFormGather port hdr contrib s
  | .formRelease port hdr => Sys2Proof.Machine.execFormRelease port hdr s
  | .formTimeout => Sys2Proof.Machine.execFormTimeout s
  | .dissolve who port => Sys2Proof.Machine.execDissolve who port s
  | .holdToken port hdr cause beat detail => Sys2Proof.Machine.execHoldToken port hdr cause beat detail s
  | .trapRecord port hdr rec_ => Sys2Proof.Machine.execTrapRecord port hdr rec_ s
  | .dataFlit port flit lanes => Sys2Proof.Machine.execDataFlit port flit lanes s
  | .jpTxEntryReady port => Sys2Proof.Machine.execJpTxEntryReady port s
  | .jpRxEntry port => Sys2Proof.Machine.execJpRxEntry port s
  | .jpRxPost port => Sys2Proof.Machine.execJpRxPost port s
  | .jpLinkFault port cause => Sys2Proof.Machine.execJpLinkFault port cause s
  | .jpSilent port => Sys2Proof.Machine.execJpSilent port s
  | .jpRecoverDone port spareTx spareRx => Sys2Proof.Machine.execJpRecoverDone port spareTx spareRx s
  | .jpRecoverTimeout port => Sys2Proof.Machine.execJpRecoverTimeout port s
  | .jLaneCeDecay port => Sys2Proof.Machine.execJLaneCeDecay port s
  | .coreFault pd mc f => Sys2Proof.Machine.execCoreFault pd mc f s
  | .coreWatchdog pd mc q => Sys2Proof.Machine.execCoreWatchdog pd mc q s
  | .dieFault pd what => Sys2Proof.Machine.execDieFault pd what s
  | .substBistDone pd fail => Sys2Proof.Machine.execSubstBistDone pd fail s
  | .recoveryReport => Sys2Proof.Machine.execRecoveryReport s
  | .resumeReplay port hdr attempt t0 => Sys2Proof.Machine.execResumeReplay port hdr attempt t0 s
  | .resumeCommit port hdr cats m t0 => Sys2Proof.Machine.execResumeCommit port hdr cats m t0 s
  | .resumeStop port hdr code => Sys2Proof.Machine.execResumeStop port hdr code s
  | .resumeStepOpen => Sys2Proof.Machine.execResumeStepOpen s
  | .resumeTimeout => Sys2Proof.Machine.execResumeTimeout s
  | .checkpointCapture pd mc => Sys2Proof.Machine.execCheckpointCapture pd mc s
  | .checkpointCaptureDone pd mc => Sys2Proof.Machine.execCheckpointCaptureDone pd mc s
  | .eventReport p num data => Sys2Proof.Machine.execEventReport p num data s
  | .eventLogWrite blk pd inst => Sys2Proof.Machine.execEventLogWrite blk pd inst s
  | .eventFetch who hi => Sys2Proof.Machine.execEventFetch who hi s
  | .paSample pd mw vcore vsram vdram temp valid model => Sys2Proof.Machine.execPaSample pd mw vcore vsram vdram temp valid model s
  | .rmCalibrate groups => Sys2Proof.Machine.execRmCalibrate groups s
  | .rmHeartbeat pd => Sys2Proof.Machine.execRmHeartbeat pd s
  | .paSafeEntry pd => Sys2Proof.Machine.execPaSafeEntry pd s
  | .gatePeriod pd => Sys2Proof.Machine.execGatePeriod pd s
  | .peakEval pd => Sys2Proof.Machine.execPeakEval pd s
  | .zr6Eval pd => Sys2Proof.Machine.execZr6Eval pd s
  | .ratioEval volt => Sys2Proof.Machine.execRatioEval volt s
  | .fillerSlice pd free act => Sys2Proof.Machine.execFillerSlice pd free act s
  | .dieThermalEval pd => Sys2Proof.Machine.execDieThermalEval pd s
  | .dieTrip pd temp => Sys2Proof.Machine.execDieTrip pd temp s
  | .stackTrip pd temp => Sys2Proof.Machine.execStackTrip pd temp s
  | .critHeld pd => Sys2Proof.Machine.execCritHeld pd s
  | .coolantFault => Sys2Proof.Machine.execCoolantFault s
  | .stopReq who => Sys2Proof.Machine.execStopReq who s
  | .emergencyStop => Sys2Proof.Machine.execEmergencyStop s
  | .railsOffTimeout => Sys2Proof.Machine.execRailsOffTimeout s
  | .attrInterval => Sys2Proof.Machine.execAttrInterval s
  | .rmCmdNone who => Sys2Proof.Machine.execRmCmdNone who s
  | .fracCommit who => Sys2Proof.Machine.execFracCommit who s
  | .fracDefault who => Sys2Proof.Machine.execFracDefault who s
  | .rmModeWrite who on => Sys2Proof.Machine.execRmModeWrite who on s
  | .fwPoll => Sys2Proof.Machine.execFwPoll s
  | .fwLoad => Sys2Proof.Machine.execFwLoad s
  | .fwStartDone => Sys2Proof.Machine.execFwStartDone s
  | .fwStartTimeout => Sys2Proof.Machine.execFwStartTimeout s
  | .fwStop => Sys2Proof.Machine.execFwStop s
  | .fwWatchdog pd core => Sys2Proof.Machine.execFwWatchdog pd core s
  | .fwClusterUe pd core addr => Sys2Proof.Machine.execFwClusterUe pd core addr s
  | .agentRestartDone pd => Sys2Proof.Machine.execAgentRestartDone pd s
  | .pcieInbound port rid at_ kind addr err corr => Sys2Proof.Machine.execPcieInbound port rid at_ kind addr err corr s
  | .pcieMsi port rid at_ addr len data => Sys2Proof.Machine.execPcieMsi port rid at_ addr len data s
  | .pcieIntx port => Sys2Proof.Machine.execPcieIntx port s
  | .pcieOutbound h va op addr size data => Sys2Proof.Machine.execPcieOutbound h va op addr size data s
  | .pcieCompletion port h write st data => Sys2Proof.Machine.execPcieCompletion port h write st data s
  | .pcieCplTimeout port h write => Sys2Proof.Machine.execPcieCplTimeout port h write s
  | .pcieLinkUp port speed width flit => Sys2Proof.Machine.execPcieLinkUp port speed width flit s
  | .pcieLinkDown port dpc => Sys2Proof.Machine.execPcieLinkDown port dpc s
  | .perstAssertWrite who port on => Sys2Proof.Machine.execPerstAssertWrite who port on s
  | .prpRetrain who port => Sys2Proof.Machine.execPrpRetrain who port s
  | .linkDisableWrite who port on => Sys2Proof.Machine.execLinkDisableWrite who port on s
  | .prpCmdNone who port => Sys2Proof.Machine.execPrpCmdNone who port s
  | .msiFlush who port => Sys2Proof.Machine.execMsiFlush who port s
  | .smbusAlertResponse => Sys2Proof.Machine.execSmbusAlertResponse s
  | .setEndpointId i3c op eid => Sys2Proof.Machine.execSetEndpointId i3c op eid s
  | .getEndpointId i3c => Sys2Proof.Machine.execGetEndpointId i3c s
  | .getEndpointUuid i3c => Sys2Proof.Machine.execGetEndpointUuid i3c s
  | .getMctpVersionSupport i3c ty => Sys2Proof.Machine.execGetMctpVersionSupport i3c ty s
  | .getMessageTypeSupport i3c => Sys2Proof.Machine.execGetMessageTypeSupport i3c s
  | .gettid i3c => Sys2Proof.Machine.execGettid i3c s
  | .settid i3c tid => Sys2Proof.Machine.execSettid i3c tid s
  | .getpldmversion i3c opFlag ty => Sys2Proof.Machine.execGetpldmversion i3c opFlag ty s
  | .getpldmtypes i3c => Sys2Proof.Machine.execGetpldmtypes i3c s
  | .getpldmcommands i3c ty version => Sys2Proof.Machine.execGetpldmcommands i3c ty version s
  | .getSensorReading i3c id => Sys2Proof.Machine.execGetSensorReading i3c id s
  | .getStateSensorReadings i3c id => Sys2Proof.Machine.execGetStateSensorReadings i3c id s
  | .setNumericEffecterValue i3c id value => Sys2Proof.Machine.execSetNumericEffecterValue i3c id value s
  | .getNumericEffecterValue i3c id => Sys2Proof.Machine.execGetNumericEffecterValue i3c id s
  | .setStateEffecterStates i3c id request value => Sys2Proof.Machine.execSetStateEffecterStates i3c id request value s
  | .getStateEffecterStates i3c id => Sys2Proof.Machine.execGetStateEffecterStates i3c id s
  | .getPdrRepositoryInfo i3c => Sys2Proof.Machine.execGetPdrRepositoryInfo i3c s
  | .getPdr i3c handle transfer opFlag count => Sys2Proof.Machine.execGetPdr i3c handle transfer opFlag count s
  | .setEventReceiver i3c enable transport address => Sys2Proof.Machine.execSetEventReceiver i3c enable transport address s
  | .pollForPlatformEventMessage i3c => Sys2Proof.Machine.execPollForPlatformEventMessage i3c s
  | .getFruRecordTableMetadata i3c => Sys2Proof.Machine.execGetFruRecordTableMetadata i3c s
  | .getFruRecordTable i3c => Sys2Proof.Machine.execGetFruRecordTable i3c s
  | .powerOn => Sys2Proof.Machine.execPowerOn s
  | .sysResetPin low => Sys2Proof.Machine.execSysResetPin low s
  | .pwrOkLost => Sys2Proof.Machine.execPwrOkLost s
  | .sysResetReq who => Sys2Proof.Machine.execSysResetReq who s
  | .rmWatchdog => Sys2Proof.Machine.execRmWatchdog s
  | .stage0Boot backup boardId refclk => Sys2Proof.Machine.execStage0Boot backup boardId refclk s
  | .powerOnRequest who => Sys2Proof.Machine.execPowerOnRequest who s
  | .powerOffRequest who => Sys2Proof.Machine.execPowerOffRequest who s
  | .powerUp refclk coolantLow => Sys2Proof.Machine.execPowerUp refclk coolantLow s
  | .railPowerGood => Sys2Proof.Machine.execRailPowerGood s
  | .pwrOkTimeout => Sys2Proof.Machine.execPwrOkTimeout s
  | .stage2Start links tests flash => Sys2Proof.Machine.execStage2Start links tests flash s
  | .stage3Start => Sys2Proof.Machine.execStage3Start s
  | .memoryTrainingDone spares chans harts repaired => Sys2Proof.Machine.execMemoryTrainingDone spares chans harts repaired s
  | .stackTrainingFail pd tests flash => Sys2Proof.Machine.execStackTrainingFail pd tests flash s
  | .powerDown => Sys2Proof.Machine.execPowerDown s
  | .refclkRelock => Sys2Proof.Machine.execRefclkRelock s
  | .clockLoss => Sys2Proof.Machine.execClockLoss s
  | .syncPulse => Sys2Proof.Machine.execSyncPulse s
  | .syncFire who => Sys2Proof.Machine.execSyncFire who s
  | .psCmdNone who => Sys2Proof.Machine.execPsCmdNone who s
  | .commit who => Sys2Proof.Machine.execCommit who s
  | .updateImage who => Sys2Proof.Machine.execUpdateImage who s
  | .updateCfg who => Sys2Proof.Machine.execUpdateCfg who s
  | .revoke who mask => Sys2Proof.Machine.execRevoke who mask s
  | .clearKind who kind => Sys2Proof.Machine.execClearKind who kind s
  | .readRecord who => Sys2Proof.Machine.execReadRecord who s
  | .psCmdDone flash => Sys2Proof.Machine.execPsCmdDone flash s
  | .psAutoCommit flash => Sys2Proof.Machine.execPsAutoCommit flash s
  | .regulatorPoll rail mw fault => Sys2Proof.Machine.execRegulatorPoll rail mw fault s
  | .pmbAlert faults => Sys2Proof.Machine.execPmbAlert faults s
  | .tapReset => Sys2Proof.Machine.execTapReset s
  | .extest tap data lands => Sys2Proof.Machine.execExtest tap data lands s
  | .sample tap lands => Sys2Proof.Machine.execSample tap lands s
  | .preload tap data => Sys2Proof.Machine.execPreload tap data s
  | .idcode tap => Sys2Proof.Machine.execIdcode tap s
  | .clamp tap => Sys2Proof.Machine.execClamp tap s
  | .highz tap => Sys2Proof.Machine.execHighz tap s
  | .chainCfg bits => Sys2Proof.Machine.execChainCfg bits s
  | .diePos pd => Sys2Proof.Machine.execDiePos pd s
  | .testMode on => Sys2Proof.Machine.execTestMode on s
  | .wsExtest pd data lanes => Sys2Proof.Machine.execWsExtest pd data lanes s
  | .wsIntest pd data lanes => Sys2Proof.Machine.execWsIntest pd data lanes s
  | .wsPreload pd data => Sys2Proof.Machine.execWsPreload pd data s
  | .wsBypass pd => Sys2Proof.Machine.execWsBypass pd s
  | .bypass tap code => Sys2Proof.Machine.execBypass tap code s
  | .regAccessRead addr => Sys2Proof.Machine.execRegAccessRead addr s
  | .regAccessWrite addr data => Sys2Proof.Machine.execRegAccessWrite addr data s
  | .dmi op addr data => Sys2Proof.Machine.execDmi op addr data s
  | .dbgHalt who pd => Sys2Proof.Machine.execDbgHalt who pd s
  | .dbgResume who pd => Sys2Proof.Machine.execDbgResume who pd s
  | .dbgStep who pd => Sys2Proof.Machine.execDbgStep who pd s
  | .dbgTsValueWrite who pd value => Sys2Proof.Machine.execDbgTsValueWrite who pd value s
  | .dbgMemRead who pd err => Sys2Proof.Machine.execDbgMemRead who pd err s
  | .dbgMemWrite who pd err => Sys2Proof.Machine.execDbgMemWrite who pd err s
  | .dbgRbSelWrite who pd value => Sys2Proof.Machine.execDbgRbSelWrite who pd value s
  | .reservedOpcode pd mc => Sys2Proof.Machine.execReservedOpcode pd mc s
  | .reservedKind ring => Sys2Proof.Machine.execReservedKind ring s
  | .hartFence h predWO tso => Sys2Proof.Machine.execHartFence h predWO tso s
  | .zqInterval ld => Sys2Proof.Machine.execZqInterval ld s
  | .platformEventAccepted => Sys2Proof.Machine.execPlatformEventAccepted s
  | .setdasa static dyn => Sys2Proof.Machine.execSetdasa static dyn s
  | .entdaa dyn => Sys2Proof.Machine.execEntdaa dyn s
  | .endpointErrorMessage port msg => Sys2Proof.Machine.execEndpointErrorMessage port msg s
  | .vstbyPowerLoss => Sys2Proof.Machine.execVstbyPowerLoss s

end Sys2Proof.Machine
end

