-- ==== Sys2Proof/Machine/Tick.lean ====
section
/-!
DEFINITION. A tick: one MCLK beat with the cycles of the other clocks it spans (spec/24_clocks_bringup.md R626 to R632; log
entry 1).
-/
namespace Sys2Proof.Machine

/-- RPLL cycles to an MCLK beat at a ratio (R242, R626). -/
def rpllPerBeat (ratio : Nat) : Nat := if ratio = 0 then 4 else if ratio = 1 then 5 else if ratio = 2 then 6 else 8

/-- The states whose CCLK cycles count as a hart's activity (R580; log entry 57). -/
def HartState.counts : HartState → Bool
  | .running | .debugHalt | .removing => true
  | .reset | .wfi | .removed => false

/-- The harts' activity in a tick of the time base: 24 CCLK cycles each (R580). -/
def State.hartActivity (s : State) : State :=
  (List.range s.hartCount).foldl (fun (t : State) h =>
    let v := t.hart h
    if HartState.counts v.state then t.actAdd (cpuclPageOf t h).pd (some (HartSt.ctxid v)) 9 24 else t) s

/-- A tick of the time base (R631, R632). -/
def State.timeTick (s : State) : State :=
  let s1 : State := { s with
    clock := { s.clock with time := s.clock.time + 1 }
    boot := { s.boot with pins := { s.boot.pins with syncOut := s.boot.pins.syncOut - 1 } } }
  s1.hartActivity

/-- The beat-in-step advances in an open step, unless the device is frozen (R206, R696). -/
def State.beatOn (s : State) : State :=
  if s.sched.state.inStep && !s.frozen then { s with sched := { s.sched with beat := s.sched.beat + 1 } } else s

/-- A beat passes: the clocks advance and the Turnstile operations that are due take effect (R254, R255). Without VSTBY no
clock runs. -/
def State.tick (s : State) : State :=
  if !s.boot.vstby then s
  else
    let n := s.clock.rpll + rpllPerBeat s.sched.ratioCur
    let s1 : State := { s with clock := { s.clock with beats := s.clock.beats + 1, rpll := n % 48 } }
    let s2 := if 48 ≤ n then s1.timeTick else s1
    s2.beatOn.tsDue s2.clock.beats.toNat

end Sys2Proof.Machine
end

