-- ==== Sys2Proof/Safety.lean ====
section
/-!
DEFINITION. What counts as a safe outcome of a step, and the canonical form of a state: an invariant that every step keeps.
-/
namespace Sys2Proof.Machine

/-- The step answers a next state. -/
def goesOn : Host.Outcome State Fault Refusal → Bool
  | .next _ => true
  | _ => false

/-- Keys strictly rising, every one at least lo. -/
def risingFrom {α : Type} : Nat → List (Nat × α) → Bool
  | _, [] => true
  | lo, (j, _) :: m => decide (lo ≤ j) && risingFrom (j + 1) m

abbrev rising {α : Type} (m : List (Nat × α)) : Bool := risingFrom 0 m

/-- The register files of a core's context have rising keys. -/
structure CtxCanon (x : CoreCtx) : Prop where
  a : rising x.a = true
  l : rising x.l = true
  t : rising x.t = true
  k : rising x.k = true
  v : rising x.v = true
  acc : rising x.acc = true

/-- The canonical form: registers, page states, Tier S and the DRAM list no entry that an unlisted key reads as, and the
keys of every map rise. -/
structure Canon (s : State) : Prop where
  regs : mwf regReset s.regs = true
  pages : mwf (fun _ => {}) s.pages = true
  evq : rising s.evq = true
  evlog : rising s.evlog = true
  cores : rising s.cores = true
  tcs : rising s.tcs = true
  ckpts : rising s.ckpts = true
  traces : rising s.traces = true
  cells : rising s.ts.cells = true
  scratch : mwf (fun _ => 0) s.tierS.mem = true
  poisonS : rising s.tierS.poison = true
  slabs : rising s.tierS.slabs = true
  dram : mwf (fun _ => 0) s.memsys.dram.mem = true
  poisonD : rising s.memsys.dram.poison = true
  nstacks : rising s.memsys.nstacks = true
  chans : rising s.memsys.chans = true
  entries : rising s.memsys.place.entries = true
  engines : rising s.memsys.place.engines = true
  l2 : rising s.memsys.home.l2 = true
  rp : rising s.memsys.home.rp = true
  l3 : rising s.memsys.home.l3 = true
  dir : rising s.memsys.home.dir = true
  harts : rising s.cpu.harts = true
  answers : rising s.cpu.answers = true
  movers : rising s.mv.movers = true
  cars : rising s.mv.cars = true
  rports : rising s.pcie.ports = true
  jports : rising s.jal.ports = true
  rings : rising s.jobs.rings = true
  agents : rising s.power.agents = true
  taps : rising s.tap.dies = true

end Sys2Proof.Machine
end

