-- ==== Sys2Proof/Certificates/Slice0/Obligations.lean ====
section
/-!
DEFINITION. The statements for the provers. Completes says that a command answers a next state and what it holds.
-/
open Sys2Proof Sys2Proof.Machine

namespace Sys2Proof.Claims

/-- The command answers a next state of which P holds. -/
def Completes (c : Instr) (s : State) (P : State → Prop) : Prop := ∃ t, exec c s = .next t ∧ P t

/-- Registers whose writes store their fields and do nothing else. -/
def storesOnly (b : Blk) (off : Nat) : Bool :=
  match b with
  | .nstack | .fchan | .carousel | .mover | .pagent => true
  | .tstile => off != 0x104 && off != 0x108 && off != 0x120
  | .tsram => off != 0x108 && off != 0x118
  | .home => off != 0x10C
  | .place => off != 0x120 && off != 0x170
  | .timebase => off != 0x10C && off != 0x124 && off != 0x128
  | _ => false

/-- A write of n to a register, or pair, of an open page that stores its fields and does nothing else: no reserved value, no
protected field and no command bit among them. -/
def OpenWrite (s : State) (p : Page) (off : Nat) (pair : Bool) (n : Nat) : Prop :=
  normPage p = p ∧ s.accessible p = true ∧ 0x100 ≤ off ∧ storesOnly p.blk off = true ∧ s.discards p off = false ∧
  s.reservedWrite p off (regFields p.blk off pair) n = false ∧
  (regFields p.blk off pair).all (fun f => !f.prot && f.acc != .sc) = true

abbrev OpenRegister (s : State) (p : Page) (off n : Nat) : Prop := OpenWrite s p off false n
abbrev OpenPair (s : State) (p : Page) (off n : Nat) : Prop := OpenWrite s p off true n

end Sys2Proof.Claims

open Sys2Proof.Claims

/-! The machine. -/

/-- A step takes the command at the front of the queue and is exec of it with the queue's rest. -/
def Obligations.StepRunsTheFrontCommand : Prop :=
  ∀ (s : State) (c : Instr) (rest : List Instr), s.pending = c :: rest → step s = exec c { s with pending := rest }

/-- With no command waiting and VSTBY present a step is a beat of MCLK: the free-running beat count advances, and the time base
takes a tick of 10 ns whenever 48 RPLL cycles are complete (R626, R631; log entry 1: that the empty queue ticks is the model's). -/
def Obligations.EmptyQueueTicks : Prop :=
  ∀ s : State, s.pending = [] → s.boot.vstby = true →
    ∃ t, step s = .next t ∧ t.pending = [] ∧ t.clock.beats = s.clock.beats + 1 ∧
      t.clock.rpll = (s.clock.rpll + rpllPerBeat s.sched.ratioCur) % 48 ∧
      t.clock.time = (if 48 ≤ s.clock.rpll + rpllPerBeat s.sched.ratioCur then s.clock.time + 1 else s.clock.time) ∧
      t.tierS = s.tierS ∧ t.memsys = s.memsys ∧ t.cores = s.cores ∧ t.store = s.store

/-- After reset every register reads as its table's Reset column says, every core is IDLE, the schedule IDLE, no command waits
and nothing is logged. -/
def Obligations.ResetLeavesTableValues : Prop :=
  (∀ (p : Page) (off : Nat), off < 4096 → State.reset.reg p off = BitVec.ofNat 32 (resetWord p.blk off)) ∧
  (∀ pd mc, (State.reset.core pd mc).status = .idle) ∧ State.reset.sched.state = .idle ∧ State.reset.pending = [] ∧
  State.reset.evlog = [] ∧ (∀ p, (State.reset.page p).lock = .locked) ∧ (∀ h, (State.reset.hart h).state = .reset)

/-- The reset state holds every map in its canonical form. -/
def Obligations.ResetIsCanonical : Prop := Canon State.reset

/-- Every step keeps every map of the machine in its canonical form: memories and registers list no entry that an unlisted key
reads as, and the keys of every map rise. -/
def Obligations.StepsKeepCanonicalForm : Prop := ∀ s t : State, Canon s → step s = .next t → Canon t

/-- Commands act on everything but the queue of waiting commands. -/
def Obligations.CommandsLeaveTheQueue : Prop :=
  ∀ (c : Instr) (s t : State), exec c s = .next t → t.pending = s.pending

/-- No command of the table stops the machine: each answers a next state in every state. -/
def Obligations.EveryCommandAnswers : Prop := ∀ (c : Instr) (s : State), ∃ t, exec c s = .next t

/-! Register pages. -/

/-- The access codes (R6): RO keeps, RW and WO take the value, W1C clears and W1S sets the bits written 1. -/
def Obligations.AccessCodesWriteFields : Prop :=
  ∀ (f : RegField) (old v : Nat), old < 2 ^ f.w → v < 2 ^ f.w →
    (f.acc = .ro → f.written old v = old) ∧ (f.acc = .rw → f.written old v = v) ∧ (f.acc = .wo → f.written old v = v) ∧
    (f.acc = .w1c → ∀ i, i < f.w → (f.written old v).testBit i = (old.testBit i && !v.testBit i)) ∧
    (f.acc = .w1s → ∀ i, i < f.w → (f.written old v).testBit i = (old.testBit i || v.testBit i))

/-- REGISTER_WRITE stores the fields of a register by their access codes, and ABSENT_PAGE_ACCESS reads 0 and writes nothing
(R6, R42). -/
def Obligations.RegisterWritesStoreFields : Prop :=
  ∀ s : State, Canon s →
    (∀ (who : Requester) (p : Page) (r : Fin 1024) (v : Word), OpenRegister s p (4 * r.val) v.toNat → isLo p.blk (4 * r.val) = false →
      isHi p.blk (4 * r.val) = false →
      Completes (.registerWrite who p r v) s fun t =>
        t.reg p (4 * r.val) = BitVec.ofNat 32 (storedWord (fieldsAt p.blk (4 * r.val)) (s.reg p (4 * r.val)).toNat v.toNat) ∧
        (∀ q off, regKey q off ≠ regKey p (4 * r.val) → regKey q off ≠ regKey p 0x01C → t.reg q off = s.reg q off) ∧
        t = { s with regs := t.regs, pages := t.pages }) ∧
    (∀ (who : Requester) (p : Page) (r : Fin 1024), s.present (normPage p) = false →
      exec (.absentPageAccess who p r none) s = .next { s with reply := some (.word 0) } ∧
      ∀ v, exec (.absentPageAccess who p r (some v)) s = .next s)

/-- Pairs of registers (R47): _LO stages, _HI of the same requester commits both halves, _HI of another is discarded with an
error, and _HI without a tag commits the low half as it stands. -/
def Obligations.PairsCommitBothHalves : Prop :=
  ∀ s : State, Canon s → ∀ (who : Requester) (p : Page) (lo hi : Fin 1024) (v : Word),
    hi.val = lo.val + 1 → isLo p.blk (4 * lo.val) = true → isHi p.blk (4 * hi.val) = true → isLo p.blk (4 * hi.val) = false →
    normPage p = p → s.accessible p = true → readOnlyPage p.blk = false →
    s.discards p (4 * lo.val) = false → s.discards p (4 * hi.val) = false →
    (Completes (.loWrite who p lo v) s fun t =>
      t.stagedAt p (4 * lo.val) = some ⟨4 * lo.val, v, some who⟩ ∧
      (∀ q off, regKey q off ≠ regKey p 0x01C → t.reg q off = s.reg q off) ∧ t = { s with regs := t.regs, pages := t.pages }) ∧
    (∀ x, s.stagedAt p (4 * lo.val) = some x → x.tag = some who → OpenPair s p (4 * lo.val) (x.value.toNat + v.toNat * 2 ^ 32) →
      Completes (.hiWrite who p hi v) s fun t =>
        t.reg64 p (4 * lo.val) = storedWord (regFields p.blk (4 * lo.val) true) (s.reg64 p (4 * lo.val)) (x.value.toNat + v.toNat * 2 ^ 32) % 2 ^ 64 ∧
        t.stagedAt p (4 * lo.val) = none) ∧
    (∀ x, s.stagedAt p (4 * lo.val) = some x → x.tag ≠ some who → s.flag p Reg.BLK_STAT_ERR = false →
      Completes (.hiWrite who p hi v) s fun t =>
        t.flag p Reg.BLK_STAT_ERR = true ∧ bitsOf (t.reg p 0x020).toNat 28 4 = 3 ∧ t.stagedAt p (4 * lo.val) = some x ∧
        t.reg64 p (4 * lo.val) = s.reg64 p (4 * lo.val)) ∧
    (s.stagedAt p (4 * lo.val) = none → (∀ u : State, u.liveWord who p (4 * lo.val) = (u.reg p (4 * lo.val)).toNat) →
      OpenPair s p (4 * lo.val) ((s.reg p (4 * lo.val)).toNat + v.toNat * 2 ^ 32) →
      Completes (.hiWrite who p hi v) s fun t =>
        t.reg64 p (4 * lo.val) = storedWord (regFields p.blk (4 * lo.val) true) (s.reg64 p (4 * lo.val))
          ((s.reg p (4 * lo.val)).toNat + v.toNat * 2 ^ 32) % 2 ^ 64)

/-- A read of _LO returns the low half and takes a snapshot for its requester; the next read of _HI by it returns the
snapshot's high half and discards it; without a snapshot _HI returns the current high half (R48). -/
def Obligations.PairReadsTakeSnapshots : Prop :=
  ∀ s : State, Canon s → ∀ (who : Requester) (p : Page) (lo hi : Fin 1024),
    hi.val = lo.val + 1 → isLo p.blk (4 * lo.val) = true → isHi p.blk (4 * hi.val) = true → isLo p.blk (4 * hi.val) = false →
    normPage p = p → s.accessible p = true →
    (Completes (.loRead who p lo) s fun t =>
      t.reply = some (.word (s.readWord who p (4 * lo.val))) ∧
      t.snapAt who p (4 * lo.val) = some ⟨4 * lo.val, who, s.readWord who p (4 * hi.val)⟩ ∧
      t = { s with pages := t.pages, reply := t.reply }) ∧
    (∀ x, s.snapAt who p (4 * lo.val) = some x →
      Completes (.hiRead who p hi) s fun t =>
        t.reply = some (.word x.hi) ∧ t.snapAt who p (4 * lo.val) = none ∧ t = { s with pages := t.pages, reply := t.reply }) ∧
    (s.snapAt who p (4 * lo.val) = none →
      exec (.hiRead who p hi) s = .next { s with reply := some (.word (s.readWord who p (4 * hi.val))) })

/-- BLK_SYNC: a read returns the count of performed writes, every earlier write being performed (R50, R59); at a time-out it
returns SYNC_TIMEOUT, the error is captured with SOURCE 4, and the page waits for a soft reset (R51). -/
def Obligations.SyncReadsCountWrites : Prop :=
  ∀ s : State, Canon s → ∀ (who : Requester) (p : Page), normPage p = p → s.present p = true →
    (Completes (.blkSyncRead who p) s fun t =>
      (∃ w, t.reply = some (.word w) ∧ w.toNat % 2 ^ 31 = s.fld p Reg.BLK_SYNC_WRITE_COUNT ∧ w.getLsbD 31 = false) ∧
      t = { s with reply := t.reply }) ∧
    (readOnlyPage p.blk = false → s.flag p Reg.BLK_STAT_ERR = false →
      ∀ pend : List (Fin 1024), Completes (.syncTimeout who p pend) s fun t =>
        (∃ w, t.reply = some (.word w) ∧ w.getLsbD 31 = true) ∧ t.flag p Reg.BLK_STAT_ERR = true ∧
        bitsOf (t.reg p 0x020).toNat 28 4 = 4 ∧ (t.page p).wedged = true)

/-- BLK_CTRL and BLK_LOCK (R56, R58, R60, R62, R64): ENABLE, FENCE and SOFT_RESET do what their fields say, and the two keys
unlock for one requester. -/
def Obligations.HeaderControlsActOnTheBlock : Prop :=
  ∀ s : State, Canon s → ∀ (who : Requester) (p : Page), normPage p = p → s.present p = true → readOnlyPage p.blk = false →
    (p.blk ≠ .cmdq → ∀ on : Bool, Completes (.enableWrite who p on) s fun t =>
      t.flag p Reg.BLK_CTRL_ENABLE = on ∧
      (on = false → s.flag p Reg.BLK_CTRL_ENABLE = true → (t.page p).disabled = true) ∧ (on = true → (t.page p).disabled = false)) ∧
    (p.blk ≠ .cmdq → Completes (.fenceWrite who p true) s fun t =>
      t.flag p Reg.BLK_CTRL_FENCE = true ∧ t.flag p Reg.BLK_STAT_FENCED = true) ∧
    (p.blk ≠ .cmdq → (s.page p).lock = .unlocked who → s.flag p Reg.BLK_CTRL_FENCE = true →
      Completes (.fenceWrite who p false) s fun t =>
        t.flag p Reg.BLK_CTRL_FENCE = false ∧ t.flag p Reg.BLK_STAT_FENCED = false ∧ (t.page p).lock = .locked) ∧
    ((s.page p).resetting = false → Completes (.softReset who p) s fun t =>
      (t.page p).resetting = true ∧ (t.page p).staged = [] ∧ (t.page p).snaps = [] ∧ (t.page p).lock = .locked) ∧
    ((s.page p).resetting = true → Completes (.softResetDone p) s fun t => (t.page p).resetting = false ∧ t = { s with pages := t.pages }) ∧
    (∀ bits : Word, Completes (.blkIntSetWrite who p bits) s fun t =>
      ∀ i, i < max 1 (intBits p.blk) → bits.getLsbD i = true → (t.reg p 0x010).getLsbD i = true) ∧
    (Completes (.blkLockWrite who p 0x5EED) s fun t => (t.page p).lock = .armed who) ∧
    ((s.page p).lock = .armed who → Completes (.blkLockWrite who p 0x0B1A) s fun t => (t.page p).lock = .unlocked who) ∧
    (∀ key : Word, key ≠ 0x5EED → (key ≠ 0x0B1A ∨ (s.page p).lock ≠ .armed who) →
      Completes (.blkLockWrite who p key) s fun t => (t.page p).lock = .locked)

/-- The lock leaves everything but the page's lock and write count as it is. -/
def Obligations.LockWritesChangeTheLockAlone : Prop :=
  ∀ s : State, Canon s → ∀ (who : Requester) (p : Page) (key : Word), normPage p = p → s.present p = true →
    readOnlyPage p.blk = false →
    Completes (.blkLockWrite who p key) s fun t =>
      (∀ q off, regKey q off ≠ regKey p 0x01C → t.reg q off = s.reg q off) ∧
      (∀ q, pageKey q ≠ pageKey p → t.page q = s.page q) ∧
      (t.page p).staged = (s.page p).staged ∧ (t.page p).snaps = (s.page p).snaps ∧
      t.fld p Reg.BLK_SYNC_WRITE_COUNT = (s.fld p Reg.BLK_SYNC_WRITE_COUNT + 1) % 2 ^ 31 ∧
      t = { s with regs := t.regs, pages := t.pages }

namespace Sys2Proof.Claims

/-- The core may dispatch at this beat, no stop is due, PC lies in the program and the word there decodes to i (R134, R137, R146,
R151). -/
def Ready (s : State) (pd : PD) (mc : MC) (i : TInstr) : Prop :=
  s.canDispatch pd mc = true ∧ (s.core pd mc).stopPend = none ∧ (s.core pd mc).x.pc.toNat < (s.core pd mc).progLen ∧
  decodeT s.fullDies.length ((s.core pd mc).fetch (s.core pd mc).x.pc.toNat) = .ok i

/-- Every core but one is as it was, and so are Tier S, the memory system and every operand cache. -/
def OthersKept (s t : State) (pd : PD) (mc : MC) : Prop :=
  (∀ pd' mc', pd' ≠ pd ∨ mc' ≠ mc → t.core pd' mc' = s.core pd' mc') ∧ t.tierS = s.tierS ∧ t.memsys = s.memsys ∧ t.tcs = s.tcs ∧
  t.ts.cells = s.ts.cells ∧ t.ts.ops = s.ts.ops ∧ t.ts.remote = s.ts.remote

/-- The core goes on behind its instruction at beat n, its context changed by f and nothing queued. -/
def Went (s t : State) (pd : PD) (mc : MC) (n : Nat) (f : CoreCtx → CoreCtx) : Prop :=
  (t.core pd mc).x = { f (s.core pd mc).x with pc := (s.core pd mc).x.pc + 1 } ∧ (t.core pd mc).nextD = n ∧
  (t.core pd mc).lq = (s.core pd mc).lq ∧ (t.core pd mc).sq = (s.core pd mc).sq ∧ (t.core pd mc).dq = (s.core pd mc).dq ∧
  (t.core pd mc).vq = (s.core pd mc).vq ∧ (t.core pd mc).mq = (s.core pd mc).mq

/-- The core stopped with SCHED_ERROR: its queues are discarded and the step carries the error. -/
def Stopped (s t : State) (pd : PD) (mc : MC) (pc reason : Nat) : Prop :=
  (t.core pd mc).status = .stoppedError ∧ (t.core pd mc).lq = [] ∧ (t.core pd mc).sq = [] ∧ (t.core pd mc).dq = [] ∧
  (t.core pd mc).vq = [] ∧ (t.core pd mc).mq = [] ∧ t.flag (mcorePage pd mc) Reg.BLK_STAT_ERR = true ∧
  (s.sched.stepErr = none → (s.core pd mc).altRun = none → t.sched.stepErr = some ⟨0x0D, s.lcNo pd mc, pc, if reason = 0x0E then 0x14 else 0x30⟩)

end Sys2Proof.Claims

/-! Tile programs: dispatch. -/

/-- A registers (R130): A0 reads 0 and discards writes, every other register reads what was written to it last; the
loop counters, descriptors and stripe configurations read what was written, and a write keeps the canonical form. -/
def Obligations.SequencerRegistersReadWhatWasWritten : Prop :=
  ∀ x : CoreCtx, CtxCanon x →
    (∀ m n v, (x.wrA n v).rdA m = if m = 0 then 0 else if m = n then v else x.rdA m) ∧
    (∀ m n v, (x.wrL n v).rdL m = if m = n then v else x.rdL m) ∧ (∀ m n v, (x.wrT n v).rdT m = if m = n then v else x.rdT m) ∧
    (∀ m n v, (x.wrK n v).rdK m = if m = n then v else x.rdK m) ∧
    (∀ n v, CtxCanon (x.wrA n v)) ∧ (∀ n v, CtxCanon (x.wrL n v)) ∧ (∀ n v, CtxCanon (x.wrT n v)) ∧ (∀ n v, CtxCanon (x.wrK n v))

/-- The address, descriptor and loop-counter instructions take effect at dispatch and the next instruction dispatches at D + 1
(R136, R147); everything else of the package's cores and memories stays. -/
def Obligations.AddressInstructionsTakeEffectAtDispatch : Prop :=
  ∀ s : State, Canon s → ∀ (pd : PD) (mc : MC),
    (Ready s pd mc .nop → Completes (.nop pd mc) s fun t => Went s t pd mc (s.sched.beat + 1) id ∧ OthersKept s t pd mc) ∧
    (∀ n count, Ready s pd mc (.lset n count) → Completes (.lset pd mc) s fun t =>
      Went s t pd mc (s.sched.beat + 1) (fun x => x.wrL n (BitVec.ofNat 32 count)) ∧ OthersKept s t pd mc) ∧
    (∀ d imm, Ready s pd mc (.amovi d imm) → Completes (.amovi pd mc) s fun t =>
      Went s t pd mc (s.sched.beat + 1) (fun x => x.wrA d (BitVec.ofNat 64 imm)) ∧ OthersKept s t pd mc) ∧
    (∀ d a imm, Ready s pd mc (.aaddi d a imm) → Completes (.aaddi pd mc) s fun t =>
      Went s t pd mc (s.sched.beat + 1) (fun x => x.wrA d (x.rdA a + BitVec.ofInt 64 imm)) ∧ OthersKept s t pd mc) ∧
    (∀ d a b, Ready s pd mc (.aadd d a b) → Completes (.aadd pd mc) s fun t =>
      Went s t pd mc (s.sched.beat + 1) (fun x => x.wrA d (x.rdA a + x.rdA b)) ∧ OthersKept s t pd mc) ∧
    (∀ d a n imm, Ready s pd mc (.aidx d a n imm) → Completes (.aidx pd mc) s fun t =>
      Went s t pd mc (s.sched.beat + 1) (fun x => x.wrA d (x.rdA a + BitVec.ofInt 64 ((x.rdL n).toNat * imm))) ∧
      OthersKept s t pd mc) ∧
    (∀ n a, Ready s pd mc (.tsetb n a) → Completes (.tsetb pd mc) s fun t =>
      Went s t pd mc (s.sched.beat + 1) (fun x => x.wrT n (tdSetBase (x.rdT n) ((x.rdA a).toNat % 2 ^ 33))) ∧ OthersKept s t pd mc) ∧
    (∀ n fmt width rows pitch, Ready s pd mc (.tsetg n fmt width rows pitch) → Completes (.tsetg pd mc) s fun t =>
      Went s t pd mc (s.sched.beat + 1) (fun x => x.wrT n (tdSetGeom (x.rdT n) fmt width rows pitch)) ∧ OthersKept s t pd mc) ∧
    (∀ n delta, Ready s pd mc (.tadv n delta) → Completes (.tadv pd mc) s fun t =>
      Went s t pd mc (s.sched.beat + 1)
        (fun x => x.wrT n (tdSetBase (x.rdT n) (((tdBase (x.rdT n) : Int) + delta * 128) % 2 ^ 33).toNat)) ∧ OthersKept s t pd mc) ∧
    (∀ k half imm, Ready s pd mc (.kset k half imm) → Completes (.kset pd mc) s fun t =>
      Went s t pd mc (s.sched.beat + 1)
        (fun x => x.wrK k (BitVec.ofNat 64 (withBits (x.rdK k).toNat (if half then 32 else 0) 32 imm))) ∧ OthersKept s t pd mc)

/-- LBNZ decrements a counter that is not 0 and branches while the result is not 0; a counter that was 0 stays 0 and does not
branch; JMP branches always; a target outside the program, or a dispatch of any instruction at a PC outside it, stops the core
with SCHED_ERROR, code 0x03 (R137). -/
def Obligations.BranchesStayInTheProgram : Prop :=
  ∀ s : State, Canon s → ∀ (pd : PD) (mc : MC), CtxCanon (s.core pd mc).x →
    (∀ n off, Ready s pd mc (.lbnz n off) → ((s.core pd mc).x.rdL n).toNat ≤ 1 → Completes (.lbnz pd mc) s fun t =>
      (t.core pd mc).x.pc = (s.core pd mc).x.pc + 1 ∧ (t.core pd mc).nextD = s.sched.beat + 1 ∧ (t.core pd mc).x.rdL n = 0 ∧
      (∀ m, m ≠ n → (t.core pd mc).x.rdL m = (s.core pd mc).x.rdL m) ∧ OthersKept s t pd mc) ∧
    (∀ n off, Ready s pd mc (.lbnz n off) → 1 < ((s.core pd mc).x.rdL n).toNat →
      0 ≤ ((s.core pd mc).x.pc.toNat : Int) + off → ((s.core pd mc).x.pc.toNat : Int) + off < (s.core pd mc).progLen →
      (s.core pd mc).progLen ≤ 16384 → Completes (.lbnz pd mc) s fun t =>
        ((t.core pd mc).x.pc.toNat : Int) = (s.core pd mc).x.pc.toNat + off ∧ (t.core pd mc).nextD = s.sched.beat + 2 ∧
        (t.core pd mc).x.rdL n = (s.core pd mc).x.rdL n - 1 ∧
        (∀ m, m ≠ n → (t.core pd mc).x.rdL m = (s.core pd mc).x.rdL m) ∧ OthersKept s t pd mc) ∧
    (∀ off, Ready s pd mc (.jmp off) →
      0 ≤ ((s.core pd mc).x.pc.toNat : Int) + off → ((s.core pd mc).x.pc.toNat : Int) + off < (s.core pd mc).progLen →
      (s.core pd mc).progLen ≤ 16384 → Completes (.jmp pd mc) s fun t =>
        ((t.core pd mc).x.pc.toNat : Int) = (s.core pd mc).x.pc.toNat + off ∧ (t.core pd mc).nextD = s.sched.beat + 2 ∧
        OthersKept s t pd mc) ∧
    (∀ n off, Ready s pd mc (.lbnz n off) → 1 < ((s.core pd mc).x.rdL n).toNat →
      (((s.core pd mc).x.pc.toNat : Int) + off < 0 ∨ ((s.core pd mc).progLen : Int) ≤ ((s.core pd mc).x.pc.toNat : Int) + off) →
      Completes (.lbnz pd mc) s fun t => Stopped s t pd mc (s.core pd mc).x.pc.toNat 0x03) ∧
    (∀ off, Ready s pd mc (.jmp off) →
      (((s.core pd mc).x.pc.toNat : Int) + off < 0 ∨ ((s.core pd mc).progLen : Int) ≤ ((s.core pd mc).x.pc.toNat : Int) + off) →
      Completes (.jmp pd mc) s fun t => Stopped s t pd mc (s.core pd mc).x.pc.toNat 0x03) ∧
    (s.canDispatch pd mc = true → (s.core pd mc).stopPend = none → (s.core pd mc).progLen ≤ (s.core pd mc).x.pc.toNat →
      ∀ c ∈ ([
        .nop pd mc, .halt pd mc, .lset pd mc, .lbnz pd mc, .jmp pd mc, .alt pd mc, .syncb pd mc, .step pd
        mc, .sfence pd mc, .amovi pd mc, .aaddi pd mc, .aadd pd mc, .aidx pd mc, .tsetb pd mc, .tsetg pd mc,
        .tadv pd mc, .kset pd mc, .wld pd mc, .str pd mc, .drn pd mc, .vmv pd mc, .vld pd mc, .vst pd mc,
        .vadd pd mc, .vsub pd mc, .vmul pd mc, .vfma pd mc, .vmax pd mc, .vmin pd mc, .vexp2 pd mc, .vrcp pd
        mc, .vrsqrt pd mc, .vredsum pd mc, .vredmax pd mc, .vcvt pd mc, .vmov pd mc, .vsplat pd mc, .mvr pd
        mc, .tsopAdd pd mc, .tsopSubtract pd mc, .tsopWaitAtLeast pd mc, .tsopWaitThenSubtract pd mc] : List Instr),
        Completes c s fun t => Stopped s t pd mc (s.core pd mc).x.pc.toNat 0x03)

/-- SYNCB holds dispatch until the beat-in-step is at least BEAT; a beat that has passed does not hold it (R139). -/
def Obligations.SyncbHoldsUntilItsBeat : Prop :=
  ∀ s : State, Canon s → ∀ (pd : PD) (mc : MC),
    (∀ beat, Ready s pd mc (.syncb beat) → Completes (.syncb pd mc) s fun t =>
      Went s t pd mc (max (s.sched.beat + 1) beat) id ∧ OthersKept s t pd mc ∧
      (s.sched.beat + 1 < beat → (t.core pd mc).hold = .sync beat ∧ t.canDispatch pd mc = false) ∧
      (beat ≤ s.sched.beat + 1 → (t.core pd mc).hold = .none)) ∧
    (∀ beat, (s.core pd mc).hold = .sync beat → beat ≤ s.sched.beat →
      exec (.syncbRelease pd mc) s = .next (s.modCore pd mc fun c => { c with hold := .none })) ∧
    (∀ beat, (s.core pd mc).hold = .sync beat → s.sched.beat < beat → exec (.syncbRelease pd mc) s = .next s)

/-- HALT and STEP stop dispatch, SFENCE holds it, a drained HALT enters HALTED, and a word that does not decode stops the core
(R134, R140, R141, R147, R151). -/
def Obligations.ProgramEndsAndFencesHoldDispatch : Prop :=
  ∀ s : State, Canon s → ∀ (pd : PD) (mc : MC), (s.core pd mc).dstep = false →
    (Ready s pd mc .halt → Completes (.halt pd mc) s fun t =>
      Went s t pd mc (s.sched.beat + 1) id ∧ OthersKept s t pd mc ∧ (t.core pd mc).hold = .halt ∧ t.canDispatch pd mc = false) ∧
    ((s.core pd mc).status = .running → (s.core pd mc).hold = .halt → (s.core pd mc).queuesEmpty = true →
      Completes (.haltedEntry pd mc) s fun t =>
        (t.core pd mc).status = .halted ∧ (t.core pd mc).x = (s.core pd mc).x ∧ OthersKept s t pd mc) ∧
    (Ready s pd mc .step → (s.tc pd mc).mb = [] → Completes (.step pd mc) s fun t =>
      Went s t pd mc (s.sched.beat + 1) id ∧ OthersKept s t pd mc ∧ (t.core pd mc).status = .waitStep) ∧
    (Ready s pd mc .sfence → (s.tc pd mc).mb = [] → Completes (.sfence pd mc) s fun t =>
      Went s t pd mc (s.sched.beat + 1) id ∧ OthersKept s t pd mc ∧
      (t.core pd mc).hold = .sfence s.sched.beat (s.core pd mc).seq ∧ (t.core pd mc).seq = (s.core pd mc).seq + 1) ∧
    (∀ r, s.canDispatch pd mc = true → (s.core pd mc).stopPend = none → (s.core pd mc).x.pc.toNat < (s.core pd mc).progLen →
      decodeT s.fullDies.length ((s.core pd mc).fetch (s.core pd mc).x.pc.toNat) = .error r →
      Completes (.reservedOpcode pd mc) s fun t => Stopped s t pd mc (s.core pd mc).x.pc.toNat r)

/-- WLD, STR, DRN and MVR enter their queues with the operands read at dispatch, in program order; later changes of the
registers do not reach them (R142, R143, R145, R146). -/
def Obligations.ArrayInstructionsQueueTheirOperands : Prop :=
  ∀ s : State, Canon s → ∀ (pd : PD) (mc : MC),
    (∀ bsel n k, Ready s pd mc (.wld bsel n k) → (s.core pd mc).hasPlace .lq s.sched.beat = true → Completes (.wld pd mc) s fun t =>
      ∃ b, b = selBank bsel (s.core pd mc).x.lastW ∧
      (t.core pd mc).lq = (s.core pd mc).lq ++ [⟨(s.core pd mc).x.pc.toNat, s.sched.beat, (s.core pd mc).seq,
        .wld b ((s.core pd mc).x.rdT n) ((s.core pd mc).x.rdK k), none⟩] ∧
      (t.core pd mc).x = { (s.core pd mc).x with pc := (s.core pd mc).x.pc + 1, lastW := b } ∧
      (t.core pd mc).nextD = s.sched.beat + 1 ∧ OthersKept s t pd mc) ∧
    (∀ bsel n set wide ab ti, Ready s pd mc (.str bsel n set wide ab ti) → (s.core pd mc).hasPlace .sq s.sched.beat = true →
      Completes (.str pd mc) s fun t =>
        ∃ b, b = selBank bsel (s.core pd mc).x.lastS ∧
        (t.core pd mc).sq = (s.core pd mc).sq ++ [⟨(s.core pd mc).x.pc.toNat, s.sched.beat, (s.core pd mc).seq,
          .str b ((s.core pd mc).x.rdT n) set wide ab ti (if b then (s.core pd mc).wldSeen1 else (s.core pd mc).wldSeen0), none⟩] ∧
        (t.core pd mc).x = { (s.core pd mc).x with pc := (s.core pd mc).x.pc + 1, lastS := b } ∧
        (t.core pd mc).nextD = s.sched.beat + 1 ∧ OthersKept s t pd mc) ∧
    (∀ n ofmt sat rsEn csEn rs cs dst vd ti ab, Ready s pd mc (.drn n ofmt sat rsEn csEn rs cs dst vd ti ab) →
      (s.core pd mc).hasPlace .dq s.sched.beat = true → Completes (.drn pd mc) s fun t =>
        (t.core pd mc).dq = (s.core pd mc).dq ++ [⟨(s.core pd mc).x.pc.toNat, s.sched.beat, (s.core pd mc).seq,
          .drn ((s.core pd mc).x.rdT n) ofmt sat rsEn csEn ((s.core pd mc).x.rdA rs) ((s.core pd mc).x.rdA cs) dst vd ti ab, none⟩] ∧
        (t.core pd mc).x = { (s.core pd mc).x with pc := (s.core pd mc).x.pc + 1 } ∧
        (t.core pd mc).nextD = s.sched.beat + 1 ∧ OthersKept s t pd mc) ∧
    (∀ mover a cpl cts, Ready s pd mc (.mvr mover a cpl cts) → (s.core pd mc).hasPlace .mq s.sched.beat = true →
      Completes (.mvr pd mc) s fun t =>
        (t.core pd mc).mq = (s.core pd mc).mq ++ [⟨(s.core pd mc).x.pc.toNat, s.sched.beat, (s.core pd mc).seq,
          .mvr mover ((s.core pd mc).x.rdA a) cpl cts, none⟩] ∧
        (t.core pd mc).x = { (s.core pd mc).x with pc := (s.core pd mc).x.pc + 1 } ∧
        (t.core pd mc).nextD = s.sched.beat + 1 ∧ OthersKept s t pd mc) ∧
    (∀ bsel n k, Ready s pd mc (.wld bsel n k) → (s.core pd mc).lq.length = 8 → exec (.wld pd mc) s = .next s)

namespace Sys2Proof.Claims

/-- The vector queue takes one entry behind those it holds, and the core goes on. -/
def VQueued (s t : State) (pd : PD) (mc : MC) (op : QOp) : Prop :=
  (t.core pd mc).vq = (s.core pd mc).vq ++ [⟨(s.core pd mc).x.pc.toNat, s.sched.beat, (s.core pd mc).seq, op, none⟩] ∧
  (t.core pd mc).x = { (s.core pd mc).x with pc := (s.core pd mc).x.pc + 1 } ∧ (t.core pd mc).nextD = s.sched.beat + 1 ∧
  (t.core pd mc).lq = (s.core pd mc).lq ∧ (t.core pd mc).sq = (s.core pd mc).sq ∧ (t.core pd mc).dq = (s.core pd mc).dq ∧
  (t.core pd mc).mq = (s.core pd mc).mq ∧ OthersKept s t pd mc

/-- A command that dispatches a VOP with function code fn queues it. -/
def VopQueues (c : PD → MC → Instr) (fn : Nat) : Prop :=
  ∀ s : State, Canon s → ∀ (pd : PD) (mc : MC) (vd va vb vc : Nat) (bf16 bcast : Bool),
    Ready s pd mc (.vop fn vd va vb vc bf16 bcast) → (s.core pd mc).hasPlace .vq s.sched.beat = true →
    Completes (c pd mc) s fun t => VQueued s t pd mc (.vop fn vd va vb vc bf16 bcast)

end Sys2Proof.Claims

/-- VMV, VLD, VST and every VOP enter the vector queue with the operands read at dispatch, one function code to each VOP row
(R144, R146). -/
def Obligations.VectorInstructionsQueueTheirOperands : Prop :=
  (∀ s : State, Canon s → ∀ (pd : PD) (mc : MC), (s.core pd mc).hasPlace .vq s.sched.beat = true →
    (∀ vd vs ntok n src a wfmt, Ready s pd mc (.vmv vd vs ntok n src a wfmt) → Completes (.vmv pd mc) s fun t =>
      VQueued s t pd mc (.vmv vd vs ntok ((s.core pd mc).x.rdT n) src ((s.core pd mc).x.rdA a) wfmt)) ∧
    (∀ v space n a fmt, Ready s pd mc (.vld v space n a fmt) → Completes (.vld pd mc) s fun t =>
      VQueued s t pd mc (.vld v space ((s.core pd mc).x.rdT n) ((s.core pd mc).x.rdA a) fmt)) ∧
    (∀ v space n a fmt sat, Ready s pd mc (.vst v space n a fmt sat) → Completes (.vst pd mc) s fun t =>
      VQueued s t pd mc (.vst v space ((s.core pd mc).x.rdT n) ((s.core pd mc).x.rdA a) fmt sat))) ∧
  VopQueues .vadd 0x00 ∧ VopQueues .vsub 0x01 ∧ VopQueues .vmul 0x02 ∧ VopQueues .vfma 0x03 ∧ VopQueues .vmax 0x04 ∧
  VopQueues .vmin 0x05 ∧ VopQueues .vexp2 0x06 ∧ VopQueues .vrcp 0x07 ∧ VopQueues .vrsqrt 0x08 ∧ VopQueues .vredsum 0x09 ∧
  VopQueues .vredmax 0x0A ∧ VopQueues .vcvt 0x0B ∧ VopQueues .vmov 0x0C ∧ VopQueues .vsplat 0x0D

/-- TSOP adds and subtracts are posted to take effect 3 beats later at a core-private Turnstile, 12 at the own die's pool, over
Midway at another die's; waits and ALT wait with the scheduled beat (R138, R252, R254, R257). -/
def Obligations.TurnstileInstructionsPostOrWait : Prop :=
  ∀ s : State, Canon s → ∀ (pd : PD) (mc : MC), (s.core pd mc).dstep = false → (s.core pd mc).altRun = none →
    (∀ sub : Bool, ∀ cls ldie index k, cls < 2 → Ready s pd mc (.tsop (b2n sub) cls ldie index k) →
      Completes (if sub then .tsopSubtract pd mc else .tsopAdd pd mc) s fun t =>
        Went s t pd mc (s.sched.beat + 1) id ∧
        (∃ o, t.ts = { s.ts with ops := s.ts.ops ++ [o] } ∧ o.key = tsKeyOf pd mc cls index ∧ o.sub = sub ∧ o.k = k ∧
          o.y = s.clock.beats.toNat + (if cls = 0 then 3 else 12))) ∧
    (∀ sub : Bool, ∀ ldie index k, Ready s pd mc (.tsop (b2n sub) 2 ldie index k) →
      Completes (if sub then .tsopSubtract pd mc else .tsopAdd pd mc) s fun t =>
        Went s t pd mc (s.sched.beat + 1) id ∧
        (∃ o, t.ts = { s.ts with remote := s.ts.remote ++ [o] } ∧ o.key = poolKey ((s.pdOfLd ldie).getD pd) index ∧ o.sub = sub ∧
          o.k = k ∧ o.y = s.clock.beats.toNat + 180)) ∧
    (∀ cls ldie index n, Ready s pd mc (.tsop 2 cls ldie index n) → Completes (.tsopWaitAtLeast pd mc) s fun t =>
      (t.core pd mc).status = .waitTs ∧ (t.core pd mc).x = (s.core pd mc).x ∧
      t.ts = { s.ts with waits := s.ts.waits ++
        [⟨tsKeyOf pd mc cls index, .atLeast, n, pd, mc, s.sched.beat, s.sched.beat - (s.core pd mc).stall⟩] }) ∧
    (∀ cls ldie index n, Ready s pd mc (.tsop 3 cls ldie index n) → Completes (.tsopWaitThenSubtract pd mc) s fun t =>
      (t.core pd mc).status = .waitTs ∧ (t.core pd mc).x = (s.core pd mc).x ∧
      t.ts = { s.ts with waits := s.ts.waits ++
        [⟨tsKeyOf pd mc cls index, .thenSub, n, pd, mc, s.sched.beat, s.sched.beat - (s.core pd mc).stall⟩] }) ∧
    (∀ cls index count, Ready s pd mc (.alt cls index count) → Completes (.alt pd mc) s fun t =>
      (t.core pd mc).status = .waitTs ∧ (t.core pd mc).hold = .alt count ∧ (t.core pd mc).x = (s.core pd mc).x ∧
      t.ts = { s.ts with waits := s.ts.waits ++
        [⟨tsKeyOf pd mc cls index, .alt, 1, pd, mc, s.sched.beat, s.sched.beat - (s.core pd mc).stall⟩] })

/-- A wait is released when the Turnstile holds N: wait-at-least leaves the value, wait-then-subtract takes N off, and the
core goes on 3 beats later for a core-private Turnstile and 12 for the die pool (R147, R252, R257). -/
def Obligations.WaitsReleaseWhenTheValueIsReached : Prop :=
  ∀ s : State, Canon s → ∀ (pd : PD) (mc : MC) (index : Fin 4096) (own : Bool) (w : TsWait),
    w.key = (if own then privKey pd mc index.val else poolKey pd index.val) → w.pd = pd → w.mc = mc → s.ts.waits = [w] →
    s.waitLive w = true → w.n ≤ (s.tsCell w.key).v → (s.tsCell w.key).poke ≠ some s.clock.beats.toNat →
    (w.kind = .atLeast → Completes (.tsWaitRelease pd (if own then some mc else none) index) s fun t =>
      (t.core pd mc).status = .running ∧ (t.core pd mc).hold = .none ∧ (t.core pd mc).x.pc = (s.core pd mc).x.pc + 1 ∧
      (t.core pd mc).nextD = max w.d s.sched.beat + (if own then 3 else 12) ∧ t.ts.waits = [] ∧ t.ts.cells = s.ts.cells) ∧
    (w.kind = .thenSub → Completes (.tsWaitRelease pd (if own then some mc else none) index) s fun t =>
      (t.core pd mc).status = .running ∧ (t.core pd mc).hold = .none ∧ (t.core pd mc).x.pc = (s.core pd mc).x.pc + 1 ∧
      (t.core pd mc).nextD = max w.d s.sched.beat + (if own then 3 else 12) ∧ t.ts.waits = [] ∧
      (t.tsCell w.key).v = (s.tsCell w.key).v - w.n ∧ ∀ k, k ≠ w.key → t.tsCell k = s.tsCell k)

namespace Sys2Proof.Claims

/-- The entry e heads a queue of the core, may issue at this beat, and its work is op on logical die ld. -/
def Heads (s : State) (pd : PD) (mc : MC) (q : QName) (e : QEnt) (op : QOp) (ld : Nat) : Prop :=
  s.headAt pd mc q = some e ∧ e.op = op ∧ s.ldOf pd = some ld

/-- The core's registers but those named by the caller are as they were: f is its context with the named ones changed. -/
def CtxIs (s t : State) (pd : PD) (mc : MC) (x : CoreCtx) : Prop :=
  (t.core pd mc).x = x ∧ ∀ pd' mc', pd' ≠ pd ∨ mc' ≠ mc → t.core pd' mc' = s.core pd' mc'

/-- Rows of bytes as scheduled writes leave them in Tier S: line by line, an image's lines unwritten. -/
def storedRows (s : State) (t : BitVec 128) (rows : List (List Byte)) (m : List (Nat × Byte)) : List (Nat × Byte) :=
  rows.zipIdx.foldl (fun m (r : List Byte × Nat) => (List.range ((r.1.length + 127) / 128)).foldl (fun m j =>
    if s.imageRo (tdSeg t r.2 j) then m else mputs tierSReset m (tdSeg t r.2 j) ((r.1.drop (128 * j)).take 128)) m) m

/-- The values that a drain converts: scales applied, narrowed to its format (R91, R142). -/
def drained (s : State) (pd : PD) (mc : MC) (rows ofmt : Nat) (sat rsEn csEn : Bool) (rs cs : DWord) (base : Nat) (mask : BitVec 16) :
    List (List Nat) :=
  (List.range rows).map fun i => (outCols mask).zipIdx.map fun (col, ch) =>
    drainElem ofmt sat (if rsEn then some (s.scaleAt rs i) else none) (if csEn then some (s.scaleAt cs ch) else none)
      ((s.core pd mc).x.rdAcc (base + i) col)

end Sys2Proof.Claims

/-! Tile programs: issue, stops, the operand cache. -/

/-- A weight load takes 24 beats to its first row, sets the whole bank and its attributes, and sets VALID with the last row,
255 beats later (R99, R101, R142). -/
def Obligations.WeightLoadsFillTheirBank : Prop :=
  ∀ s : State, Canon s → ∀ (pd : PD) (mc : MC),
    (∀ e ld bank t k err, Heads s pd mc .lq e (.wld bank t k) ld → (s.core pd mc).wldReady e bank (s.sched.beat + 24) = true →
      tdCheck ld t = none → tdRows t = 256 → tdWidth t = 256 → tagsOk (kMask k) (kTags k) = true →
      s.spans (s.core pd mc) (s.sched.beat + 279) = false →
      s.calHolder [tdRun ld t 256 2 (s.absB (s.sched.beat + 14)) 1 false (s.lcNo pd mc)] = none →
      Completes (.lqIssue pd mc err) s fun u =>
        CtxIs s u pd mc ((s.core pd mc).x.setBank bank
          (s.loadedBank t k ((s.core pd mc).x.bank bank) (s.sched.beat + 24))) ∧
        (u.core pd mc).lq = (s.core pd mc).lq.tail ∧ (u.core pd mc).hist.lastL = some (s.sched.beat + 24) ∧
        u.tierS.mem = s.tierS.mem ∧ u.memsys = s.memsys) ∧
    (∀ e ld bank t k err, Heads s pd mc .lq e (.wld bank t k) ld → (s.core pd mc).wldReady e bank (s.sched.beat + 24) = true →
      tdCheck ld t = none → (tdRows t ≠ 256 ∨ tdWidth t ≠ 256) →
      Completes (.lqIssue pd mc err) s fun u => Stopped s u pd mc e.pc 0x04) ∧
    (∀ bank l, ((s.core pd mc).x.bank bank).loadL = some l → l + 255 ≤ s.sched.beat →
      Completes (.weightLoadDone pd mc bank) s fun u =>
        CtxIs s u pd mc ((s.core pd mc).x.setBank bank { (s.core pd mc).x.bank bank with valid := true }) ∧
        u = { s with cores := u.cores }) ∧
    (∀ bank l, ((s.core pd mc).x.bank bank).loadL = some l → s.sched.beat < l + 255 → exec (.weightLoadDone pd mc bank) s = .next s)

/-- A stream starts 24 beats behind its issue, adds its sums to the accumulator rows from BASE on or sets them, and records the
bank's mode mask there; no other accumulator row, and no other register of the core but F of its bank, changes (R104, R107,
R114, R143). -/
def Obligations.StreamsWriteTheirAccumulatorRows : Prop :=
  ∀ s : State, Canon s → ∀ (pd : PD) (mc : MC), CtxCanon (s.core pd mc).x → rising (s.core pd mc).x.accMask = true →
    (∀ e ld bank t set wide base tile seen err, Heads s pd mc .sq e (.str bank t set wide base tile seen) ld →
      (s.core pd mc).strReady e bank wide base (tdRows t) (s.sched.beat + 24) = true →
      s.strBad (s.core pd mc) ld ((s.core pd mc).x.bank bank) t wide base seen (s.sched.beat + 24) = none →
      s.calHolder [tdRun ld t (tdRows t) (tdWidth t / 128) (s.absB (s.sched.beat + 14)) (if wide then 4 else 1) false (s.lcNo pd mc)] = none →
      Completes (.sqIssue pd mc err) s fun u =>
        (u.core pd mc).sq = (s.core pd mc).sq.tail ∧ u.tierS.mem = s.tierS.mem ∧ u.memsys = s.memsys ∧
        (∀ i, i < tdRows t → mget (fun _ => 0) (u.core pd mc).x.accMask (base + i) = ((s.core pd mc).x.bank bank).modeMask) ∧
        (∀ m c, c < 256 → (m < base ∨ base + tdRows t ≤ m) → (u.core pd mc).x.rdAcc m c = (s.core pd mc).x.rdAcc m c) ∧
        (∀ m, (m < base ∨ base + tdRows t ≤ m) →
          mget (fun _ => 0) (u.core pd mc).x.accMask m = mget (fun _ => 0) (s.core pd mc).x.accMask m) ∧
        CtxIs s u pd mc (({ (s.core pd mc).x with acc := (u.core pd mc).x.acc, accMask := (u.core pd mc).x.accMask }).setBank bank
          { (s.core pd mc).x.bank bank with fb := ((u.core pd mc).x.bank bank).fb }) ∧
        (let o := streamOut ((s.core pd mc).x.bank bank) (tdFmt t) ((List.range (tdRows t)).map fun i => s.rowBytes t i (tdWidth t)) (flipOf err)
         firstFail o wide (s.sched.beat + 24)
           (if wide then s.sched.beat + 24 + 4 * (tdRows t - 1) + 1 else s.sched.beat + 24 + tdRows t) = none → tdRows t = 1 → ∀ c, c ∈ outCols ((s.core pd mc).x.bank bank).modeMask →
           ∃ v, (c, v) ∈ o.sums.headD [] ∧
             (u.core pd mc).x.rdAcc base c = accumulate set ((s.core pd mc).x.rdAcc base c) v)) ∧
    (∀ e ld bank t set wide base tile seen err r, Heads s pd mc .sq e (.str bank t set wide base tile seen) ld →
      (s.core pd mc).strReady e bank wide base (tdRows t) (s.sched.beat + 24) = true →
      s.strBad (s.core pd mc) ld ((s.core pd mc).x.bank bank) t wide base seen (s.sched.beat + 24) = some r →
      Completes (.sqIssue pd mc err) s fun u =>
        (u.core pd mc).status = .stoppedError ∧ (u.core pd mc).x = (s.core pd mc).x ∧ (u.core pd mc).sq = [])

/-- A drain reads its scales first where it has any, then converts its accumulator rows: into Tier S row by row, an image's lines
kept, or into vector registers; the accumulators stay (R91, R142, R187, R272, R280). -/
def Obligations.DrainsConvertAccumulatorRows : Prop :=
  ∀ s : State, Canon s → ∀ (pd : PD) (mc : MC),
    (∀ e ld t ofmt sat rsEn csEn rs cs dst vd tile base err, Heads s pd mc .dq e (.drn t ofmt sat rsEn csEn rs cs dst vd tile base) ld →
      (s.core pd mc).hist.dqFree ≤ s.sched.beat → (rsEn || csEn) = true → e.h = none →
      (rsEn = true → scaleOk ld rs (tdRows t) = true) →
      (csEn = true → scaleOk ld cs (outCols ((s.core pd mc).maskBefore base e.seq)).length = true) →
      (∀ rs', s.calHolder rs' = none) →
      Completes (.dqIssue pd mc err) s fun u =>
        (u.core pd mc).dq = { e with h := some s.sched.beat } :: (s.core pd mc).dq.tail ∧ (u.core pd mc).x = (s.core pd mc).x ∧
        u.tierS.mem = s.tierS.mem) ∧
    (∀ e ld t ofmt sat rsEn csEn rs cs dst vd tile base err, Heads s pd mc .dq e (.drn t ofmt sat rsEn csEn rs cs dst vd tile base) ld →
      let mask := (s.core pd mc).maskBefore base e.seq
      let n := (outCols mask).length
      let out := drained s pd mc (tdRows t) ofmt sat rsEn csEn rs cs base mask
      (s.core pd mc).hist.dqFree ≤ s.sched.beat → ((rsEn || csEn) = true → e.h.isSome = true) →
      (∀ h, e.h = some h → h + 21 + (scaleLines (tdRows t) n rsEn csEn).1 + (scaleLines (tdRows t) n rsEn csEn).2 ≤ s.sched.beat + 4) →
      (s.core pd mc).drnReady e (tdRows t) base (s.sched.beat + 4) (drnPeriod ofmt) dst vd = true →
      base + tdRows t ≤ 1024 → (∀ rs', s.calHolder rs' = none) →
      (dst = false → tdCheck ld t = none → n * fmtWidth ofmt ≤ tdWidth t → Completes (.dqIssue pd mc err) s fun u =>
        (u.core pd mc).dq = (s.core pd mc).dq.tail ∧ (u.core pd mc).x = (s.core pd mc).x ∧
        u.tierS.mem = storedRows s t (out.map (outBytes ofmt)) s.tierS.mem ∧
        (u.core pd mc).nf.lastTile = tile ∧ (u.core pd mc).nf.lastAcc = base ∧ (u.core pd mc).nf.lastValid = true) ∧
      (dst = true → tdRows t ≠ 0 → ofmt = 3 → vd + tdRows t ≤ 32 → Completes (.dqIssue pd mc err) s fun u =>
        (u.core pd mc).dq = (s.core pd mc).dq.tail ∧ u.tierS.mem = s.tierS.mem ∧
        (u.core pd mc).x = out.zipIdx.foldl (fun (x : CoreCtx) (r : List Nat × Nat) =>
          x.wrV (vd + r.2) (lanes fun l => BitVec.ofNat 32 (r.1.getD l 0))) (s.core pd mc).x ∧
        (u.core pd mc).nf.lastTile = tile ∧ (u.core pd mc).nf.lastAcc = base ∧ (u.core pd mc).nf.lastValid = true))

/-- Vector work: a VOP writes its lanes, a VLD from Tier S its widened row, a VST its narrowed row; the mover queue's head takes
the lowest free slot of its mover, or waits with a stall (R160, R165, R330). -/
def Obligations.VectorAndMoverWorkIssues : Prop :=
  ∀ s : State, Canon s → ∀ (pd : PD) (mc : MC),
    (∀ e ld fn vd va vb vc bf16 bcast err, Heads s pd mc .vq e (.vop fn vd va vb vc bf16 bcast) ld →
      s.vqReady pd mc e s.sched.beat = true → Completes (.vqIssue pd mc err) s fun u =>
        (u.core pd mc).vq = (s.core pd mc).vq.tail ∧ u.tierS = s.tierS ∧
        CtxIs s u pd mc ((s.core pd mc).x.wrV vd
          (vopLanes fn bf16 bcast ((s.core pd mc).x.rdV va) ((s.core pd mc).x.rdV vb) ((s.core pd mc).x.rdV vc)))) ∧
    (∀ e ld v t a fmt err, Heads s pd mc .vq e (.vld v false t a fmt) ld → s.vqReady pd mc e s.sched.beat = true →
      vqBad ld (.vld v false t a fmt) = none →
      s.calHolder [tdRun ld t 1 (tdWidth t / 128) (s.absB (s.sched.beat + 14)) 1 false (s.lcNo pd mc)] = none →
      Completes (.vqIssue pd mc err) s fun u =>
        (u.core pd mc).vq = (s.core pd mc).vq.tail ∧ u.tierS.mem = s.tierS.mem ∧
        CtxIs s u pd mc ((s.core pd mc).x.wrV v (widenRow fmt (s.rowBytes t 0 (tdWidth t))))) ∧
    (∀ e ld v t a fmt sat err, Heads s pd mc .vq e (.vst v false t a fmt sat) ld → s.vqReady pd mc e s.sched.beat = true →
      vqBad ld (.vst v false t a fmt sat) = none →
      s.calHolder [tdRun ld t 1 (tdWidth t / 128) (s.absB (s.sched.beat + 24)) 1 true (s.lcNo pd mc)] = none →
      Completes (.vqIssue pd mc err) s fun u =>
        (u.core pd mc).vq = (s.core pd mc).vq.tail ∧ CtxIs s u pd mc (s.core pd mc).x ∧
        u.tierS.mem = storedRows s t [narrowRow fmt sat ((s.core pd mc).x.rdV v)] s.tierS.mem) ∧
    (∀ e i addr cpl cts k, s.headAt pd mc .mq = some e → e.op = .mvr i addr cpl cts → (s.core pd mc).hist.mqNext ≤ s.sched.beat →
      (s.core pd mc).mqWait = none → s.takesWork (mvPage pd i) = true → (s.mover pd i).freeMvr = some k →
      Completes (.mqIssue pd mc) s fun u =>
        (u.core pd mc).mq = (s.core pd mc).mq.tail ∧ CtxIs s u pd mc (s.core pd mc).x ∧
        ∃ v, (u.mover pd i).slot k = some v ∧ v.pd = pd ∧ v.mc = mc ∧ v.addr = addr.toNat ∧ v.cpl = cpl ∧ v.cts = cts ∧
          v.fetched = false ∧ v.e = s.clock.beats.toNat) ∧
    (∀ e i addr cpl cts, s.headAt pd mc .mq = some e → e.op = .mvr i addr cpl cts → (s.core pd mc).hist.mqNext ≤ s.sched.beat →
      (s.mover pd i).freeMvr = none → (s.core pd mc).hist.holdBeat ≠ some s.sched.beat →
      Completes (.mqIssue pd mc) s fun u =>
        (u.core pd mc).stall = (s.core pd mc).stall + 1 ∧ (u.core pd mc).mq = (s.core pd mc).mq ∧ u = { s with cores := u.cores })

/-- A trap stops the core once its work is done, with its record; the operand cache installs what it asked for, loses what a home
invalidates, gives up merging-buffer entries without a write for 64 beats, and halves its error counts (R175, R177, R179, R180,
R192). -/
def Obligations.TrapsAndOperandCacheEvents : Prop :=
  ∀ s : State, Canon s → ∀ (pd : PD) (mc : MC), rising (s.tc pd mc).lines = true →
    (∀ r, (s.core pd mc).trapRow = some r → r.d + 6 < s.sched.beat → (s.core pd mc).hist.allDone < s.sched.beat →
      (s.core pd mc).tcAcc = [] → (s.core pd mc).status.issues = true → Completes (.trapStopDone pd mc) s fun u =>
        (u.core pd mc).status = .stoppedTrap ∧ (u.core pd mc).nf.trapRec = some r.rec_ ∧ (u.core pd mc).queuesEmpty = true ∧
        CtxIs s u pd mc (s.core pd mc).x) ∧
    (∀ (line : BitVec 45) f err, s.fenced (tcachePage pd mc) = false → (s.tc pd mc).inSlot line.toNat = some f →
      Completes (.tcFillArrive pd mc line err) s fun u => ∀ g, g ∈ (u.tc pd mc).fills → g.line ≠ line.toNat) ∧
    (∀ (line : BitVec 45) f bs s1, s.tcFill pd mc line.toNat = (0, bs, s1) → s.fenced (tcachePage pd mc) = false → (s.tc pd mc).inSlot line.toNat = some f → f.demand = true → s1.tcBypass pd mc = false → (s1.tc pd mc).fills.find? (·.line == line.toNat) = some f →
      f.dropInst = false → rising (s1.tc pd mc).lines = true →
      Completes (.tcFillArrive pd mc line .none) s fun u => ((u.tc pd mc).find line.toNat).isSome = true) ∧
    (∀ line : BitVec 45, Completes (.tcSnoopInval pd mc line) s fun u =>
      (u.tc pd mc).find line.toNat = none ∧ (∀ l, l ∈ (u.tc pd mc).side → l.tag ≠ line.toNat) ∧
      (∀ g, g ∈ (u.tc pd mc).fills → g.line = line.toNat → g.dropInst = true) ∧ (u.tc pd mc).mb = (s.tc pd mc).mb ∧
      u = { s with tcs := u.tcs }) ∧
    (∀ (line : BitVec 45) e, s.fenced (tcachePage pd mc) = false → (s.tc pd mc).mb.find? (·.line == line.toNat) = some e →
      (e.last + 64 ≤ s.sched.beat → Completes (.mbAgeTimeout pd mc line) s fun u => ∀ g, g ∈ (u.tc pd mc).mb → g.line ≠ line.toNat) ∧
      (s.sched.beat < e.last + 64 → exec (.mbAgeTimeout pd mc line) s = .next s)) ∧
    Completes (.tcWayErrDecay pd mc) s fun u =>
      (∀ w, w < 16 → u.fld (tcachePage pd mc) Reg.TCACHE_WAY_ERR_COUNT w = s.fld (tcachePage pd mc) Reg.TCACHE_WAY_ERR_COUNT w / 2) ∧
      (∀ q off, (∀ w, w < 16 → regKey q off ≠ regKey (tcachePage pd mc) (0x140 + 4 * w)) → u.reg q off = s.reg q off) ∧
      u = { s with regs := u.regs }

/-- A mover fetches its descriptor and checks it, posts when its transfer is done and its budget has run, and frees the slot;
Carousel begins the first record in job order that may, posts what is due, and takes a site's selector (R321, R323, R325, R326,
R329, R330, R331). -/
def Obligations.MoversAndCarouselMakeTheirMoves : Prop :=
  ∀ s : State, Canon s → ∀ pd : PD,
    (∀ (i : MoverIx) (slot : Fin 8) v, s.fenced (mvPage pd i.val) = false → (s.mover pd i.val).slot slot.val = some v → v.fetched = false →
      let d := mvDesc (leNat (s.sRead v.addr 64))
      v.addr % 64 = 0 → s.saOk v.addr = true → s.poisonIn v.addr 64 = none →
      mvDescCode s.fullDies.length (leNat (s.sRead v.addr 64)) = 0 → d.budget ≤ v.room →
      (d.op = 1 ∨ (d.sSys = false ∧ d.dSys = false)) → v.bad = false → Completes (.moverDescFetch pd i slot none) s fun t =>
        ∃ w, (t.mover pd i.val).slot slot.val = some w ∧ w.fetched = true ∧ w.bad = false ∧ w.budget = d.budget ∧ w.cls = d.cls ∧
          w.ld = d.ld ∧ w.index = d.index ∧ w.value = d.value ∧ w.x.select = (d.op == 1) ∧
          w.x.geom = (if d.op = 1 then { sAddr := d.src } else mvGeom d)) ∧
    (∀ (i : MoverIx) (slot : Fin 8) v, s.fenced (mvPage pd i.val) = false → (s.mover pd i.val).slot slot.val = some v → v.fetched = false →
      v.addr % 64 = 0 → s.saOk v.addr = true → s.poisonIn v.addr 64 = none →
      mvDescCode s.fullDies.length (leNat (s.sRead v.addr 64)) ≠ 0 → Completes (.moverDescFetch pd i slot none) s fun t =>
        ∃ w, (t.mover pd i.val).slot slot.val = some w ∧ w.fetched = true ∧ w.bad = true ∧
          w.x.fail = some (mvDescCode s.fullDies.length (leNat (s.sRead v.addr 64)))) ∧
    (∀ (i : MoverIx) (slot : Fin 8) v y, s.fenced (mvPage pd i.val) = false → (s.mover pd i.val).slot slot.val = some v →
      rising (s.mover pd i.val).mvr = true → v.postBeat = some y →
      (s.clock.beats.toNat < y → exec (.moverPost pd i slot) s = .next s) ∧
      (y ≤ s.clock.beats.toNat → v.bad = false → v.cls = 1 → v.cpl = false → s.ts.ops = [] →
        Completes (.moverPost pd i slot) s fun t =>
          (t.mover pd i.val).slot slot.val = none ∧
          (t.tsCell (poolKey pd v.index)).v =
            min ((s.tsCell (poolKey pd v.index)).v + (if v.x.select then v.x.value else v.value)) tsMax ∧
          ∀ k, k ≠ poolKey pd v.index → t.tsCell k = s.tsCell k)) ∧
    (s.fenced (carPage pd) = false →
      (∀ u, u = s.carAdvance pd → u.carGoes = true → u.frozen = false → u.takesWork (carPage pd) = true →
        ∀ p r, u.firstBegin pd (u.positions ((s.ldOf pd).getD 0) (u.car pd).first 64) = some (p, r) → r.kind ≠ 2 →
        Completes (.carouselBegin pd) s fun t =>
          (∀ k, k ∈ r.slabs → t.slab r.ld k = .allocated) ∧
          ∃ o, (t.car pd).occ p = some o ∧ o.slabs = r.slabs ∧ o.held = true ∧ (o.phase = .inflight ∨ (o.phase = .done ∧ o.code ≠ 0))) ∧
      (∀ u, u = s.carAdvance pd →
        u.firstBegin pd (u.positions ((s.ldOf pd).getD 0) (u.car pd).first 64) = none → exec (.carouselBegin pd) s = .next u) ∧
      (∀ o, ((s.car pd).occs.filter fun q => q.phase == .done && q.job == s.sched.jstep.toNat) = [o] → ∀ r, s.layer o.rec_ = some r →
        s.schedRuns = true → s.carPostBeat o r.due ≤ s.sched.beat → s.ts.ops = [] → r.postClass = 2 →
        Completes (.carouselPost pd) s fun t =>
          (∃ q, (t.car pd).occ (o.job, o.rec_) = some q ∧ q.phase = .posted) ∧
          (t.tsCell (poolKey pd r.postIndex)).v = min ((s.tsCell (poolKey pd r.postIndex)).v + r.postValue) tsMax) ∧
      (∀ (site : Half) a, s.altRecord site.toNat = some a → ∀ b k, s.selector pd a = some (b, k) → b < s.clock.beats.toNat →
        s.inStep = true → s.pdOfLd (a.lc / 16) = some pd → (s.car pd).site s.sched.jstep.toNat site.toNat = none →
        Completes (.carouselSelector pd site) s fun t =>
          (t.car pd).site s.sched.jstep.toNat site.toNat = some { job := s.sched.jstep.toNat, site := site.toNat, alt := k } ∧
          ∀ x, x ∈ s.siteRecs pd s.sched.jstep.toNat site.toNat → x.2.altK ≠ k →
            ∃ o, (t.car pd).occ (s.sched.jstep.toNat, x.1) = some o ∧ (o.phase = .posted ∨ o.phase = .cancelled)))

namespace Sys2Proof.Claims

/-- The page is open to writes of its block registers by who, its protected fields unlocked for who. -/
def UnlockedFor (s : State) (p : Page) (who : Requester) : Prop := s.accessible p = true ∧ (s.page p).lock = .unlocked who

/-- A command register's status after an end with a code: GO clear, CODE loaded, VALID set, the page's interrupt bit set. -/
def Ended (t : State) (p : Page) (go code valid : RegField) (bit n : Nat) : Prop :=
  t.flag p go = false ∧ t.fld p code = n ∧ t.flag p valid = true ∧ (t.reg p 0x010).getLsbD bit = true

def CoreEnded (t : State) (pd : PD) (mc : MC) (n : Nat) : Prop :=
  Ended t (mcorePage pd mc) Reg.MCORE_CMD_GO Reg.MCORE_CMD_STATUS_CODE Reg.MCORE_CMD_STATUS_VALID 3 n
def PoolEnded (t : State) (pd : PD) (n : Nat) : Prop :=
  Ended t (diePage .tstile pd) Reg.TS_CMD_GO Reg.TS_CMD_STATUS_CODE Reg.TS_CMD_STATUS_VALID 3 n
def ScratchEnded (t : State) (pd : PD) (n : Nat) : Prop :=
  Ended t (diePage .tsram pd) Reg.TSRAM_CMD_GO Reg.TSRAM_CMD_STATUS_CODE Reg.TSRAM_CMD_STATUS_VALID 3 n

/-- A command written with GO to an idle MCORE_CMD runs: the core is CMD_BUSY with its operands held, the rest of it kept. -/
def CoreCommandRuns (c : Requester → PD → MC → Instr) (n : Nat) : Prop :=
  ∀ s : State, Canon s → ∀ (who : Requester) (pd : PD) (mc : MC), s.accessible (mcorePage pd mc) = true →
    s.takesWork (mcorePage pd mc) = true → s.flag (mcorePage pd mc) Reg.MCORE_CMD_GO = false →
    (cmdPermits n (s.core pd mc).status = true → (n = 1 → s.fld (mcorePage pd mc) Reg.MCORE_PROG_LEN_LEN ≠ 0) →
      Completes (c who pd mc) s fun t =>
        t.core pd mc = { s.core pd mc with
          status := .cmdBusy, before := (s.core pd mc).status, cmdRun := n
          cmdAddr := if n = 1 then s.reg64 (mcorePage pd mc) 0x110 else s.reg64 (mcorePage pd mc) 0x11C
          cmdLen := s.fld (mcorePage pd mc) Reg.MCORE_PROG_LEN_LEN } ∧
        t.flag (mcorePage pd mc) Reg.MCORE_CMD_GO = true ∧ t.flag (mcorePage pd mc) Reg.MCORE_CMD_STATUS_VALID = false ∧
        t.fld (mcorePage pd mc) Reg.MCORE_CMD_CMD = n ∧ OthersKept s t pd mc) ∧
    (cmdPermits n (s.core pd mc).status = false → Completes (c who pd mc) s fun t =>
      CoreEnded t pd mc 0x30 ∧ t.core pd mc = s.core pd mc ∧ t.flag (mcorePage pd mc) Reg.BLK_STAT_ERR = true)

end Sys2Proof.Claims

/-! Core, cache, Turnstile and scratch registers. -/

/-- HALT_REQ stops a running core at its next boundary and keeps its queues; TRAP_NAN applies from the next beat; CTXID takes
effect with an empty merging buffer, needs the unlock, and empties the cache; every command of MCORE_CMD runs in the states its
row of R155 permits and is refused with SCHED_ERROR in others (R153, R155, R173, R193). -/
def Obligations.CoreRegistersCommandTheirCore : Prop :=
  (∀ s : State, Canon s → ∀ (who : Requester) (pd : PD) (mc : MC), s.accessible (mcorePage pd mc) = true →
    (∀ on : Bool, Completes (.haltReqWrite who pd mc on) s fun t =>
      t.flag (mcorePage pd mc) Reg.MCORE_CTRL_HALT_REQ = on ∧ (t.core pd mc).x = (s.core pd mc).x ∧
      (t.core pd mc).lq = (s.core pd mc).lq ∧ (t.core pd mc).sq = (s.core pd mc).sq ∧ (t.core pd mc).dq = (s.core pd mc).dq ∧
      (t.core pd mc).vq = (s.core pd mc).vq ∧ (t.core pd mc).mq = (s.core pd mc).mq ∧ OthersKept s t pd mc ∧
      (t.core pd mc).status = (if on = true ∧ ((s.core pd mc).status = .running ∨ (s.core pd mc).status = .waitTs ∨
        (s.core pd mc).status = .waitStep) then .stoppedReq else (s.core pd mc).status)) ∧
    (∀ on : Bool, Completes (.trapNanWrite who pd mc on) s fun t =>
      t.flag (mcorePage pd mc) Reg.MCORE_CTRL_TRAP_NAN = on ∧ (t.core pd mc).x = (s.core pd mc).x ∧ OthersKept s t pd mc ∧
      (t.core pd mc).trapOn = (if s.flag (mcorePage pd mc) Reg.MCORE_CTRL_TRAP_NAN = on then (s.core pd mc).trapOn
        else (s.sched.beat + 1, on) :: (s.core pd mc).trapOn)) ∧
    (∀ ctx : Half, UnlockedFor s (mcorePage pd mc) who →
      ((s.tc pd mc).mb = [] → Completes (.mcoreCtxidWrite who pd mc ctx) s fun t =>
        t.fld (mcorePage pd mc) Reg.MCORE_CTXID_CTXID = ctx.toNat ∧ (t.tc pd mc).lines = [] ∧ (t.tc pd mc).side = [] ∧
        (t.tc pd mc).xlate = [] ∧ (t.page (mcorePage pd mc)).lock = .locked ∧ t.cores = s.cores) ∧
      ((s.tc pd mc).mb ≠ [] → Completes (.mcoreCtxidWrite who pd mc ctx) s fun t =>
        t.fld (mcorePage pd mc) Reg.MCORE_CTXID_CTXID = s.fld (mcorePage pd mc) Reg.MCORE_CTXID_CTXID ∧
        (t.tc pd mc).ctxPending = some ctx ∧ t.cores = s.cores)) ∧
    (∀ ctx : Half, (s.page (mcorePage pd mc)).lock = .locked → s.fld (mcorePage pd mc) Reg.MCORE_CTXID_CTXID ≠ ctx.toNat →
      Completes (.mcoreCtxidWrite who pd mc ctx) s fun t =>
        t.fld (mcorePage pd mc) Reg.MCORE_CTXID_CTXID = s.fld (mcorePage pd mc) Reg.MCORE_CTXID_CTXID ∧ t.tcs = s.tcs ∧
        t.flag (mcorePage pd mc) Reg.BLK_STAT_ERR = true) ∧
    (s.takesWork (mcorePage pd mc) = true → s.flag (mcorePage pd mc) Reg.MCORE_CMD_GO = false →
      Completes (.mcoreCmdNone who pd mc) s fun t => CoreEnded t pd mc 0 ∧ t.cores = s.cores)) ∧
  CoreCommandRuns .loadProgram 1 ∧ CoreCommandRuns .mcoreStart 2 ∧ CoreCommandRuns .saveCtx 3 ∧ CoreCommandRuns .restoreCtx 4 ∧
  CoreCommandRuns .mcoreClear 5

/-- Commands of MCORE_CMD end: LOAD_PROGRAM with its words in the program memory, START armed at MCORE_ENTRY, SAVE_CTX with the image
in memory, RESTORE_CTX with the image's context and flags, CLEAR with the core as after reset (R155, R156, R157, R200). -/
def Obligations.CoreCommandsEnd : Prop :=
  ∀ s : State, Canon s → ∀ (pd : PD) (mc : MC),
    let c := s.core pd mc
    let ctx := s.fld (mcorePage pd mc) Reg.MCORE_CTXID_CTXID
    (c.cmdRun = 1 → ∀ bs s1, s.memRead ctx c.cmdAddr (8 * c.cmdLen) = (0, bs, s1) → Completes (.mcoreCmdDone pd mc .none) s fun t =>
      (∀ i, i < c.cmdLen → (t.core pd mc).fetch i = BitVec.ofNat 64 (leNat ((bs.drop (8 * i)).take 8))) ∧
      (t.core pd mc).progLen = c.cmdLen ∧ (t.core pd mc).status = c.before ∧ (t.core pd mc).x = c.x ∧ CoreEnded t pd mc 0) ∧
    (∀ err, c.cmdRun = 2 → Completes (.mcoreCmdDone pd mc err) s fun t =>
      (t.core pd mc).status = .armed ∧ (t.core pd mc).nf.trapRec = none ∧
      (t.core pd mc).x = { c.x with pc := BitVec.ofNat 14 (s.fld (mcorePage pd mc) Reg.MCORE_ENTRY_PC) } ∧ CoreEnded t pd mc 0 ∧
      OthersKept s t pd mc) ∧
    (c.cmdRun = 3 → ∀ s1, s.memWrite ctx c.cmdAddr (s.ctxImage pd mc c.before) = (0, s1) → Completes (.mcoreCmdDone pd mc .none) s fun t =>
      t.memsys = s1.memsys ∧ (t.core pd mc).status = c.before ∧ (t.core pd mc).x = c.x ∧ CoreEnded t pd mc 0) ∧
    (c.cmdRun = 4 →
∀ bs s1, s.memRead ctx c.cmdAddr ctxSize = (0, bs, s1) →       (imgOk bs = true → Completes (.mcoreCmdDone pd mc .none) s fun t =>
        (t.core pd mc).status = .idle ∧ (t.core pd mc).x = imgCtx bs ∧ (t.core pd mc).nf = imgFlags bs ∧ CoreEnded t pd mc 0 ∧
        ∀ n, n < 64 → (t.tsCell (privKey pd mc n)).v = leNat ((bs.drop (0x400 + 4 * n)).take 4) % 2 ^ 31) ∧
      (imgOk bs = false → Completes (.mcoreCmdDone pd mc .none) s fun t =>
        (t.core pd mc).status = c.before ∧ (t.core pd mc).x = c.x ∧ CoreEnded t pd mc 0x30)) ∧
    (∀ err, c.cmdRun = 5 → Completes (.mcoreCmdDone pd mc err) s fun t =>
      t.core pd mc = { seq := c.seq } ∧ CoreEnded t pd mc 0 ∧
      ∀ n, n < 64 → (t.tsCell (privKey pd mc n)).v = 0 ∧ (t.tsCell (privKey pd mc n)).sticky = false)

/-- The operand cache's registers, NF_STAT and the Turnstile page: INV_ALL empties the cache, WAY_REEN enables ways and clears
their counts, the LFSR never holds 0, TS_VALUE writes the selected Turnstile alone with tag 0, reserved selections are refused,
a remote post arrives at its pool, and the pool's commands run and end (R175, R180, R182, R189, R254, R261, R264, R265, R266). -/
def Obligations.CacheAndTurnstileRegistersAct : Prop :=
  (∀ s : State, Canon s → ∀ (who : Requester) (pd : PD) (mc : MC),
    (s.accessible (tcachePage pd mc) = true → s.flag (tcachePage pd mc) Reg.TCACHE_INV_INV_ALL = false → Completes (.tcInvAll who pd mc) s fun t =>
      (t.tc pd mc).lines = [] ∧ (t.tc pd mc).side = [] ∧ (t.tc pd mc).mb = (s.tc pd mc).mb ∧ (t.tc pd mc).xlate = (s.tc pd mc).xlate ∧
      (∀ pd' mc', pd' ≠ pd ∨ mc' ≠ mc → t.tc pd' mc' = s.tc pd' mc') ∧ t = { s with tcs := t.tcs, regs := t.regs, pages := t.pages }) ∧
    (∀ ways : Half, UnlockedFor s (tcachePage pd mc) who → Completes (.tcWayReen who pd mc ways) s fun t =>
      (∀ w, w < 16 → bitOf (t.fld (tcachePage pd mc) Reg.TCACHE_STAT_WAY_DIS) w =
        (bitOf (s.fld (tcachePage pd mc) Reg.TCACHE_STAT_WAY_DIS) w && !ways.getLsbD w)) ∧
      (∀ w, w < 16 → t.fld (tcachePage pd mc) Reg.TCACHE_WAY_ERR_COUNT w =
        if ways.getLsbD w then 0 else s.fld (tcachePage pd mc) Reg.TCACHE_WAY_ERR_COUNT w) ∧
      (ways ≠ 0 → (t.tc pd mc).lastWay = false) ∧ (t.page (tcachePage pd mc)).lock = .locked ∧
      t = { s with tcs := t.tcs, regs := t.regs, pages := t.pages }) ∧
    (∀ v : Half, s.accessible (tcachePage pd mc) = true → Completes (.tcLfsrWrite who pd mc v) s fun t =>
      t.fld (tcachePage pd mc) Reg.TCACHE_LFSR_STATE = (if v = 0 then 0xACE1 else v.toNat) ∧
      t = { s with regs := t.regs, pages := t.pages }) ∧
    (s.accessible (mcorePage pd mc) = true → Completes (.nfFirstValidClear who pd mc) s fun t =>
      t.core pd mc = { s.core pd mc with nf := { (s.core pd mc).nf with firstRec := none } } ∧ OthersKept s t pd mc)) ∧
  (∀ s : State, Canon s → ∀ (who : Requester) (pd : PD),
    (∀ o, s.ts.remote = [o] → keyPd o.key = pd → s.ts.ops = [] →
      (s.clock.beats.toNat < o.y → exec (.tsRemotePost pd) s = .next { s with ts := { s.ts with remote := [], ops := [o] } }) ∧
      (o.y ≤ s.clock.beats.toNat → Completes (.tsRemotePost pd) s fun t =>
        t.ts.remote = [] ∧ t.ts.ops = [] ∧ (∀ k, k ≠ o.key → t.tsCell k = s.tsCell k) ∧
        (t.tsCell o.key).v = if o.sub then (s.tsCell o.key).v - o.k else min ((s.tsCell o.key).v + o.k) tsMax)) ∧
    (∀ v : Word, UnlockedFor s (diePage .tstile pd) who → Completes (.tsValueWrite who pd v) s fun t =>
      (t.tsCell (s.selKey pd (s.reg (diePage .tstile pd) 0x100).toNat)).v = v.toNat % 2 ^ 31 ∧
      (t.tsCell (s.selKey pd (s.reg (diePage .tstile pd) 0x100).toNat)).tag = 0 ∧
      (∀ k, k ≠ s.selKey pd (s.reg (diePage .tstile pd) 0x100).toNat → t.tsCell k = s.tsCell k) ∧
      (t.page (diePage .tstile pd)).lock = .locked ∧ t.cores = s.cores ∧ t.ts.waits = s.ts.waits) ∧
    (∀ v : Word, s.accessible (diePage .tstile pd) = true →
      (selReserved v.toNat = false → Completes (.tsSelWrite who pd v) s fun t =>
        (t.reg (diePage .tstile pd) 0x100).toNat % 2 ^ 18 = v.toNat % 2 ^ 18 ∧ t = { s with regs := t.regs, pages := t.pages }) ∧
      (selReserved v.toNat = true → Completes (.tsSelWrite who pd v) s fun t =>
        t.reg (diePage .tstile pd) 0x100 = s.reg (diePage .tstile pd) 0x100 ∧ t.flag (diePage .tstile pd) Reg.BLK_STAT_ERR = true ∧
        t.ts = s.ts)) ∧
    (s.accessible (diePage .tstile pd) = true → s.takesWork (diePage .tstile pd) = true →
      s.flag (diePage .tstile pd) Reg.TS_CMD_GO = false →
      (s.tstileRests = true → Completes (.tstileCmdNone who pd) s fun t => PoolEnded t pd 0 ∧ t.ts = s.ts) ∧
      (s.tstileRests = false → Completes (.tstileClear who pd) s fun t => PoolEnded t pd 0x30 ∧ t.ts = s.ts) ∧
      (s.tstileRests = true → ∀ n c, (n, c) ∈ [(1, Instr.tstileSave who pd), (2, Instr.tstileRestore who pd), (3, Instr.tstileClear who pd)] →
        Completes c s fun t => t.flag (diePage .tstile pd) Reg.TS_CMD_GO = true ∧
          t.flag (diePage .tstile pd) Reg.TS_CMD_STATUS_VALID = false ∧ mget (fun _ => 0) t.ts.run pd.val = n ∧ t.ts.cells = s.ts.cells)) ∧
    (s.fenced (diePage .tstile pd) = false → s.flag (diePage .tstile pd) Reg.TS_CMD_GO = true →
      let ctx := s.fld (diePage .tstile pd) Reg.TS_CTXID_CTXID
      let a := s.reg64 (diePage .tstile pd) 0x118 % 2 ^ 52
      (mget (fun _ => 0) s.ts.run pd.val = 1 →
∀ s1, s.memWrite ctx a (s.poolImage pd) = (0, s1) →         Completes (.tstileCmdDone pd .none) s fun t => t.memsys = s1.memsys ∧ t.ts.cells = s.ts.cells ∧ PoolEnded t pd 0) ∧
      (mget (fun _ => 0) s.ts.run pd.val = 2 → ∀ bs s1, s.memRead ctx a 16960 = (0, bs, s1) → poolImageOk bs = true →
        Completes (.tstileCmdDone pd .none) s fun t =>
          (∀ i, i < 4096 → (t.tsCell (poolKey pd i)).v = leNat ((bs.drop (0x40 + 4 * i)).take 4)) ∧ PoolEnded t pd 0) ∧
      (mget (fun _ => 0) s.ts.run pd.val = 3 → Completes (.tstileCmdDone pd .none) s fun t =>
        (∀ i, t.tsCell (poolKey pd i) = {}) ∧ (∀ k, ¬(keyIsPool k = true ∧ keyPd k = pd) → t.tsCell k = s.tsCell k) ∧ PoolEnded t pd 0)))

/-- Tier S: the scrubber reads line by line and finds poison, a pool mask sets the state of every slab, ZERO takes 12,288 beats
and then leaves every byte of the die 0, no poison and the pool slabs FREE (R279, R281, R282, R283, R285). -/
def Obligations.ScratchCommandsAndScrubber : Prop :=
  ∀ s : State, Canon s → ∀ (who : Requester) (pd : PD) (ld : Nat), s.ldOf pd = some ld → rising s.tierS.scrubPos = true →
    (s.fenced (diePage .tsram pd) = false → s.flag (diePage .tsram pd) Reg.TSRAM_CFG_SCRUB_EN = true →
      (∀ ce ue, Completes (.tsramScrubTick pd ce ue) s fun t =>
        mget (fun _ => 0) t.tierS.scrubPos pd.val = (mget (fun _ => 0) s.tierS.scrubPos pd.val + 1) % 12288 ∧
        t.tierS.mem = s.tierS.mem ∧ t.tierS.slabs = s.tierS.slabs) ∧
      (∀ ce b w, b < 64 → s.poisonIn (saOf ld b (mget (fun _ => 0) s.tierS.scrubPos pd.val * 128)) 128 = some w →
        Completes (.tsramScrubTick pd ce []) s fun t => mget (fun _ => false) t.tierS.detected w = true)) ∧
    (∀ mask : DWord, UnlockedFor s (diePage .tsram pd) who →
      (s.pageRests = true → Completes (.tsramPoolMaskWrite who pd mask) s fun t =>
        t.reg64 (diePage .tsram pd) 0x108 = mask.toNat ∧
        (∀ k, k < 1536 → t.slab ld k = if mask.getLsbD (k / 24) then .free else .static) ∧ t.tierS.mem = s.tierS.mem ∧
        (t.page (diePage .tsram pd)).lock = .locked) ∧
      (s.pageRests = false → Completes (.tsramPoolMaskWrite who pd mask) s fun t =>
        t.tierS = s.tierS ∧ t.flag (diePage .tsram pd) Reg.BLK_STAT_ERR = true)) ∧
    (s.accessible (diePage .tsram pd) = true → s.takesWork (diePage .tsram pd) = true →
      s.flag (diePage .tsram pd) Reg.TSRAM_CMD_GO = false →
      (s.pageRests = true → Completes (.tsramCmdNone who pd) s fun t => ScratchEnded t pd 0 ∧ t.tierS = s.tierS) ∧
      (s.pageRests = true → Completes (.zero who pd) s fun t =>
        t.flag (diePage .tsram pd) Reg.TSRAM_CMD_GO = true ∧ mget (fun _ => 0) t.tierS.zeroDue pd.val = s.clock.beats.toNat + 12288 ∧
        t.tierS.mem = s.tierS.mem) ∧
      (s.pageRests = false → Completes (.zero who pd) s fun t => ScratchEnded t pd 0x30 ∧ t.tierS = s.tierS)) ∧
    (s.fenced (diePage .tsram pd) = false → s.flag (diePage .tsram pd) Reg.TSRAM_CMD_GO = true →
      (s.clock.beats.toNat < mget (fun _ => 0) s.tierS.zeroDue pd.val → exec (.tsramCmdDone pd) s = .next s) ∧
      (mget (fun _ => 0) s.tierS.zeroDue pd.val ≤ s.clock.beats.toNat → Completes (.tsramCmdDone pd) s fun t =>
        (∀ a, a / 2 ^ 27 = ld → mget tierSReset t.tierS.mem a = 0) ∧
        (∀ a, a / 2 ^ 27 ≠ ld → mget tierSReset t.tierS.mem a = mget tierSReset s.tierS.mem a) ∧
        (∀ w, w / 2 ^ 23 = ld → mget (fun _ => false) t.tierS.poison w = false) ∧
        (∀ k, k < 1536 → t.slab ld k = if s.slab ld k = .static then .static else .free) ∧
        t.flag (diePage .tsram pd) Reg.TSRAM_STAT_POISON = false ∧ ScratchEnded t pd 0))

namespace Sys2Proof.Claims

/-- The state in which a write of a page's register acts: counted, with the requester's arming cleared (R59, R64). -/
def counted (s : State) (p : Page) (who : Requester) : State := (s.countWrite p).disarm p who

/-- A token of this partition arrives on a port that carries tokens (R504). -/
def Accepted (s : State) (port : JPort) (hdr : TokHdr) : Prop :=
  (s.jpState port.val = 5 ∨ s.jpState port.val = 4) ∧ hdr.partId = s.reg jp0 0x118

/-- This device is the whole partition: root, without children, alone (R501, R503). -/
def Alone (s : State) : Prop := s.isRoot = true ∧ s.childPorts = [] ∧ s.devices = 1

/-- T0 of a start or a resume (R508, R539). -/
def startTime (s : State) : Nat := s.clock.time.toNat + 30 * s.diameter + 200

/-- A token goes out on ports behind those that went before. -/
def sentOn (s : State) (ns : List Nat) (t : Tok) : List (Nat × Tok) := s.jal.out ++ ns.map fun n => (n, t)

def forwarded (hdr : TokHdr) (b : TokBody) : Tok := ⟨{ hdr with hops := hdr.hops + 1 }, b⟩

/-- The stretch m that a device gathers: what its cores, captures and ports took beyond LEN (R210, R230, R515, R531). -/
def stretchOf (s : State) : Nat :=
  max (s.sched.len + s.maxStall) (max s.sched.captureEnd (((List.range 8).map s.portDone).foldl (fun m p => max m (p.getD 0)) 0)) - s.sched.len

/-- Cores in ARMED and WAIT_STEP run from beat 0 on, those with HALT_REQ stop, the others keep their state (R140, R153, R155). -/
def CoresOpened (s t : State) : Prop :=
  ∀ pd mc, (t.core pd mc).status =
    if (s.core pd mc).status = .armed ∨ (s.core pd mc).status = .waitStep then
      (if s.flag (mcorePage pd mc) Reg.MCORE_CTRL_HALT_REQ then .stoppedReq else .running)
    else (s.core pd mc).status

/-- The length of the running job step (R207, R218, R219). -/
def stepLen (s : State) : Nat := ((s.sched.image.bind fun i => descOf i.descs i.seqs s.sched.jstep.toNat).map (·.len)).getD 0

end Sys2Proof.Claims

/-! The schedule. -/

/-- LOAD reads and checks the image: LOADED with job step 0, or ENDED where a read or a check fails; ARM and Barker's work after a
load lead to ARMED; the start exchange goes up the tree and its release gives T0; at T0 the first step opens and the armed cores
run (R227, R228, R229, R236, R250, R508). -/
def Obligations.JobsLoadStartAndOpen : Prop :=
  ∀ s : State, Canon s →
    (∀ (who : Requester) (err : TierFail), s.accessible s.leadPage = true → s.takesWork s.leadPage = true →
      s.flag s.leadPage Reg.SCHED_CTRL_LOAD = false → s.flag s.leadPage Reg.SCHED_CTRL_ARM = false → s.sched.startOwn = none →
      (s.sched.state = .idle ∨ s.sched.state = .loaded ∨ s.sched.state = .ended) →
      ∀ u, u = counted s s.leadPage who →
        (∀ c hdr s1, u.memRead u.jobCtx u.imgAddr 0x100 = (c, hdr, s1) → c ≠ 0 → Completes (.schedLoad who s.leadPd err) s fun t =>
          t.sched.state = .ended) ∧
        (∀ hdr s1, u.memRead u.jobCtx u.imgAddr 0x100 = (0, hdr, s1) → headerCheck hdr ≠ none →
          Completes (.schedLoad who s.leadPd err) s fun t => t.sched.state = .ended ∧ t.flag s.leadPage Reg.BLK_STAT_ERR = true) ∧
        (∀ hdr s1, u.memRead u.jobCtx u.imgAddr 0x100 = (0, hdr, s1) → headerCheck hdr = none → ∀ bs s2, s1.memRead u.jobCtx u.imgAddr (imgNat hdr 8 8) = (0, bs, s2) → err = .none → bodyCheck s2.loadCtx bs = none →
          s2.namesLost (parseImage u.imgAddr bs) = false → Completes (.schedLoad who s.leadPd err) s fun t =>
            t.sched.state = .loaded ∧ t.sched.image = some (parseImage u.imgAddr bs) ∧ t.sched.jstep = 0 ∧ t.sched.step = s.sched.step ∧
            t.cores = s.cores)) ∧
    (∀ img, s.sched.image = some img → s.sched.state = .loaded → s.sched.startKids = [] → s.portsAsleep = false → Alone s →
      (∀ who : Requester, s.accessible s.leadPage = true → s.takesWork s.leadPage = true → s.flag s.leadPage Reg.SCHED_CTRL_LOAD = false →
        s.flag s.leadPage Reg.SCHED_CTRL_ARM = false → Completes (.schedArm who s.leadPd) s fun t =>
          t.sched.state = .armed ∧ t.sched.startAt = some (startTime s) ∧ t.sched.image = some img ∧ t.cores = s.cores) ∧
      ((s.progCores.foldl (fun (acc : Nat × State) (p : TileProg × PD × MC) =>
          if acc.1 ≠ 0 then acc else acc.2.loadCore img p.1 p.2.1 p.2.2) (0, s)).1 = 0 → Completes .imageLoadDone s fun t =>
        t.sched.state = .armed ∧ t.sched.startAt = some (startTime s) ∧
        ∀ p, p ∈ s.progCores → (t.core p.2.1 p.2.2).status = .armed)) ∧
    (∀ (port : JPort) hdr (b : StartBody), Accepted s port hdr → s.childPort port.val = true →
      (s.sched.startOwn = none → Completes (.startGather port hdr b) s fun t =>
        t = { s with sched := { s.sched with startKids := (port.val, ⟨b.buildId.toNat, b.jobSteps.toNat, b.descCrc.toNat, b.hdrCrc.toNat,
          b.contrib.toNat⟩) :: s.sched.startKids.filter (·.1 != port.val) } }) ∧
      (∀ o, s.sched.startOwn = some o → s.sched.startKids = [] → s.childPorts = [port.val] → s.isRoot = true → s.portsAsleep = false →
        b.buildId.toNat = o.buildId → b.jobSteps.toNat = o.jobSteps → b.descCrc.toNat = o.descCrc → o.contrib + b.contrib.toNat = s.devices →
        Completes (.startGather port hdr b) s fun t =>
          t.sched.startAt = some (startTime s) ∧ t.sched.startOwn = none ∧ t.sched.startKids = [] ∧ t.sched.state = s.sched.state ∧
          t.jal.out = sentOn s [port.val] ⟨s.tokHdr s.sched.step.toNat, .startRelease 0 (BitVec.ofNat 64 (startTime s))⟩)) ∧
    (∀ (port : JPort) hdr (t0 : DWord), Accepted s port hdr → s.parentPort = some port.val →
      (Completes (.startRelease port hdr 0 t0) s fun t =>
        t.sched.startAt = some t0.toNat ∧ t.jal.out = sentOn s s.childPorts (forwarded hdr (.startRelease 0 t0)) ∧ t.cores = s.cores) ∧
      (Completes (.startRelease port hdr 5 t0) s fun t => t.sched.state = .ended)) ∧
    (s.sched.startAt = none → exec .firstStepOpen s = .next s) ∧
    (∀ t0, s.sched.startAt = some t0 → s.clock.time.toNat < t0 → exec .firstStepOpen s = .next s) ∧
    (∀ t0 img, s.sched.startAt = some t0 → t0 ≤ s.clock.time.toNat → s.sched.state = .armed → s.sched.image = some img →
      Completes .firstStepOpen s fun t =>
        t.sched.state = .running ∧ t.sched.beat = 0 ∧ t.sched.len = stepLen s ∧ t.sched.step = s.sched.step ∧
        t.sched.jstep = s.sched.jstep ∧ t.sched.ratioCur = img.ratioInit ∧ t.sched.attempt = 1 ∧ CoresOpened s t)

/-- A step ends by exchange: each device gathers its stretch once its declared length is over, the root's release sets C, and at
the end of beat C the step counter rises, the receive buffers flip 1,600 beats later and the next step opens 2,400 beats later; a
device without a release, or with a hold, holds; an overrun is the error 0x0C (R210, R230, R231, R234, R236, R247, R248, R505,
R507, R535). -/
def Obligations.StepsGatherCommitAndOpen : Prop :=
  ∀ s : State, Canon s →
    (s.schedRuns = true → s.sched.state ≠ .commit → s.sched.own = none → (s.sched.stepErr.any (·.reason == 0x0C)) = false →
      s.trapPending = false → s.capturesDone = true → (∀ n, n < 8 → (s.portDone n).isSome = true) →
      s.sched.len + stretchOf s ≤ s.sched.beat → Completes .gatherReport s fun t =>
        t.sched.state = .commit ∧ t.sched.sd = stretchOf s ∧ t.sched.step = s.sched.step ∧
        ∃ r, t.sched.own = some r ∧ r.m = stretchOf s ∧ r.contrib = 1 ∧ r.ratio = s.fld s.leadPage Reg.SCHED_RATIO_REQ) ∧
    (∀ (port : JPort) hdr (b : GatherBody), Accepted s port hdr → s.childPort port.val = true →
      (bitOf b.flags.toNat 2 = false → s.sched.own = none →
        exec (.gatherToken port hdr b) s = .next { s with sched := { s.sched with
          children := (port.val, reportOf b hdr.origin.toNat) :: s.sched.children.filter (·.1 != port.val) } }) ∧
      (bitOf b.flags.toNat 2 = true → s.sched.recoveryOwn = none →
        exec (.gatherToken port hdr b) s = .next { s with sched := { s.sched with
          recoveryKids := (port.val, recoveryOf hdr b) :: s.sched.recoveryKids.filter (·.1 != port.val) } })) ∧
    (∀ (port : JPort) hdr (b : GatherBody), Accepted s port hdr → s.parentPort = some port.val → s.sched.state = .commit →
      s.sched.release = none → s.firstTrap = none → Completes (.releaseToken port hdr b) s fun t =>
        t.sched.release = some (reportOf b hdr.origin.toNat) ∧ t.sched.state = .commit ∧
        t.jal.out = sentOn s s.childPorts (forwarded hdr (.release b))) ∧
    (s.sched.committed = false → s.sched.own.isSome = true → s.sched.state = .commit → s.beatC ≤ s.sched.beat →
      (∀ r flushed, s.sched.release = some r → r.fault = false → r.hold = false → r.err = none → r.trap = none →
        Completes (.stepCommit flushed) s fun t =>
          t.sched.step = s.sched.step + 1 ∧ t.sched.jstep = s.sched.jstep + 1 ∧ t.sched.committed = true ∧ t.sched.slip = r.m ∧
          t.jal.flipAt = some (s.beatC + 1600)) ∧
      (∀ r flushed e, s.sched.release = some r → r.fault = false → r.hold = false → r.err = some e → Completes (.stepCommit flushed) s fun t =>
        t.sched.state = .ended ∧ t.sched.step = s.sched.step) ∧
      (∀ flushed, s.sched.release = none → Completes (.stepCommit flushed) s fun t =>
        t.sched.state = .held ∧ t.sched.step = s.sched.step ∧ t.sched.holdCause = some 2)) ∧
    (∀ b, s.jal.flipAt = some b →
      (b ≤ s.sched.beat → exec .parityFlip s = .next { s with jal := { s.jal with parity := s.sched.jstep.getLsbD 0, flipAt := none } }) ∧
      (s.sched.beat < b → exec .parityFlip s = .next s)) ∧
    (s.sched.state = .commit → s.sched.committed = true →
      (s.sched.beat < s.beatC + 2400 → exec .stepOpen s = .next s) ∧
      (s.beatC + 2400 ≤ s.sched.beat → Completes .stepOpen s fun t =>
        t.sched.state = .running ∧ t.sched.beat = 0 ∧ t.sched.len = stepLen s ∧ t.sched.step = s.sched.step ∧ t.sched.attempt = 1 ∧
        t.sched.committed = false ∧ t.sched.ratioCur = s.sched.ratioDue.getD s.sched.ratioCur ∧ CoresOpened s t)) ∧
    (s.schedRuns = true → s.sched.len - 6000 ≤ s.sched.beat → s.homeSt.sweep = false → Completes .inputSetDistribute s fun t =>
      t.sched.inputNext = s.inputsAt (s.sched.jstep.toNat + 1) ∧ t.homeSt.sweep = true ∧
      ∀ h line, line < 2 ^ 46 → inRanges (s.inputsAt (s.sched.jstep.toNat + 1)) (frameOf64 line) = true →
        ∀ c, t.l2Line h line = some c → c.st ≠ .m ∧ c.st ≠ .e) ∧
    (s.schedRuns = true → s.sched.committed = false → 262143 ≤ s.sched.beat → (s.sched.stepErr.any (·.reason == 0x0C)) = false →
      Completes .stepOverrun s fun t =>
        t.sched.stepErr = some (s.sched.stepErr.getD ⟨0x0C, 0x3FF, 0, 0x30⟩) ∧ t.flag s.leadPage Reg.BLK_STAT_ERR = true ∧
        t.sched.state = s.sched.state) ∧
    (∀ (port : JPort) hdr (cause : Byte) beat detail, Accepted s port hdr →
      (s.jal.seen.contains (tokKey ⟨hdr, .hold cause beat detail⟩) = true → exec (.holdToken port hdr cause beat detail) s = .next s) ∧
      (s.jal.seen.contains (tokKey ⟨hdr, .hold cause beat detail⟩) = false → s.sched.step.toNat ≤ hdr.step.toNat → s.schedRuns = true →
        Completes (.holdToken port hdr cause beat detail) s fun t =>
          t.sched.state = .held ∧ t.sched.holdCause = some cause.toNat ∧ t.cores = s.cores ∧
          t.jal.out = sentOn s (s.activePorts.filter (· != port.val)) (forwarded hdr (.hold cause beat detail)))) ∧
    (∀ (port : JPort) hdr rec_, Accepted s port hdr → s.jal.seen.contains (tokKey ⟨hdr, .trapRecord rec_⟩) = false →
      Completes (.trapRecord port hdr rec_) s fun t =>
        t.sched.trapRec = some rec_.toNat ∧ t.sched.state = s.sched.state ∧
        t.jal.out = sentOn s (s.activePorts.filter (· != port.val)) (forwarded hdr (.trapRecord rec_)))

/-- A core fault stops and fences its core, writes its record and holds the device; MC16 takes a failed core's place; a held device
reports once and acts on RESUME: it replays from the checkpoint, commits and goes on, or stops the partition; checkpoints are
captured in the standby slot (R524, R526, R527, R530, R531, R535, R537 to R542). -/
def Obligations.FaultsHoldRecoverAndResume : Prop :=
  ∀ s : State, Canon s →
    (∀ (pd : PD) (mc : MC), (s.core pd mc).status ≠ .stoppedFault →
      (∀ a, Completes (.coreFault pd mc (some a)) s fun t =>
        (t.core pd mc).status = .stoppedFault ∧ (t.core pd mc).x = (s.core pd mc).x ∧ (t.core pd mc).lq = [] ∧ (t.core pd mc).sq = [] ∧
        (t.core pd mc).dq = [] ∧ (t.core pd mc).vq = [] ∧ (t.core pd mc).mq = [] ∧
        t.flag (mcorePage pd mc) Reg.MCORE_FLT_STAT_VALID = true ∧ t.flag (mcorePage pd mc) Reg.BLK_STAT_FENCED = true ∧
        (s.flag (mcorePage pd mc) Reg.MCORE_FLT_STAT_VALID = false →
          t.fld (mcorePage pd mc) Reg.MCORE_FLT_STAT_KIND = a.kind.toNat) ∧
        (s.schedRuns = true → t.sched.state = .held ∧ t.sched.step = s.sched.step)) ∧
      (∀ g, (s.core pd mc).faultPend = some g → s.sched.beat ≤ g.beat → exec (.coreFault pd mc none) s = .next s) ∧
      (∀ g, (s.core pd mc).faultPend = some g → g.beat < s.sched.beat → Completes (.coreFault pd mc none) s fun t =>
        (t.core pd mc).status = .stoppedFault ∧ t.flag (mcorePage pd mc) Reg.BLK_STAT_FENCED = true) ∧
      (∀ q, (s.core pd mc).status = .running → s.flag (mcorePage pd mc) Reg.MCORE_FLT_STAT_VALID = false →
        Completes (.coreWatchdog pd mc q) s fun t =>
          (t.core pd mc).status = .stoppedFault ∧ t.fld (mcorePage pd mc) Reg.MCORE_FLT_STAT_KIND = 7)) ∧
    (∀ (pd : PD) what, Completes (.dieFault pd what) s fun t =>
      (t.reg (pkgPage .evlog) 0x010).getLsbD 3 = true ∧
      (s.schedRuns = true → t.sched.state = .held ∧ t.sched.noContinue = some (s.sched.noContinue.getD 0x40)) ∧
      (s.schedRuns = false → s.sched.state ≠ .held → s.jobActive = true → t.sched.state = .ended)) ∧
    (∀ (pd : PD) (mc : MC) i, s.sched.subst = [(pd.val, mc.val)] → s.localOf pd mc = some i →
      Completes (.substBistDone pd none) s fun t =>
        t.mcOf pd i = 16 ∧ t.flag (diePage .dieCfg pd) Reg.DC_SUBSTITUTED = true ∧ t.sched.subst = []) ∧
    (∀ (pd : PD) (mc : MC) n, s.sched.subst = [(pd.val, mc.val)] → Completes (.substBistDone pd (some n)) s fun t =>
      (t.core pd 16).status = .stoppedFault ∧ t.flag (mcorePage pd 16) Reg.BLK_STAT_FENCED = true ∧ t.sched.subst = [] ∧
      t.dies.mcMap = s.dies.mcMap) ∧
    (s.sched.state = .held → s.sched.recoveryOwn = none → s.sched.resumed = false → s.sched.subst = [] →
      (∀ n, n ∈ s.usedPorts → s.jpState n ≠ 9) →
      (s.isRoot = false → Completes .recoveryReport s fun t =>
        t.sched.state = .held ∧ ∃ r, t.sched.recoveryOwn = some r ∧ r.step = s.sched.step.toNat ∧ r.contrib = 1 ∧
          r.stretch = (if s.sched.committed then s.sched.slip + 1 else 0) ∧ r.stop = s.sched.noContinue.isSome) ∧
      (Alone s → s.sched.recoveryKids = [] → s.sched.committed = false → s.sched.noContinue = none →
        s.sched.attempt + 1 ≤ s.fld (pkgPage .evlog) Reg.EV_FLT_CFG_REPLAY_MAX → Completes .recoveryReport s fun t =>
          t.sched.state = .held ∧ t.sched.openAt = some (startTime s) ∧ t.sched.attempt = s.sched.attempt + 1 ∧ t.sched.resumed = true)) ∧
    (∀ (port : JPort) hdr, Accepted s port hdr → s.jal.seen.contains (4, hdr.origin.toNat, hdr.step.toNat) = false → s.sched.state = .held →
      (∀ attempt t0, Completes (.resumeReplay port hdr attempt t0) s fun t =>
        t.sched.state = .held ∧ t.sched.openAt = some t0.toNat ∧ t.sched.attempt = attempt.toNat ∧ t.sched.resumed = true ∧
        t.ts.cells = s.ts.snap ∧ t.ts.ops = [] ∧
        ∀ p, p ∈ s.progCores →
          ((s.ckpt (s.lcNo p.2.1 p.2.2)).slot (s.ckpt (s.lcNo p.2.1 p.2.2)).cur).valid = true →
          (t.core p.2.1 p.2.2).x = ((s.ckpt (s.lcNo p.2.1 p.2.2)).slot (s.ckpt (s.lcNo p.2.1 p.2.2)).cur).x ∧
          (t.core p.2.1 p.2.2).status = ((s.ckpt (s.lcNo p.2.1 p.2.2)).slot (s.ckpt (s.lcNo p.2.1 p.2.2)).cur).st ∧
          (t.core p.2.1 p.2.2).queuesEmpty = true) ∧
      (∀ cats m t0, s.sched.committed = true → Completes (.resumeCommit port hdr cats m t0) s fun t =>
        t.sched.state = .held ∧ t.sched.openAt = some t0.toNat ∧ t.sched.attempt = 1 ∧ t.sched.resumed = true ∧
        t.sched.step = s.sched.step) ∧
      (∀ cats m t0, s.sched.committed = false → Completes (.resumeCommit port hdr cats m t0) s fun t =>
        t.sched.step = s.sched.step + 1 ∧ t.sched.jstep = s.sched.jstep + 1) ∧
      (∀ code, Completes (.resumeStop port hdr code) s fun t => t.sched.state = .ended ∧ t.sched.step = s.sched.step)) ∧
    (∀ t0, s.sched.state = .held → s.sched.openAt = some t0 →
      (s.clock.time.toNat < t0 → exec .resumeStepOpen s = .next s) ∧
      (t0 ≤ s.clock.time.toNat → Completes .resumeStepOpen s fun t =>
        t.sched.state = .replay ∧ t.sched.beat = 0 ∧ t.sched.attempt = s.sched.attempt ∧ t.sched.isReplay = true ∧ t.sched.openAt = none ∧
        CoresOpened s t)) ∧
    (s.sched.state = .held → s.sched.resumed = false → Completes .resumeTimeout s fun t => t.sched.state = .ended) ∧
    (∀ (pd : PD) (mc : MC),
      (s.schedRuns = true → s.hasProg pd mc = true → (s.ckpt (s.lcNo pd mc)).capturing = false → (s.ckpt (s.lcNo pd mc)).captured = false →
        (s.core pd mc).status = .waitStep → s.stepMet pd mc = true → (s.core pd mc).hist.chkDone < s.sched.beat →
        Completes (.checkpointCapture pd mc) s fun t =>
          t.ckpt (s.lcNo pd mc) = { s.ckpt (s.lcNo pd mc) with capturing := true, capAt := s.sched.beat } ∧ t = { s with ckpts := t.ckpts }) ∧
      ((s.ckpt (s.lcNo pd mc)).capturing = true →
        (s.sched.beat < (s.ckpt (s.lcNo pd mc)).capAt + 594 → exec (.checkpointCaptureDone pd mc) s = .next s) ∧
        ((s.ckpt (s.lcNo pd mc)).capAt + 594 ≤ s.sched.beat → Completes (.checkpointCaptureDone pd mc) s fun t =>
          let k := t.ckpt (s.lcNo pd mc)
          k.capturing = false ∧ k.captured = true ∧ k.cur = (s.ckpt (s.lcNo pd mc)).cur ∧
          k.slot (!k.cur) = { valid := true, st := (s.core pd mc).status, x := (s.core pd mc).x, nf := (s.core pd mc).nf })))

namespace Sys2Proof.Claims

/-- Beside registers, events and interrupts nothing changed. -/
def Noted (s t : State) : Prop := t = { s with regs := t.regs, evq := t.evq, cpu := t.cpu, freeCtr := t.freeCtr }

/-- Beside registers, events, interrupts and the memory system nothing changed. -/
def NotedMem (s t : State) : Prop :=
  t = { s with regs := t.regs, evq := t.evq, cpu := t.cpu, freeCtr := t.freeCtr, memsys := t.memsys }

/-- One request more has ended. -/
def Answers (s t : State) (tag : Half) (code : Nat) (data : List Byte) : Prop :=
  t.memsys.answers = s.memsys.answers ++ [⟨tag.toNat, code, data⟩]

/-- What a read of a DRAM line meets and what it sees, bytes of the write-combining buffer over those of the array. -/
def lineBad (s : State) (line : Nat) : Bool := (s.readLine line .none).1
def lineSeen (s : State) (line : Nat) : List Byte := (s.readLine line .none).2.1

/-- A tier's controller performs the oldest forwarded request of a line: a read returns the line or its poison, a write of
a sound line is seen by the next read, a failed channel answers TIER_TIMEOUT and writes nothing. -/
def Served (c : Half → MemErr → Instr) (tierF : Bool) : Prop :=
  ∀ s : State, Canon s → rising s.memsys.dram.wcb = true → ∀ tag w,
    s.place.fwd.find? (fun w => w.req.tag == tag && w.answer.isNone) = some w → locIsF w.loc = tierF →
    (s.place.fwd.find? fun x => x.loc == w.loc && x.answer.isNone) = some w →
    let line := w.loc / 128
    let ended (a : Nat × List Byte) : List Fwd :=
      s.place.fwd.map fun x => if x.req.tag == tag && x.answer.isNone then { x with answer := some a } else x
    (tierF = false → s.inWindow (locUnit w.loc) = true → exec (c tag .none) s = .next s) ∧
    (tierF = true → s.locFailed w.loc = false → s.fld (s.ctlPage w.loc) Reg.FCHAN_STAT_STATE ≠ 2 → exec (c tag .none) s = .next s) ∧
    (tierF = true → s.locFailed w.loc = true → ∀ err, Completes (c tag err) s fun t =>
      t.place.fwd = ended (if aWrites w.req then (0, []) else (0x11, [])) ∧ t.memsys.dram = s.memsys.dram) ∧
    ((if tierF then s.fld (s.ctlPage w.loc) Reg.FCHAN_STAT_STATE == 2 else !s.inWindow (locUnit w.loc)) = true →
      (aWrites w.req = false → Completes (c tag .none) s fun t =>
        t.place.fwd = ended (if lineBad s line then (0x10, []) else (0, lineSeen s line)) ∧ t.memsys.dram = s.memsys.dram ∧
        t.memsys.answers = s.memsys.answers ∧ t.place.entries = s.place.entries) ∧
      (aWrites w.req = true → lineBad s line = false → Completes (c tag .none) s fun t =>
        t.place.fwd = ended (0, []) ∧ t.place.entries = s.place.entries ∧
        (s.poisoned line = false → lineBad t line = false ∧ lineSeen t line = overlay w.req.mask.toNat (lineSeen s line) (aBytes w.req))))

/-- A PLACE command written with GO to an unlocked page is taken with its operands; a locked page refuses it. -/
def PlaceCommandTaken (c : Requester → PD → Instr) (n : Nat) : Prop :=
  ∀ s : State, Canon s → ∀ (who : Requester) (pd : PD), s.accessible (diePage .place pd) = true →
    s.takesWork (diePage .place pd) = true → s.flag (diePage .place pd) Reg.PLACE_CMD_GO = false →
    (∀ x ∈ s.place.cmds, x.page ≠ pageKey (diePage .place pd)) →
    ((s.page (diePage .place pd)).lock = .unlocked who → Completes (c who pd) s fun t =>
      t.place = { s.place with cmds := s.place.cmds ++ [{
        page := pageKey (diePage .place pd), kind := n, value := s.fld (diePage .place pd) Reg.PLACE_CMD_ARG_VALUE
        ld := s.fld (diePage .place pd) Reg.PLACE_CMD_ARG_LD, base := s.reg64 (diePage .place pd) 0x160 % 2 ^ 52
        frames := s.fld (diePage .place pd) Reg.PLACE_CMD_FRAMES_FRAMES }] } ∧
      t.flag (diePage .place pd) Reg.PLACE_CMD_GO = true ∧ t.flag (diePage .place pd) Reg.PLACE_CMD_STATUS_VALID = false ∧
      (t.page (diePage .place pd)).lock = .locked ∧ t.memsys = { s.memsys with place := t.place } ∧ t.cores = s.cores) ∧
    ((s.page (diePage .place pd)).lock = .locked → Completes (c who pd) s fun t =>
      t.memsys = s.memsys ∧ t.flag (diePage .place pd) Reg.PLACE_CMD_GO = false ∧
      t.flag (diePage .place pd) Reg.BLK_STAT_ERR = true)

/-- A frame of a PLACE command's range. -/
def CmdRange (c : PlaceCmd) (g : Nat) : Prop := c.base / 2 ^ 21 ≤ g ∧ g < c.base / 2 ^ 21 + c.frames

/-- The entries of the frames of a range are changed by f, no other is. -/
def EntriesBecome (s t : State) (c : PlaceCmd) (f : PEntry → PEntry) : Prop :=
  ∀ g, (CmdRange c g → t.entry g = f (s.entry g)) ∧ (¬CmdRange c g → t.entry g = s.entry g)

def PlaceEnded (t : State) (pd : PD) (n : Nat) : Prop :=
  Ended t (diePage .place pd) Reg.PLACE_CMD_GO Reg.PLACE_CMD_STATUS_CODE Reg.PLACE_CMD_STATUS_VALID 3 n

end Sys2Proof.Claims

/-! Placement. -/

/-- A request at its agent: the checks refuse it with the code of the lowest failing one, a never-written chunk reads zeros
and begins a zero fill at a write, every other request goes to the line's present slot; controllers perform forwarded
requests in order and their answers end them; decay halves a count (R293, R294, R296, R302, R303, R339, R370, R377). -/
def Obligations.AgentsCheckAndRoute : Prop :=
  (∀ s : State, Canon s → ∀ r, s.place.ready = true → aFrame r < s.place.frames → s.streamHeld r = false →
    let e := s.entry (aFrame r)
    let k := chunkOfLine r.line.toNat
    let writes := r.kind = .write
    (ownerOk e.owner r.ctx.toNat = false → Completes (.agentRequest r false) s fun t =>
      Answers s t r.tag 0x12 [] ∧ t.place = s.place ∧ t.memsys.dram = s.memsys.dram ∧ NotedMem s t) ∧
    (ownerOk e.owner r.ctx.toNat = true → writes → e.frozen = true → Completes (.agentRequest r false) s fun t =>
      Answers s t r.tag 0x14 [] ∧ t.place = s.place ∧ t.memsys.dram = s.memsys.dram ∧ NotedMem s t) ∧
    (ownerOk e.owner r.ctx.toNat = true → writes → e.frozen = false → inRanges s.sched.inputCur (aFrame r) = true →
      Completes (.agentRequest r false) s fun t =>
        Answers s t r.tag 0x31 [] ∧ t.place = s.place ∧ t.memsys.dram = s.memsys.dram ∧ NotedMem s t) ∧
    (ownerOk e.owner r.ctx.toNat = true → (writes → e.frozen = false ∧ inRanges s.sched.inputCur (aFrame r) = false) →
      (bitOf e.zmap k = true → aWrites r = false → Completes (.agentRequest r false) s fun t =>
        Answers s t r.tag 0 (List.replicate 128 0) ∧ t.place.fwd = s.place.fwd ∧ t.memsys.dram = s.memsys.dram ∧
        t.entry (aFrame r) = { e with count := min (e.count + 1) 0xFFFF } ∧ ∀ g, g ≠ aFrame r → t.entry g = s.entry g) ∧
      (bitOf e.zmap k = true → aWrites r = true → e.route r.line.toNat ≠ .buffer →
        (∀ z ∈ s.place.fills, ¬(z.frame = aFrame r ∧ z.chunk = k)) → Completes (.agentRequest r false) s fun t =>
          t.place.fills = s.place.fills ++ [⟨aFrame r, k, [r]⟩] ∧ t.memsys.answers = s.memsys.answers ∧
          t.memsys.dram = s.memsys.dram ∧ t.entry (aFrame r) = { e with count := min (e.count + 1) 0xFFFF }) ∧
      (∀ dl, bitOf e.zmap k = false → e.route r.line.toNat = .slot dl → Completes (.agentRequest r false) s fun t =>
        t.place.fwd = s.place.fwd ++ [{ req := r, loc := dl * 128 }] ∧ t.memsys.answers = s.memsys.answers ∧
        t.memsys.dram = s.memsys.dram ∧ t.entry (aFrame r) = { e with count := min (e.count + 1) 0xFFFF } ∧
        ∀ g, g ≠ aFrame r → t.entry g = s.entry g) ∧
      (bitOf e.zmap k = false → e.route r.line.toNat = .buffer → aWrites r = true → Completes (.agentRequest r false) s fun t =>
        t.place.held = s.place.held ++ [r] ∧ t.place.fwd = s.place.fwd ∧ t.memsys.answers = s.memsys.answers ∧
        t.memsys.dram = s.memsys.dram)) ∧
    (r.ctx ≠ 0 → Completes (.agentRequest r true) s fun t =>
      Answers s t r.tag 0x12 [] ∧ t.memsys.dram = s.memsys.dram ∧ t.entry (aFrame r) = { e with
        owner := 0, zmap := 0, frozen := false, pin := false, keep := false, count := 0, prefLd := 0 } ∧
      ∀ g, g ≠ aFrame r → t.entry g = s.entry g)) ∧
  (∀ s : State, Canon s → ∀ (frame : BitVec 22) (chunk : Fin 32),
    (s.place.fills.find? (fun z => z.frame == frame.toNat && z.chunk == chunk.val) = none →
      exec (.zeroFillDone frame chunk) s = .next s) ∧
    (∀ z dl, s.place.fills.find? (fun z => z.frame == frame.toNat && z.chunk == chunk.val) = some z →
      (s.entry frame.toNat).route (frame.toNat * 2 ^ 14 + chunk.val * 512) = .slot dl → s.locFailed (dl * 128) = false →
      (∀ r ∈ z.waiting, aFrame r = frame.toNat ∧ chunkOfLine r.line.toNat = chunk.val ∧ aWrites r = true) →
      Completes (.zeroFillDone frame chunk) s fun t =>
        t.entry frame.toNat = { s.entry frame.toNat with zmap := withBits (s.entry frame.toNat).zmap chunk.val 1 0 } ∧
        (∀ g, g ≠ frame.toNat → t.entry g = s.entry g) ∧
        (∀ a, dl * 128 ≤ a → a < (dl + 512) * 128 → mget dramReset t.memsys.dram.mem a = 0) ∧
        (∀ a, a < dl * 128 ∨ (dl + 512) * 128 ≤ a → mget dramReset t.memsys.dram.mem a = mget dramReset s.memsys.dram.mem a) ∧
        t.place.fwd.take s.place.fwd.length = s.place.fwd ∧
        (t.place.fwd.drop s.place.fwd.length).map (fun (w : Fwd) => w.req) = z.waiting ∧ t.memsys.answers = s.memsys.answers)) ∧
  Served .nstackRequest false ∧ Served .fchanRequest true ∧
  (∀ s : State, Canon s → ∀ tag : Half,
    (∀ w code bs, s.place.fwd.find? (fun w => w.req.tag == tag && w.answer.isSome) = some w → w.answer = some (code, bs) →
      Completes (.tierResponse tag) s fun t =>
        Answers s t tag code bs ∧ t.place = { s.place with fwd := s.place.fwd.filter fun w => w.req.tag != tag } ∧
        t.memsys.dram = s.memsys.dram ∧ NotedMem s t) ∧
    (s.place.fwd.find? (fun w => w.req.tag == tag && w.answer.isSome) = none → exec (.tierResponse tag) s = .next s) ∧
    (∀ w, s.place.fwd.find? (fun w => w.req.tag == tag) = some w → Completes (.tierTimeout (.request tag)) s fun t =>
      Answers s t tag 0x11 [] ∧ t.place = { s.place with fwd := s.place.fwd.filter fun w => w.req.tag != tag } ∧ NotedMem s t ∧
      (aWrites w.req = false → t.memsys.dram = s.memsys.dram)) ∧
    (s.place.waitQ = [] → ∀ r, s.place.held.find? (fun r => r.tag == tag) = some r →
      (bitOf (s.entry (aFrame r)).zmap (chunkOfLine r.line.toNat) = false → Completes (.heldWriteTimeout tag) s fun t =>
        Answers s t tag 0 [] ∧ t.place.held = s.place.held.filter (fun x => x.tag != tag) ∧ t.place.fwd = s.place.fwd ∧
        t.memsys.dram = s.memsys.dram ∧ ∀ n g, s.engineOf (aFrame r) = some (n, g) → t.engine n = some (g.setBuf (aFrame r)
          ((g.buf (aFrame r)).write (r.line.toNat % 512) r.mask.toNat (aBytes r)))) ∧
      (bitOf (s.entry (aFrame r)).zmap (chunkOfLine r.line.toNat) = true → exec (.heldWriteTimeout tag) s = .next s))) ∧
  (∀ s : State, Canon s → ∀ (ld : LD) (eng : Fin 4) g, s.engine (ld.val * 4 + eng.val) = some g → g.phase = .commit →
    Completes (.tierTimeout (.commit ld eng)) s fun t =>
      t.engine (ld.val * 4 + eng.val) = some { g with retried := true } ∧ t.place.entries = s.place.entries ∧
      t.memsys.dram = s.memsys.dram ∧ NotedMem s t) ∧
  (∀ s : State, Canon s → ∀ (ld : LD) (index : Fin 131072),
    (ld.val < s.place.ldies → index.val * s.place.ldies + ld.val < s.place.frames → Completes (.countDecay ld index) s fun t =>
      t.entry (index.val * s.place.ldies + ld.val) = { s.entry (index.val * s.place.ldies + ld.val) with
        count := (s.entry (index.val * s.place.ldies + ld.val)).count / 2 } ∧
      (∀ g, g ≠ index.val * s.place.ldies + ld.val → t.entry g = s.entry g) ∧
      t = { s with memsys := { s.memsys with place := { s.place with entries := t.place.entries } } }) ∧
    (s.place.frames ≤ index.val * s.place.ldies + ld.val → exec (.countDecay ld index) s = .next s))

/-- Exchanges: a free engine takes the head of the hint queue, else of the promotion queue, and a victim; claimed frames swap
slots chunk by chunk over buffers and end in each other's slot; hints set what they say where HINT_EN allows them (R295, R300,
R301, R305, R306, R307). -/
def Obligations.ExchangesSwapTwoFrames : Prop :=
  (∀ s : State, ∀ ld a hint slot, s.victim ld a hint = some slot →
    s.frameInSlot ld slot ≠ a ∧ s.eligible (s.frameInSlot ld slot) true = true ∧ (hint = false →
      (s.entry (s.frameInSlot ld slot)).count ≤ s.fld (s.agentPage (s.frameInSlot ld slot)) Reg.PLACE_THR_COLD_THR)) ∧
  (∀ s : State, Canon s → rising s.place.hintQ = true → rising s.place.promoQ = true → ∀ (ld : LD) (eng : Fin 4),
    let n := ld.val * 4 + eng.val
    let p := s.ldPage .place ld.val
    let home (a : Nat) : Nat := if (s.entry a).prefLd = 0x3F then s.agentLd a else (s.entry a).prefLd
    (s.fld p Reg.PLACE_CFG_ENGINES < eng.val → exec (.victimScan ld eng) s = .next s) ∧
    (s.engine n ≠ none → exec (.victimScan ld eng) s = .next s) ∧
    (eng.val ≤ s.fld p Reg.PLACE_CFG_ENGINES → s.engine n = none → ∀ a q,
      (mget (fun _ => []) s.place.hintQ ld.val = a :: q → s.promotable ld.val a true = true →
        Completes (.victimScan ld eng) s fun t =>
          mget (fun _ => []) t.place.hintQ ld.val = q ∧ t.place.entries = s.place.entries ∧ t.memsys.dram = s.memsys.dram ∧
          (∀ slot, s.victim (home a) a true = some slot → t.engine n = some { a := a, b := s.frameInSlot (home a) slot, hint := true }) ∧
          (s.victim (home a) a true = none → t.engine n = none)) ∧
      (mget (fun _ => []) s.place.hintQ ld.val = [] → mget (fun _ => []) s.place.promoQ ld.val = a :: q →
        s.promotable ld.val a false = true → Completes (.victimScan ld eng) s fun t =>
          mget (fun _ => []) t.place.promoQ ld.val = q ∧ t.place.entries = s.place.entries ∧ t.memsys.dram = s.memsys.dram ∧
          (∀ slot, s.victim (home a) a false = some slot → t.engine n = some { a := a, b := s.frameInSlot (home a) slot, hint := false }) ∧
          (s.victim (home a) a false = none → t.engine n = none))) ∧
    (∀ g, s.engine n = some g → g.phase = .scanned → g.a ≠ g.b →
      (s.eligible g.a false = true → s.eligible g.b true = true → ∀ c, c < 32 →
        (∀ d, d < c → bitOf (s.entry g.a).zmap d = true ∧ bitOf (s.entry g.b).zmap d = true) →
        ¬(bitOf (s.entry g.a).zmap c = true ∧ bitOf (s.entry g.b).zmap c = true) → Completes (.exchangeClaim ld eng) s fun t =>
          t.engine n = some { g with phase := .capture, k := c, bufA := {}, bufB := {}, retried := false } ∧
          (t.entry g.a).exchanging = true ∧ (t.entry g.a).partner = g.b ∧ (t.entry g.a).ntier = (s.entry g.b).tier ∧
          (t.entry g.a).nunit = (s.entry g.b).unit ∧ (t.entry g.a).nslot = (s.entry g.b).slot ∧
          (t.entry g.b).exchanging = true ∧ (t.entry g.b).partner = g.a ∧ (t.entry g.b).ntier = (s.entry g.a).tier ∧
          (t.entry g.b).nunit = (s.entry g.a).unit ∧ (t.entry g.b).nslot = (s.entry g.a).slot ∧
          (∀ f, f ≠ g.a → f ≠ g.b → t.entry f = s.entry f) ∧ t.memsys.dram = s.memsys.dram) ∧
      (s.eligible g.b true = false → g.rescanned = true → Completes (.exchangeClaim ld eng) s fun t =>
        t.engine n = none ∧ t.place.entries = s.place.entries)) ∧
    (∀ g, s.engine n = some g → g.phase = .capture → g.a ≠ g.b → s.chunkBusy g.a g.k = false → s.chunkBusy g.b g.k = false →
      ¬(bitOf (s.entry g.a).zmap g.k = true ∧ bitOf (s.entry g.b).zmap g.k = true) → Completes (.captureDone ld eng []) s fun t =>
        t.memsys.dram = s.memsys.dram ∧ t.entry g.a = { s.entry g.a with flightValid := true, flight := g.k } ∧
        t.entry g.b = { s.entry g.b with flightValid := true, flight := g.k } ∧
        ∃ ba bb, t.engine n = some { g with phase := .commit, bufA := ba, bufB := bb, retried := false } ∧
          ba.live = !bitOf (s.entry g.a).zmap g.k ∧ bb.live = !bitOf (s.entry g.b).zmap g.k ∧
          (ba.live = true → ∀ i, i < 512 → let l := slotLine (s.entry g.a).tier (s.entry g.a).unit (s.entry g.a).slot (g.k * 512 + i)
            s.locFailed (l * 128) = false → ba.read i = (lineBad s l, lineSeen s l)) ∧
          (bb.live = true → ∀ i, i < 512 → let l := slotLine (s.entry g.b).tier (s.entry g.b).unit (s.entry g.b).slot (g.k * 512 + i)
            s.locFailed (l * 128) = false → bb.read i = (lineBad s l, lineSeen s l))) ∧
    (∀ g, s.engine n = some g → g.phase = .commit → g.a ≠ g.b → g.k < 32 →
      (g.k < 31 → ¬(bitOf (s.entry g.a).zmap (g.k + 1) = true ∧ bitOf (s.entry g.b).zmap (g.k + 1) = true) →
        Completes (.commitChunkDone ld eng) s fun t =>
          t.engine n = some { g with phase := .capture, k := g.k + 1, bufA := {}, bufB := {}, retried := false } ∧
          bitOf (t.entry g.a).moved g.k = true ∧ bitOf (t.entry g.b).moved g.k = true ∧
          (t.entry g.a).flightValid = false ∧ (t.entry g.b).flightValid = false) ∧
      (g.k = 31 → Completes (.commitChunkDone ld eng) s fun t =>
        t.engine n = none ∧ (∀ f, f = g.a ∨ f = g.b → (t.entry f).exchanging = false ∧ (t.entry f).tier = (s.entry f).ntier ∧
          (t.entry f).unit = (s.entry f).nunit ∧ (t.entry f).slot = (s.entry f).nslot)) ∧
      (g.bufB.live = true → ∀ i, i < 512 → let l := slotLine (s.entry g.b).ntier (s.entry g.b).nunit (s.entry g.b).nslot (g.k * 512 + i)
        s.locFailed (slotLine (s.entry g.b).ntier (s.entry g.b).nunit (s.entry g.b).nslot 0 * 128) = false →
        rising s.memsys.dram.wcb = true → Completes (.commitChunkDone ld eng) s fun t =>
          lineBad t l = (g.bufB.read i).1 ∧ lineSeen t l = (g.bufB.read i).2))) ∧
  (∀ s : State, Canon s → ∀ (frame : BitVec 22) (ld : LD) (u : Word), frame.toNat < s.place.frames →
    let e := s.entry frame.toNat
    let p := s.agentPage frame.toNat
    (s.flag p Reg.PLACE_CFG_HINT_EN = true →
      (Completes (.hintPromote frame ld u) s fun t =>
        t.entry frame.toNat = { e with prefLd := ld.val, keep := true, keepUntil := u.toNat } ∧
        (∀ g, g ≠ frame.toNat → t.entry g = s.entry g) ∧
        (e.exchanging = false → e.tier = true → e.pin = false →
          (mget (fun _ => []) s.place.hintQ (s.agentLd frame.toNat)).length < 64 →
          mget (fun _ => []) t.place.hintQ (s.agentLd frame.toNat) = mget (fun _ => []) s.place.hintQ (s.agentLd frame.toNat) ++ [frame.toNat]) ∧
        (e.exchanging = true ∨ e.tier = false ∨ e.pin = true → t.place.hintQ = s.place.hintQ)) ∧
      (Completes (.hintKeep frame u) s fun t =>
        t.entry frame.toNat = { e with keep := true, keepUntil := u.toNat } ∧ (∀ g, g ≠ frame.toNat → t.entry g = s.entry g) ∧ NotedMem s t) ∧
      (Completes (.hintDemote frame) s fun t =>
        t.entry frame.toNat = { e with count := 0, keep := false } ∧ (∀ g, g ≠ frame.toNat → t.entry g = s.entry g) ∧ NotedMem s t)) ∧
    (s.flag p Reg.PLACE_CFG_HINT_EN = false → ∀ c ∈ [Instr.hintPromote frame ld u, .hintKeep frame u, .hintDemote frame],
      Completes c s fun t => t.memsys = s.memsys ∧ Noted s t ∧
        t.fld p Reg.PLACE_HINT_RCVD_COUNT = min (s.fld p Reg.PLACE_HINT_RCVD_COUNT + 1) (2 ^ 32 - 1)))

/-- PLACE commands: GO on an unlocked page takes the command; its end changes the entries of its range as its row of R309 says
and writes the status; a snapshot shows the 256 bits of an entry (R290, R308, R309, R314). -/
def Obligations.PlaceCommandsChangeTheirFrames : Prop :=
  PlaceCommandTaken .placeCmdNone 0 ∧ PlaceCommandTaken .setOwner 1 ∧ PlaceCommandTaken .discard 2 ∧ PlaceCommandTaken .setFrozen 3 ∧
  PlaceCommandTaken .clrFrozen 4 ∧ PlaceCommandTaken .pin 5 ∧ PlaceCommandTaken .unpin 6 ∧ PlaceCommandTaken .placePromote 7 ∧
  PlaceCommandTaken .placeDemote 8 ∧ PlaceCommandTaken .recount 9 ∧
  (∀ s : State, Canon s → ∀ pd : PD, s.fenced (diePage .place pd) = false →
    (s.place.cmds.find? (fun c => c.page == pageKey (diePage .place pd)) = none → exec (.placeCmdDone pd) s = .next s) ∧
    (∀ c, s.place.cmds.find? (fun c => c.page == pageKey (diePage .place pd)) = some c →
      let idle := s.sched.state = .idle ∨ s.sched.state = .loaded ∨ s.sched.state = .ended
      let fits := c.base % 2 ^ 21 = 0 ∧ c.frames ≠ 0 ∧ c.base / 2 ^ 21 + c.frames ≤ s.place.frames
      (c.kind = 0 → Completes (.placeCmdDone pd) s fun t => PlaceEnded t pd 0 ∧ t.place.entries = s.place.entries) ∧
      (c.kind ≠ 0 → c.kind ≠ 5 → ¬fits → Completes (.placeCmdDone pd) s fun t =>
        PlaceEnded t pd 0x13 ∧ t.place.entries = s.place.entries) ∧
      (c.kind = 3 ∨ c.kind = 4 → fits → ¬idle → Completes (.placeCmdDone pd) s fun t =>
        PlaceEnded t pd 0x30 ∧ t.place.entries = s.place.entries) ∧
      (c.kind = 5 → s.pinWaits c.base c.frames = true → exec (.placeCmdDone pd) s = .next s) ∧
      (fits →
        (c.kind = 1 → Completes (.placeCmdDone pd) s fun t => PlaceEnded t pd 0 ∧ EntriesBecome s t c fun e => { e with owner := c.value }) ∧
        (c.kind = 2 → (∀ g, CmdRange c g → s.agentCode g c.value true = 0) → Completes (.placeCmdDone pd) s fun t =>
          PlaceEnded t pd 0 ∧ EntriesBecome s t c fun e => { e with zmap := 0xFFFFFFFF }) ∧
        (c.kind = 2 → s.agentCode (c.base / 2 ^ 21) c.value true ≠ 0 → Completes (.placeCmdDone pd) s fun t =>
          PlaceEnded t pd (s.agentCode (c.base / 2 ^ 21) c.value true) ∧ t.place.entries = s.place.entries) ∧
        (c.kind = 3 → idle → Completes (.placeCmdDone pd) s fun t =>
          PlaceEnded t pd 0 ∧ (∀ g, CmdRange c g → (t.entry g).frozen = true) ∧
          ∀ g, ¬CmdRange c g → (t.entry g).frozen = (s.entry g).frozen) ∧
        (c.kind = 4 → idle → Completes (.placeCmdDone pd) s fun t => PlaceEnded t pd 0 ∧ EntriesBecome s t c fun e => { e with frozen := false }) ∧
        (c.kind = 5 → s.pinWaits c.base c.frames = false → Completes (.placeCmdDone pd) s fun t =>
          PlaceEnded t pd 0 ∧ EntriesBecome s t c fun e => { e with pin := true }) ∧
        (c.kind = 6 → Completes (.placeCmdDone pd) s fun t => PlaceEnded t pd 0 ∧ EntriesBecome s t c fun e => { e with pin := false }) ∧
        (c.kind = 7 → Completes (.placeCmdDone pd) s fun t => PlaceEnded t pd 0 ∧
          EntriesBecome s t c fun e => { e with prefLd := c.ld, keep := true, keepUntil := s.sched.jstep.toNat % 2 ^ 32 }) ∧
        (c.kind = 8 → Completes (.placeCmdDone pd) s fun t => PlaceEnded t pd 0 ∧
          EntriesBecome s t c fun e => { e with count := 0, keep := false }) ∧
        (c.kind = 9 → Completes (.placeCmdDone pd) s fun t => PlaceEnded t pd 0 ∧ EntriesBecome s t c fun e => { e with count := 0 })))) ∧
  (∀ s : State, Canon s → ∀ (who : Requester) (pd : PD) (frame : BitVec 22),
    (s.accessible (diePage .place pd) = true → frame.toNat < s.place.frames → Completes (.placeEntSelWrite who pd frame) s fun t =>
      t.fld (diePage .place pd) Reg.PLACE_ENT_SEL_FRAME = frame.toNat ∧ t.flag (diePage .place pd) Reg.PLACE_STAT_ENT_VALID = false ∧
      t = { s with regs := t.regs, pages := t.pages }) ∧
    (s.accessible (diePage .place pd) = true → s.place.frames ≤ frame.toNat → Completes (.placeEntSelWrite who pd frame) s fun t =>
      (∀ i, i < 8 → t.fld (diePage .place pd) Reg.PLACE_ENT_ENTRY i = 0) ∧ t.flag (diePage .place pd) Reg.BLK_STAT_ERR = true ∧
      t.memsys = s.memsys) ∧
    (s.flag (diePage .place pd) Reg.PLACE_STAT_ENT_VALID = true → exec (.placeEntSnapshot pd) s = .next s) ∧
    (s.flag (diePage .place pd) Reg.PLACE_STAT_ENT_VALID = false → s.fld (diePage .place pd) Reg.PLACE_ENT_SEL_FRAME < s.place.frames →
      Completes (.placeEntSnapshot pd) s fun t =>
        (∀ i, i < 8 → t.fld (diePage .place pd) Reg.PLACE_ENT_ENTRY i =
          bitsOf (s.entry (s.fld (diePage .place pd) Reg.PLACE_ENT_SEL_FRAME)).word (32 * i) 32) ∧
        t.flag (diePage .place pd) Reg.PLACE_STAT_ENT_VALID = true ∧ t = { s with regs := t.regs }))


namespace Sys2Proof.Claims

/-- A thermal flag rises above one temperature, falls at another and stays between them. -/
def Follows (t : Int) (up down : Int) (was now : Bool) : Prop :=
  (up < t → now = true) ∧ (t ≤ down → now = false) ∧ (down < t → t ≤ up → now = was)

/-- An XLATE command ended on a die. -/
def XlateEnded (t : State) (pd : PD) (n : Nat) : Prop :=
  Ended t (diePage .xlate pd) Reg.XLATE_CMD_GO Reg.XLATE_CMD_STATUS_CODE Reg.XLATE_CMD_STATUS_VALID 2 n

/-- An XLATE command written with GO runs on every full die while none runs. -/
def XlateCommandRuns (c : Requester → PD → Instr) (n ctx port : Nat) (P : State → State → Prop) : Prop :=
  ∀ s : State, Canon s → ∀ (who : Requester) (pd : PD), s.accessible (diePage .xlate pd) = true →
    s.takesWork (diePage .xlate pd) = true → s.flag (diePage .xlate pd) Reg.XLATE_CMD_GO = false →
    (s.xl.cmd = none → Completes (c who pd) s fun t =>
      t.xl.cmd = some ⟨pageKey (diePage .xlate pd), n, ctx, port⟩ ∧ P s t ∧
      (∀ pd', s.isFull pd' = true → t.flag (diePage .xlate pd') Reg.XLATE_CMD_GO = true ∧
        t.flag (diePage .xlate pd') Reg.XLATE_CMD_STATUS_VALID = false ∧ t.fld (diePage .xlate pd') Reg.XLATE_CMD_CMD = n) ∧
      t.place = s.place ∧ t.memsys.dram = s.memsys.dram ∧ t.cores = s.cores) ∧
    (s.xl.cmd ≠ none → Completes (c who pd) s fun t => t.memsys = s.memsys ∧ t.tcs = s.tcs ∧ t.pcie = s.pcie)

/-- Nothing cached is dropped and no epoch rises. -/
def CachesKept (s t : State) : Prop := (∀ n, t.epoch n = s.epoch n) ∧ t.tcs = s.tcs ∧ t.pcie = s.pcie

end Sys2Proof.Claims

/-! Tier N, Tier F, translation. -/

/-- A stack: an idle buffered line retires with nothing seen changed, the refresh debt rises and a debt of 64 steals eight
refreshes, a window serves what it names, calibration and scrub steal at their deadlines, temperatures move REF_2X, THROTTLE and
CRIT, lane counts halve (R345, R347, R354, R356, R357, R358, R360). -/
def Obligations.StacksRefreshScrubAndCool : Prop :=
  ∀ s : State, Canon s → rising s.memsys.dram.wcb = true → ∀ ld : LD,
    let p := nsPage s ld.val
    let now := s.clock.beats.toNat
    let unit := refreshBeats s.sched.ratioCur
    let us := beatsPerUs s.sched.ratioCur
    (∀ addr : BitVec 34, let line := locN ld.val addr.toNat / 128
      (s.retireWait (line * 128) = true → exec (.nsWcbAgeRetire ld addr .none) s = .next s) ∧
      (s.retireWait (line * 128) = false → Completes (.nsWcbAgeRetire ld addr .none) s fun t =>
        t.wcbEnt line = none ∧ lineSeen t line = lineSeen s line ∧ lineBad t line = lineBad s line ∧ t.place = s.place ∧ NotedMem s t)) ∧
    (s.schedRuns = false → exec (.refreshTick ld) s = .next s ∧ exec (.maintWindowBegin ld) s = .next s) ∧
    (s.schedRuns = true → s.windowNames ld.val 0 = false → (s.stack ld.val).debt < 63 → Completes (.refreshTick ld) s fun t =>
      t.stack ld.val = { s.stack ld.val with debt := (s.stack ld.val).debt + 1 } ∧
      (∀ n, n ≠ ld.val → t.stack n = s.stack n) ∧
      t = { s with regs := t.regs, memsys := { s.memsys with nstacks := t.memsys.nstacks } }) ∧
    (s.schedRuns = true → s.windowNames ld.val 0 = false → 63 ≤ (s.stack ld.val).debt → Completes (.refreshTick ld) s fun t =>
      (t.stack ld.val).debt = 56 ∧ (t.stack ld.val).stealEnd = max (now + 1) (s.stack ld.val).stealEnd + 8 * unit ∧
      t.fld p Reg.NS_STEAL_REF_COUNT = min (s.fld p Reg.NS_STEAL_REF_COUNT + 1) (2 ^ 32 - 1) ∧
      t.memsys.dram = s.memsys.dram ∧ t.place = s.place) ∧
    (s.schedRuns = true → s.windowNames ld.val 0 = true →
      max now (s.stack ld.val).windowBusy + unit ≤ (s.stack ld.val).windowEnd + 1 → Completes (.refreshTick ld) s fun t =>
        t.stack ld.val = { s.stack ld.val with windowBusy := max now (s.stack ld.val).windowBusy + unit } ∧
        t = { s with memsys := { s.memsys with nstacks := t.memsys.nstacks } }) ∧
    (∀ w, s.schedRuns = true → s.windowNow ld.val = some w → Completes (.maintWindowBegin ld) s fun t =>
      (t.stack ld.val).windowEnd = now + w.length - 1 ∧ (t.stack ld.val).windowKinds = w.kinds ∧
      (bitOf w.kinds 0 = false → (t.stack ld.val).debt = (s.stack ld.val).debt) ∧
      (bitOf w.kinds 0 = true →
        (t.stack ld.val).debt = (s.stack ld.val).debt - (min ((s.stack ld.val).debt + 8).toNat (w.length / unit) : Nat)) ∧
      (bitOf w.kinds 1 = false → (t.stack ld.val).zqDue = (s.stack ld.val).zqDue) ∧
      (bitOf w.kinds 0 = false → bitOf w.kinds 1 = true → us ≤ w.length → (t.stack ld.val).zqDue = false) ∧
      (∀ n, n ≠ ld.val → t.stack n = s.stack n) ∧ t.memsys.dram = s.memsys.dram ∧ t.place = s.place ∧ NotedMem s t) ∧
    (s.schedRuns = false → ∀ c ∈ [Instr.zqDeadline ld, .zqInterval ld], Completes c s fun t =>
      t.stack ld.val = { s.stack ld.val with zqDue := false, zqTemp := signedOf (s.fld p Reg.NS_TEMP_TSTACK) 8 } ∧
      t = { s with memsys := { s.memsys with nstacks := t.memsys.nstacks } }) ∧
    (s.schedRuns = true → Completes (.zqInterval ld) s fun t =>
      t.stack ld.val = { s.stack ld.val with zqDue := true } ∧ t = { s with memsys := { s.memsys with nstacks := t.memsys.nstacks } }) ∧
    (s.schedRuns = true → s.windowNames ld.val 1 = true → exec (.zqDeadline ld) s = .next s) ∧
    (s.schedRuns = true → s.windowNames ld.val 1 = false → Completes (.zqDeadline ld) s fun t =>
      (t.stack ld.val).zqDue = false ∧ (t.stack ld.val).stealEnd = max (now + 1) (s.stack ld.val).stealEnd + us ∧
      t.fld p Reg.NS_STEAL_ZQ_COUNT = min (s.fld p Reg.NS_STEAL_ZQ_COUNT + 1) (2 ^ 32 - 1) ∧ t.memsys.dram = s.memsys.dram) ∧
    (s.flag p Reg.NS_CFG_SCRUB_EN = false → exec (.scrubDeadline ld) s = .next s) ∧
    (s.flag p Reg.NS_CFG_SCRUB_EN = true →
      (s.schedRuns = false → Completes (.scrubDeadline ld) s fun t =>
        t.fld p Reg.NS_SCRUB_POS_LINE = (s.fld p Reg.NS_SCRUB_POS_LINE + 256 * 8192 / us) % 2 ^ 27 ∧ t.memsys = s.memsys ∧ Noted s t) ∧
      (s.schedRuns = true → s.windowNames ld.val 2 = true → exec (.scrubDeadline ld) s = .next s) ∧
      (s.schedRuns = true → s.windowNames ld.val 2 = false → Completes (.scrubDeadline ld) s fun t =>
        (t.stack ld.val).stealEnd = max (now + 1) (s.stack ld.val).stealEnd + 256 ∧
        t.fld p Reg.NS_SCRUB_POS_LINE = (s.fld p Reg.NS_SCRUB_POS_LINE + 256 * 8192 / us) % 2 ^ 27 ∧
        t.fld p Reg.NS_STEAL_SCRUB_COUNT = min (s.fld p Reg.NS_STEAL_SCRUB_COUNT + 1) (2 ^ 32 - 1) ∧ t.memsys.dram = s.memsys.dram)) ∧
    (∀ (layer : Fin 8) (temp : BitVec 8), Completes (.stackTempSample ld layer temp) s fun t =>
      let hot := signedOf (s.fld p Reg.NS_THERM_HOT_LIMIT) 8
      t.fld p Reg.NS_TEMP_TSTACK = temp.toNat ∧ t.fld p Reg.NS_TEMP_HOTTEST = layer.val ∧
      Follows temp.toInt 85 82 (s.flag p Reg.NS_STAT_REF_2X) (t.flag p Reg.NS_STAT_REF_2X) ∧
      Follows temp.toInt hot (hot - 5) (s.flag p Reg.NS_STAT_THROTTLE) (t.flag p Reg.NS_STAT_THROTTLE) ∧
      (t.flag p Reg.NS_STAT_CRIT = (s.flag p Reg.NS_STAT_CRIT || decide (105 ≤ temp.toInt))) ∧
      t.memsys.dram = s.memsys.dram ∧ t.place = s.place) ∧
    (rising (s.stack ld.val).laneCe = true → Completes (.nsLaneCeDecay ld) s fun t =>
      (∀ k, mget (fun _ => 0) (t.stack ld.val).laneCe k = if mget (fun _ => false) (s.stack ld.val).flagged k
        then mget (fun _ => 0) (s.stack ld.val).laneCe k else mget (fun _ => 0) (s.stack ld.val).laneCe k / 2) ∧
      t.stack ld.val = { s.stack ld.val with laneCe := (t.stack ld.val).laneCe } ∧
      t = { s with memsys := { s.memsys with nstacks := t.memsys.nstacks } })

/-- A channel: an idle buffered line retires with nothing seen changed, five alerts in a row start a retrain, a retrain drains the
buffer, two failed ones or eight in a second fail the channel and discard its buffer, ranks postpone refreshes and power down,
temperatures move REF_2X, THROTTLE and CRIT, the scrubber walks the channel and poisons what it cannot correct, device counts
halve (R370, R373 to R377, R382 to R384, R386). -/
def Obligations.ChannelsReplayRetrainAndScrub : Prop :=
  ∀ s : State, Canon s → rising s.memsys.dram.wcb = true → ∀ c : FChan,
    let p := fchanPage c
    let st := s.chan c.val
    let recent := (st.retrainAt.filter (fun t => decide (s.clock.time.toNat < t + 100000000))).length + 1
    let failed (t : State) : Prop := t.fld p Reg.FCHAN_STAT_STATE = 4 ∧ t.wcb (chanKey (locF c.val 0)) = []
    (∀ addr : BitVec 38, let line := locF c.val addr.toNat / 128
      (s.retireWait (line * 128) = true → exec (.fchanWcbAgeRetire c addr .none) s = .next s) ∧
      (s.retireWait (line * 128) = false → Completes (.fchanWcbAgeRetire c addr .none) s fun t =>
        t.wcbEnt line = none ∧ lineSeen t line = lineSeen s line ∧ lineBad t line = lineBad s line ∧ t.place = s.place ∧ NotedMem s t)) ∧
    (∀ crc cleared, s.chanState c ≠ 2 → exec (.fchanAlert c crc cleared) s = .next s) ∧
    (s.chanState c = 2 → ∀ crc,
      (Completes (.fchanAlert c crc true) s fun t =>
        t.chan c.val = { st with replays := 0 } ∧ t.chanState c = 2 ∧ t.memsys.dram = s.memsys.dram) ∧
      (st.replays < 4 → Completes (.fchanAlert c crc false) s fun t =>
        t.chan c.val = { st with replays := st.replays + 1 } ∧ t.chanState c = 2 ∧ t.memsys.dram = s.memsys.dram) ∧
      (4 ≤ st.replays → recent < 8 → Completes (.fchanAlert c crc false) s fun t =>
        t.chanState c = 3 ∧ (t.chan c.val).replays = 0 ∧ t.memsys.dram = s.memsys.dram ∧
        t.fld p Reg.FCHAN_RETRAINS_COUNT = min (s.fld p Reg.FCHAN_RETRAINS_COUNT + 1) (2 ^ 32 - 1)) ∧
      (4 ≤ st.replays → 8 ≤ recent → Completes (.fchanAlert c crc false) s failed)) ∧
    (∀ ok, s.chanState c ≠ 3 → exec (.fchanRetrainDone c ok) s = .next s) ∧
    (s.chanState c = 3 →
      ((∀ e ∈ s.wcb (chanKey (locF c.val 0)), chanKey (e.line * 128) = chanKey (locF c.val 0)) →
        Completes (.fchanRetrainDone c true) s fun t =>
          t.chanState c = 2 ∧ (t.chan c.val).failedRetrains = 0 ∧ t.wcb (chanKey (locF c.val 0)) = [] ∧ t.place = s.place) ∧
      (st.failedRetrains = 0 → recent < 8 → Completes (.fchanRetrainDone c false) s fun t =>
        t.chanState c = 3 ∧ (t.chan c.val).failedRetrains = 1 ∧ t.memsys.dram = s.memsys.dram) ∧
      (1 ≤ st.failedRetrains → Completes (.fchanRetrainDone c false) s failed)) ∧
    (∀ (rank : Fin 4) (demand : Bool), rising st.postponed = true → Completes (.fchanRefresh c rank demand) s fun t =>
      mget (fun _ => 0) (t.chan c.val).postponed rank.val =
        (if demand = true ∧ mget (fun _ => 0) st.postponed rank.val < 4 then mget (fun _ => 0) st.postponed rank.val + 1 else 0) ∧
      t.chan c.val = { st with postponed := (t.chan c.val).postponed } ∧
      t = { s with memsys := { s.memsys with chans := t.memsys.chans } }) ∧
    (Completes (.fchanTempRead c none) s fun t =>
      t.chan c.val = { st with sensorMiss := st.sensorMiss + 1 } ∧ t.memsys.dram = s.memsys.dram ∧
      (st.sensorMiss = 2 → t.flag p Reg.FCHAN_TEMP_SENSOR_VALID = false ∧ t.flag p Reg.FCHAN_STAT_REF_2X = true) ∧
      (st.sensorMiss ≠ 2 → t.regs = s.regs)) ∧
    (∀ v : BitVec 8, Completes (.fchanTempRead c (some v)) s fun t =>
      let hot := signedOf (s.fld p Reg.FCHAN_THERM_HOT_LIMIT) 8
      t.fld p Reg.FCHAN_TEMP_TDIMM = v.toNat ∧ t.flag p Reg.FCHAN_TEMP_SENSOR_VALID = true ∧ (t.chan c.val).sensorMiss = 0 ∧
      Follows v.toInt 85 82 (s.flag p Reg.FCHAN_STAT_REF_2X) (t.flag p Reg.FCHAN_STAT_REF_2X) ∧
      Follows v.toInt hot (hot - 5) (s.flag p Reg.FCHAN_STAT_THROTTLE) (t.flag p Reg.FCHAN_STAT_THROTTLE) ∧
      (t.flag p Reg.FCHAN_STAT_CRIT = (s.flag p Reg.FCHAN_STAT_CRIT || decide (95 ≤ v.toInt))) ∧ t.memsys.dram = s.memsys.dram) ∧
    (∀ rank : Fin 4,
      (s.flag p Reg.FCHAN_CFG_PD_EN = true → Completes (.fchanPowerDown c rank) s fun t =>
        mget (fun _ => false) (t.chan c.val).powerDown rank.val = true ∧ t.chan c.val = { st with powerDown := (t.chan c.val).powerDown } ∧
        t = { s with memsys := { s.memsys with chans := t.memsys.chans } }) ∧
      (s.flag p Reg.FCHAN_CFG_PD_EN = false → exec (.fchanPowerDown c rank) s = .next s)) ∧
    (let pos := s.fld p Reg.FCHAN_SCRUB_POS_LINE
     let lines := s.fld p Reg.FCHAN_SPEED_CAP_GIB * 2 ^ 23
     (s.flag p Reg.FCHAN_CFG_SCRUB_EN = false ∨ s.chanState c ≠ 2 ∨ lines = 0 → ∀ err, exec (.fchanScrub c err) s = .next s) ∧
     (s.flag p Reg.FCHAN_CFG_SCRUB_EN = true → s.chanState c = 2 →
      (pos + 1 < lines → pos + 1 < 2 ^ 31 → Completes (.fchanScrub c .none) s fun t =>
        t.fld p Reg.FCHAN_SCRUB_POS_LINE = pos + 1 ∧ t.memsys = s.memsys ∧ t = { s with regs := t.regs }) ∧
      (lines ≠ 0 → lines ≤ pos + 1 → Completes (.fchanScrub c .none) s fun t =>
        t.fld p Reg.FCHAN_SCRUB_POS_LINE = 0 ∧ t.flag p Reg.FCHAN_STAT_SCRUB_PRIO = false ∧ t.memsys = s.memsys) ∧
      (lines ≠ 0 → Completes (.fchanScrub c .ue) s fun t =>
        t.poisoned (locF c.val 0 / 128 + pos) = true ∧ t.memsys.dram.mem = s.memsys.dram.mem ∧ t.place = s.place))) ∧
    (s.flag p Reg.FCHAN_CFG_SCRUB_EN = true → s.flag p Reg.FCHAN_STAT_SCRUB_PRIO = false → Completes (.fchanScrubPriority c) s fun t =>
      t.flag p Reg.FCHAN_STAT_SCRUB_PRIO = true ∧ t.memsys = s.memsys ∧ Noted s t ∧
      t.fld p Reg.FCHAN_SCRUB_PRIO_COUNT = min (s.fld p Reg.FCHAN_SCRUB_PRIO_COUNT + 1) (2 ^ 32 - 1)) ∧
    (rising st.devCe = true → Completes (.fDevCeDecay c) s fun t =>
      (∀ k, mget (fun _ => 0) (t.chan c.val).devCe k = mget (fun _ => 0) st.devCe k / 2) ∧
      t.chan c.val = { st with devCe := (t.chan c.val).devCe } ∧ t = { s with memsys := { s.memsys with chans := t.memsys.chans } })

/-- Translation: CTXID 0 names system addresses and one region answers a span, a context with CTX_EN clear fails with cause 1 and is
captured, a walk stops at the first entry that fails a check of R397 with that check's cause, ADVANCE raises an epoch and drops cached translations, commands end on every full die, and
zctxid is written in the modes that may (R389, R391, R393, R397, R399, R400, R401, R405, R409, R412). -/
def Obligations.TranslationFollowsItsContext : Prop :=
  (∀ s : State, Canon s → ∀ (pd : PD) (cls : XClass) (tag : Word) (x : Span), x.len ≠ 0 →
    (∀ f ∈ spanFrames x, f * 2 ^ 21 < 2 ^ 52 ∧ s.inRange cls (f * 2 ^ 21) = true) →
    Completes (.dtuTranslate pd cls 0 tag [x]) s fun t =>
      t.reply = some (.bytes (RegBlock.bytes { epoch := s.epoch 0, ctx := 0, regions := [⟨x.va.toNat / 2 ^ 21, true, true,
        x.va.toNat / 2 ^ 21, (x.va.toNat + x.len.toNat - 1) / 2 ^ 21 - x.va.toNat / 2 ^ 21 + 1⟩] })) ∧
      t = { s with reply := t.reply }) ∧
  (∀ s : State, Canon s → ∀ (pd : PD) (cls : XClass) (ctx : Half) (tag : Word) (x : Span) (xs : List Span), x.len ≠ 0 → ctx ≠ 0 →
    s.flag s.xlPage Reg.XLATE_CFG_CTX_EN = false → s.flag (diePage .xlate pd) Reg.XLATE_FLT_INFO_VALID = false →
    Completes (.dtuTranslate pd cls ctx tag (x :: xs)) s fun t =>
      t.reply = none ∧ t.flag (diePage .xlate pd) Reg.XLATE_FLT_INFO_VALID = true ∧
      t.fld (diePage .xlate pd) Reg.XLATE_FLT_INFO_CAUSE = 1 ∧ t.fld (diePage .xlate pd) Reg.XLATE_FLT_INFO_CTXID = ctx.toNat ∧
      t.memsys = s.memsys ∧ t.tcs = s.tcs) ∧
  (∀ (pte level : Nat) (need : XNeed) (accept : Nat → Bool) (va : Nat),
    (bitOf pte 0 = false → pteStep pte level need accept va = .fail 2) ∧
    (bitOf pte 1 = false → bitOf pte 2 = true → pteStep pte level need accept va = .fail 2) ∧
    (bitOf pte 0 = true → bitOf pte 2 = false → bitOf pte 1 = false → bitOf pte 3 = false → bitsOf pte 54 10 = 0 → 0 < level →
      pteStep pte level need accept va = .table (bitsOf pte 10 44)) ∧
    (bitOf pte 0 = true → bitOf pte 1 = true → bitOf pte 2 = true → bitOf pte 4 = true → bitOf pte 6 = true → bitOf pte 7 = true →
      bitsOf pte 54 10 = 0 → bitsOf pte 10 44 % 2 ^ (9 * level) = 0 →
      pteStep pte level need accept va = if accept level then .leaf (bitsOf pte 10 44) true true (12 + 9 * level) else .fail 5)) ∧
  XlateCommandRuns .xlateCmdNone 0 0 0 CachesKept ∧
  (∀ ctx : Half, XlateCommandRuns (fun who pd => .advance who pd ctx) 1 ctx.toNat 0 fun s t =>
    t.epoch ctx.toNat = s.epoch ctx.toNat + 1 ∧ (∀ n, n ≠ ctx.toNat → t.epoch n = s.epoch n) ∧ t.pcie = s.pcie ∧
    ∀ pd mc, (t.tc pd mc).xlate = [] ∧ (t.tc pd mc).lines = (s.tc pd mc).lines) ∧
  XlateCommandRuns .advanceAll 2 0 0 (fun s t => (∀ n, t.epoch n = s.epoch n + 1) ∧ t.pcie = s.pcie ∧
    ∀ pd mc, (t.tc pd mc).xlate = [] ∧ (t.tc pd mc).lines = (s.tc pd mc).lines) ∧
  (∀ port : RPort, XlateCommandRuns (fun who pd => .ridFlush who pd port) 3 0 port.val fun s t =>
    t.rport port.val = { s.rport port.val with rids := [] } ∧ (∀ n, n ≠ port.val → t.rport n = s.rport n) ∧
    (∀ n, t.epoch n = s.epoch n) ∧ t.tcs = s.tcs) ∧
  (∀ s : State, Canon s → ∀ late,
    (s.xl.cmd = none → exec (.xlateCmdDone late) s = .next s) ∧
    (s.xl.cmd ≠ none → Completes (.xlateCmdDone late) s fun t =>
      t.memsys.xlate = { s.memsys.xlate with cmd := none } ∧ ∀ pd, s.isFull pd = true → XlateEnded t pd (if late then 0x7F else 0))) ∧
  (∀ s : State, Canon s → ∀ (h : HartId) (value : DWord),
    (s.hartRuns h = false → exec (.zctxidWrite h value) s = .next s) ∧
    (s.hartRuns h = true → (s.hart h.val).virt = true → exec (.zctxidWrite h value) s = .next { s with reply := some .virtualInstr }) ∧
    (s.hartRuns h = true → (s.hart h.val).virt = false → (s.hart h.val).priv = 0 →
      exec (.zctxidWrite h value) s = .next { s with reply := some .illegal }) ∧
    (s.hartRuns h = true → (s.hart h.val).virt = false → (s.hart h.val).priv ≠ 0 → Completes (.zctxidWrite h value) s fun t =>
      t.hart h.val = { s.hart h.val with zctxid := value.setWidth 16 } ∧ (∀ n, n ≠ h.val → t.hart n = s.hart n) ∧
      t = { s with cpu := { s.cpu with harts := t.cpu.harts } }))


namespace Sys2Proof.Claims

/-- The head slot w of an active ring with nothing outstanding can be accepted; s1 is the state once it is read. -/
def HeadOf (s s1 : State) (r w : Nat) : Prop :=
  s.ringState r = 1 ∧ s.barkerUp = true ∧ s.fenced (ringPage r) = false ∧ s.headSlot r = (some w, s1) ∧
  bitOf w 0 = s.flag (ringPage r) Reg.CMDQ_STAT_SQ_PHASE ∧ bitsOf w 32 32 = s.fld (ringPage r) Reg.CMDQ_NEXT_SEQ_SEQ ∧
  s1.ringRoom r w = true ∧ (s.ring r).reqs = []

/-- The request of the head slot. -/
def reqOf (s : State) (r w : Nat) : Req := { seq := s.fld (ringPage r) Reg.CMDQ_NEXT_SEQ_SEQ, slot := w, resv := slotResv w }

/-- A well-formed slot of a kind. -/
def Slot (s : State) (w k : Nat) : Prop := bitsOf w 8 8 = k ∧ slotReason s.fullDies.length w = 0

/-- The slot was accepted: NEXT_SEQ moved on. -/
def Took (s t : State) (r : Nat) : Prop :=
  t.fld (ringPage r) Reg.CMDQ_NEXT_SEQ_SEQ = (s.fld (ringPage r) Reg.CMDQ_NEXT_SEQ_SEQ + 1) % 2 ^ 32

/-- The accepted request ended: its FINAL is posted, or held until the commit. -/
def EndsWith (s t : State) (r w code : Nat) (detail : List Byte) : Prop :=
  Took s t r ∧
  (s.heldCompletions = true → (t.ring r).reqs = [{ reqOf s r w with st := .ended code detail }] ∧ (t.ring r).posted = (s.ring r).posted) ∧
  (s.heldCompletions = false → (t.ring r).reqs = [] ∧ (t.ring r).posted = (s.ring r).posted + 1)

/-- A slot of a kind, well formed and permitted, that acceptance finds fault with ends with the fault's code. -/
def Faulted (c : RingId → Instr) (kind op at_ : Nat) : Prop :=
  ∀ s : State, Canon s → ∀ (ring : RingId) (w : Nat) (s1 : State), HeadOf s s1 ring.val w → Slot s w kind →
    (at_ = 0 ∨ bitsOf w (8 * at_) 8 = op) →
    (s1.ringForbids ring.val (reqOf s ring.val w) = true → Completes (c ring) s fun t => EndsWith s t ring.val w 0x12 []) ∧
    (kind ≠ 3 → s1.ringForbids ring.val (reqOf s ring.val w) = false → ∀ code detail v,
      (s1.acceptSlot ring.val w).acceptKind ring.val (reqOf s ring.val w) = (.error (code, detail), v) →
        Completes (c ring) s fun t => EndsWith s t ring.val w code detail)

end Sys2Proof.Claims

/-! Command rings. -/

/-- A ring: ENABLE checks the configuration and starts at SEQ_BASE, clearing it stops the ring and setting it goes on; a poll takes
what the head holds and stalls at a wrong sequence number; a doorbell is a poll; FLUSH ends what has not started and its completion
returns the ring to RESET; TIME_US signals late records (R417, R421, R423, R437, R438). -/
def Obligations.RingsEnablePollAndFlush : Prop :=
  ∀ s : State, Canon s → ∀ ring : RingId,
    let r := ring.val
    let p := cmdqPage ring
    (s.ringState r ≠ 1 → (s.ring r).reqs = [] → exec (.ringPoll ring) s = .next s) ∧
    (s.ringState r = 1 → s.barkerUp = true → s.fenced p = false → (s.ring r).reqs = [] → ∀ w s1, s.headSlot r = (some w, s1) →
      (bitOf w 0 ≠ s.flag p Reg.CMDQ_STAT_SQ_PHASE → exec (.ringPoll ring) s = .next s1) ∧
      (bitOf w 0 = s.flag p Reg.CMDQ_STAT_SQ_PHASE → bitsOf w 32 32 ≠ s.fld p Reg.CMDQ_NEXT_SEQ_SEQ →
        Completes (.ringPoll ring) s fun t =>
          t.ringState r = 3 ∧ t.fld p Reg.CMDQ_STALL_SEQ_SEQ = bitsOf w 32 32 ∧ (t.reg p 0x010).getLsbD 2 = true ∧ t.jobs = s.jobs)) ∧
    (∀ w s1, HeadOf s s1 r w → bitsOf w 8 8 = 0 → ∀ t1, exec (.ringNop ring) s = .next t1 → ∀ t2, t1.ringTake r (fun _ => true) = (false, t2) →
      exec (.ringPoll ring) s = .next t2) ∧
    (∀ (who : Requester) (value : Word), s.accessible p = true →
      exec (.cmdqDoorbell who ring value) s = exec (.ringPoll ring) (counted s p who)) ∧
    (∀ who : Requester, s.flag p Reg.BLK_CTRL_FENCE = false →
      (s.ringState r = 0 → s.flag p Reg.BLK_CTRL_ENABLE = false →
        (s.ringConfigOk r = true → Completes (.cmdqEnable who ring true) s fun t =>
          t.ringState r = 1 ∧ t.ring r = {} ∧ t.fld p Reg.CMDQ_NEXT_SEQ_SEQ = s.fld p Reg.CMDQ_SEQ_BASE_SEQ ∧
          t.fld p Reg.CMDQ_SQ_HEAD_SLOT = 0 ∧ t.fld p Reg.CMDQ_CQ_TAIL_SLOT = 0 ∧ t.flag p Reg.CMDQ_STAT_SQ_PHASE = true ∧
          t.flag p Reg.CMDQ_STAT_CQ_PHASE = true ∧ t.flag p Reg.BLK_CTRL_ENABLE = true) ∧
        (s.ringConfigOk r = false → Completes (.cmdqEnable who ring true) s fun t =>
          t.ringState r = 0 ∧ t.jobs = s.jobs ∧ t.flag p Reg.BLK_CTRL_ENABLE = false ∧ t.flag p Reg.BLK_STAT_ERR = true)) ∧
      (s.ringState r = 1 → s.flag p Reg.BLK_CTRL_ENABLE = true → Completes (.cmdqEnable who ring false) s fun t =>
        t.ringState r = 2 ∧ t.jobs = s.jobs ∧ t.fld p Reg.CMDQ_NEXT_SEQ_SEQ = s.fld p Reg.CMDQ_NEXT_SEQ_SEQ) ∧
      (s.ringState r = 2 → s.flag p Reg.BLK_CTRL_ENABLE = false → Completes (.cmdqEnable who ring true) s fun t =>
        t.ringState r = 1 ∧ t.jobs = s.jobs ∧ t.fld p Reg.CMDQ_NEXT_SEQ_SEQ = s.fld p Reg.CMDQ_NEXT_SEQ_SEQ)) ∧
    (∀ who : Requester, s.accessible p = true → s.flag p Reg.CMDQ_CTRL_FLUSH = false → s.jobs.cur = none →
      (s.ringState r = 0 ∨ s.ringState r = 4 → Completes (.cmdqFlush who ring) s fun t => t.jobs = s.jobs ∧ t.ringState r = s.ringState r) ∧
      (s.ringState r = 1 ∨ s.ringState r = 2 ∨ s.ringState r = 3 →
        ((s.ring r).reqs = [] → Completes (.cmdqFlush who ring) s fun t =>
          t.ringState r = 4 ∧ t.jobs = { s.jobs with queue := s.jobs.queue.filter fun j => j.ring != r }) ∧
        (s.heldCompletions = true → (∀ q ∈ (s.ring r).reqs, q.st = .waiting ∧ q.kind ≠ 3) →
          Completes (.cmdqFlush who ring) s fun t =>
            t.ringState r = 4 ∧ t.ring r = { s.ring r with reqs := (s.ring r).reqs.map fun q => { q with st := .ended 0x51 [] } }))) ∧
    ((s.ring r).reqs = [] → s.ringState r = 4 → Completes (.flushComplete ring) s fun t =>
      t.ringState r = 0 ∧ t.flag p Reg.BLK_CTRL_ENABLE = false ∧ (t.reg p 0x010).getLsbD 3 = true ∧ t.jobs = s.jobs) ∧
    ((s.ring r).reqs = [] → s.ringState r ≠ 4 → exec (.flushComplete ring) s = .next s) ∧
    (∀ t0, (s.ring r).unsigAt = some t0 → 0 < (s.ring r).unsig → s.fld p Reg.CMDQ_IRQ_COAL_TIME_US ≠ 0 →
      (t0 + s.fld p Reg.CMDQ_IRQ_COAL_TIME_US * 100 ≤ s.clock.time.toNat → Completes (.cplCoalTimeout ring) s fun t =>
        t.ring r = { s.ring r with unsig := 0, unsigAt := none } ∧ (t.reg p 0x010).getLsbD 1 = true ∧ t.memsys = s.memsys) ∧
      (s.clock.time.toNat < t0 + s.fld p Reg.CMDQ_IRQ_COAL_TIME_US * 100 → exec (.cplCoalTimeout ring) s = .next s))

/-- Descriptors: a slot that passes its checks, in a ring with nothing outstanding, is accepted, moves NEXT_SEQ and starts as its
kind says; a reserved one ends with SCHED_ERROR, a forbidden one with CTX_VIOLATION, an untranslatable one with its code; a job
starts with its load, inline transfers end with their bytes (R418, R421, R424, R425, R426, R428 to R431, R433, R437). -/
def Obligations.DescriptorsStartAndEnd : Prop :=
  (∀ s : State, Canon s → ∀ (ring : RingId) (w : Nat) (s1 : State), HeadOf s s1 ring.val w →
    let r := ring.val
    let q := reqOf s r w
    let u := s1.acceptSlot r w
    (Slot s w 0 → Completes (.ringNop ring) s fun t => EndsWith s t r w 0 []) ∧
    (slotReserved w = true → Completes (.reservedKind ring) s fun t => EndsWith s t r w 0x30 [] ∧ t.flag (ringPage r) Reg.BLK_STAT_ERR = true) ∧
    (s1.ringForbids r q = false →
      (∀ q2 v, u.acceptKind r q = (.ok q2, v) → Slot s w 1 → Completes (.jobSubmit ring) s fun t =>
        Took s t r ∧ (t.ring r).reqs = [{ q2 with st := .running }] ∧ t.jobs.queue = s.jobs.queue ++ [{
          ring := r, seq := q.seq, ctx := s.ringCtx r, image := (q2.blk.bind (·.map (q.field 0x10 8))).getD 0, job := q.field 0x18 4
          progress := q.field 0x1C 4, trap := bitOf (q.field 0x20 1) 0 }]) ∧
      (Slot s w 2 → s.sched.state = .trapped → q.field 0x14 4 = s.fld s.leadPage Reg.SCHED_JOB_JOB → ∀ j, s.jobs.cur = some j →
        (q.field 0x10 1 = 0 → Completes (.jobCtlEnd ring) s fun t => Took s t r ∧ t.sched.state = .ended ∧ t.jobs.cur = none) ∧
        (∀ img, s.sched.image = some img → Alone s → s.sched.startKids = [] → s.portsAsleep = false → s.jobs.rerun = none →
          (q.field 0x10 1 = 1 → Completes (.jobCtlRerun ring) s fun t => Took s t r ∧ t.jobs.rerun = some 1 ∧
            t.sched.startAt = some (startTime s) ∧ t.sched.state = .trapped ∧ t.jobs.cur = some j) ∧
          (q.field 0x10 1 = 2 → Completes (.jobCtlRerunNotrap ring) s fun t => Took s t r ∧ t.jobs.rerun = some 2 ∧
            t.sched.startAt = some (startTime s) ∧ t.sched.state = .trapped ∧ t.jobs.cur = some j ∧
            ∀ x, x ∈ s.progCores → t.flag (mcorePage x.2.1 x.2.2) Reg.MCORE_CTRL_TRAP_NAN = false))) ∧
      (∀ q2 v, u.acceptKind r q = (.ok q2, v) → Slot s w 3 → ∀ pd i k, s1.moveSlot w = some (pd, i, k) → Completes (.move ring) s fun t =>
        Took s t r ∧ (t.ring r).reqs = [{ q2 with st := .running, mover := some (pd.val * 4 + i, k) }] ∧
        ∃ m, (t.mover pd i).rslot k = some m ∧ m.ring = r ∧ m.seq = q.seq ∧ m.go = true ∧ m.x.blk = q2.blk ∧ m.x.done = none) ∧
      (∀ q2 v, u.acceptKind r q = (.ok q2, v) → Slot s w 4 → Completes (.inlineWrite ring) s fun t =>
        Took s t r ∧ (t.ring r).reqs = [{ q2 with st := .running }] ∧ t.tierS = s.tierS) ∧
      (∀ q2 v, u.acceptKind r q = (.ok q2, v) → Slot s w 5 → Completes (.inlineRead ring) s fun t =>
        Took s t r ∧ (t.ring r).reqs = [{ q2 with st := .running }] ∧ t.tierS = s.tierS) ∧
      (Slot s w 6 → ∀ pd, s.pdOfLd (q.field 0x10 1) = some pd →
        let key := poolKey pd (q.field 0x12 2)
        (q.field 0x18 8 ≠ 2 ^ 64 - 1 → s.stepOpened (q.field 0x18 8) = false →
          (q.field 0x11 1 = 0 → Completes (.ringTsopAdd ring) s fun t =>
            Took s t r ∧ (t.ring r).reqs = [{ q with st := .running }] ∧ t.ts = s.ts) ∧
          (q.field 0x11 1 = 1 → Completes (.ringTsopSubtract ring) s fun t =>
            Took s t r ∧ (t.ring r).reqs = [{ q with st := .running }] ∧ t.ts = s.ts)) ∧
        (q.field 0x18 8 = 2 ^ 64 - 1 → s.tsopNow = true →
          (q.field 0x11 1 = 0 → Completes (.ringTsopAdd ring) s fun t =>
            EndsWith s t r w 0 [] ∧ (t.tsCell key).v = min ((s.tsCell key).v + q.field 0x14 4) tsMax ∧
            ∀ n, n ≠ key → t.tsCell n = s.tsCell n) ∧
          (q.field 0x11 1 = 1 → Completes (.ringTsopSubtract ring) s fun t =>
            EndsWith s t r w 0 [] ∧ (t.tsCell key).v = (s.tsCell key).v - q.field 0x14 4 ∧
            ∀ n, n ≠ key → t.tsCell n = s.tsCell n))) ∧
      (Slot s w 7 →
        (q.field 0x10 1 = 0 → Completes (.mgmtBarrier ring) s fun t => EndsWith s t r w 0 []) ∧
        (q.field 0x10 1 = 1 → Completes (.mgmtAdvance ring) s fun t => EndsWith s t r w 0 [] ∧
          t.epoch (q.field 0x14 2) = s.epoch (q.field 0x14 2) + 1 ∧ ∀ n, n ≠ q.field 0x14 2 → t.epoch n = s.epoch n) ∧
        (q.field 0x10 1 = 2 → s.ringCtx r = 0 → ∀ code f v,
          u.placeRun (q.field 0x11 1) (q.field 0x14 2) (q.field 0x12 1) (q.field 0x18 8) (q.field 0x20 4) = (code, f, v) →
          Completes (.mgmtPlace ring) s fun t => EndsWith s t r w code (if code = 0 then [] else leBytes f 8) ∧
            ∀ n, (t.entry n).owner = (v.entry n).owner ∧ (t.entry n).frozen = (v.entry n).frozen ∧ (t.entry n).pin = (v.entry n).pin) ∧
        (q.field 0x10 1 = 3 → Completes (.mgmtTimestamp ring) s fun t => EndsWith s t r w 0
          (leBytes s.clock.time.toNat 8 ++ leBytes s.sched.step.toNat 8 ++ leBytes s.sched.jstep.toNat 8))))) ∧
  Faulted .jobSubmit 1 0 0 ∧ Faulted .jobCtlEnd 2 0 0x10 ∧ Faulted .jobCtlRerun 2 1 0x10 ∧ Faulted .jobCtlRerunNotrap 2 2 0x10 ∧
  Faulted .move 3 0 0 ∧ Faulted .inlineWrite 4 0 0 ∧ Faulted .inlineRead 5 0 0 ∧ Faulted .ringTsopAdd 6 0 0x11 ∧
  Faulted .ringTsopSubtract 6 1 0x11 ∧ Faulted .mgmtAdvance 7 1 0x10 ∧ Faulted .mgmtPlace 7 2 0x10 ∧
  (∀ s : State, Canon s → ∀ err,
    (s.jobs.queue = [] ∨ s.jobActive = true ∨ s.barkerUp = false → exec (.jobStart err) s = .next s) ∧
    (∀ j rest, s.jobs.queue = j :: rest → s.jobActive = false → s.barkerUp = true →
      ((s.jobTake j rest).schedLoad err).sched.state ≠ .loaded → Completes (.jobStart err) s fun t =>
        t.sched.state = .ended ∧ t.jobs.cur = none ∧ t.jobs.queue = rest) ∧
    (∀ j rest, s.jobs.queue = j :: rest → s.jobActive = false → s.barkerUp = true → ∀ v, v = (s.jobTake j rest).schedLoad err →
      v.sched.state = .loaded → Completes (.jobStart err) s fun t =>
        t.sched.state = .loaded ∧ t.jobs.cur = some j ∧ t.jobs.queue = rest ∧ t.sched.image = v.sched.image ∧
        (∀ x, x ∈ v.progCores → t.fld (mcorePage x.2.1 x.2.2) Reg.MCORE_CTXID_CTXID = j.ctx % 2 ^ 16 ∧
          t.flag (mcorePage x.2.1 x.2.2) Reg.MCORE_CTRL_TRAP_NAN = j.trap))) ∧
  (∀ s : State, Canon s → ∀ (ring : RingId) (seq : Word) (err : PieceErr) q, s.findReq ring.val seq.toNat = some q →
    (q.st ≠ .running → exec (.inlineTransferDone ring seq err) s = .next s) ∧
    ((q.kind = 4 ∨ q.kind = 5) → q.st = .running → q.blk = none → q.field 0x1A 1 = 0 → s.heldCompletions = true →
      ∀ code fa lines got v, s.inlineRun none (q.kind == 4) (q.field 0x10 8) (if q.kind = 4 then q.len else q.field 0x19 1)
        (leBytes (bitsOf q.slot 512 (8 * if q.kind = 4 then q.len else q.field 0x19 1)) (if q.kind = 4 then q.len else q.field 0x19 1))
        err (s.ringCtx ring.val) = ((code, fa, lines, got), v) →
      Completes (.inlineTransferDone ring seq err) s fun t =>
        let detail := if code = 0 then got else if q.kind = 4 then failDetail fa 0 lines else []
        t.tierS = v.tierS ∧ t.memsys = v.memsys ∧ t.findReq ring.val seq.toNat = some { q with st := .ended code detail }))

/-- A mover performs a piece of a transfer: a SELECT of a ring reads its word, frees its slot and posts it; a piece between Tier S
addresses copies its units, moves the position on and counts its bytes; a unit that is copied reads at its destination what it read
at its source (R329, R332, R333, R336, R429). -/
def Obligations.PiecesCopyTheirUnits : Prop :=
  (∀ s : State, Canon s → ∀ (g : XGeom) (b : RegBlock) (u k : Nat) (e : PieceErr), ∀ t : State, s.moveUnit g b 1 u k e = (0, t) → g.sSys = false → g.dSys = false →
      t.sRead (g.dstOf u) 128 = s.sRead (g.srcOf u) 128 ∧
      ∀ a n, a + n ≤ g.dstOf u ∨ g.dstOf u + 128 ≤ a → t.sRead a n = s.sRead a n) ∧
  (∀ s : State, Canon s → ∀ (pd : PD) (i : MoverIx) (err : PieceErr),
    (∀ src, s.fenced (mvPage pd i.val) = true → exec (.moverPieceDone pd i src err) s = .next s) ∧
    (s.fenced (mvPage pd i.val) = false →
      (∀ slot : Fin 8, (s.mover pd i.val).slot slot.val = none → exec (.moverPieceDone pd i (.mvr slot) err) s = .next s) ∧
      (∀ (slot : Fin 8) v, (s.mover pd i.val).slot slot.val = some v → v.fetched = true → v.x.done = none → v.x.select = false →
        v.x.blk = none → ∀ n t1, s.movePiece v.x.geom {} 1 (v.x.pos.headD 0) err = (0, n, t1) →
        Completes (.moverPieceDone pd i (.mvr slot) err) s fun t =>
          t.tierS = t1.tierS ∧ t.memsys = t1.memsys ∧ t.reg64 (mvPage pd i.val) 0x110 = (s.reg64 (mvPage pd i.val) 0x110 + n) % 2 ^ 64 ∧
          (t.mover pd i.val).slot slot.val = some { v with x := { v.x with
            pos := [v.x.pos.headD 0 + 1]
            done := if v.x.geom.pieces ≤ v.x.pos.headD 0 + 1 then some s.clock.beats.toNat else none } }) ∧
      (∀ (slot : Fin 4) v, (s.mover pd i.val).rslot slot.val = some v → v.go = true → v.x.done = none → v.x.select = true →
        ∀ q, s.findReq v.ring v.seq = some q → (mvDesc (slotDesc q.slot)).cls = 0 → s.heldCompletions = true → err.ue = none →
        ∀ bs t1, s.bgRead v.x.geom.sAddr 4 1 v.x.ctx = (0, bs, t1) → Completes (.moverPieceDone pd i (.ring slot) err) s fun t =>
          (rising (s.mover pd i.val).ring = true → (t.mover pd i.val).rslot slot.val = none) ∧ t.ts = s.ts ∧ t.tierS = s.tierS ∧
          t.fld (mvPage pd i.val) Reg.MV_DONE_COUNT = min (s.fld (mvPage pd i.val) Reg.MV_DONE_COUNT + 1) (2 ^ 32 - 1) ∧
          t.findReq v.ring v.seq = some { q with st := .ended 0 [] })))


namespace Sys2Proof.Claims

/-- A hart's access of n bytes at a, inside one line of backed memory that its L2 holds as c, with no combining entry of its own. -/
def Hit (s : State) (h : HartId) (va : DWord) (a : BitVec 52) (n : Nat) (c : CLine) : Prop :=
  s.hartRuns h = true ∧ a.toNat < 2 ^ 43 ∧ s.backed (a.toNat / 64 * 64) = true ∧ a.toNat % 64 + n ≤ 64 ∧ va.toNat % 4096 + n ≤ 4096 ∧
  s.l2Line h.val (a.toNat / 64) = some c ∧ ∀ e ∈ s.homeSt.cb, e.hart ≠ h.val

/-- The line with n bytes of it replaced. -/
def lineWith (c : CLine) (a : BitVec 52) (n : Nat) (bs : List Byte) : CLine :=
  let new := List.replicate (a.toNat % 64) 0 ++ bs ++ List.replicate (64 - a.toNat % 64 - n) 0
  { c with st := .m, data := overlay ((2 ^ n - 1) * 2 ^ (a.toNat % 64)) c.data new }

/-- The bytes of an access. -/
def bytesAt (c : CLine) (a : BitVec 52) (n : Nat) : List Byte := (c.data.drop (a.toNat % 64)).take n

/-- A hart in removal (R465). -/
def Removing (s t : State) (h : HartId) (cause : Nat) : Prop :=
  t.hart h.val = { s.hart h.val with state := .removing, cause := cause, resv := none, eip := [], mtip := false } ∧
  ∀ n, n ≠ h.val → t.hart n = s.hart n

end Sys2Proof.Claims

/-! Harts and the interrupt controller. -/

/-- Harts: a load that hits answers the line's bytes, a store that may write replaces them and ends reservations of the line, LR
reserves and SC stores only while the reservation stands, an AMO answers the old value and stores the new one; register space
takes aligned words; what fails brings the exception of its kind (R45, R446, R451, R452, R468). -/
def Obligations.HartsLoadStoreAndReserve : Prop :=
  ∀ s : State, Canon s → ∀ (h : HartId) (va : DWord) (a : BitVec 52) (pb : Option (BitVec 52)) (size : Fin 4) (data : DWord) (vec : Bool)
    (err : TierFail),
    let n := 2 ^ size.val
    let line := a.toNat / 64
    let answered (t : State) (r : Reply) : Prop := t.reply = some r ∧ mget (fun _ => .illegal) t.cpu.answers h.val = r
    (∀ op pa rl, s.hartRuns h = false → exec (.hartMemoryAccess h op va pa pb size data rl vec err) s = .next s) ∧
    (∀ op rl, s.hartRuns h = true → Completes (.hartMemoryAccess h op va none pb size data rl vec err) s fun t =>
      answered t (.translation va) ∧ t.memsys = s.memsys) ∧
    (∀ c, Hit s h va a n c →
      (Completes (.hartMemoryAccess h .load va (some a) pb size data false vec err) s fun t =>
        answered t (.bytes (bytesAt c a n)) ∧ t.memsys = s.memsys ∧ t.cpu.harts = s.cpu.harts) ∧
      (Completes (.hartMemoryAccess h .fetch va (some a) pb size data false vec err) s fun t =>
        answered t (.bytes (bytesAt c a n)) ∧ t.memsys = s.memsys ∧ t.cpu.harts = s.cpu.harts) ∧
      (c.st = .m ∨ c.st = .e → Completes (.hartMemoryAccess h .store va (some a) pb size data false vec err) s fun t =>
        t.l2Line h.val line = some (lineWith c a n (leBytes data.toNat n)) ∧ (∀ k, (t.hart k).resv ≠ some line) ∧
        t.memsys.dram = s.memsys.dram ∧ t.place = s.place) ∧
      (a.toNat % n = 0 →
        (Completes (.hartMemoryAccess h .lr va (some a) pb size data false vec err) s fun t =>
          answered t (.bytes (bytesAt c a n)) ∧ (t.hart h.val).resv = some line ∧ t.memsys = s.memsys ∧
          ∀ k, k ≠ h.val → t.hart k = s.hart k) ∧
        ((s.hart h.val).resv ≠ some line → Completes (.hartMemoryAccess h .sc va (some a) pb size data false vec err) s fun t =>
          answered t (.bytes (leBytes 1 8)) ∧ (t.hart h.val).resv = none ∧ t.memsys = s.memsys) ∧
        ((s.hart h.val).resv = some line → c.st = .m ∨ c.st = .e →
          Completes (.hartMemoryAccess h .sc va (some a) pb size data false vec err) s fun t =>
            answered t (.bytes (leBytes 0 8)) ∧ (t.hart h.val).resv = none ∧
            t.l2Line h.val line = some (lineWith c a n (leBytes data.toNat n))) ∧
        (∀ o, c.st = .m ∨ c.st = .e → Completes (.hartMemoryAccess h (.amo o) va (some a) pb size data false vec err) s fun t =>
          answered t (.bytes (bytesAt c a n)) ∧ (∀ k, (t.hart k).resv ≠ some line) ∧ t.l2Line h.val line =
            some (lineWith c a n (leBytes (amoResult o n (leNat (bytesAt c a n)) (leNat (leBytes data.toNat n))) n))))) ∧
    (∀ op, s.hartRuns h = true → a.toNat < 2 ^ 43 → va.toNat % 4096 + n ≤ 4096 →
      (misalignedAtomic op a.toNat n = true → Completes (.hartMemoryAccess h op va (some a) pb size data false vec err) s fun t =>
        answered t (.misaligned va) ∧ t.memsys = s.memsys) ∧
      (misalignedAtomic op a.toNat n = false → s.backed (a.toNat / 64 * 64) = false → a.toNat % 64 + n ≤ 64 →
        Completes (.hartMemoryAccess h op va (some a) pb size data false vec err) s fun t =>
          answered t (if HartOp.kind op = 0 then .loadFault va else if HartOp.kind op = 1 then .fetchFault va else .storeFault va) ∧
          t.memsys = s.memsys ∧ t.flag (cpuclPageOf s h.val) Reg.BLK_STAT_ERR = true)) ∧
    (s.hartRuns h = true → 2 ^ 43 + 2 ^ 42 ≤ a.toNat → va.toNat % 4096 + n ≤ 4096 → ∀ p off, s.decodeReg a.toNat = some (p, off) →
      (n = 4 → a.toNat % 4 = 0 → vec = false →
        (Completes (.hartMemoryAccess h .load va (some a) pb size data false vec err) s fun t =>
          answered t (.word (s.busRead (.hart h) p off).1)) ∧
        exec (.hartMemoryAccess h .store va (some a) pb size data false vec err) s =
          .next (s.busWrite (.hart h) p off (BitVec.ofNat 32 data.toNat))) ∧
      (n ≠ 4 ∨ a.toNat % 4 ≠ 0 ∨ vec = true →
        (Completes (.hartMemoryAccess h .load va (some a) pb size data false vec err) s fun t =>
          answered t (.loadFault va) ∧ t.regs = s.regs) ∧
        (Completes (.hartMemoryAccess h .store va (some a) pb size data false vec err) s fun t =>
          answered t (.storeFault va) ∧ t.regs = s.regs)))

/-- Harts start, drain, stop and are interrupted: RUNc starts a hart in RESET at BOOT_ADDR, non-temporal stores merge, age and
fences drain the combining buffer, watchdog, state errors and REMOVE begin a removal and its end leaves nothing of the hart,
messages and the timer set their pending bits and wake a waiting hart, the APLIC window reads and writes a domain (R444, R451,
R456, R457, R460, R462 to R468). -/
def Obligations.HartsStartDrainStopAndWake : Prop :=
  (∀ s : State, Canon s → ∀ h : HartId,
    (∀ (va : DWord) (line : BitVec 46) (mask : BitVec 64) (data : BitVec 512),
      (s.hartRuns h = false → exec (.hartNtStore h va line mask data) s = .next s) ∧
      (s.hartRuns h = true → s.backed (line.toNat * 64) = false → Completes (.hartNtStore h va line mask data) s fun t =>
        t.reply = some (.storeFault va) ∧ t.memsys = s.memsys) ∧
      (s.hartRuns h = true → s.backed (line.toNat * 64) = true → ∀ e, s.homeSt.cb = [e] → e.hart = h.val → e.line = line.toNat →
        e.mask ||| mask.toNat ≠ 2 ^ 64 - 1 → Completes (.hartNtStore h va line mask data) s fun t =>
          (∃ bs, t.homeSt.cb = [{ e with mask := e.mask ||| mask.toNat, bytes := bs }] ∧
            mgets (fun _ => 0) bs 0 64 = overlay mask.toNat (mgets (fun _ => 0) e.bytes 0 64) (leBytes data.toNat 64)) ∧
          t.memsys.dram = s.memsys.dram ∧ ∀ k, (t.hart k).resv ≠ some line.toNat) ∧
      (s.hartRuns h = true → s.backed (line.toNat * 64) = true → s.homeSt.cb = [] → mask ≠ BitVec.allOnes 64 →
        (s.agentCode (frameOf64 line.toNat) (s.hart h.val).ctxid true ≠ 0 → Completes (.hartNtStore h va line mask data) s fun t =>
          t.reply = some (.storeFault va) ∧ t.homeSt.cb = []) ∧
        (s.agentCode (frameOf64 line.toNat) (s.hart h.val).ctxid true = 0 → s.l2Line h.val line.toNat = none →
          s.dirGet line.toNat = none → s.l3Line line.toNat = none → (∃ i, i < 16 ∧ (s.dirSet line.toNat).way i = none) →
          Completes (.hartNtStore h va line mask data) s fun t =>
            ∃ bs, t.homeSt.cb = [⟨h.val, line.toNat, mask.toNat, bs, (s.hart h.val).ctxid⟩]))) ∧
    (∀ line : BitVec 46, Completes (.cbAgeDrain h line) s fun t =>
      t.homeSt.cb = s.homeSt.cb.filter fun e => !(e.hart == h.val && e.line == line.toNat)) ∧
    (∀ predWO tso, (predWO || tso) = true → Completes (.hartFence h predWO tso) s fun t =>
      t.homeSt.cb = s.homeSt.cb.filter fun e => e.hart != h.val) ∧
    exec (.hartFence h false false) s = .next s ∧
    (s.hartRuns h = true → s.fld (cpuclPageOf s h.val) Reg.CPUCL_WDOG_MS ≠ 0 →
      Completes (.hartWatchdog h) s fun t => Removing s t h 3 ∧ t.memsys = s.memsys) ∧
    (s.hartRuns h = false ∨ s.fld (cpuclPageOf s h.val) Reg.CPUCL_WDOG_MS = 0 → exec (.hartWatchdog h) s = .next s) ∧
    (∀ tags, h.val < s.hartCount → (s.hart h.val).gone = false →
      Completes (.hartStateUe h tags) s fun t => Removing s t h (if tags then 2 else 1) ∧ t.memsys = s.memsys) ∧
    (∀ tags, (s.hart h.val).gone = true → exec (.hartStateUe h tags) s = .next s) ∧
    ((s.hart h.val).state = .removing → Completes (.hartRemovalDone h) s fun t =>
      (t.hart h.val).state = .removed ∧ (t.hart h.val).x = [] ∧ (t.hart h.val).f = [] ∧ (t.hart h.val).v = [] ∧
      (t.hart h.val).csr = [] ∧ (t.hart h.val).eip = [] ∧ (t.hart h.val).resv = none ∧
      (∀ line, line < 2 ^ 46 → t.l2Line h.val line = none) ∧ (t.reg (cpuclPageOf s h.val) 0x010).getLsbD 1 = true ∧
      ((s.hart h.val).cause = 4 → t.flag (cpuclPageOf s h.val) Reg.CPUCL_CMD_GO = false)) ∧
    ((s.hart h.val).state ≠ .removing → exec (.hartRemovalDone h) s = .next s) ∧
    (let cmp := s.reg64 (cpuclPageOf s h.val) (if h.val % 2 = 0 then 0x118 else 0x120)
     (s.hart h.val).gone = false → Completes (.mtimerInterrupt h) s fun t =>
      (t.hart h.val).mtip = decide (cmp ≤ s.clock.time.toNat) ∧ (∀ n, n ≠ h.val → t.hart n = s.hart n) ∧
      (t.hart h.val).state = (if cmp ≤ s.clock.time.toNat ∧ (s.hart h.val).state = .wfi then .running else (s.hart h.val).state))) ∧
  (∀ s : State, Canon s → ∀ (who : Requester) (pd : PD), s.accessible (diePage .cpucl pd) = true →
    let p := diePage .cpucl pd
    (∀ (core : Fin 2) ld, s.takesWork p = true → s.ldOf pd = some ld →
      ((s.hart (2 * ld + core.val)).state = .reset → mget (fun _ => false) s.dm.resetHalt (2 * ld + core.val) = false →
        s.dm.haltReq = false → Completes (.hartRun who pd core) s fun t =>
          t.hart (2 * ld + core.val) = { s.hart (2 * ld + core.val) with
            state := .running, pc := BitVec.ofNat 64 (s.reg64 p 0x108 % 2 ^ 52), priv := 3 } ∧
          (∀ n, n ≠ 2 * ld + core.val → t.hart n = s.hart n) ∧ t.memsys = s.memsys) ∧
      ((s.hart (2 * ld + core.val)).state ≠ .reset → Completes (.hartRun who pd core) s fun t => t.cpu = s.cpu ∧ t.memsys = s.memsys) ∧
      ((s.page p).lock = .unlocked who → s.flag p Reg.CPUCL_CMD_GO = false →
        (Completes (.cpuclCmdNone who pd) s fun t => t.flag p Reg.CPUCL_CMD_GO = false ∧ t.cpu = s.cpu ∧ (t.page p).lock = .locked) ∧
        ((s.hart (2 * ld + core.val)).gone = false → Completes (.remove who pd core) s fun t =>
          t.hart (2 * ld + core.val) = { s.hart (2 * ld + core.val) with
            state := .removing, cause := 4, resv := none, eip := [], mtip := false } ∧
          (∀ n, n ≠ 2 * ld + core.val → t.hart n = s.hart n) ∧ t.flag p Reg.CPUCL_CMD_GO = true ∧ (t.page p).lock = .locked) ∧
        ((s.hart (2 * ld + core.val)).gone = true → Completes (.remove who pd core) s fun t =>
          t.cpu = s.cpu ∧ t.flag p Reg.CPUCL_CMD_GO = false))) ∧
    (∀ value : Word,
      let n := bitsOf value.toNat 0 7
      let file := bitsOf value.toNat 8 4
      let ident := bitsOf value.toNat 16 8
      let delivers := n < s.hartCount ∧ ident ≠ 0 ∧ file ≤ 8 ∧ (s.hart n).gone = false
      (delivers → Completes (.msiSend who pd value) s fun t =>
        mget (fun _ => false) (t.hart n).eip (file * 256 + ident) = true ∧ (∀ k, k ≠ n → t.hart k = s.hart k) ∧
        (t.hart n).state = (if (s.hart n).state = .wfi then .running else (s.hart n).state)) ∧
      (¬delivers → s.reg p 0x014 = 0 → Completes (.msiSend who pd value) s fun t =>
        t.cpu = s.cpu ∧ t.fld p Reg.CPUCL_MSI_DROP_COUNT = min (s.fld p Reg.CPUCL_MSI_DROP_COUNT + 1) (2 ^ 32 - 1))) ∧
    (let sup := bitOf (s.aplicSel who) 0
     let off := bitsOf (s.aplicSel who) 2 14 * 4
     (Completes (.aplicAccess who pd none) s fun t =>
      t.reply = some (.word (BitVec.ofNat 32 (s.aplicRead sup off))) ∧ t.cpu = s.cpu) ∧
     (∀ v : Word, 4 ≤ off → off < 0x1000 → rising (s.aplic sup).cfg = true → Completes (.aplicAccess who pd (some v)) s fun t =>
      (t.aplic sup).srcCfg (off / 4) = srcCfgOf sup v.toNat ∧ t.aplic (!sup) = s.aplic (!sup) ∧ t.cpu.harts = s.cpu.harts) ∧
     (∀ v : Word, 0x3004 ≤ off → off < 0x4000 → rising (s.aplic sup).target = true → Completes (.aplicAccess who pd (some v)) s fun t =>
      mget (fun _ => 0) (t.aplic sup).target ((off - 0x3000) / 4) = v.toNat ∧ t.aplic (!sup) = s.aplic (!sup) ∧
      t.cpu.harts = s.cpu.harts)))


namespace Sys2Proof.Claims

/-- Nothing is open on a line, or waits for it. -/
def LineIdle (s : State) (line : Nat) : Prop :=
  (∀ t ∈ s.homeSt.open_, t.line ≠ line) ∧ (∀ t ∈ s.homeSt.queue, t.line ≠ line) ∧ s.homeSt.sweep = false

/-- Nobody holds a line, and its directory set has a free way. -/
def Unheld (s : State) (line : Nat) : Prop :=
  s.dirGet line = none ∧ ∃ i, i < 16 ∧ (s.dirSet line).way i = none

/-- The requests of R474 with the transactions they open. -/
def requests (h : HartId) (pd : PD) (mc : MC) (tag ctx : Half) (line : BitVec 46) (mask : BitVec 64) (data : BitVec 512) : List (Instr × Txn) :=
  let t (r : HReq) (who : Option Part) : Txn := { line := line.toNat, req := r, who := who, tag := tag.toNat, ctx := ctx.toNat }
  [(.homeReadS h tag ctx line .none, t .readS (some (.l2 h.val))), (.homeReadX (.hart h) tag ctx line .none, t .readX (some (.l2 h.val))),
   (.homeUpgrade h tag ctx line .none, t .upgrade (some (.l2 h.val))),
   (.homeClaim (.hart h) tag ctx line data .none, { t .claim (some (.l2 h.val)) with data := leBytes data.toNat 64 }),
   (.homeFillS pd mc tag ctx line .none, t .fillS (some (.tc (coreKey pd mc)))), (.homeRead tag ctx line .none, t .read none),
   (.homeWrite tag ctx line mask data none .none, { t .write none with mask := mask.toNat, data := leBytes data.toNat 64 })]

/-- A snooped hart's copy: what it answers and what it keeps (R475). -/
def Snooped (c : Holder → BitVec 46 → Instr) (k : Snoop) (keeps : CLine → Option CLine) : Prop :=
  ∀ s : State, Canon s → ∀ (h : HartId) (line : BitVec 46),
    (∀ x, s.homeSt.open_.find? (fun t => t.line == line.toNat) = some x → x.snp = k → x.granted = false → Part.l2 h.val ∈ x.pend →
      (∀ a ∈ x.answers, a.1 ≠ .l2 h.val) → (∀ w ∈ s.homeSt.wb, ¬(w.who = .l2 h.val ∧ w.line = line.toNat)) →
      (∀ e ∈ s.homeSt.cb, ¬(e.hart = h.val ∧ e.line = line.toNat)) → ∀ cl, s.l2Line h.val line.toNat = some cl →
      Completes (c (.hart h) line) s fun t =>
        t.l2Line h.val line.toNat = keeps cl ∧ t.memsys.dram = s.memsys.dram ∧
        t.homeSt.open_.find? (fun t => t.line == line.toNat) = some { x with
          answers := x.answers ++ [(.l2 h.val, if cl.st = .m ∨ cl.st = .o then .data cl.data cl.ctx else .clean)] }) ∧
    (∀ who, s.homeSt.open_.find? (fun t => t.line == line.toNat) = none → exec (c who line) s = .next s)

end Sys2Proof.Claims

/-! Coherence. -/

/-- A home serves the requests of a line one at a time: reads answer the line and record the reader, requests for write permission
are checked at the agent and leave the requester the owner with the line in M, an uncached write goes to the agent, a request on
a busy line waits (R472, R474, R475, R476, R477, R478). -/
def Obligations.HomesServeOneRequestAtATime : Prop :=
  ∀ s : State, Canon s → ∀ (h : HartId) (pd : PD) (mc : MC) (tag ctx : Half) (line : BitVec 46) (mask : BitVec 64) (data : BitVec 512),
    let l := line.toNat
    (∀ c t0, (c, t0) ∈ requests h pd mc tag ctx line mask data → (∃ x ∈ s.homeSt.open_, x.line = l) → Completes c s fun t =>
      t.homeSt.queue = s.homeSt.queue ++ [t0] ∧ t.homeSt.open_ = s.homeSt.open_ ∧ t.memsys.answers = s.memsys.answers) ∧
    (LineIdle s l → s.agentCode (frameOf64 l) ctx.toNat true ≠ 0 →
      ∀ c ∈ [Instr.homeReadX (.hart h) tag ctx line .none, .homeUpgrade h tag ctx line .none, .homeClaim (.hart h) tag ctx line data .none],
        Completes c s fun t => Answers s t tag (s.agentCode (frameOf64 l) ctx.toNat true) [] ∧ t.homeSt.l2 = s.homeSt.l2 ∧
          t.memsys.dram = s.memsys.dram) ∧
    (LineIdle s l → Unheld s l → ∀ d s1, s.homeData ctx.toNat l = (0, d, s1) →
      (Completes (.homeReadS h tag ctx line .none) s fun t =>
        Answers s t tag 0 d ∧ t.l2Line h.val l = some { st := .e, data := d, ctx := ctx.toNat } ∧
        t.dirGet l = some { line := l, st := .owned, owner := h.val } ∧ t.memsys.dram = s1.memsys.dram) ∧
      (s.agentCode (frameOf64 l) ctx.toNat true = 0 →
        Completes (.homeReadX (.hart h) tag ctx line .none) s fun t =>
          Answers s t tag 0 d ∧ t.l2Line h.val l = some { st := .m, data := d, ctx := ctx.toNat } ∧ t.l3Line l = none ∧
          t.dirGet l = some { line := l, st := .owned, owner := h.val }) ∧
      (Completes (.homeFillS pd mc tag ctx line .none) s fun t =>
        Answers s t tag 0 d ∧ t.homeSt.l2 = s.homeSt.l2 ∧
        ∀ n, s.ldOf pd = some n → (t.dirGet l).any (fun e => e.st == .shared && bitOf e.tcdies n) = true) ∧
      (Completes (.homeRead tag ctx line .none) s fun t =>
        Answers s t tag 0 d ∧ t.homeSt.l2 = s.homeSt.l2 ∧ t.memsys.dram = s1.memsys.dram)) ∧
    (LineIdle s l → Unheld s l → s.agentCode (frameOf64 l) ctx.toNat true = 0 →
      Completes (.homeClaim (.hart h) tag ctx line data .none) s fun t =>
        Answers s t tag 0 (leBytes data.toNat 64) ∧ t.l3Line l = none ∧
        t.l2Line h.val l = some { st := .m, data := leBytes data.toNat 64, ctx := ctx.toNat } ∧ t.memsys.dram = s.memsys.dram) ∧
    (LineIdle s l → ∀ e, s.dirGet l = some e → e.st = .shared → e.sharers = 2 ^ h.val → e.tcdies = 0 → ∀ cl, s.l2Line h.val l = some cl →
      s.agentCode (frameOf64 l) ctx.toNat true = 0 → Completes (.homeUpgrade h tag ctx line .none) s fun t =>
        Answers s t tag 0 cl.data ∧ t.l2Line h.val l = some { st := .m, data := cl.data, ctx := ctx.toNat } ∧ t.l3Line l = none ∧
        t.memsys.dram = s.memsys.dram) ∧
    (LineIdle s l → Unheld s l → ∀ code s1, s.lineToAgent ctx.toNat l mask.toNat (leBytes data.toNat 64) false = (code, s1) →
      Completes (.homeWrite tag ctx line mask data none .none) s fun t =>
        Answers s t tag code [] ∧ t.memsys.dram = s1.memsys.dram ∧ t.homeSt.l2 = s.homeSt.l2)

/-- Snoops, answers and write-backs: SHARE leaves O or S, INVAL nothing, CUR the copy; the last answer serves the request, data of
the owner going to the requester; evicted lines reach the home, dirty ones in the L3 slice; an unanswered snoop removes its
hart; a lookup names home and agent of an address (R471, R472, R475, R476, R481, R486, R489). -/
def Obligations.SnoopsAndWriteBacksKeepTheData : Prop :=
  Snooped .snpShare .share (fun c => some { c with st := if c.st = .m then .o else if c.st = .e then .s else c.st }) ∧
  Snooped .snpInval .inval (fun _ => none) ∧ Snooped .snpCur .cur some ∧
  (∀ s : State, Canon s → ∀ (h k : HartId) (line : BitVec 46) x,
    let l := line.toNat
    let p := Part.l2 k.val
    s.homeSt.open_.find? (fun t => t.line == l) = some x →
    (∀ d c, (p, SnpAns.data d c) ∈ x.answers → (∀ a ∈ x.answers, a.1 = p → a = (p, .data d c)) → x.pend = [p] → x.req = .readS →
      x.who = some (.l2 h.val) → x.granted = false → ∀ e, s.dirGet l = some e → e.st = .owned → e.owner = k.val → h ≠ k →
      Completes (.snoopResponse (.hart k) line) s fun t =>
        t.memsys.answers = s.memsys.answers ++ [⟨x.tag, 0, d⟩] ∧ t.l2Line h.val l = some { st := .s, data := d, ctx := x.ctx } ∧
        t.memsys.dram = s.memsys.dram) ∧
    ((∀ a ∈ x.answers, a.1 ≠ p) → exec (.snoopResponse (.hart k) line) s = .next s) ∧
    (x.granted = true → (∀ w ∈ s.homeSt.wb, w.line ≠ l) → (∀ t ∈ s.homeSt.queue, t.line ≠ l) → Completes (.compAck line) s fun t =>
      t.homeSt = { s.homeSt with open_ := s.homeSt.open_.filter fun y => y.line != l } ∧ t = { s with memsys := t.memsys }) ∧
    (x.granted = false → exec (.compAck line) s = .next s) ∧
    (p ∈ x.pend → (∀ a ∈ x.answers, a.1 ≠ p) → (s.hart k.val).gone = false → Completes (.snoopTimeout (.hart k) line) s fun t =>
      (t.hart k.val).state = .removing ∧ (t.hart k.val).cause = 4 ∧
      t.fld (s.homePage l) Reg.HOME_SNP_TMO_COUNT = min (s.fld (s.homePage l) Reg.HOME_SNP_TMO_COUNT + 1) (2 ^ 32 - 1))) ∧
  (∀ s : State, Canon s → ∀ (h : HartId) (n : RPort) (line : BitVec 46),
    let l := line.toNat
    (∀ c, s.l2Line h.val l = some c → (∀ t ∈ s.homeSt.open_, t.line ≠ l) → (∀ w ∈ s.homeSt.wb, ¬(w.who = .l2 h.val ∧ w.line = l)) →
      (c.st = .e → Completes (.homeEvictE h line) s fun t =>
        t.l2Line h.val l = none ∧ t.l3Line l = s.l3Line l ∧ t.memsys.dram = s.memsys.dram ∧
        t.homeSt.wb = s.homeSt.wb ++ [{ who := .l2 h.val, line := l, dirty := false, data := c.data, ctx := c.ctx, accepted := true }]) ∧
      (c.st ≠ .e → exec (.homeEvictE h line) s = .next s) ∧
      ((∀ e ∈ s.homeSt.cb, ¬(e.hart = h.val ∧ e.line = l)) → c.st = .m ∨ c.st = .o → Completes (.homeWb (.hart h) line) s fun t =>
        t.l2Line h.val l = none ∧ t.l3Line l = some { data := c.data, dirty := true, ctx := c.ctx } ∧ t.memsys.dram = s.memsys.dram ∧
        t.homeSt.wb = s.homeSt.wb ++ [{ who := .l2 h.val, line := l, dirty := true, data := c.data, ctx := c.ctx, accepted := true }])) ∧
    (∀ c, s.rpLine n.val l = some c → (∀ t ∈ s.homeSt.open_, t.line ≠ l) → (∀ w ∈ s.homeSt.wb, ¬(w.who = .rport n.val ∧ w.line = l)) →
      ∀ i ∈ [Instr.homeWb (.rport n) line, .rpLineRelease n line], Completes i s fun t =>
        t.rpLine n.val l = none ∧ t.l3Line l = some { data := c.data, dirty := true, ctx := c.ctx } ∧ t.memsys.dram = s.memsys.dram) ∧
    (s.rpLine n.val l = none → exec (.rpLineRelease n line) s = .next s) ∧
    (∀ who, exec (.wbAck who line) s = .next (s.setHome { s.homeSt with
      wb := s.homeSt.wb.filter fun w => !(w.accepted && w.who == holderPart who && w.line == l) }))) ∧
  (∀ s : State, Canon s → ∀ (who : Requester) (pd : PD) (hi : Word), s.accessible (diePage .home pd) = true →
    s.stagedAt (diePage .home pd) 0x10C = none →
    let a := ((s.reg (diePage .home pd) 0x10C).toNat + hi.toNat * 2 ^ 32) % 2 ^ 52
    Completes (.homeLookup who pd hi) s fun t =>
      t.fld (diePage .home pd) Reg.HOME_LOOKUP_RES_HOME_LD = homeLd a s.fullDies.length ∧
      t.fld (diePage .home pd) Reg.HOME_LOOKUP_RES_AGENT_LD = a / 2 ^ 21 % s.fullDies.length ∧
      t.flag (diePage .home pd) Reg.HOME_LOOKUP_RES_VALID = decide (a < s.reg64 (pkgPage .familyParam) 0x120) ∧
      t = { s with regs := t.regs, pages := t.pages })


namespace Sys2Proof.Claims

/-- A port is DOWN for a cause (R496, R522). -/
def DownFor (t : State) (n cause : Nat) : Prop := t.jpState n = 0 ∧ t.fld (jpPage n) Reg.JP_STAT_DOWN_CAUSE = cause

/-- Training has restarted once more. -/
def Restarted (s t : State) (n : Nat) : Prop :=
  t.jpState n = 1 ∧ t.fld (jpPage n) Reg.JP_STAT_TRIES = s.fld (jpPage n) Reg.JP_STAT_TRIES + 1 ∧ t.jal = s.jal

/-- The partition is formed: step counter 0 and every used port that was UP is ACTIVE (R502). -/
def Formed (s t : State) : Prop :=
  t.formState = 2 ∧ t.sched.step = 0 ∧ ∀ n, n < 8 → s.portUsed n = true → s.jpState n = 4 → t.jpState n = 5

end Sys2Proof.Claims

/-! Jallyn links. -/

/-- Links train, with three restarts at most, sleep by agreement and wake, are forced down, and form a partition: GO sends
identities, a mismatch makes a port MISCABLED, the children's counts go up the tree, and the release zeroes the step counter (R496,
R497, R498, R499, R502, R522, R523). -/
def Obligations.LinksTrainSleepAndForm : Prop :=
  ∀ s : State, Canon s → ∀ (who : Requester) (port : JPort),
    let n := port.val
    let p := jpPage n
    (s.accessible p = true →
      (s.takesWork p = true → (s.jpState n = 0 ∧ s.flag p Reg.JP_CTRL_FORCE_DOWN = false) ∨ s.jpState n = 4 →
        Completes (.jpTrain who port) s fun t =>
          t.jpState n = 1 ∧ t.fld p Reg.JP_STAT_DOWN_CAUSE = 0 ∧ t.fld p Reg.JP_STAT_TRIES = 0 ∧
          t.fld p Reg.JP_STAT_SPARE_TX = 15 ∧ t.fld p Reg.JP_STAT_SPARE_RX = 15 ∧ (t.jport n).identOk = false) ∧
      (s.takesWork p = true → s.jpState n = 5 → Completes (.jpTrain who port) s fun t =>
        t.jpState n = 5 ∧ t.flag p Reg.BLK_STAT_ERR = true ∧ t.jal = s.jal) ∧
      (s.flag p Reg.JP_CTRL_LP_REQ = false → s.schedRests = true → s.jpState n = 4 ∨ s.jpState n = 5 →
        Completes (.lpReqWrite who port true) s fun t =>
          t.jpState n = 6 ∧ (t.jport n).before = s.jpState n ∧ t.flag p Reg.JP_CTRL_LP_REQ = true ∧
          t.jal.out = sentOn s [n] ⟨s.tokHdr s.sched.step.toNat, .lpReq⟩) ∧
      (s.flag p Reg.JP_CTRL_LP_REQ = true → s.jpState n = 6 ∨ s.jpState n = 7 → Completes (.lpReqWrite who port false) s fun t =>
        t.jpState n = 8 ∧ t.flag p Reg.JP_CTRL_LP_REQ = false ∧ t.jal = s.jal) ∧
      (s.flag p Reg.JP_CTRL_FORCE_DOWN = false → Completes (.forceDownWrite who port true) s fun t =>
        DownFor t n 7 ∧ t.flag p Reg.JP_CTRL_FORCE_DOWN = true) ∧
      (Completes (.forceDownWrite who port false) s fun t =>
        t.flag p Reg.JP_CTRL_FORCE_DOWN = false ∧ t.jpState n = s.jpState n ∧ t = { s with regs := t.regs, pages := t.pages }) ∧
      (s.takesWork p = true → s.schedRests = true → s.formState ≠ 1 →
        (s.usedPorts = [] → Alone s → Completes (.formGo who port) s fun t =>
          Formed s t ∧ t.jal.formAt = some s.clock.time.toNat ∧ ∀ k, k < 8 → s.portThere k = true → DownFor t k 10) ∧
        (s.usedPorts ≠ [] → (∀ k ∈ s.usedPorts, s.portThere k = true ∧ s.flag (jpPage k) Reg.JP_CTRL_FORCE_DOWN = false ∧
            (s.jpState k = 4 ∨ s.jpState k = 5)) → Completes (.formGo who port) s fun t =>
          t.formState = 1 ∧ t.jal.formKids = [] ∧ t.jal.formAt = some s.clock.time.toNat ∧ t.sched.step = s.sched.step ∧
          (∀ k ∈ s.usedPorts, t.jpState k = 4 ∧ (t.jport k).identOk = false) ∧
          t.jal.out = s.jal.out ++ s.usedPorts.map fun k => (k, ⟨s.tokHdr s.sched.step.toNat, .ident (s.identOf k)⟩)) ∧
        (∀ k ∈ s.usedPorts, s.portThere k = false → Completes (.formGo who port) s fun t => t.formState = 3)) ∧
      (s.schedRests = true → Completes (.dissolve who port) s fun t =>
        t.formState = 0 ∧ t.sched = s.sched ∧ t.jal = s.jal ∧
        ∀ k, k < 8 → t.jpState k = if s.jpState k = 5 then 4 else s.jpState k)) ∧
    (s.jpState n ≠ 1 → exec (.jpDetectTimeout port) s = .next s) ∧
    (s.jpState n = 1 → s.fld p Reg.JP_STAT_TRIES = 0 → Completes (.jpDetectTimeout port) s fun t => DownFor t n 1) ∧
    (s.jpState n = 1 → s.fld p Reg.JP_STAT_TRIES = 1 ∨ s.fld p Reg.JP_STAT_TRIES = 2 →
      Completes (.jpDetectTimeout port) s fun t => Restarted s t n) ∧
    (s.jpState n = 1 → s.fld p Reg.JP_STAT_TRIES = 3 → Completes (.jpDetectTimeout port) s fun t => DownFor t n 2) ∧
    (1 ≤ s.jpState n → s.jpState n ≤ 3 → s.fld p Reg.JP_STAT_TRIES < 3 → Completes (.jpSignalLost port) s fun t => Restarted s t n) ∧
    (1 ≤ s.jpState n → s.jpState n ≤ 3 → s.fld p Reg.JP_STAT_TRIES = 3 → Completes (.jpSignalLost port) s fun t => DownFor t n 2) ∧
    (s.jpState n = 6 ∨ s.jpState n = 8 → Completes (.jpSignalLost port) s fun t => DownFor t n 4) ∧
    (s.jpState n = 0 ∨ s.jpState n = 4 ∨ s.jpState n = 5 → exec (.jpSignalLost port) s = .next s) ∧
    (∀ out, s.jpState n = 0 ∨ 4 ≤ s.jpState n → exec (.jpTrainDone port out) s = .next s) ∧
    (1 ≤ s.jpState n → s.jpState n ≤ 3 →
      (Completes (.jpTrainDone port .laneFail) s fun t => DownFor t n 3) ∧
      (Completes (.jpTrainDone port .reference) s fun t => DownFor t n 9) ∧
      (∀ b lat tx rx stored,
        ((tx.isSome = true ∨ rx.isSome = true) → s.flag p Reg.JP_CTRL_SPARE_EN = false →
          Completes (.jpTrainDone port (.up b lat tx rx stored)) s fun t => DownFor t n 3) ∧
        ((tx = none ∧ rx = none) ∨ s.flag p Reg.JP_CTRL_SPARE_EN = true → 300 < lat.toNat →
          Completes (.jpTrainDone port (.up b lat tx rx stored)) s fun t => DownFor t n 9) ∧
        ((tx = none ∧ rx = none) ∨ s.flag p Reg.JP_CTRL_SPARE_EN = true → lat.toNat ≤ 300 →
          (s.formState ≠ 1 ∨ s.portUsed n = false → Completes (.jpTrainDone port (.up b lat tx rx stored)) s fun t =>
            t.jpState n = 4 ∧ t.fld p Reg.JP_LAT_TOKEN_NS = lat.toNat ∧ t.flag p Reg.JP_PARTNER_VALID = true ∧
            t.fld p Reg.JP_PARTNER_DEVICE = b.device.toNat ∧ t.fld p Reg.JP_PARTNER_PORT = b.port.toNat ∧
            t.flag p Reg.JP_STAT_FROM_STORE = stored) ∧
          (s.formState = 1 → s.portUsed n = true → s.identOk n b = false →
            Completes (.jpTrainDone port (.up b lat tx rx stored)) s fun t => DownFor t n 5 ∧ t.formState = 3)))) ∧
    (∀ hdr, Accepted s port hdr → s.schedRests = true → Completes (.lpReq port hdr) s fun t =>
      t.jpState n = 7 ∧ (t.jport n).before = s.jpState n ∧ t.jal.out = sentOn s [n] ⟨s.tokHdr s.sched.step.toNat, .lpAck⟩) ∧
    (∀ hdr, (s.jpState n = 6 → Completes (.lpAck port hdr) s fun t => t.jpState n = 7 ∧ t = { s with regs := t.regs }) ∧
      (s.jpState n ≠ 6 → exec (.lpAck port hdr) s = .next s)) ∧
    (s.jpState n = 7 ∨ s.jpState n = 8 →
      (s.sched.startOwn = none → Completes (.lpExitDone port true) s fun t =>
        t.jpState n = (s.jport n).before % 16 ∧ t = { s with regs := t.regs }) ∧
      (Completes (.lpExitDone port false) s fun t => DownFor t n 4)) ∧
    (∀ hdr b, s.jpState n = 4 ∨ s.jpState n = 5 →
      (s.formState ≠ 1 → Completes (.ident port hdr b) s fun t =>
        t.fld p Reg.JP_PARTNER_DEVICE = b.device.toNat ∧ t.fld p Reg.JP_PARTNER_PORT = b.port.toNat ∧
        t.flag p Reg.JP_PARTNER_VALID = true ∧ t = { s with regs := t.regs }) ∧
      (s.formState = 1 → s.portUsed n = true → s.identOk n b = false → Completes (.ident port hdr b) s fun t =>
        DownFor t n 5 ∧ t.formState = 3 ∧ t.fld jp0 Reg.JP_FORM_CAUSE = 2)) ∧
    (∀ hdr contrib, Accepted s port hdr → s.childPort n = true → s.formState = 1 → s.jal.formSent = false → s.isRoot = true →
      (∀ k ∈ s.usedPorts, s.jpState k = 4 ∧ (s.jport k).identOk = true) → s.childPorts = [n] → s.jal.formKids = [] →
      contrib.toNat + 1 = s.devices → Completes (.formGather port hdr contrib) s fun t =>
        Formed s t ∧ t.jal.out = sentOn s [n] ⟨s.tokHdr s.sched.step.toNat, .formRelease⟩) ∧
    (∀ hdr contrib, Accepted s port hdr → s.childPort n = true → s.jal.formSent = true → Completes (.formGather port hdr contrib) s fun t =>
      t = { s with jal := { s.jal with formKids := (n, contrib.toNat) :: s.jal.formKids.filter (·.1 != n) } }) ∧
    (∀ hdr, Accepted s port hdr → s.parentPort = some n → s.formState = 1 → Completes (.formRelease port hdr) s fun t =>
      Formed s t ∧ t.jal.out = sentOn s s.childPorts (forwarded hdr .formRelease)) ∧
    (s.formState = 1 → Completes .formTimeout s fun t => t.formState = 3 ∧ t.fld jp0 Reg.JP_FORM_CAUSE = 3) ∧
    (s.formState ≠ 1 → exec .formTimeout s = .next s)

/-- A step's transfers: a ready entry reads its lines and sends them in flits in slot order, an expected flit lands and any other
marks the port, a landed entry is written to its lines and posts at its beat; link faults hold the step, recovery ends them,
failed recovery takes the port down; lane counts halve (R500, R510, R512, R513, R514, R518, R520, R521). -/
def Obligations.LinksCarryTransfersAndRecover : Prop :=
  ∀ s : State, Canon s → ∀ port : JPort,
    let n := port.val
    let p := jpPage n
    let q := s.jport n
    (∀ flit lanes, s.jpState n ≠ 5 → exec (.dataFlit port flit lanes) s = .next s) ∧
    (∀ flit, s.jpState n = 5 → s.schedRuns = true → q.bad = false → ∀ e, (s.slotLists n).2[q.rxIn]? = some e →
      let land := (q.land.find? (fun l => l.slot == q.rxIn)).getD { slot := q.rxIn }
      let i := land.flits.length
      let expected := flit.slot.toNat = q.rxIn ∧ flit.parity = bitOf s.sched.jstep.toNat 0 ∧ flit.seq.toNat = i % 8 ∧ flit.last = (i + 1 == e.flits)
      (expected → s.landed n + 640 ≤ 524288 → Completes (.dataFlit port flit []) s fun t =>
        (t.jport n).land = q.land.filter (fun l => l.slot != q.rxIn) ++ [{ land with flits := land.flits ++ [(s.sched.beat, flit.payload)] }] ∧
        (t.jport n).rxIn = (if i + 1 = e.flits then q.rxIn + 1 else q.rxIn) ∧ t.tierS = s.tierS ∧ t.sched = s.sched ∧
        t.reg64 p 0x138 = (s.reg64 p 0x138 + 1) % 2 ^ 64) ∧
      (¬expected → s.sched.stepErr = none → Completes (.dataFlit port flit []) s fun t =>
        (t.jport n).bad = true ∧ t.sched.stepErr = some ⟨5, 0x3FF, 0, 0x30⟩ ∧ t.tierS = s.tierS)) ∧
    (s.fenced p = true → exec (.jpTxEntryReady port) s = .next s) ∧
    (s.fenced p = false → (s.slotLists n).1[q.tx]? = none → exec (.jpTxEntryReady port) s = .next s) ∧
    (s.fenced p = false → ∀ e, (s.slotLists n).1[q.tx]? = some e →
      let lines := if e.tsOnly then [] else (List.range e.lines).map (e.line e.addr0)
      (s.sched.beat < e.beat ∨ s.sched.beat < q.txAt + 4 * q.txFlits ∨ s.guardMet e = false ∨ s.jpState n ≠ 5 →
        exec (.jpTxEntryReady port) s = .next s) ∧
      (s.schedRuns = true → s.jpState n = 5 → e.beat ≤ s.sched.beat → q.txAt + 4 * q.txFlits ≤ s.sched.beat → s.guardMet e = true →
        (∀ a ∈ lines, s.poisonIn a 128 = none) → Completes (.jpTxEntryReady port) s fun t =>
          t.jal.flits = s.jal.flits ++ (List.range e.flits).map (fun i =>
            (n, e.flit (bitOf s.sched.jstep.toNat 0) q.tx i (lines.flatMap fun a => s.sRead a 128))) ∧
          t.jport n = { q with tx := q.tx + 1, txAt := s.sched.beat, txFlits := e.flits, txEnd := s.sched.beat + 200 + 4 * (e.flits - 1) } ∧
          t.tierS = s.tierS ∧ t.reg64 p 0x130 = (s.reg64 p 0x130 + e.flits) % 2 ^ 64)) ∧
    (∀ e, (s.slotLists n).2[q.rxWr]? = some e → ∀ l, q.land.find? (fun l => l.slot == q.rxWr) = some l →
      let base := if bitOf s.sched.jstep.toNat 0 then e.addr1 else e.addr0
      let bs := l.flits.flatMap fun f => leBytes f.2.toNat 640
      (s.sched.beat < e.beat ∨ q.rxIn ≤ q.rxWr → exec (.jpRxEntry port) s = .next s) ∧
      (s.schedRuns = true → e.beat ≤ s.sched.beat → q.rxWr < q.rxIn →
        (e.tsOnly = true → Completes (.jpRxEntry port) s fun t => (t.jport n).rxWr = q.rxWr + 1 ∧ t.tierS = s.tierS) ∧
        (e.tsOnly = false → 128 * e.lines ≤ 640 * l.flits.length → (∀ j, j < e.lines → s.imageRo (e.line base j) = false) →
          (∀ i j, i < j → j < e.lines → e.line base i + 128 ≤ e.line base j) → Completes (.jpRxEntry port) s fun t =>
            (t.jport n).rxWr = q.rxWr + 1 ∧ (t.jport n).land = q.land.filter (fun l => l.slot != q.rxWr) ∧
            ∀ j, j < e.lines → t.sRead (e.line base j) 128 = (bs.drop (128 * j)).take 128))) ∧
    (q.rxDone = [] → exec (.jpRxPost port) s = .next s) ∧
    (∀ k y rest, q.rxDone = (k, y) :: rest →
      (s.sched.beat < y → exec (.jpRxPost port) s = .next s) ∧
      (y ≤ s.sched.beat → ∀ e, (s.slotLists n).2[k]? = some e → e.post = false → Completes (.jpRxPost port) s fun t =>
        t.jport n = { q with rxDone := rest, rxEnd := max q.rxEnd y } ∧ t.ts = s.ts) ∧
      (y = s.sched.beat → ∀ e, (s.slotLists n).2[k]? = some e → e.post = true → ∀ pd, s.pdOfLd e.tsLd = some pd → s.ts.ops = [] →
        Completes (.jpRxPost port) s fun t =>
          t.jport n = { q with rxDone := rest, rxEnd := max q.rxEnd y } ∧
          (t.tsCell (poolKey pd e.tsIndex)).v = min ((s.tsCell (poolKey pd e.tsIndex)).v + e.tsValue) tsMax ∧
          ∀ x, x ≠ poolKey pd e.tsIndex → t.tsCell x = s.tsCell x)) ∧
    (s.jpState n ≠ 5 → exec (.jpSilent port) s = .next s ∧ ∀ cause, exec (.jpLinkFault port cause) s = .next s) ∧
    (s.jpState n = 5 → ∀ c ∈ [Instr.jpSilent port, .jpLinkFault port .fecUe, .jpLinkFault port .lockLost, .jpLinkFault port .alignLost,
        .jpLinkFault port .overflow], Completes c s fun t =>
      t.jpState n = 9 ∧ t.flag p Reg.BLK_STAT_ERR = true ∧ t.tierS = s.tierS ∧ t.memsys = s.memsys ∧
      (s.schedRuns = true → t.sched.lastFault = 0x41) ∧ (s.schedRuns = false → t.sched = s.sched)) ∧
    (∀ tx rx, s.jpState n ≠ 9 → exec (.jpRecoverDone port tx rx) s = .next s) ∧
    (∀ tx rx, s.jpState n = 9 → Completes (.jpRecoverDone port tx rx) s fun t =>
      t.jpState n = 5 ∧ t.fld p Reg.JP_RECOVERIES_COUNT = min (s.fld p Reg.JP_RECOVERIES_COUNT + 1) (2 ^ 32 - 1) ∧ t.sched = s.sched) ∧
    (s.jpState n ≠ 9 → exec (.jpRecoverTimeout port) s = .next s) ∧
    (s.jpState n = 9 → Completes (.jpRecoverTimeout port) s fun t => DownFor t n 8 ∧ t.sched.lastFault = 0x41) ∧
    (Completes (.jLaneCeDecay port) s fun t =>
      (∀ l, l < 9 → t.fld p Reg.JP_LANE_CE_COUNT l = s.fld p Reg.JP_LANE_CE_COUNT l / 2) ∧ t = { s with regs := t.regs })


namespace Sys2Proof.Claims

/-- A source's queue of waiting events, with its lost count. -/
def srcQueue (s : State) (k : Nat) : SrcQ := mget (fun _ => {}) s.evq k

/-- A page's block reports an event: its source queues it, stamped, or counts it lost where 16 wait. -/
def Reported (s t : State) (p : Page) (num data : Nat) : Prop :=
  let k := srcKey (blkCode p.blk) (s.hostPd p).val p.inst.val
  let q := srcQueue s k
  (q.q.length < 16 → ∃ e : Event, (srcQueue t k) = { q with q := q.q ++ [e] } ∧ e.timestamp = s.clock.time ∧ e.stepValid = s.inStep ∧
    e.step = (if s.inStep then BitVec.ofNat 48 s.sched.step.toNat else 0) ∧
    e.beat = (if s.inStep then BitVec.ofNat 18 s.sched.beat else 0) ∧ e.pdie = (s.hostPd p).val ∧ e.blkType = blkCode p.blk ∧
    e.inst = p.inst.val ∧ e.code = BitVec.ofNat 16 (blkCode p.blk * 256 + num) ∧ e.data = BitVec.ofNat 64 data) ∧
  (16 ≤ q.q.length → (srcQueue t k).q = q.q ∧ (srcQueue t k).lost.toNat = min (q.lost.toNat + 1) (2 ^ 32 - 1)) ∧
  ∀ k', k' ≠ k → srcQueue t k' = srcQueue s k'

/-- The status bits of a fetch. -/
def FetchIs (t : State) (valid gone notYet : Bool) : Prop :=
  t.flag evPage Reg.EV_RD_STAT_VALID = valid ∧ t.flag evPage Reg.EV_RD_STAT_GONE = gone ∧ t.flag evPage Reg.EV_RD_STAT_NOT_YET = notYet

/-- The request that the Ringmaster finds in the load frame. -/
def reqSeq (bs : List Byte) : Nat := bitsOf (leNat bs) 0 32

/-- The firmware as it stands once a request is taken. -/
def fwTaken (f : FwSt) (bs : List Byte) : FwSt :=
  { f with taken := some (reqSeq bs), op := bitsOf (leNat bs) 32 8, drvIf := bitsOf (leNat bs) 64 16, len := bitsOf (leNat bs) 96 32 }

/-- The firmware once the request n has ended with a code and a reason in a state. -/
def fwEnded (f : FwSt) (n st code reason : Nat) : FwSt :=
  { f with state := st, code := code, reason := reason, ack := n, taken := none }

end Sys2Proof.Claims

/-! The event log and the firmware. -/

/-- A source stamps and queues its event or counts it lost; the log takes the oldest event of a source into place s mod 8192,
adds what the source lost and counts an unconsumed entry overwritten; a fetch returns the entry, GONE or NOT_YET (R13, R14, R546,
R547; the moment at which a lost count is added is log entry 11). -/
def Obligations.EventsQueueLogAndFetch : Prop :=
  ∀ s : State, Canon s →
    (∀ (p : Page) (num : Byte) (data : DWord),
      (s.present p = true → Completes (.eventReport p num data) s fun t => Reported s t p num.toNat data.toNat ∧ t = { s with evq := t.evq }) ∧
      (s.present p = false → exec (.eventReport p num data) s = .next s)) ∧
    (∀ (blk : Byte) (pd : PD) (inst : Fin 64),
      let k := srcKey blk.toNat pd.val inst.val
      let q := srcQueue s k
      let n := s.reg64 evPage 0x108
      (q.q = [] → exec (.eventLogWrite blk pd inst) s = .next s) ∧
      (∀ e es, q.q = e :: es →
        Completes (.eventLogWrite blk pd inst) s fun t =>
          t.evlog.lookup (n % 8192) = some e ∧ (∀ i, i ≠ n % 8192 → t.evlog.lookup i = s.evlog.lookup i) ∧
          t.reg64 evPage 0x108 = (n + 1) % 2 ^ 64 ∧ t.reg64 evPage 0x110 = s.reg64 evPage 0x110 ∧
          t = { s with evlog := t.evlog, evq := t.evq, regs := t.regs, cpu := t.cpu, freeCtr := t.freeCtr } ∧
          (t.fld evPage Reg.EV_DROP_COUNT =
            if 8192 ≤ n ∧ s.reg64 evPage 0x110 ≤ n - 8192 then min (s.fld evPage Reg.EV_DROP_COUNT + 1) (2 ^ 32 - 1)
            else s.fld evPage Reg.EV_DROP_COUNT) ∧
          (blk.toNat ≠ 0x16 → srcQueue t k = { q := es, lost := 0 } ∧
            t.fld evPage Reg.EV_SRC_DROP_COUNT = min (s.fld evPage Reg.EV_SRC_DROP_COUNT + q.lost.toNat) (2 ^ 32 - 1)) ∧
          t.fld evPage Reg.EV_STAT_OCC = min 8192 ((n + 1) % 2 ^ 64 - s.reg64 evPage 0x110))) ∧
    (∀ (who : Requester) (lo hi : Word), s.accessible evPage = true → s.stagedAt evPage 0x120 = some ⟨0x120, lo, some who⟩ →
      let n := lo.toNat + hi.toNat * 2 ^ 32
      let w := s.reg64 evPage 0x108
      (w ≤ n → Completes (.eventFetch who hi) s fun t => FetchIs t false false true ∧ t = { s with regs := t.regs, pages := t.pages } ∧
        ∀ i, i < 8 → t.fld evPage Reg.EV_ENTRY_ENTRY i = s.fld evPage Reg.EV_ENTRY_ENTRY i) ∧
      (n + 8192 < w → Completes (.eventFetch who hi) s fun t => FetchIs t false true false ∧ t = { s with regs := t.regs, pages := t.pages }) ∧
      (n < w → w ≤ n + 8192 → ∀ e, s.evlog.lookup (n % 8192) = some e → Completes (.eventFetch who hi) s fun t =>
        FetchIs t true false false ∧ (∀ i, i < 8 → t.fld evPage Reg.EV_ENTRY_ENTRY i = e.bits / 2 ^ (32 * i) % 2 ^ 32) ∧
        t = { s with regs := t.regs, pages := t.pages })) ∧
    (∀ (who : Requester) (hi : Word), s.present evPage = true → s.stagedAt evPage 0x120 = none → s.accessible evPage = true →
      s.reg64 evPage 0x108 ≤ (s.reg evPage 0x120).toNat + hi.toNat * 2 ^ 32 → Completes (.eventFetch who hi) s fun t =>
        FetchIs t false false true ∧ t = { s with regs := t.regs, pages := t.pages })

/-- A request of the load frame is taken when REQ_SEQ differs from ACK_SEQ; a LOAD while firmware loads or runs ends with REASON
0x0A; otherwise the first failing check gives its REASON and FAILED, and a bundle that passes is distributed and started; Barker
refuses a newer interface; STOP ends with REASON 0x0B while a job runs; a failed core holds its cluster in reset (R593, R595,
R596, R597, R598, R599, R600, R601). -/
def Obligations.FirmwareLoadsStartsStopsAndFails : Prop :=
  ∀ s : State, Canon s →
    (s.fwServed = false ∨ s.fw.taken.isSome = true → exec .fwPoll s = .next s) ∧
    (s.fwServed = true → s.fw.taken = none → ∀ bs s1, s.memRead 0 s.loadFrame 16 = (0, bs, s1) →
      let f := fwTaken s.fw bs
      (reqSeq bs = s.fw.ack → exec .fwPoll s = .next s1) ∧
      (reqSeq bs ≠ s.fw.ack → f.op = 2 → Completes .fwPoll s fun t => t.fw = f ∧ t = { s1 with fw := t.fw }) ∧
      (reqSeq bs ≠ s.fw.ack → f.op ≠ 2 → s.fw.state = 1 ∨ s.fw.state = 2 → Completes .fwPoll s fun t =>
        t.fw = fwEnded f (reqSeq bs) s.fw.state 0x7F 0x0A) ∧
      (reqSeq bs ≠ s.fw.ack → f.op ≠ 2 → ¬(s.fw.state = 1 ∨ s.fw.state = 2) → Completes .fwPoll s fun t => t.fw = { f with state := 1 })) ∧
    (s.fw.taken = none ∨ s.fw.state ≠ 1 ∨ s.fw.clusters ≠ [] → exec .fwLoad s = .next s) ∧
    (∀ n, s.fw.taken = some n → s.fw.state = 1 → s.fw.clusters = [] →
      (2093056 < s.fw.len → Completes .fwLoad s fun t => t.fw = fwEnded s.fw n 4 0x7F 1) ∧
      (s.fw.len ≤ 2093056 → ∀ bs s1, s.memRead 0 (s.loadFrame + 0x1000) s.fw.len = (0, bs, s1) →
        (s.bundleReason bs ≠ 0 → Completes .fwLoad s fun t => t.fw = fwEnded s.fw n 4 0x7F (s.bundleReason bs)) ∧
        (s.bundleReason bs = 0 → Completes .fwLoad s fun t =>
          let b := if imgTarget bs 0 = 0 then 0 else 1
          t.fw = { s.fw with
            ver := fieldAt bs 8 4, ifv := fieldAt bs 0x0C 2, build := fieldAt bs 0x10 8, barker := imgBytes bs b, agent := imgBytes bs (1 - b)
            wdog0 := (if imgWdog bs b = 0 then 10 else imgWdog bs b)
            wdog1 := (if imgWdog bs (1 - b) = 0 then 10 else imgWdog bs (1 - b))
            clusters := ((List.finRange 56).filter fun pd => s.role pd != .off).map fun pd => (pd.val, 1) } ∧
          t = { s1 with fw := t.fw }))) ∧
    (s.fw.state ≠ 1 ∨ s.fw.clusters = [] → exec .fwStartDone s = .next s ∧ exec .fwStartTimeout s = .next s) ∧
    (∀ n, s.fw.taken = some n → s.fw.state = 1 → s.fw.clusters ≠ [] →
      (s.fw.refuses = true → Completes .fwStartDone s fun t => t.fw = { fwEnded s.fw n 3 0x50 8 with clusters := [] }) ∧
      (s.fw.refuses = false → Completes .fwStartDone s fun t =>
        t.fw = { fwEnded s.fw n 2 0 0 with starts := min (s.fw.starts + 1) 0xFFFFFFFF, clusters := s.fw.clusters.map fun c => (c.1, 2) } ∧
        t.stage = 5 ∧ ∀ r, r < 64 → t.ringState r = 0) ∧
      (Completes .fwStartTimeout s fun t => t.fw = { fwEnded s.fw n 4 0x7F 9 with clusters := [] })) ∧
    (s.fw.taken = none ∨ s.fw.op ≠ 2 → exec .fwStop s = .next s) ∧
    (∀ n, s.fw.taken = some n → s.fw.op = 2 →
      (s.fw.state ≠ 2 → Completes .fwStop s fun t => t.fw = fwEnded s.fw n s.fw.state 0 0) ∧
      (s.fw.state = 2 → s.schedRests = false → Completes .fwStop s fun t => t.fw = fwEnded s.fw n 2 0x7F 0x0B) ∧
      (s.fw.state = 2 → s.schedRests = true → (∀ r, r < 64 → s.ringState r = 0) → Completes .fwStop s fun t =>
        t.fw = { fwEnded s.fw n 5 0 0 with clusters := [] } ∧ t.stage = 4) ∧
      (s.fw.state = 2 → s.schedRests = true → s.jobs.cur = none →
        (∀ r, r < 64 → (s.ringState r = 0 ∨ s.ringState r = 1) ∧ (s.ring r).reqs = []) → (∃ r, r < 64 ∧ s.ringState r = 1) →
        Completes .fwStop s fun t => t.fw = s.fw ∧ ∀ r, r < 64 → t.ringState r = if s.ringState r = 1 then 4 else 0)) ∧
    (∀ (pd : PD) (core : Fin 4) (addr : Option (BitVec 24)), ∀ c ∈ [Instr.fwWatchdog pd core, .fwClusterUe pd core addr],
      (s.clusterUp pd = false → exec c s = .next s) ∧
      (s.clusterUp pd = true → s.fw.state = 1 → ∀ n, s.fw.taken = some n → Completes c s fun t =>
        t.fw = { fwEnded s.fw n 4 0x7F 0x0C with clusters := [], failPd := pd.val, failCore := core.val }) ∧
      (s.clusterUp pd = true → s.fw.state ≠ 1 → pd = s.mgmtPd → s.jobRuns = false → Completes c s fun t =>
        t.fw = { s.fw with state := 4, failPd := pd.val, failCore := core.val, clusters := s.fw.clusters.filter fun x => x.1 != pd.val } ∧
        bitOf (t.reg (pkgPage .evlog) 0x010).toNat 3 = true ∧ t.sched = s.sched) ∧
      (s.clusterUp pd = true → s.fw.state ≠ 1 → pd ≠ s.mgmtPd → s.jobUses pd = false → Completes c s fun t =>
        t.fw = { s.fw with failPd := pd.val, failCore := core.val, clusters := s.fw.clusters.filter fun x => x.1 != pd.val } ∧
        t.sched = s.sched)) ∧
    (∀ pd : PD,
      (s.fw.state ≠ 2 ∨ pd = s.mgmtPd ∨ s.role pd = .off ∨ s.clusterUp pd = true → exec (.agentRestartDone pd) s = .next s) ∧
      (s.fw.state = 2 → pd ≠ s.mgmtPd → s.role pd ≠ .off → s.clusterUp pd = false → Completes (.agentRestartDone pd) s fun t =>
        t.fw = { s.fw with clusters := (pd.val, 2) :: s.fw.clusters } ∧ t = { s with fw := t.fw, evq := t.evq }))

namespace Sys2Proof.Claims

/-- An emergency stop begins: its cause is latched, every die gates fully, ALERT_N is asserted, THERMTRIP_N for causes 2 to 4. -/
def StopBegins (s t : State) (cause : Nat) : Prop :=
  t.fld rmPage Reg.RM_STAT_STOP_CAUSE = cause ∧ t.power.stop = 1 ∧ t.boot.pins.alert = true ∧
  t.boot.pins.thermtrip = (s.boot.pins.thermtrip || decide (2 ≤ cause ∧ cause ≤ 4)) ∧
  t.flag tbPage Reg.TB_PWR_REQ_ON = false ∧ t.flag tbPage Reg.TB_PWR_REQ_OFF = false ∧
  (∀ pd, s.role pd ≠ .off → t.duty pd = 16 ∧ t.fld (pagentPage pd) Reg.PA_STAT_DUTY = 15) ∧
  t.sched = s.sched ∧ t.memsys = s.memsys ∧ t.tierS = s.tierS

/-- A trip stops the package once, whichever comes first. -/
def Trips (s : State) (c : Instr) (cause : Nat) : Prop :=
  (s.fld rmPage Reg.RM_STAT_STOP_CAUSE ≠ 0 → exec c s = .next s) ∧
  (s.fld rmPage Reg.RM_STAT_STOP_CAUSE = 0 → Completes c s fun t => StopBegins s t cause)

def RmEnded (t : State) (n : Nat) : Prop :=
  t.fld rmPage Reg.RM_CMD_STATUS_CODE = n ∧ t.flag rmPage Reg.RM_CMD_STATUS_VALID = true ∧ (t.reg rmPage 0x010).getLsbD 7 = true

end Sys2Proof.Claims

/-! Power. -/

/-- Agents measure their dies and the Ringmaster the package; duties follow the die's budget, the rails' limits and the
temperature; a gated period holds the cores of its die; requests for a slower or faster ratio follow the reasons; an agent without
a heartbeat is in SAFE; filler crosses arrays only; energy goes to the slots (R552, R553, R555, R558, R559, R560, R561, R563,
R568, R571, R579, R580). Averages before their windows are full, the exact steps of the controllers and whose contexts the filler
counts for are in log entries 12 and 31. -/
def Obligations.PowerIsMeasuredBoundedAndAttributed : Prop :=
  ∀ s : State, Canon s →
    (∀ pd : PD, s.role pd = .off → ∀ c ∈ [Instr.paSample pd 0 0 0 0 none true 0, .rmHeartbeat pd, .paSafeEntry pd, .gatePeriod pd,
      .peakEval pd, .zr6Eval pd, .dieThermalEval pd], exec c s = .next s) ∧
    (∀ (pd : PD) mw vcore vsram vdram temp valid model, s.role pd ≠ .off →
      Completes (.paSample pd mw vcore vsram vdram temp valid model) s fun t =>
        let p := pagentPage pd
        let a := s.agent pd
        let w := if valid then mw.toNat * s.fld p Reg.PA_CAL_FACTOR / 4096 else model.toNat * 5 / 4
        t.agent pd = { a with power := (w :: a.power).take 1000, nj := (a.nj + w) % 1000
                              cur := ((vcore.toNat, vsram.toNat, vdram.toNat) :: a.cur).take 10 } ∧
        t.flag p Reg.PA_STAT_SENSOR_VALID = valid ∧ t.reg64 p 0x124 = (s.reg64 p 0x124 + (a.nj + w) / 1000) % 2 ^ 64 ∧
        (∀ v i, temp = some (v, i) → t.fld p Reg.PA_TEMP_TDIE = v.toNat ∧ t.fld p Reg.PA_TEMP_SENSOR = i.val) ∧
        (temp = none → t.fld p Reg.PA_TEMP_TDIE = s.fld p Reg.PA_TEMP_TDIE ∧ t.mgmt = s.mgmt) ∧
        t = { s with regs := t.regs, power := t.power, cpu := t.cpu, evq := t.evq, freeCtr := t.freeCtr, mgmt := t.mgmt }) ∧
    (∀ groups : List (Word × Word), Completes (.rmCalibrate groups) s fun t =>
      let w := s.packagePower
      let past := decide (s.peakCap * 1000 < w)
      t.power.pkg = (w :: s.power.pkg).take 1000 ∧ t.reg64 rmPage 0x114 = (s.reg64 rmPage 0x114 + w) % 2 ^ 64 ∧
      t.fld rmPage Reg.RM_PKG_POWER_P1MS = min 8191 (w / 1000) ∧ t.power.sawPeak = (s.power.sawPeak || past) ∧
      (past = true → (t.reg rmPage 0x010).getLsbD 1 = true) ∧ t.power.agents = s.power.agents ∧
      (∀ g r e, g < 8 → groups[g]? = some (r, e) → e ≠ 0 → mget (fun _ => 0) s.power.misses g < 10 →
        ∀ pd : PD, s.role pd ≠ .off → pd.val % 8 = g →
          t.fld (pagentPage pd) Reg.PA_CAL_FACTOR = max 3072 (min 5120 (r.toNat * 4096 / e.toNat))) ∧
      t = { s with regs := t.regs, power := t.power, cpu := t.cpu, evq := t.evq }) ∧
    (∀ pd : PD, s.role pd ≠ .off →
      let p := pagentPage pd
      let a := s.agent pd
      (Completes (.rmHeartbeat pd) s fun t =>
        t.flag p Reg.PA_STAT_HB_OK = true ∧ t.flag p Reg.PA_STAT_SAFE = false ∧ t.power = s.power ∧ t.cores = s.cores) ∧
      (s.flag p Reg.PA_STAT_SAFE = true → exec (.paSafeEntry pd) s = .next s) ∧
      (s.flag p Reg.PA_STAT_SAFE = false → Completes (.paSafeEntry pd) s fun t =>
        t.flag p Reg.PA_STAT_SAFE = true ∧ t.flag p Reg.PA_STAT_HB_OK = false ∧ t.flag rmPage Reg.RM_STAT_SAFE_ANY = true ∧
        t.boot.pins.alert = true ∧ t.power = s.power ∧ t.cores = s.cores) ∧
      (s.schedRuns = true → s.sched.beat % 1024 ≠ 0 → exec (.gatePeriod pd) s = .next s) ∧
      (s.schedRuns = false ∨ s.sched.beat % 1024 = 0 →
        let d := min 16 (s.duty pd)
        (d = 0 → Completes (.gatePeriod pd) s fun t => t.agent pd = { a with run := none } ∧ t.cores = s.cores) ∧
        (0 < d → Completes (.gatePeriod pd) s fun t =>
          (t.agent pd).gated = a.gated + 64 * d ∧ t.reg64 p 0x118 = (s.reg64 p 0x118 + 64 * d) % 2 ^ 64 ∧
          (∀ mc : MC, t.core pd mc =
            if (s.core pd mc).status = .running ∨ (s.core pd mc).status = .waitTs ∨ (s.core pd mc).status = .waitStep then
              { s.core pd mc with stall := (s.core pd mc).stall + s.unheld pd s.clock.beats.toNat (64 * d) }
            else s.core pd mc) ∧
          (∀ pd' mc, pd' ≠ pd → t.core pd' mc = s.core pd' mc) ∧ t.tierS = s.tierS)) ∧
      (let n := a.power.length
       let b := s.frac pd * s.capOf pd * 1000 * n
       let w := a.power.sum * 65536
       (s.flag rmPage Reg.RM_CTRL_MODE = true → Completes (.peakEval pd) s fun t => t = { s with regs := t.regs }) ∧
       (s.flag rmPage Reg.RM_CTRL_MODE = false → Completes (.peakEval pd) s fun t =>
        t.agent pd = { a with peak := if b < w then min 15 (a.peak + 1) else if w * 32 < b * 31 then a.peak - 1 else a.peak } ∧
        t.fld p Reg.PA_STAT_DUTY = min 15 (t.duty pd) ∧ t = { s with regs := t.regs, power := t.power })) ∧
      (let sum (r : Nat) : Nat := a.cur.foldl (fun m c => m + (if r = 0 then c.1 else if r = 1 then c.2.1 else c.2.2)) 0
       let past := ∃ r, r < 3 ∧ (s.railLimit pd r).1 * a.cur.length < sum r * (s.railLimit pd r).2
       let low := ∀ r, r < 3 → sum r * (s.railLimit pd r).2 * 16 < (s.railLimit pd r).1 * a.cur.length * 15
       (s.flag rmPage Reg.RM_CTRL_MODE = false → Completes (.zr6Eval pd) s fun t => t = { s with regs := t.regs }) ∧
       (s.flag rmPage Reg.RM_CTRL_MODE = true →
        (past → Completes (.zr6Eval pd) s fun t => t.agent pd = { a with zr6 := min 15 (a.zr6 + 2) }) ∧
        (¬past → low → Completes (.zr6Eval pd) s fun t => t.agent pd = { a with zr6 := a.zr6 - 1 }) ∧
        (¬past → ¬low → Completes (.zr6Eval pd) s fun t => t.agent pd = a))) ∧
      (let x := signedOf (s.fld p Reg.PA_TEMP_TDIE) 8
       let hot := (s.fld rmPage Reg.RM_THERM_DIE_HOT : Int)
       Completes (.dieThermalEval pd) s fun t =>
        (t.agent pd).therm = (if hot < x then min 15 (a.therm + 1) else if x ≤ hot - 3 then a.therm - 1 else a.therm) ∧
        (t.agent pd).critDie = (decide (105 ≤ x) || (a.critDie && decide (100 < x))) ∧
        (105 ≤ x → a.critDie = false → t.boot.pins.alert = true) ∧ t.fld p Reg.PA_STAT_DUTY = min 15 (t.duty pd) ∧
        t.cores = s.cores)) ∧
    (∀ volt : Bool, Completes (.ratioEval volt) s fun t =>
      let reasons := s.ratioReasons
      let req := s.fld rmPage Reg.RM_STAT_REQ
      let force := if s.flag rmPage Reg.RM_CTRL_FORCE_EN then s.fld rmPage Reg.RM_CTRL_FORCE else 0
      let faster := s.power.sawHigh = false ∧ (∀ pd, s.role pd ≠ .off → (s.agent pd).gated = 0) ∧ max force s.power.floor < req ∧
        (volt = true ∨ s.power.volt < req)
      (reasons = 8 → t.fld rmPage Reg.RM_STAT_REQ = force) ∧
      (reasons ≠ 0 → reasons ≠ 8 → t.fld rmPage Reg.RM_STAT_REQ = min 3 (req + 1)) ∧
      (reasons = 0 → faster → t.fld rmPage Reg.RM_STAT_REQ = req - 1) ∧ (reasons = 0 → ¬faster → t.fld rmPage Reg.RM_STAT_REQ = req) ∧
      t.fld rmPage Reg.RM_STAT_REASON = reasons ∧
      t.sched = { s.sched with ratioCur := if s.rmRests then t.fld rmPage Reg.RM_STAT_REQ else s.sched.ratioCur } ∧
      t.power.sawPeak = false ∧ t.power.sawHigh = false ∧ ∀ pd, s.role pd ≠ .off → (t.agent pd).gated = 0) ∧
    (∀ (pd : PD) (free : List (MC × Fin 65)) (act : Fin 1025),
      (s.flag rmPage Reg.RM_CTRL_FILL_EN = false → exec (.fillerSlice pd free act) s = .next s) ∧
      (Completes (.fillerSlice pd free act) s fun t => t = { s with power := { s.power with agents := t.power.agents } }) ∧
      (∀ mc f, free = [(mc, f)] → (s.core pd mc).status = .running → rising (s.agent pd).act = true →
        Completes (.fillerSlice pd free act) s fun t =>
          let k := s.slotFor (some (s.fld (mcorePage pd mc) Reg.MCORE_CTXID_CTXID)) * 16 + 1
          mget (fun _ => 0) (t.agent pd).act k =
            (mget (fun _ => 0) (s.agent pd).act k + min (s.fillRows pd act.val) f.val * 65536) % 2 ^ 64)) ∧
    (rising s.power.slots = true → Completes .attrInterval s fun t =>
      t.power.attrEnergy = s.reg64 rmPage 0x114 ∧ t.power.attrLast = s.actTotal ∧
      (∀ i c v, i < 64 → (s.attrSlot i).newMap = some (c, v) → (t.attrSlot i).ctx = c ∧ (t.attrSlot i).valid = v ∧
        (t.attrSlot i).energy = 0 ∧ (t.attrSlot i).newMap = none) ∧
      (s.flag rmPage Reg.RM_CTRL_ATTR_EN = false → ∀ i, i < 64 → (s.attrSlot i).newMap = none → t.attrSlot i = s.attrSlot i) ∧
      (s.flag rmPage Reg.RM_CTRL_ATTR_EN = true →
        let ms := (List.range 64).map fun i => s.slotModel s.actTotal i
        ms.sum ≠ 0 → ∀ i, i < 63 → (s.attrSlot i).newMap = none →
          (t.attrSlot i).energy = (s.attrSlot i).energy + s.slotModel s.actTotal i * (s.reg64 rmPage 0x114 - s.power.attrEnergy) / ms.sum))

/-- A trip, a coolant fault, a temperature critical for 1 s or STOP_REQ stops the package once, with its cause; the stop goes on
by phases to the rails' removal; FRAC_COMMIT loads a valid table whole and rejects an invalid one; MODE changes only between jobs
(R556, R557, R562, R574, R575, R577, R585, R684). One command per phase is log entry 12. -/
def Obligations.StopsGateTheWholePackage : Prop :=
  ∀ s : State, Canon s →
    (∀ (pd : PD) (temp : Byte),
      (s.role pd = .off ∨ temp.toInt < 115 → exec (.dieTrip pd temp) s = .next s) ∧
      (s.role pd ≠ .off → 115 ≤ temp.toInt → Trips s (.dieTrip pd temp) 2) ∧
      (s.isFull pd = false ∨ temp.toInt < 110 → exec (.stackTrip pd temp) s = .next s) ∧
      (s.isFull pd = true → 110 ≤ temp.toInt → Trips s (.stackTrip pd temp) 3)) ∧
    (∀ pd : PD,
      ((s.agent pd).critDie = false → (s.agent pd).critStack = false → exec (.critHeld pd) s = .next s) ∧
      ((s.agent pd).critDie = true ∨ (s.agent pd).critStack = true → Trips s (.critHeld pd) 4)) ∧
    (s.stage = 0 → Completes .coolantFault s fun t =>
      t.boot.pins.coolantN = true ∧ t.power = s.power ∧ t = { s with boot := t.boot, mgmt := t.mgmt }) ∧
    (s.stage ≠ 0 → s.fld rmPage Reg.RM_STAT_STOP_CAUSE = 0 → Completes .coolantFault s fun t =>
      StopBegins s t 1 ∧ t.boot.pins.coolantN = true) ∧
    (s.power.stop = 0 ∨ 5 < s.power.stop → exec .emergencyStop s = .next s) ∧
    (s.power.stop = 1 → s.schedRuns = false → s.sched.state ≠ .held → exec .emergencyStop s = .next { s with power := { s.power with stop := 2 } }) ∧
    (s.power.stop = 1 → Completes .emergencyStop s fun t => t.power.stop = 2 ∧ t.schedRuns = false) ∧
    (s.power.stop = 2 → Completes .emergencyStop s fun t =>
      t.power.stop = 3 ∧ t.mv = {} ∧ ∀ h, h < s.hartCount → (s.hart h).gone = false → (t.hart h).state = .reset) ∧
    (s.power.stop = 3 → Completes .emergencyStop s fun t => t.power.stop = 4 ∧ ∀ n, n < 8 → t.jpState n = 0) ∧
    (s.power.stop = 4 → Completes .emergencyStop s fun t => t.power.stop = 5 ∧ t.fw = { s.fw with clusters := [] } ∧
      t = { s with fw := t.fw, power := t.power }) ∧
    (s.power.stop = 5 → Completes .emergencyStop s fun t =>
      t.power.stop = 6 ∧ t.stage = 1 ∧ t.powerSt = 0 ∧ t.boot.rails = 0 ∧ t.cores = [] ∧ t.sched = {} ∧ t.store = s.store ∧ t.clock = s.clock) ∧
    (s.power.stop = 0 → exec .railsOffTimeout s = .next s) ∧
    (s.power.stop ≠ 0 → Completes .railsOffTimeout s fun t =>
      t = { s with boot := { s.boot with pins := { s.boot.pins with thermtrip := true } } }) ∧
    (∀ who : Requester, UnlockedFor s rmPage who →
      (s.fld rmPage Reg.RM_STAT_STOP_CAUSE = 0 → Completes (.stopReq who) s fun t =>
        StopBegins s t 5 ∧ (t.page rmPage).lock = .locked) ∧
      (s.takesWork rmPage = true → s.flag rmPage Reg.RM_CMD_GO = false →
        (Completes (.rmCmdNone who) s fun t => RmEnded t 0 ∧ t.power = s.power) ∧
        (s.fracFault = 0 → Completes (.fracCommit who) s fun t =>
          RmEnded t 0 ∧ ∀ pd : PD, t.frac pd = s.fld rmPage Reg.RM_FRAC_STAGED pd.val) ∧
        (s.fracFault ≠ 0 → Completes (.fracCommit who) s fun t =>
          RmEnded t 0x30 ∧ t.flag rmPage Reg.BLK_STAT_ERR = true ∧ (∀ pd : PD, t.frac pd = s.frac pd) ∧
          (s.flag rmPage Reg.BLK_STAT_ERR = false → t.reg rmPage 0x02C = BitVec.ofNat 32 s.fracFault)) ∧
        (Completes (.fracDefault who) s fun t => RmEnded t 0 ∧ ∀ pd : PD,
          t.fld rmPage Reg.RM_FRAC_STAGED pd.val = s.defaultFrac pd % 65536 ∧ t.frac pd = s.frac pd)) ∧
      (∀ on : Bool,
        (s.rmRests = true ∨ s.flag rmPage Reg.RM_CTRL_MODE = on → Completes (.rmModeWrite who on) s fun t =>
          t.flag rmPage Reg.RM_CTRL_MODE = on ∧ t.power = s.power) ∧
        (s.rmRests = false → s.flag rmPage Reg.RM_CTRL_MODE ≠ on → Completes (.rmModeWrite who on) s fun t =>
          t.flag rmPage Reg.RM_CTRL_MODE = s.flag rmPage Reg.RM_CTRL_MODE ∧ t.flag rmPage Reg.BLK_STAT_ERR = true ∧ t.power = s.power)))

namespace Sys2Proof.Claims

/-- The link's state, 0 PERST to 5 DPC (R616). -/
def linkIs (t : State) (port : RPort) (n : Nat) : Prop := t.fld (rportPage port) Reg.PRP_STAT_STATE = n

/-- A counter of a port has risen by one, or stays saturated. -/
def CountedOnce (s t : State) (port : RPort) (f : RegField) : Prop :=
  t.fld (rportPage port) f = min (s.fld (rportPage port) f + 1) (2 ^ 32 - 1)

/-- A hart's access has ended with an answer. -/
def HartGot (t : State) (h : HartId) (r : Reply) : Prop := t.cpu.answers.lookup h.val = some r ∧ t.reply = some r

/-- Nothing but the controls of a port's page holds its link down. -/
def LinkFree (s : State) (port : RPort) : Prop :=
  s.perstLow port.val = false ∧ (s.cfgByte port.val 0x3E).getLsbD 6 = false ∧ (s.cfgByte port.val (Config.pcieOff + 0x10)).getLsbD 4 = false

/-- The port holds no line and waits for no completion. -/
def PortDrained (s t : State) (port : RPort) : Prop :=
  t.pcie.np = s.pcie.np.filter (fun q => q.port != port.val) ∧ ∀ line, line < 2 ^ 46 → t.rpLine port.val line = none

/-- An entry of the MSI table that names a target (R614). -/
def msiValid (e rid : Nat) : Prop :=
  bitOf e 0 = true ∧ bitsOf e 2 6 = 0 ∧ bitOf e 15 = false ∧ bitsOf e 20 4 = 0 ∧ bitsOf e 48 16 = 0 ∧ (bitOf e 1 = true → bitsOf e 32 16 = rid)

end Sys2Proof.Claims

/-! PCIe. -/

/-- Inbound requests pass the requester table and translation, reads are answered, refused writes are discarded and counted;
a valid MSI sets its identity pending and any other is dropped; harts' accesses leave as requests whose completions answer them; a
link that is lost ends its requests and gives up its lines (R605, R607, R609, R610, R611, R613, R614, R615, R616, R617, R619). The
layout of configuration space is log entry 32. -/
def Obligations.PortsCarryRequestsMsisAndLinkEvents : Prop :=
  ∀ s : State, Canon s → ∀ port : RPort,
    let n := port.val
    let p := rportPage port
    (∀ rid at_ kind addr err corr, s.linkUp port = false → exec (.pcieInbound port rid at_ kind addr err corr) s = .next s) ∧
    (s.linkUp port = true → ∀ (rid : Half) (at_ : Bool) (addr : DWord) (err : TierFail),
      let a := addr.toNat
      (∀ posted, Completes (.pcieInbound port rid at_ (.unsupported posted) addr err 0) s fun t =>
        t.pcie.out = (if posted then s.pcie.out else s.pcie.out ++ [⟨n, .cplUr, a, 0, []⟩]) ∧ bitOf (t.rport n).aer 20 = true ∧
        t.memsys = s.memsys) ∧
      (∀ len, 4096 < a % 4096 + len.val → Completes (.pcieInbound port rid at_ (.read len) addr err 0) s fun t =>
        bitOf (t.rport n).aer 18 = true ∧ t.pcie.out = s.pcie.out ∧ t.memsys = s.memsys) ∧
      (∀ len e s1, s.ridLookup n rid.toNat at_ = (.error e, s1) → a % 4096 + len.val ≤ 4096 →
        Completes (.pcieInbound port rid at_ (.read len) addr err 0) s fun t =>
          t.pcie.out = s.pcie.out ++ [⟨n, .cplUr, a, 0, []⟩] ∧ CountedOnce s t port Reg.PRP_IN_READ_ERR_COUNT ∧ t.memsys.dram = s1.memsys.dram) ∧
      (∀ len, a % 4096 + len.val ≤ 4096 → len.val ≠ 0 → ∀ ctx ro s1, s.ridLookup n rid.toNat at_ = (.ok (ctx, ro), s1) →
        ∀ x s2, s1.translate (rportPd port) .pcie ctx a .read = (.ok x, s2) → ∀ bs s3, s2.inRead n ctx x.spa len.val err = (0, bs, s3) → bs ≠ [] →
        Completes (.pcieInbound port rid at_ (.read len) addr err 0) s fun t =>
          t.pcie.out = s.pcie.out ++ [⟨n, .cplOk, a, bs.length, bs⟩] ∧ t.memsys = s3.memsys) ∧
      (∀ len data rx ctx s1, s.ridLookup n rid.toNat at_ = (.ok (ctx, true), s1) → a % 4096 + len.val ≤ 4096 → len.val ≠ 0 → s.doorbell n a = false → Completes (.pcieInbound port rid at_ (.write len data rx) addr err 0) s fun t =>
          CountedOnce s t port Reg.PRP_IN_REFUSED_COUNT ∧ t.memsys.dram = s1.memsys.dram ∧ t.pcie.out = s.pcie.out) ∧
      (∀ len data rx, a % 4096 + len.val ≤ 4096 → len.val ≠ 0 → s.doorbell n a = false → ∀ ctx s1, s.ridLookup n rid.toNat at_ = (.ok (ctx, false), s1) →
        ∀ x s2, s1.translate (rportPd port) .pcie ctx a .write = (.ok x, s2) →
        ∀ s3, (s2.pciePay n (some ctx) len.val).inWrite n ctx x.spa (leBytes data.toNat len.val) rx err = (0, s3) →
        exec (.pcieInbound port rid at_ (.write len data rx) addr err 0) s = .next s3)) ∧
    (∀ (rid : Half) (at_ : Bool) (addr : DWord) (len : Fin 513) (data : Word),
      (s.linkUp port = false ∨ s.doorbell n addr.toNat = false → exec (.pcieMsi port rid at_ addr len data) s = .next s) ∧
      (∀ ctx s1, s.ridLookup n rid.toNat at_ = (.ok ctx, s1) → s.linkUp port = true → s.doorbell n addr.toNat = true →
        (len.val ≠ 4 ∨ addr.toNat % 4 ≠ 0 ∨ 4096 ≤ data.toNat ∨ s.fld p Reg.PRP_MSI_SIZE_ENTRIES ≤ data.toNat % 4096 →
          Completes (.pcieMsi port rid at_ addr len data) s fun t => CountedOnce s t port Reg.PRP_MSI_DROP_COUNT ∧ t.memsys = s1.memsys) ∧
        (len.val = 4 → addr.toNat % 4 = 0 → data.toNat < s.fld p Reg.PRP_MSI_SIZE_ENTRIES → data.toNat < 4096 →
          ∀ e s2, s1.msiEntry n data.toNat = (0, e, s2) → msiValid e rid.toNat →
            bitsOf e 8 7 < s2.hartCount → 0 < bitsOf e 24 8 → bitsOf e 16 4 ≤ 8 → (s2.hart (bitsOf e 8 7)).gone = false →
            Completes (.pcieMsi port rid at_ addr len data) s fun t =>
              mget (fun _ => false) (t.hart (bitsOf e 8 7)).eip (bitsOf e 16 4 * 256 + bitsOf e 24 8) = true ∧ t.memsys = s2.memsys))) ∧
    (s.linkUp port = false → exec (.pcieIntx port) s = .next s) ∧
    (s.linkUp port = true → Completes (.pcieIntx port) s fun t => CountedOnce s t port Reg.PRP_INTX_DROP_COUNT ∧ t.memsys = s.memsys) ∧
    (∀ (h : HartId) (va : DWord) (addr : BitVec 52) (size : Fin 65) (data : DWord),
      let go (op : HartOp) := Instr.pcieOutbound h va op addr size data
      (∀ op, windowPort addr.toNat = none ∨ (s.hart h.val).state ≠ .running ∨ s.hartCount ≤ h.val → exec (go op) s = .next s) ∧
      (windowPort addr.toNat = some n → (s.hart h.val).state = .running → h.val < s.hartCount →
        (Completes (go .fetch) s fun t => HartGot t h (.fetchFault va)) ∧ (Completes (go .lr) s fun t => HartGot t h (.loadFault va)) ∧
        (Completes (go .sc) s fun t => HartGot t h (.storeFault va)) ∧
        (s.present p = true → size.val = 4 → addr.toNat % 4 = 0 →
          (addr.toNat - winBase n < 4096 → Completes (go .load) s fun t =>
            HartGot t h (.bytes ((List.range 4).map fun i => s.cfgByte n (addr.toNat - winBase n + i)))) ∧
          (0x10000000 ≤ addr.toNat - winBase n → s.portUp n = true →
            (Completes (go .load) s fun t => t.pcie.np = s.pcie.np ++ [⟨n, h.val, va.toNat, addr.toNat, 4, false, false⟩] ∧
              t.pcie.out = s.pcie.out ++ [⟨n, .memRead, s.pcieAddr n addr.toNat, 4, []⟩] ∧ t.cpu = s.cpu) ∧
            (Completes (go .store) s fun t => t.pcie.np = s.pcie.np ∧
              t.pcie.out = s.pcie.out ++ [⟨n, .memWrite, s.pcieAddr n addr.toNat, 4, leBytes data.toNat 4⟩] ∧ t.cpu = s.cpu)) ∧
          (0x10000000 ≤ addr.toNat - winBase n → s.portUp n = false →
            (Completes (go .load) s fun t => HartGot t h (.loadFault va) ∧ t.pcie = s.pcie) ∧
            (Completes (go .store) s fun t => CountedOnce s t port Reg.PRP_OB_ERR_COUNT ∧ t.pcie = s.pcie))))) ∧
    (∀ (h : HartId) (write : Bool),
      (s.npOf n h.val write = none → exec (.pcieCplTimeout port h write) s = .next s ∧
        ∀ st data, exec (.pcieCompletion port h write st data) s = .next s) ∧
      (∀ q, s.npOf n h.val write = some q →
        (∀ data, write = true → Completes (.pcieCompletion port h write .ok data) s fun t =>
          t = { s with pcie := { s.pcie with np := s.pcie.np.erase q } }) ∧
        (∀ data, write = false → Completes (.pcieCompletion port h write .ok data) s fun t =>
          t.pcie.np = s.pcie.np.erase q ∧ HartGot t h (.bytes (leBytes data.toNat q.len))) ∧
        (∀ data, ∀ st ∈ [CplSt.ur, .ca, .poisoned], Completes (.pcieCompletion port h write st data) s fun t =>
          t.pcie.np = s.pcie.np.erase q ∧ CountedOnce s t port Reg.PRP_OB_ERR_COUNT ∧
          (write = false → HartGot t h (.loadFault (BitVec.ofNat 64 q.va)))) ∧
        (Completes (.pcieCplTimeout port h write) s fun t =>
          t.pcie.np = s.pcie.np.erase q ∧ CountedOnce s t port Reg.PRP_OB_TMO_COUNT ∧
          (write = false → HartGot t h (.loadFault (BitVec.ofNat 64 q.va)))))) ∧
    (∀ speed width flit,
      (s.present p = false ∨ (s.linkHeld n).isSome = true ∨ ¬(linkIs s port 1 ∨ linkIs s port 3) →
        exec (.pcieLinkUp port speed width flit) s = .next s) ∧
      (s.present p = true → s.linkHeld n = none → linkIs s port 1 ∨ linkIs s port 3 → Completes (.pcieLinkUp port speed width flit) s fun t =>
        linkIs t port 2 ∧ t.fld p Reg.PRP_STAT_SPEED = speed.val ∧ t.fld p Reg.PRP_STAT_WIDTH = 2 ^ width.val ∧
        t.flag p Reg.PRP_STAT_FLIT = flit ∧ t.pcie = s.pcie)) ∧
    (∀ dpc, (s.linkUp port = false → exec (.pcieLinkDown port dpc) s = .next s) ∧
      (s.linkUp port = true → Completes (.pcieLinkDown port dpc) s fun t =>
        linkIs t port (if dpc then 5 else 3) ∧ PortDrained s t port ∧ CountedOnce s t port Reg.PRP_LINK_DOWN_COUNT ∧
        (t.rport n).dpc = (dpc || (s.rport n).dpc))) ∧
    (∀ msg, s.linkUp port = false → exec (.endpointErrorMessage port msg) s = .next s) ∧
    (s.linkUp port = true →
      let trig := (s.cfgByte n (Config.dpcOff + 6)).toNat % 4
      (Completes (.endpointErrorMessage port .correctable) s fun t => t.rport n = { s.rport n with rootErr := (s.rport n).rootErr ||| 1 }) ∧
      (Completes (.endpointErrorMessage port .pme) s fun t => t.rport n = { s.rport n with pme := true }) ∧
      (trig ≠ 2 → Completes (.endpointErrorMessage port .nonFatal) s fun t =>
        t.rport n = { s.rport n with rootErr := (s.rport n).rootErr ||| 0x24 } ∧ linkIs t port 2) ∧
      (trig = 1 ∨ trig = 2 → Completes (.endpointErrorMessage port .fatal) s fun t => linkIs t port 5 ∧ (t.rport n).dpc = true)) ∧
    (∀ who : Requester, s.accessible p = true →
      ((s.page p).lock = .unlocked who → s.flag p Reg.PRP_CTRL_PERST_ASSERT = false → Completes (.perstAssertWrite who port true) s fun t =>
        t.perstLow n = true ∧ linkIs t port 0 ∧ t.flag p Reg.PRP_CTRL_PERST_ASSERT = true) ∧
      ((s.page p).lock = .unlocked who → s.flag p Reg.PRP_CTRL_PERST_ASSERT = true → 3 ≤ s.stage → linkIs s port 0 →
        LinkFree { s with boot := { s.boot with pins := { s.boot.pins with perst := [(n, false)] } } } port →
        s.flag p Reg.PRP_CTRL_LINK_DISABLE = false → Completes (.perstAssertWrite who port false) s fun t =>
          t.perstLow n = false ∧ linkIs t port 1) ∧
      (s.takesWork p = true → s.flag p Reg.PRP_CTRL_RETRAIN = false →
        (linkIs s port 2 ∨ linkIs s port 3 → Completes (.prpRetrain who port) s fun t => linkIs t port 1 ∧ t.pcie = s.pcie) ∧
        (¬(linkIs s port 2 ∨ linkIs s port 3) → Completes (.prpRetrain who port) s fun t =>
          t.fld p Reg.PRP_STAT_STATE = s.fld p Reg.PRP_STAT_STATE ∧ t.pcie = s.pcie)) ∧
      (LinkFree s port → s.flag p Reg.PRP_CTRL_LINK_DISABLE = false → Completes (.linkDisableWrite who port true) s fun t =>
        linkIs t port 4 ∧ t.flag p Reg.PRP_CTRL_LINK_DISABLE = true ∧
        (linkIs s port 2 → PortDrained s t port ∧ CountedOnce s t port Reg.PRP_LINK_DOWN_COUNT)) ∧
      (LinkFree s port → s.flag p Reg.PRP_CTRL_LINK_DISABLE = true → linkIs s port 4 → Completes (.linkDisableWrite who port false) s fun t =>
        linkIs t port 1 ∧ t.flag p Reg.PRP_CTRL_LINK_DISABLE = false) ∧
      (s.takesWork p = true → s.flag p Reg.PRP_CMD_GO = false →
        (Completes (.prpCmdNone who port) s fun t =>
          t.fld p Reg.PRP_CMD_STATUS_CODE = 0 ∧ t.flag p Reg.PRP_CMD_STATUS_VALID = true ∧ t.pcie = s.pcie) ∧
        (Completes (.msiFlush who port) s fun t =>
          t.fld p Reg.PRP_CMD_STATUS_CODE = 0 ∧ t.flag p Reg.PRP_CMD_STATUS_VALID = true ∧
          t.rport n = { s.rport n with msis := [] } ∧ t.memsys = s.memsys)))

namespace Sys2Proof.Claims

/-- A command on a bus reaches the endpoint (R621, R625). -/
def Reaches (s : State) (i3c : Bool) : Prop :=
  s.boot.rmRuns = true ∧ s.mgmt.bus ≠ some (!i3c) ∧ (i3c = true → s.mgmt.dynAddr.isSome = true)

/-- A command that only answers. -/
def AnswersOnly (c : Instr) (s : State) (i3c : Bool) (bs : List Byte) : Prop :=
  Completes c s fun t => t = { s with mgmt := { s.mgmt with bus := some i3c }, reply := some (.bytes bs) }

def Replied (t : State) (bs : List Byte) : Prop := t.reply = some (.bytes bs)

/-- No command that an MCTP bus carries has an effect. -/
def OverMctpIgnored (s : State) (i3c : Bool) (op : BitVec 2) (eid ty b3 : Byte) (id cnt : Half) (w w2 : Word) (req : Bool) : Prop :=
  ∀ c ∈ [Instr.setEndpointId i3c op eid, .getEndpointId i3c, .getEndpointUuid i3c, .getMctpVersionSupport i3c ty,
    .getMessageTypeSupport i3c, .gettid i3c, .settid i3c eid, .getpldmversion i3c ty b3, .getpldmtypes i3c, .getpldmcommands i3c ty w,
    .getSensorReading i3c id, .getStateSensorReadings i3c id, .setNumericEffecterValue i3c id w, .getNumericEffecterValue i3c id,
    .setStateEffecterStates i3c id req ty, .getStateEffecterStates i3c id, .getPdrRepositoryInfo i3c, .getPdr i3c w w2 ty cnt,
    .setEventReceiver i3c ty eid b3, .pollForPlatformEventMessage i3c, .getFruRecordTableMetadata i3c, .getFruRecordTable i3c],
    exec c s = .next s

end Sys2Proof.Claims

/-! The management sideband. -/

/-- The endpoint answers on the bus it is bound to: addresses, identities and versions, sensor readings, the power caps, the
ratio limit, the stop and power requests, events in order, PDRs and FRU data (R621, R622, R623, R624, R625, R645). The layouts of
the messages are those of log entry 36. -/
def Obligations.EndpointAnswersItsBus : Prop :=
  ∀ s : State, Canon s →
    (∀ (i3c : Bool) (op : BitVec 2) (eid ty b3 : Byte) (id cnt : Half) (w w2 : Word) (req : Bool), ¬Reaches s i3c →
      OverMctpIgnored s i3c op eid ty b3 id cnt w w2 req) ∧
    (s.boot.pins.alert = true → s.mgmt.bus ≠ some true → Completes .smbusAlertResponse s fun t =>
      t = { s with reply := some (.bytes [BitVec.ofNat 8 (2 * (0x40 + s.dies.boardId.toNat))]) }) ∧
    (s.boot.pins.alert = false ∨ s.mgmt.bus = some true → exec .smbusAlertResponse s = .next s) ∧
    (∀ static dyn : BitVec 7,
      (s.boot.rmRuns = true → s.mgmt.bus ≠ some false → s.mgmt.dynAddr = none →
        (static.toNat = 0x40 + s.dies.boardId.toNat → Completes (.setdasa static dyn) s fun t =>
          t = { s with mgmt := { s.mgmt with dynAddr := some dyn.toNat, bus := some true } }) ∧
        (static.toNat ≠ 0x40 + s.dies.boardId.toNat → exec (.setdasa static dyn) s = .next s) ∧
        (Completes (.entdaa dyn) s fun t => t = { s with mgmt := { s.mgmt with dynAddr := some dyn.toNat, bus := some true } })) ∧
      (s.mgmt.dynAddr.isSome = true ∨ s.mgmt.bus = some false → exec (.setdasa static dyn) s = .next s ∧ exec (.entdaa dyn) s = .next s)) ∧
    (∀ i3c : Bool, Reaches s i3c →
      (∀ op eid, op.toNat < 2 → eid ≠ 0 → eid ≠ 0xFF → Completes (.setEndpointId i3c op eid) s fun t =>
        t.mgmt = { s.mgmt with bus := some i3c, eid := eid.toNat } ∧ Replied t [0, 0, eid, 0]) ∧
      (∀ op eid, 2 ≤ op.toNat ∨ eid = 0 ∨ eid = 0xFF → AnswersOnly (.setEndpointId i3c op eid) s i3c [2]) ∧
      AnswersOnly (.getEndpointId i3c) s i3c [0, BitVec.ofNat 8 s.mgmt.eid, 0, 0] ∧
      AnswersOnly (.getEndpointUuid i3c) s i3c (0 :: (List.range 16).map Config.uuid) ∧
      (∀ ty : Byte, ty = 0xFF ∨ ty = 0 → AnswersOnly (.getMctpVersionSupport i3c ty) s i3c [0, 1, 0xF1, 0xF3, 0xFF, 0]) ∧
      AnswersOnly (.getMctpVersionSupport i3c 2) s i3c [0x80] ∧
      AnswersOnly (.getMessageTypeSupport i3c) s i3c [0, 2, 0, 1] ∧
      AnswersOnly (.gettid i3c) s i3c [0, BitVec.ofNat 8 s.mgmt.tid] ∧
      (∀ tid : Byte, tid ≠ 0 → tid ≠ 0xFF → Completes (.settid i3c tid) s fun t =>
        t.mgmt = { s.mgmt with bus := some i3c, tid := tid.toNat } ∧ Replied t [0]) ∧
      AnswersOnly (.settid i3c 0) s i3c [2] ∧
      (∀ op ty : Byte, pldmType ty.toNat = false → AnswersOnly (.getpldmversion i3c op ty) s i3c [0x83]) ∧
      (∀ ty : Byte, ty = 0 ∨ ty = 2 ∨ ty = 4 → AnswersOnly (.getpldmversion i3c 1 ty) s i3c
        ([0, 0, 0, 0, 0, 5] ++ leBytes (Config.pldmVersion ty.toNat).toNat 4 ++
          leBytes (crc32 (leBytes (Config.pldmVersion ty.toNat).toNat 4)) 4)) ∧
      AnswersOnly (.getpldmtypes i3c) s i3c [0, 0x15, 0, 0, 0, 0, 0, 0, 0] ∧
      (∀ (ty : Byte) (v : Word), ty = 0 ∨ ty = 2 ∨ ty = 4 →
        (v = Config.pldmVersion ty.toNat → AnswersOnly (.getpldmcommands i3c ty v) s i3c (0 :: leBytes (pldmCommands ty.toNat) 32)) ∧
        (v ≠ Config.pldmVersion ty.toNat → AnswersOnly (.getpldmcommands i3c ty v) s i3c [0x84])) ∧
      AnswersOnly (.getSensorReading i3c 1) s i3c ([0, 4, 0, 0, 1, 1, 1] ++ leBytes (s.fld rmPage Reg.RM_PKG_POWER_P1MS) 4) ∧
      AnswersOnly (.getSensorReading i3c 2) s i3c ([0, 4, 0, 0, 1, 1, 1] ++ leBytes (s.fld rmPage Reg.RM_PKG_POWER_P1S) 4) ∧
      (∀ pd : PD, s.role pd ≠ .off → signedOf (s.fld (pagentPage pd) Reg.PA_TEMP_TDIE) 8 < 105 →
        AnswersOnly (.getSensorReading i3c (BitVec.ofNat 16 (16 + pd.val))) s i3c
          ([0, 1, 0, 2, 1, 1, 1] ++ leBytes (s.fld (pagentPage pd) Reg.PA_TEMP_TDIE) 1)) ∧
      AnswersOnly (.getSensorReading i3c 6) s i3c [0x80] ∧
      (let x := BitVec.ofNat 8 (s.fld rmPage Reg.RM_STAT_STOP_CAUSE)
       AnswersOnly (.getStateSensorReadings i3c 200) s i3c [0, 1, 0, x, x, x]) ∧
      (let x := BitVec.ofNat 8 s.stage
       AnswersOnly (.getStateSensorReadings i3c 215) s i3c [0, 1, 0, x, x, x]) ∧
      AnswersOnly (.getStateSensorReadings i3c 216) s i3c [0x80] ∧
      (∀ v : Word, 1000 ≤ v.toNat → v.toNat ≤ 5400 → Completes (.setNumericEffecterValue i3c 300 v) s fun t =>
        t.fld rmPage Reg.RM_PEAK_CAP_WATTS = v.toNat ∧ t.fld rmPage Reg.RM_SUST_CAP_WATTS = s.fld rmPage Reg.RM_SUST_CAP_WATTS ∧ Replied t [0]) ∧
      (∀ v : Word, 1000 ≤ v.toNat → v.toNat ≤ s.fld rmPage Reg.RM_PEAK_CAP_WATTS → Completes (.setNumericEffecterValue i3c 301 v) s fun t =>
        t.fld rmPage Reg.RM_SUST_CAP_WATTS = v.toNat ∧ t.fld rmPage Reg.RM_PEAK_CAP_WATTS = s.fld rmPage Reg.RM_PEAK_CAP_WATTS ∧ Replied t [0]) ∧
      (∀ v : Word, v.toNat < 1000 → AnswersOnly (.setNumericEffecterValue i3c 300 v) s i3c [2] ∧
        AnswersOnly (.setNumericEffecterValue i3c 301 v) s i3c [2]) ∧
      (let x := leBytes (s.fld rmPage Reg.RM_PEAK_CAP_WATTS) 2
       AnswersOnly (.getNumericEffecterValue i3c 300) s i3c ([0, 2, 1] ++ x ++ x)) ∧
      (Completes (.setStateEffecterStates i3c 302 true 0) s fun t => t.flag rmPage Reg.RM_CTRL_FORCE_EN = false ∧ Replied t [0]) ∧
      (∀ v : Byte, 1 ≤ v.toNat → v.toNat ≤ 4 → Completes (.setStateEffecterStates i3c 302 true v) s fun t =>
        t.flag rmPage Reg.RM_CTRL_FORCE_EN = true ∧ t.fld rmPage Reg.RM_CTRL_FORCE = v.toNat - 1 ∧ Replied t [0]) ∧
      (s.fld rmPage Reg.RM_STAT_STOP_CAUSE = 0 → Completes (.setStateEffecterStates i3c 303 true 1) s fun t =>
        StopBegins s t 5 ∧ Replied t [0]) ∧
      (s.powerSt = 0 → s.barred = false → Completes (.setStateEffecterStates i3c 304 true 1) s fun t =>
        t.flag tbPage Reg.TB_PWR_REQ_ON = true ∧ Replied t [0]) ∧
      (s.powerSt = 2 → Completes (.setStateEffecterStates i3c 304 true 2) s fun t =>
        t.powerSt = 3 ∧ t.flag tbPage Reg.TB_PWR_REQ_ON = false ∧ Replied t [0]) ∧
      (∀ v : Byte, AnswersOnly (.setStateEffecterStates i3c 304 false v) s i3c [0]) ∧
      (∀ v : Byte, AnswersOnly (.setStateEffecterStates i3c 305 true v) s i3c [0x80]) ∧
      (let x := BitVec.ofNat 8 (if s.flag tbPage Reg.TB_PWR_REQ_ON then 1 else if s.flag tbPage Reg.TB_PWR_REQ_OFF then 2 else 0)
       AnswersOnly (.getStateEffecterStates i3c 304) s i3c [0, 1, 1, x, x]) ∧
      AnswersOnly (.getPdrRepositoryInfo i3c) s i3c pdrInfo ∧
      (∀ (handle transfer : Word) (op : Byte) (count : Half),
        AnswersOnly (.getPdr i3c handle transfer op count) s i3c (pdrPart handle.toNat transfer.toNat (op == 1) count.toNat)) ∧
      (∀ en addr : Byte, en.toNat ≤ 2 → Completes (.setEventReceiver i3c en 0 addr) s fun t =>
        t.mgmt = { s.mgmt with bus := some i3c, receiver := if en = 1 then some addr.toNat else none } ∧ Replied t [0]) ∧
      (s.mgmt.events = [] → AnswersOnly (.pollForPlatformEventMessage i3c) s i3c [0, BitVec.ofNat 8 s.mgmt.tid, 0, 0]) ∧
      (∀ e es, s.mgmt.events = e :: es → Completes (.pollForPlatformEventMessage i3c) s fun t =>
        t.mgmt = { s.mgmt with bus := some i3c, events := es, overflow := false } ∧
        Replied t ([0, BitVec.ofNat 8 s.mgmt.tid] ++ leBytes (if s.mgmt.overflow then 0xFFFF else 1) 2 ++ [0, 0, 0, 0, 5, 0] ++
          leBytes e.data.length 4 ++ e.data) ∧
        t.boot.pins.alert = (if es = [] then false else s.boot.pins.alert)) ∧
      AnswersOnly (.getFruRecordTableMetadata i3c) s i3c ([0, 1, 0] ++ leBytes s.fruTable.length 4 ++ leBytes s.fruTable.length 4 ++
        [1, 0, 1, 0] ++ leBytes (crc32 s.fruTable) 4) ∧
      (Completes (.getFruRecordTable i3c) s fun t => ∃ pad, (∀ b ∈ pad, b = 0) ∧ (s.fruTable.length + pad.length) % 4 = 0 ∧
        Replied t ([0, 0, 0, 0, 0, 5] ++ (s.fruTable ++ pad) ++ leBytes (crc32 (s.fruTable ++ pad)) 4) ∧
        t = { s with mgmt := { s.mgmt with bus := some i3c }, reply := t.reply })) ∧
    (s.mgmt.receiver = none ∨ s.mgmt.events = [] → exec .platformEventAccepted s = .next s) ∧
    (∀ r e es, s.mgmt.receiver = some r → s.mgmt.events = e :: es → Completes .platformEventAccepted s fun t =>
      t.mgmt = { s.mgmt with events := es, overflow := false } ∧ t.boot.pins.alert = (if es = [] then false else s.boot.pins.alert))

namespace Sys2Proof.Claims

/-- A system reset with its cause: everything but the standby domain, the store and what has left the package is as at reset. -/
def WasReset (s t : State) (cause : Nat) : Prop :=
  t.fld tbPage Reg.TB_RESET_CAUSE_CAUSE = cause ∧ t.stage = 0 ∧ t.powerSt = 0 ∧ t.sched = State.reset.sched ∧ t.cores = State.reset.cores ∧
  t.memsys = State.reset.memsys ∧ t.tierS = State.reset.tierS ∧ t.cpu = State.reset.cpu ∧ t.dies = State.reset.dies ∧ t.fw = State.reset.fw ∧
  t.clock = s.clock ∧ t.store = { s.store with busy := none } ∧ t.boot.rmRuns = false ∧ t.boot.pins.thermtrip = false ∧
  t.boot.pins.alert = false ∧ t.boot.vstby = s.boot.vstby

/-- The package is down in stage 1 with its rails off. -/
def IsDown (t : State) : Prop :=
  t.stage = 1 ∧ t.powerSt = 0 ∧ t.boot.rails = 0 ∧ t.fullDies = [] ∧ t.cores = [] ∧ t.sched = {}

/-- A stage has failed and the package is down. -/
def FailedDown (t : State) (n : Nat) : Prop :=
  IsDown t ∧ t.fld tbPage Reg.TB_STAGE_FAIL = n ∧ t.flag tbPage Reg.TB_PWR_REQ_ON = false

/-- The records that a bank's boot uses. -/
def bootView (s : State) (b : Bool) : State :=
  { s with store := { s.store with
      active := b, cur := if s.store.pending || s.store.pendingInfo then s.store.cur else (s.store.bank b).rec_ } }

/-- The package may be powered up. -/
def MayPowerUp (s : State) : Prop :=
  s.boot.rmRuns = true ∧ s.stage = 1 ∧ s.powerSt = 0 ∧ s.barred = false ∧ s.flag tbPage Reg.TB_PWR_REQ_ON = true

end Sys2Proof.Claims

/-! The staged start, resets, clocks. -/

/-- Stage 0 verifies and starts the Ringmaster; power comes up rail by rail, dies are mapped, memory is trained and the host
image loaded, or the stage's failure is recorded; resets record their cause and spare the standby domain and the store; power and
clock requests act as their tables say (R629, R630, R632, R635, R636, R638, R639, R640, R641, R643, R645, R646, R647). The order
of good banks and the effect of a seventh stack failure are log entries 13 and 35. -/
def Obligations.PackageStartsResetsAndStops : Prop :=
  ∀ s : State, Canon s →
    (Completes .powerOn s fun t => t.boot.vstby = true ∧ t.clock = {} ∧ t.fld tbPage Reg.TB_RESET_CAUSE_CAUSE = 0 ∧ t.stage = 0 ∧
      t.sched = State.reset.sched ∧ t.memsys = State.reset.memsys ∧ t.store.bank0 = s.store.bank0 ∧ t.store.bank1 = s.store.bank1) ∧
    (Completes .vstbyPowerLoss s fun t => t.boot.vstby = false ∧ t.regs = State.reset.regs ∧ t.sched = State.reset.sched ∧
      t.memsys = State.reset.memsys ∧ t.store.bank0 = s.store.bank0 ∧ t.store.bank1 = s.store.bank1 ∧ t.store.pending = false) ∧
    (Completes (.sysResetPin false) s fun t => t = { s with boot := { s.boot with pins := { s.boot.pins with sysResetN := true } } }) ∧
    (s.power.stop = 0 → Completes (.sysResetPin true) s fun t => WasReset s t 1 ∧ t.boot.pins.sysResetN = false) ∧
    (s.boot.rails = 7 ∧ s.boot.pins.pwrOk = true ∧ s.powerSt ≠ 3 ∧ s.power.stop = 0 → Completes .pwrOkLost s fun t => WasReset s t 2) ∧
    (¬(s.boot.rails = 7 ∧ s.boot.pins.pwrOk = true ∧ s.powerSt ≠ 3 ∧ s.power.stop = 0) → Completes .pwrOkLost s fun t =>
      t = { s with boot := { s.boot with pins := { s.boot.pins with pwrOk := false } } }) ∧
    (s.boot.rmRuns = false → exec .rmWatchdog s = .next s) ∧ (s.boot.rmRuns = true → Completes .rmWatchdog s fun t => WasReset s t 4) ∧
    (∀ who, UnlockedFor s tbPage who →
      (Completes (.sysResetReq who) s fun t => WasReset s t 3) ∧
      (s.barred = false → s.powerSt = 0 → Completes (.powerOnRequest (some who)) s fun t => t.flag tbPage Reg.TB_PWR_REQ_ON = true) ∧
      (s.powerSt = 2 → Completes (.powerOffRequest (some who)) s fun t => t.powerSt = 3 ∧ t.flag tbPage Reg.TB_PWR_REQ_ON = false)) ∧
    (s.barred = false → s.powerSt = 0 ∨ s.powerSt = 3 → Completes (.powerOnRequest none) s fun t =>
      t.flag tbPage Reg.TB_PWR_REQ_ON = true ∧ t = { s with regs := t.regs }) ∧
    (s.barred = true ∨ s.powerSt = 1 ∨ s.powerSt = 2 → exec (.powerOnRequest none) s = .next s) ∧
    (s.powerSt = 2 → Completes (.powerOffRequest none) s fun t =>
      t.powerSt = 3 ∧ t.flag tbPage Reg.TB_PWR_REQ_ON = false ∧ t = { s with regs := t.regs }) ∧
    (s.powerSt = 1 → s.boot.good < s.boot.rails → Completes (.powerOffRequest none) s fun t =>
      t.powerSt = 1 ∧ t.flag tbPage Reg.TB_PWR_REQ_OFF = true ∧ t = { s with regs := t.regs }) ∧
    (∀ backup boardId refclk,
      (s.boot.vstby = false ∨ s.boot.rmRuns = true ∨ s.boot.pins.sysResetN = false ∨ s.stage ≠ 0 →
        exec (.stage0Boot backup boardId refclk) s = .next s) ∧
      (s.boot.vstby = true → s.boot.rmRuns = false → s.boot.pins.sysResetN = true → s.stage = 0 →
        (s.store.select = none → Completes (.stage0Boot backup boardId refclk) s fun t =>
          t.stage = 0 ∧ t.fld tbPage Reg.TB_STAGE_FAIL = 1 ∧ t.boot.rmRuns = false) ∧
        (∀ b, s.store.select = some b → (bootView s b).bootImage b false = none →
          Completes (.stage0Boot backup boardId refclk) s fun t => t.stage = 0 ∧ t.fld tbPage Reg.TB_STAGE_FAIL = 2 ∧ t.boot.rmRuns = false) ∧
        (∀ b fell bs, s.store.select = some b → (bootView s b).bootImage b false = some (fell, bs) →
          Completes (.stage0Boot backup boardId refclk) s fun t =>
            t.stage = 1 ∧ t.boot.rmRuns = true ∧ t.store.active = (if fell then !b else b) ∧ t.dies.mgmtBackup = backup ∧
            t.dies.boardId = boardId ∧ t.flag tbPage Reg.TB_STAT_REF_OK = refclk ∧
            (s.fld tbPage Reg.TB_RESET_CAUSE_CAUSE ≠ 0 → s.barred = false → s.powerSt = 0 → t.flag tbPage Reg.TB_PWR_REQ_ON = true)))) ∧
    (∀ refclk low,
      (¬MayPowerUp s → exec (.powerUp refclk low) s = .next s) ∧
      (MayPowerUp s → (refclk = false → Completes (.powerUp refclk low) s fun t => t.fld tbPage Reg.TB_STAGE_FAIL = 3 ∧ t.powerSt = 0) ∧
        (refclk = true → low = true → Completes (.powerUp refclk low) s fun t => t.fld tbPage Reg.TB_STAGE_FAIL = 7 ∧ t.powerSt = 0) ∧
        (refclk = true → low = false → Completes (.powerUp refclk low) s fun t =>
          t.powerSt = 1 ∧ t.boot.rails = 1 ∧ t.boot.good = 0 ∧ t.fld tbPage Reg.TB_STAGE_FAIL = 0 ∧
          t.flag tbPage Reg.TB_PWR_REQ_ON = false))) ∧
    (s.powerSt ≠ 1 ∨ s.boot.rails ≤ s.boot.good → exec .railPowerGood s = .next s) ∧
    (s.powerSt = 1 → s.boot.good < s.boot.rails →
      (s.flag tbPage Reg.TB_PWR_REQ_OFF = true → Completes .railPowerGood s fun t => t.powerSt = 3 ∧ t.boot.rails = s.boot.rails) ∧
      (s.flag tbPage Reg.TB_PWR_REQ_OFF = false → s.boot.rails < 7 → Completes .railPowerGood s fun t =>
        t = { s with boot := { s.boot with good := s.boot.rails, rails := s.boot.rails + 1 } }) ∧
      (s.flag tbPage Reg.TB_PWR_REQ_OFF = false → 7 ≤ s.boot.rails → Completes .railPowerGood s fun t =>
        t.boot.pins.pwrOk = true ∧ t.boot.good = s.boot.rails ∧ t.boot.rails = s.boot.rails)) ∧
    (s.powerSt = 1 → s.stage = 1 → s.boot.pins.pwrOk = false → Completes .pwrOkTimeout s fun t => FailedDown t 4) ∧
    (s.powerSt ≠ 1 ∨ s.stage ≠ 1 ∨ s.boot.pins.pwrOk = true → exec .pwrOkTimeout s = .next s) ∧
    (∀ links tests flash,
      (s.stage ≠ 1 ∨ s.powerSt ≠ 1 ∨ s.boot.pins.pwrOk = false → exec (.stage2Start links tests flash) s = .next s) ∧
      (s.stage = 1 → s.powerSt = 1 → s.boot.pins.pwrOk = true →
        (links = false → Completes (.stage2Start links tests flash) s fun t => FailedDown t 5) ∧
        (links = true → ((s.toStage 2).mapDies tests flash).serviceOk = true → Completes (.stage2Start links tests flash) s fun t =>
          t.stage = 2 ∧ t.flag famPage Reg.FP_DIE_MAP_VALID = true ∧ (∀ pd, t.role pd = roleOf (s.chooseDies tests).1 pd) ∧
          t.fld famPage Reg.FP_LOGICAL_DIES = t.fullDies.length ∧ ∀ pd, t.frac pd = t.defaultFrac pd % 65536) ∧
        (links = true → ((s.toStage 2).mapDies tests flash).serviceOk = false → Completes (.stage2Start links tests flash) s fun t =>
          FailedDown t 6))) ∧
    (s.stage ≠ 2 ∨ s.powerSt ≠ 1 ∨ s.boot.testMode = true ∨ s.flag famPage Reg.FP_DIE_MAP_VALID = false → exec .stage3Start s = .next s) ∧
    (s.stage = 2 → s.powerSt = 1 → s.boot.testMode = false → s.flag famPage Reg.FP_DIE_MAP_VALID = true → Completes .stage3Start s fun t =>
      t.stage = 3 ∧ (∀ pd, s.isFull pd = true → t.flag (diePage .home pd) Reg.HOME_STAT_DIR_READY = true) ∧
      ∀ n, n < 4 → s.present (rpPage n) = true → s.flag (rpPage n) Reg.PRP_CTRL_PERST_ASSERT = false → t.perstLow n = false) ∧
    (∀ pd tests flash,
      (s.stage ≠ 3 ∨ s.isFull pd = false ∨ s.place.ready = true → exec (.stackTrainingFail pd tests flash) s = .next s) ∧
      (s.stage = 3 → s.isFull pd = true → s.place.ready = false → Completes (.stackTrainingFail pd tests flash) s fun t =>
        (t.serviceOk = false → FailedDown t 6) ∧
        (t.serviceOk = true → t.isFull pd = false ∧
          (s.fld tbPage Reg.TB_STAGE_RETURNS < 6 → t.stage = 2 ∧ t.fld tbPage Reg.TB_STAGE_RETURNS = s.fld tbPage Reg.TB_STAGE_RETURNS + 1)))) ∧
    (∀ spares chans harts repaired,
      (s.stage ≠ 3 ∨ s.powerSt ≠ 1 ∨ s.place.ready = true → exec (.memoryTrainingDone spares chans harts repaired) s = .next s) ∧
      (s.stage = 3 → s.powerSt = 1 → s.place.ready = false →
        ((∀ h : HartId, h.val < s.hartCount → h ∈ harts) → Completes (.memoryTrainingDone spares chans harts repaired) s fun t =>
          FailedDown t 6) ∧
        (∀ h, h < s.hartCount → (s.hart h).gone = false → (∀ x ∈ harts, x.val ≠ h) →
          (s.bootImage s.store.active true = none → Completes (.memoryTrainingDone spares chans harts repaired) s fun t =>
            t.stage = 3 ∧ t.fld tbPage Reg.TB_STAGE_FAIL = 9 ∧ t.place.ready = true) ∧
          (s.bootImage s.store.active true ≠ none → Completes (.memoryTrainingDone spares chans harts repaired) s fun t =>
            t.stage = 4 ∧ t.powerSt = 2 ∧ t.place.ready = true ∧ t.flag famPage Reg.FP_TIER_F_VALID = true)))) ∧
    (s.powerSt ≠ 3 → exec .powerDown s = .next s) ∧ (s.powerSt = 3 → Completes .powerDown s fun t => IsDown t ∧ t.store.bank0 = s.store.bank0 ∧ t.store.bank1 = s.store.bank1) ∧
    (1 < s.stage → exec .refclkRelock s = .next s) ∧
    (s.stage ≤ 1 → Completes .refclkRelock s fun t => t.flag tbPage Reg.TB_STAT_REF_OK = true ∧ t.flag tbPage Reg.TB_STAT_ON_SOSC = false ∧
      (s.fld tbPage Reg.TB_STAGE_FAIL = 3 → t.fld tbPage Reg.TB_STAGE_FAIL = 0) ∧ t.sched = s.sched) ∧
    (s.stage < 2 → Completes .clockLoss s fun t => t.flag tbPage Reg.TB_STAT_REF_OK = false ∧ t.flag tbPage Reg.TB_STAT_ON_SOSC = true ∧
      t = { s with regs := t.regs, boot := t.boot }) ∧
    (2 ≤ s.stage → Completes .clockLoss s fun t => FailedDown t 8 ∧ t.flag tbPage Reg.TB_STAT_CLK_LOST = true) ∧
    (s.fld tbPage Reg.TB_SYNC_CTRL_MODE ≠ 1 ∨ s.flag tbPage Reg.TB_SYNC_CTRL_ARM = false → exec .syncPulse s = .next s) ∧
    (s.fld tbPage Reg.TB_SYNC_CTRL_MODE = 1 → s.flag tbPage Reg.TB_SYNC_CTRL_ARM = true → Completes .syncPulse s fun t =>
      t.fld tbPage Reg.TB_SYNC_COUNT_COUNT = min (s.fld tbPage Reg.TB_SYNC_COUNT_COUNT + 1) (2 ^ 32 - 1) ∧
      (s.schedRests = true → s.formState ≠ 2 → t.clock = { s.clock with time := BitVec.ofNat 64 (s.reg64 tbPage 0x110), rpll := 0 } ∧
        t.flag tbPage Reg.TB_SYNC_CTRL_ARM = false ∧ t.flag tbPage Reg.TB_STAT_SYNCED = true) ∧
      (s.schedRests = false ∨ s.formState = 2 → t.clock = s.clock)) ∧
    (∀ who, s.accessible tbPage = true → s.boot.pins.syncOut = 0 →
      (s.fld tbPage Reg.TB_SYNC_CTRL_MODE = 2 → Completes (.syncFire who) s fun t =>
        t.boot = { s.boot with pins := { s.boot.pins with syncOut := 4 } } ∧ t.clock = s.clock) ∧
      (s.fld tbPage Reg.TB_SYNC_CTRL_MODE ≠ 2 → Completes (.syncFire who) s fun t => t.boot = s.boot ∧ t.clock = s.clock))

namespace Sys2Proof.Claims

/-- A command of the store has ended with a REASON. -/
def PsEnded (t : State) (reason : Nat) : Prop :=
  t.store.busy = none ∧ t.flag psPage Reg.PS_CMD_GO = false ∧ t.fld psPage Reg.PS_CMD_STATUS_CODE = (if reason = 0 then 0 else 0x7F) ∧
  t.fld psPage Reg.PS_CMD_STATUS_REASON = reason ∧ t.flag psPage Reg.PS_CMD_STATUS_VALID = true ∧ (t.reg psPage 0x010).getLsbD 1 = true

/-- A commit: the inactive bank takes the records and the named images, one SEQ on, and is active; the other bank stands. -/
def Committed (s t : State) (r : StoreRec) (rm hb : ImgEnt) : Prop :=
  let a := s.store.active
  t.store.active = !a ∧ t.store.cur = r ∧ t.store.pending = false ∧ t.store.pendingInfo = false ∧ t.store.bank a = s.store.bank a ∧
  (t.store.bank (!a)).valid = true ∧ (t.store.bank (!a)).seq = ((s.store.bank a).seq + 1) % 2 ^ 32 ∧
  (t.store.bank (!a)).rec_ = r ∧ (t.store.bank (!a)).imgRm = rm ∧ (t.store.bank (!a)).imgHb = hb

/-- A commit that the flash failed: the inactive bank is invalid, the active one and the records stand. -/
def CommitFailed (s t : State) : Prop :=
  t.store.active = s.store.active ∧ t.store.cur = s.store.cur ∧ t.store.bank s.store.active = s.store.bank s.store.active ∧
  (t.store.bank (!s.store.active)).valid = false

/-- The image entries of the active bank. -/
def rmNow (s : State) : ImgEnt := (s.store.bank s.store.active).imgRm
def hbNow (s : State) : ImgEnt := (s.store.bank s.store.active).imgHb

/-- A command of PS_CMD written with GO begins, or ends with REASON 6 where one is in progress. -/
def PsBegins (c : Instr) (s : State) (cmd arg : Nat) : Prop :=
  (s.store.busy = none → Completes c s fun t =>
    t.store = { s.store with busy := some (cmd, arg) } ∧ t.flag psPage Reg.PS_CMD_GO = true ∧
    t.flag psPage Reg.PS_CMD_STATUS_VALID = false ∧ t.memsys = s.memsys) ∧
  (s.store.busy.isSome = true → Completes c s fun t =>
    t.store = s.store ∧ t.fld psPage Reg.PS_CMD_STATUS_CODE = 0x7F ∧ t.fld psPage Reg.PS_CMD_STATUS_REASON = 6 ∧
    t.flag psPage Reg.PS_CMD_STATUS_VALID = true)

end Sys2Proof.Claims

/-! The persistent store and the regulators. -/

/-- A command begins where none is in progress; a commit writes the inactive bank and then makes it active, a failing flash
leaves the active bank as it is; images, records and revocations are checked before they are written; regulators' readings stand
until ten are missed (R650, R651, R652, R654, R658, R660, R677). A REASON that the spec does not name is a free value (log
entry 4). -/
def Obligations.StoreCommitsAndRegulatorsAreRead : Prop :=
  ∀ s : State, Canon s →
    (∀ who : Requester, UnlockedFor s psPage who → s.takesWork psPage = true →
      (s.store.busy = none → Completes (.psCmdNone who) s fun t => PsEnded t 0 ∧ t.store = s.store) ∧
      PsBegins (.commit who) s 1 0 ∧ PsBegins (.updateImage who) s 2 0 ∧ PsBegins (.updateCfg who) s 3 0 ∧
      (∀ mask, PsBegins (.revoke who mask) s 4 mask.toNat) ∧ (∀ kind, PsBegins (.clearKind who kind) s 5 kind.toNat) ∧
      PsBegins (.readRecord who) s 6 0) ∧
    (∀ flash, s.store.busy = none → exec (.psCmdDone flash) s = .next s) ∧
    (∀ arg, s.store.busy = some (1, arg) →
      (Completes (.psCmdDone false) s fun t => PsEnded t 0 ∧ Committed s t s.store.cur (rmNow s) (hbNow s)) ∧
      (Completes (.psCmdDone true) s fun t => PsEnded t 5 ∧ CommitFailed s t)) ∧
    (∀ arg, s.store.busy = some (2, arg) → ∀ bs s1, s.memRead 0 s.psAddr (s.fld psPage Reg.PS_LEN_BYTES) = (0, bs, s1) →
      (storedKind bs = none → ∀ flash, Completes (.psCmdDone flash) s fun t => PsEnded t 1 ∧ t.store = { s.store with busy := none }) ∧
      (∀ hb, storedKind bs = some hb → slotSize hb < s.fld psPage Reg.PS_LEN_BYTES → ∀ flash, Completes (.psCmdDone flash) s fun t =>
        PsEnded t 3 ∧ t.store = { s.store with busy := none }) ∧
      (∀ hb, storedKind bs = some hb → s.fld psPage Reg.PS_LEN_BYTES ≤ slotSize hb →
        (s.storedFault bs hb ≠ 0 → ∀ flash, Completes (.psCmdDone flash) s fun t =>
          PsEnded t (s.storedFault bs hb) ∧ t.store = { s.store with busy := none }) ∧
        (s.storedFault bs hb = 0 →
          let e : ImgEnt := { bank := !s.store.active, len := s.fld psPage Reg.PS_LEN_BYTES, ver := fieldAt bs 8 4 }
          (Completes (.psCmdDone false) s fun t =>
            PsEnded t 0 ∧ Committed s t s.store.cur (if hb then rmNow s else e) (if hb then e else hbNow s) ∧
            (if hb then (t.store.bank (!s.store.active)).slotHb else (t.store.bank (!s.store.active)).slotRm) = bs) ∧
          (Completes (.psCmdDone true) s fun t => PsEnded t 5 ∧ CommitFailed s t)))) ∧
    (∀ arg, s.store.busy = some (3, arg) → ∀ h s1, s.memRead 0 s.psAddr 16 = (0, h, s1) →
      (fieldAt h 0 2 ≠ 6 ∨ fieldAt h 4 4 = 0 ∨ 4096 < fieldAt h 4 4 ∨ fieldAt h 12 4 ≠ 0 → ∀ flash, Completes (.psCmdDone flash) s fun t =>
        PsEnded t 4 ∧ t.store = { s.store with busy := none }) ∧
      (fieldAt h 0 2 = 6 → 0 < fieldAt h 4 4 → fieldAt h 4 4 ≤ 4096 → fieldAt h 12 4 = 0 →
        ∀ pl s2, s1.memRead 0 (s.psAddr + 16) (fieldAt h 4 4) = (0, pl, s2) →
        (crc32 pl ≠ fieldAt h 8 4 ∨ 1 < leNat pl → ∀ flash, Completes (.psCmdDone flash) s fun t =>
          PsEnded t 4 ∧ t.store = { s.store with busy := none }) ∧
        (crc32 pl = fieldAt h 8 4 → leNat pl ≤ 1 → Completes (.psCmdDone false) s fun t =>
          PsEnded t 0 ∧ Committed s t { s.store.cur with autoOn := leNat pl == 1 } (rmNow s) (hbNow s)))) ∧
    (∀ arg, s.store.busy = some (4, arg) →
      let used := fieldAt (s.store.image (s.store.bank s.store.active) false) 6 1
      (bitOf (arg % 16) used = true → ∀ flash, Completes (.psCmdDone flash) s fun t =>
        t.store = { s.store with busy := none } ∧ t.flag psPage Reg.PS_CMD_STATUS_VALID = true ∧ t.flag psPage Reg.PS_CMD_GO = false) ∧
      (∀ bs s1, s.memRead 0 s.psAddr 12 = (0, bs, s1) → bitOf (arg % 16) used = false → Completes (.psCmdDone false) s fun t =>
        PsEnded t 0 ∧ Committed s t { s.store.cur with
          revoked := s.store.cur.revoked ||| arg % 16, minRm := max s.store.cur.minRm (fieldAt bs 0 4)
          minFw := max s.store.cur.minFw (fieldAt bs 4 4), minHb := max s.store.cur.minHb (fieldAt bs 8 4) } (rmNow s) (hbNow s))) ∧
    (∀ arg, s.store.busy = some (5, arg) → Completes (.psCmdDone false) s fun t =>
      PsEnded t 0 ∧ Committed s t { s.store.cur with history := s.store.cur.history.filter (·.kind != arg) } (rmNow s) (hbNow s)) ∧
    (∀ arg, s.store.busy = some (6, arg) →
      (s.store.cur.payload (s.fld psPage Reg.PS_REC_TYPE_TYPE) = none → ∀ flash, Completes (.psCmdDone flash) s fun t =>
        PsEnded t 4 ∧ t.memsys = s.memsys) ∧
      (∀ pl, s.store.cur.payload (s.fld psPage Reg.PS_REC_TYPE_TYPE) = some pl →
        (s.fld psPage Reg.PS_LEN_BYTES < pl.length → ∀ flash, Completes (.psCmdDone flash) s fun t => PsEnded t 3 ∧ t.memsys = s.memsys) ∧
        (∀ s1, s.memWrite 0 s.psAddr pl = (0, s1) → pl.length ≤ s.fld psPage Reg.PS_LEN_BYTES → ∀ flash,
          Completes (.psCmdDone flash) s fun t => PsEnded t 0 ∧ t.memsys = s1.memsys ∧ t.store = { s.store with busy := none }))) ∧
    (∀ flash, (s.store.pending = false ∧ s.store.pendingInfo = false) ∨ s.store.busy.isSome = true ∨ s.boot.rmRuns = false →
      exec (.psAutoCommit flash) s = .next s) ∧
    (s.store.pending = true ∨ s.store.pendingInfo = true → s.store.busy = none → s.boot.rmRuns = true →
      (Completes (.psAutoCommit false) s fun t => Committed s t s.store.cur (rmNow s) (hbNow s) ∧
        t.fld psPage Reg.PS_COMMITS_COUNT = min (s.fld psPage Reg.PS_COMMITS_COUNT + 1) (2 ^ 32 - 1)) ∧
      (Completes (.psAutoCommit true) s fun t => CommitFailed s t)) ∧
    (∀ (rail : Fin 14) mw fault,
      (s.boot.rmRuns = false → exec (.regulatorPoll rail mw fault) s = .next s) ∧
      (∀ w, s.boot.rmRuns = true → mw = some w → fault = false → rising s.power.misses = true → rising s.power.lastGood = true →
        Completes (.regulatorPoll rail mw fault) s fun t => mget (fun _ => 0) t.power.misses rail.val = 0 ∧
          mget (fun _ => 0) t.power.lastGood rail.val = w.toNat ∧ t.railPower rail.val = w.toNat ∧
          t = { s with power := { s.power with misses := t.power.misses, lastGood := t.power.lastGood } }) ∧
      (s.boot.rmRuns = true → mw = none ∨ fault = true → 2 ≤ s.stage → Completes (.regulatorPoll rail mw fault) s fun t =>
        mget (fun _ => 0) t.power.misses rail.val = min 10 (mget (fun _ => 0) s.power.misses rail.val + 1) ∧
        t.power.lastGood = s.power.lastGood ∧ (mget (fun _ => 0) s.power.misses rail.val = 9 → t.boot.pins.alert = true)) ∧
      (s.boot.rmRuns = true → 2 ≤ s.stage → Completes (.pmbAlert [rail]) s fun t =>
        mget (fun _ => 0) t.power.misses rail.val = min 10 (mget (fun _ => 0) s.power.misses rail.val + 1) ∧
        t.power.lastGood = s.power.lastGood)) ∧
    (∀ faults, s.boot.rmRuns = false → exec (.pmbAlert faults) s = .next s)

namespace Sys2Proof.Claims

/-- A scan reaches its TAP: the TAP is as given, no other TAP changed, the capture is shifted out. -/
def Scanned (s t : State) (tap : Option PD) (x : Tap) (out : List Byte) : Prop :=
  t.tapOf tap = x ∧ (∀ tap', tap' ≠ tap → t.tapOf tap' = s.tapOf tap') ∧ t.reply = some (.bytes out) ∧
  t = { s with tap := { s.tap with pkg := t.tap.pkg, dies := t.tap.dies }, reply := t.reply }

/-- The state behind the scan of a register access. -/
def raScan (s : State) : State := s.tapScan none 0x20 id s.raBytes

def MemEnded (t : State) (pd : PD) (code : Nat) : Prop :=
  t.fld (dbgPage pd) Reg.DBG_MEM_STATUS_CODE = code ∧ t.flag (dbgPage pd) Reg.DBG_MEM_STATUS_VALID = true ∧
  (t.reg (dbgPage pd) 0x010).getLsbD 3 = true

/-- The scratch address of a debug access. -/
def dbgAddr (s : State) (pd : PD) : Nat := s.reg64 (dbgPage pd) 0x120 % 2 ^ 52 / 4 * 4

end Sys2Proof.Claims

/-! Test and debug. -/

/-- TAPs in the path take their instruction, capture and update; outside test mode no pin is driven; register accesses act as
the debug block of PD0; the debug module halts harts; while EN is set the debug block halts, resumes and steps the selected core and
writes Turnstiles and memory, and memory reads need no EN (R685, R686, R687, R688, R690, R691, R692, R694, R695, R698, R701). The
debug module's layout is log entry 37. -/
def Obligations.TestPortsAndDebugBlocksAct : Prop :=
  ∀ s : State, Canon s →
    (Completes .tapReset s fun t => (∀ tap, t.tapOf tap = (s.tapOf tap).quiet 3) ∧
      t = { s with tap := { s.tap with pkg := t.tap.pkg, dies := t.tap.dies } }) ∧
    (∀ (tap : Option PD) (data lands : BitVec 192) (code : Byte), s.tapThere tap = false →
      ∀ c ∈ [Instr.extest tap data lands, .sample tap lands, .preload tap data, .idcode tap, .clamp tap, .highz tap, .bypass tap code],
        exec c s = .next s) ∧
    (∀ (tap : Option PD) (data lands : BitVec 192), s.tapThere tap = true →
      let q := fun c => (s.tapOf tap).quiet c
      let b := data.toNat % 2 ^ s.cells tap
      let n := (s.cells tap + 7) / 8
      (Completes (.extest tap data lands) s fun t =>
        Scanned s t tap (if s.boot.testMode then { q 0 with bound := b, drives := true } else q 0) (leBytes (lands.toNat % 2 ^ s.cells tap) n)) ∧
      (Completes (.sample tap lands) s fun t => Scanned s t tap (q 1) (leBytes (lands.toNat % 2 ^ s.cells tap) n)) ∧
      (Completes (.preload tap data) s fun t => Scanned s t tap { q 2 with bound := b } (leBytes (s.tapOf tap).bound n)) ∧
      (Completes (.idcode tap) s fun t => Scanned s t tap (q 3) (leBytes (if tap = none then 0x15A39D97 else 0x15A3AD97) 4)) ∧
      (Completes (.clamp tap) s fun t => Scanned s t tap { q 4 with drives := s.boot.testMode } [0]) ∧
      (Completes (.highz tap) s fun t => Scanned s t tap { q 5 with hiz := s.boot.testMode } [0]) ∧
      (∀ code : Byte, code.toNat ∉ tapCodes tap → Completes (.bypass tap code) s fun t => Scanned s t tap (q code.toNat) [0])) ∧
    (∀ (pd : PD) (data lanes : BitVec 4096),
      (s.tapThere (some pd) = false → ∀ c ∈ [Instr.diePos pd, .wsExtest pd data lanes, .wsIntest pd data lanes, .wsPreload pd data, .wsBypass pd],
        exec c s = .next s) ∧
      (s.tapThere (some pd) = true →
        let q := fun c => (s.tapOf (some pd)).quiet c
        (Completes (.diePos pd) s fun t =>
          Scanned s t (some pd) (q 9) (leBytes (pd.val + s.fld (diePage .dieCfg pd) Reg.DC_ROLE * 64) 1)) ∧
        (Completes (.wsExtest pd data lanes) s fun t =>
          Scanned s t (some pd) (if s.boot.testMode then { q 0x10 with wrap := data.toNat, wrapDrives := true } else q 0x10)
            (leBytes lanes.toNat 512)) ∧
        (Completes (.wsIntest pd data lanes) s fun t =>
          Scanned s t (some pd) (if s.boot.testMode then { q 0x11 with wrap := data.toNat, isolated := true } else q 0x11)
            (leBytes lanes.toNat 512)) ∧
        (Completes (.wsPreload pd data) s fun t =>
          Scanned s t (some pd) { q 0x12 with wrap := data.toNat } (leBytes (s.tapOf (some pd)).wrap 512)) ∧
        (Completes (.wsBypass pd) s fun t => Scanned s t (some pd) (q 0x13) [0]))) ∧
    (s.tapThere none = false → (∀ bits, exec (.chainCfg bits) s = .next s) ∧ (∀ on, exec (.testMode on) s = .next s) ∧
      (∀ a, exec (.regAccessRead a) s = .next s) ∧ (∀ a v, exec (.regAccessWrite a v) s = .next s) ∧
      ∀ op a v, exec (.dmi op a v) s = .next s) ∧
    (s.tapThere none = true →
      (∀ bits : BitVec 56, Completes (.chainCfg bits) s fun t =>
        (∀ pd : PD, bitOf t.tap.chain pd.val = (bits.getLsbD pd.val && s.role pd != .off && decide (2 ≤ s.stage))) ∧
        t.tap.pkg = s.tap.pkg.quiet 8 ∧ t = { s with tap := { s.tap with pkg := t.tap.pkg, chain := t.tap.chain }, reply := t.reply }) ∧
      (∀ on : Bool, Completes (.testMode on) s fun t =>
        t.boot.testMode = (s.boot.testMode || (on && decide (s.stage = 2))) ∧
        t.reply = some (.bytes [BitVec.ofNat 8 (b2n s.boot.testMode)]) ∧ t.tap.pkg = s.tap.pkg.quiet 0x0A) ∧
      (∀ (a : BitVec 46) (v : Word),
        (s.decodeReg (a.toNat * 4) = none →
          (Completes (.regAccessRead a) s fun t => t.tap.raStatus = 2 ∧ t.regs = s.regs ∧ t.reply = some (.bytes s.raBytes)) ∧
          (Completes (.regAccessWrite a v) s fun t => t.tap.raStatus = 2 ∧ t.regs = s.regs)) ∧
        (∀ p off, s.decodeReg (a.toNat * 4) = some (p, off) →
          (Completes (.regAccessRead a) s fun t =>
            t.tap.raStatus = 0 ∧ t.tap.raAddr = a.toNat * 4 ∧ t.tap.raData = ((raScan s).busRead (.debug 0) p off).1 ∧
            t.regs = ((raScan s).busRead (.debug 0) p off).2.regs) ∧
          (Completes (.regAccessWrite a v) s fun t =>
            t.tap.raStatus = 0 ∧ t.tap.raAddr = a.toNat * 4 ∧ t.regs = ((raScan s).busWrite (.debug 0) p off v).regs ∧
            t.pages = ((raScan s).busWrite (.debug 0) p off v).pages))) ∧
      (∀ (a : BitVec 7) (v : Word),
        (Completes (.dmi 0 a v) s fun t => t = { s with tap := { s.tap with pkg := s.tap.pkg.quiet 0x21 } }) ∧
        (Completes (.dmi 1 0x11 v) s fun t =>
          t = { s with tap := { s.tap with pkg := s.tap.pkg.quiet 0x21 }, reply := some (.word (BitVec.ofNat 32 s.dmStatus)) }) ∧
        (v.getLsbD 0 = true → v.getLsbD 31 = true → s.hartDebug (bitsOf v.toNat 16 7) = true →
          (s.hart (bitsOf v.toNat 16 7)).state = .running ∨ (s.hart (bitsOf v.toNat 16 7)).state = .wfi →
          Completes (.dmi 2 0x10 v) s fun t => (t.hart (bitsOf v.toNat 16 7)).state = .debugHalt ∧ t.dm.active = true ∧
            t.dm.hartsel = bitsOf v.toNat 16 7 ∧ t.dm.haltReq = true) ∧
        (v.getLsbD 0 = false → Completes (.dmi 2 0x10 v) s fun t => t.dm = {} ∧ t.cpu = s.cpu))) ∧
    (∀ (who : Requester) (pd : PD), s.accessible (dbgPage pd) = true →
      let mc := s.dbgCore pd
      let c := s.core pd mc
      (s.dbgEn pd = false → ∀ i ∈ [Instr.dbgHalt who pd, .dbgResume who pd, .dbgStep who pd, .dbgTsValueWrite who pd 0],
        Completes i s fun t => t.cores = s.cores ∧ t.ts = s.ts ∧ t.frozen = s.frozen) ∧
      (s.dbgEn pd = true →
        (c.status = .running ∨ c.status = .waitTs ∨ c.status = .waitStep ∨ c.status = .armed → Completes (.dbgHalt who pd) s fun t =>
          (t.core pd mc).isHalted = true ∧ (t.core pd mc).dhalt = some c.status ∧ (t.core pd mc).x = c.x ∧
          t.frozen = (s.frozen || (s.flag (dbgPage pd) Reg.DBG_CTRL_FREEZE && s.devices == 1)) ∧
          (∀ pd' mc', (pd', mc') ≠ (pd, mc) → t.core pd' mc' = s.core pd' mc') ∧ t.tierS = s.tierS) ∧
        (∀ st, c.isHalted = true → c.dhalt = some st →
          (Completes (.dbgResume who pd) s fun t => t.core pd mc = c.released st ∧ t.frozen = false ∧ t.tierS = s.tierS) ∧
          (Completes (.dbgStep who pd) s fun t => t.core pd mc = { c.released st with dstep := true } ∧ t.frozen = s.frozen)) ∧
        (∀ v : Word, Completes (.dbgTsValueWrite who pd v) s fun t =>
          (t.tsCell (s.selKey pd (s.reg (dbgPage pd) 0x110).toNat)).v = v.toNat % 2 ^ 31 ∧
          ∀ k, k ≠ s.selKey pd (s.reg (dbgPage pd) 0x110).toNat → t.tsCell k = s.tsCell k)) ∧
      (s.takesWork (dbgPage pd) = true → s.flag (dbgPage pd) Reg.DBG_MEM_CMD_GO = false → ∀ err,
        let a := dbgAddr s pd
        (s.flag (dbgPage pd) Reg.DBG_MEM_ADDR_HI_SPACE = true →
          (s.saOk a = false → Completes (.dbgMemRead who pd err) s fun t => MemEnded t pd 0x13 ∧ t.tierS = s.tierS) ∧
          (s.saOk a = true → s.poisonIn a 4 = none → Completes (.dbgMemRead who pd err) s fun t =>
            MemEnded t pd 0 ∧ t.reg (dbgPage pd) 0x128 = BitVec.ofNat 32 (leNat (s.sRead a 4)) ∧ t.tierS = s.tierS ∧ t.memsys = s.memsys) ∧
          (s.saOk a = true → s.dbgEn pd = true → Completes (.dbgMemWrite who pd err) s fun t =>
            MemEnded t pd 0 ∧ t.sRead a 4 = leBytes (s.reg (dbgPage pd) 0x128).toNat 4 ∧
            (∀ b n, b + n ≤ a ∨ a + 4 ≤ b → t.sRead b n = s.sRead b n) ∧ t.memsys = s.memsys)) ∧
        (s.flag (dbgPage pd) Reg.DBG_MEM_ADDR_HI_SPACE = false → s.backed a = false →
          Completes (.dbgMemRead who pd err) s fun t => MemEnded t pd 0x13 ∧ t.memsys = s.memsys) ∧
        (s.dbgEn pd = false → Completes (.dbgMemWrite who pd err) s fun t => t.tierS = s.tierS ∧ t.memsys = s.memsys ∧
          t.fld (dbgPage pd) Reg.DBG_MEM_STATUS_CODE = s.fld (dbgPage pd) Reg.DBG_MEM_STATUS_CODE)) ∧
      (∀ v : Word, bitsOf v.toNat 3 4 ≤ (if v.getLsbD 0 then 7 else 11) → Completes (.dbgRbSelWrite who pd v) s fun t =>
        t.fld (dbgPage pd) Reg.DBG_RB_SEL_UNIT = bitsOf v.toNat 0 1 ∧ t.fld (dbgPage pd) Reg.DBG_RB_SEL_MOVER = bitsOf v.toNat 1 2 ∧
        t.fld (dbgPage pd) Reg.DBG_RB_SEL_SLOT = bitsOf v.toNat 3 4 ∧ t.mv = s.mv) ∧
      (∀ v : Word, (if v.getLsbD 0 then 7 else 11) < bitsOf v.toNat 3 4 → Completes (.dbgRbSelWrite who pd v) s fun t =>
        t.reg (dbgPage pd) 0x170 = s.reg (dbgPage pd) 0x170 ∧ t.flag (dbgPage pd) Reg.BLK_STAT_ERR = true ∧ t.mv = s.mv))
end

