-- ==== Sys2Proof/Laws/Map.lean ====
section
/-!
SUPPORT. The laws of sparse maps: read after write, and that a write keeps the canonical form.
-/
namespace Sys2Proof.Machine

variable {α : Type} [DecidableEq α] {d : Nat → α}

theorem mwfFrom_mono {m : List (Nat × α)} {lo lo' : Nat} (h : lo' ≤ lo) (hm : mwfFrom d lo m = true) :
    mwfFrom d lo' m = true := by
  cases m with
  | nil => rfl
  | cons p m => obtain ⟨j, v⟩ := p; simp [mwfFrom] at hm ⊢; exact ⟨⟨le_trans h hm.1.1, hm.1.2⟩, hm.2⟩

theorem mget_of_lt {m : List (Nat × α)} {lo k : Nat} (hm : mwfFrom d lo m = true) (h : k < lo) :
    mget d m k = d k := by
  cases m with
  | nil => rfl
  | cons p m =>
    obtain ⟨j, v⟩ := p
    simp [mwfFrom] at hm
    have : k ≠ j := by omega
    have : k < j := by omega
    simp [mget, *]

omit [DecidableEq α] in
theorem mget_minsert (m : List (Nat × α)) (k j : Nat) (v : α) :
    mget d (minsert m k v) j = if j = k then v else mget d m j := by
  induction m with
  | nil => simp only [minsert, mget]; split <;> simp_all
  | cons p m ih =>
    obtain ⟨i, w⟩ := p
    simp only [minsert]
    split
    · subst_vars; simp only [mget]; split <;> simp_all
    · split
      · rename_i h1 h2
        simp only [mget]
        by_cases hjk : j = k
        · simp [hjk]
        · by_cases hji : j = i
          · subst hji; have : ¬ j < k := by omega
            simp [hjk, this]
          · by_cases hlt : j < k
            · have : j < i := by omega
              simp [hjk, hji, hlt, this]
            · simp [hjk, hji, hlt]
      · rename_i h1 h2
        simp only [mget, ih]
        by_cases hji : j = i
        · subst hji; have : j ≠ k := by omega
          simp [this]
        · by_cases hjk : j = k
          · subst hjk; simp [h1, h2]
          · simp [hji, hjk]

theorem mget_merase {m : List (Nat × α)} {lo : Nat} (hm : mwfFrom d lo m = true) (k j : Nat) :
    mget d (merase m k) j = if j = k then d k else mget d m j := by
  induction m generalizing lo with
  | nil => simp only [merase, mget]; split <;> simp_all
  | cons p m ih =>
    obtain ⟨i, w⟩ := p
    simp [mwfFrom] at hm
    obtain ⟨⟨h1, h2⟩, h3⟩ := hm
    simp only [merase]
    split
    · rename_i h; subst h
      by_cases hjk : j = k
      · subst hjk; simp [mget_of_lt h3 (Nat.lt_succ_self _)]
      · simp only [mget, hjk, if_false]
        split
        · exact mget_of_lt h3 (by omega)
        · rfl
    · split
      · rename_i ha hb
        by_cases hjk : j = k
        · subst hjk; simp [mget, ha, hb]
        · simp [hjk]
      · rename_i ha hb
        simp only [mget, ih h3]
        by_cases hji : j = i
        · subst hji; have : j ≠ k := by omega
          simp [this]
        · by_cases hjk : j = k
          · subst hjk; simp [ha, hb]
          · simp [hji, hjk]

theorem mwfFrom_merase {m : List (Nat × α)} {lo : Nat} (hm : mwfFrom d lo m = true) (k : Nat) :
    mwfFrom d lo (merase m k) = true := by
  induction m generalizing lo with
  | nil => rfl
  | cons p m ih =>
    obtain ⟨i, w⟩ := p
    have hm' := hm
    simp [mwfFrom] at hm
    simp only [merase]
    split
    · exact mwfFrom_mono (by omega) hm.2
    · split
      · exact hm'
      · simp [mwfFrom, hm.1, ih hm.2]

theorem mwfFrom_minsert {m : List (Nat × α)} {lo k : Nat} {v : α} (hm : mwfFrom d lo m = true) (hk : lo ≤ k)
    (hv : v ≠ d k) : mwfFrom d lo (minsert m k v) = true := by
  induction m generalizing lo with
  | nil => simp [minsert, mwfFrom, hk, hv]
  | cons p m ih =>
    obtain ⟨i, w⟩ := p
    have hm' := hm
    simp [mwfFrom] at hm
    simp only [minsert]
    split
    · subst_vars; simp [mwfFrom, hk, hv, hm.2]
    · split
      · simp [mwfFrom, hk, hv, hm.1, hm.2]; omega
      · simp [mwfFrom, hm.1, ih hm.2 (by omega)]

/-- A write keeps the canonical form. -/
theorem mwf_mput {m : List (Nat × α)} (hm : mwf d m = true) (k : Nat) (v : α) : mwf d (mput d m k v) = true := by
  simp only [mput]
  split
  · exact mwfFrom_merase hm k
  · exact mwfFrom_minsert hm (Nat.zero_le _) ‹_›

/-- A read after a write gives the value written at its key and what it gave before at every other key. -/
theorem mget_mput {m : List (Nat × α)} (hm : mwf d m = true) (k j : Nat) (v : α) :
    mget d (mput d m k v) j = if j = k then v else mget d m j := by
  simp only [mput]
  split
  · rename_i h; rw [mget_merase hm, h]
  · exact mget_minsert m k j v

theorem mwf_mmodify {m : List (Nat × α)} (hm : mwf d m = true) (k : Nat) (f : α → α) :
    mwf d (mmodify d m k f) = true := mwf_mput hm _ _

theorem mwf_mputs {m : List (Nat × α)} (hm : mwf d m = true) (k : Nat) (vs : List α) :
    mwf d (mputs d m k vs) = true := by
  induction vs generalizing m k with
  | nil => exact hm
  | cons v vs ih => exact ih (mwf_mput hm k v) (k + 1)

/-- After a run of writes, a key of the run reads the value written there and every other key reads as before. -/
theorem mget_mputs {m : List (Nat × α)} (hm : mwf d m = true) (k j : Nat) (vs : List α) :
    mget d (mputs d m k vs) j = if h : k ≤ j ∧ j < k + vs.length then vs[j - k] else mget d m j := by
  induction vs generalizing m k with
  | nil => simp [mputs]
  | cons v vs ih =>
    simp only [mputs]
    rw [ih (mwf_mput hm k v)]
    by_cases h1 : k + 1 ≤ j ∧ j < k + 1 + vs.length
    · have h2 : k ≤ j ∧ j < k + (v :: vs).length := by simp; omega
      have h3 : j - k = (j - (k + 1)) + 1 := by omega
      simp only [h1, h2, and_self, dif_pos, h3, List.getElem_cons_succ]
    · by_cases h3 : j = k
      · subst h3; simp [mget_mput hm]
      · have h2 : ¬ (k ≤ j ∧ j < k + (v :: vs).length) := by simp; omega
        simp only [h1, h2, dif_neg, not_false_eq_true, mget_mput hm, h3, if_false]

end Sys2Proof.Machine
end

