-- ==== Sys2Proof/WellFormed.lean ====
section
/-!
DEFINITION. Well-formed commands: those whose operands the spec gives a meaning to as a command of their row. A command that is
not well-formed still has an effect in the model (an access to a page that does not exist is one to an absent page, R42).
-/
namespace Sys2Proof

open Machine in
/-- The page exists in the register map (R44): its number is one of its type's, and a package-wide page has no die. -/
def Page.wf (p : Page) : Bool := decide (p.inst.val < instances p.blk) && (!isPackage p.blk || p.pd == 0)

/-- Atomic operations take 4 or 8 bytes (the A extension, R446). -/
def HartOp.wf (op : HartOp) (size : Nat) : Bool :=
  match op with
  | .amo _ | .lr | .sc => decide (2 ≤ size)
  | .load | .fetch | .store => true

open Machine in
/-- The command is one of its row: its page exists, its register is a half of a pair where the row says so (R47, R48), its
event's block type is one of R44, its TAP code is not another instruction's (R686), its DMI operation is not reserved (R701). -/
def Instr.wf (c : Instr) : Bool :=
  match c with
  | .registerWrite _ p _ _ => p.wf
  | .absentPageAccess _ p _ _ => p.wf
  | .loWrite _ p r _ => p.wf && isLo p.blk (4 * r.val)
  | .hiWrite _ p r _ => p.wf && isHi p.blk (4 * r.val)
  | .loRead _ p r => p.wf && isLo p.blk (4 * r.val)
  | .hiRead _ p r => p.wf && isHi p.blk (4 * r.val)
  | .blkSyncRead _ p => p.wf
  | .syncTimeout _ p _ => p.wf
  | .enableWrite _ p _ => p.wf
  | .softReset _ p => p.wf
  | .softResetDone p => p.wf
  | .fenceWrite _ p _ => p.wf
  | .blkIntSetWrite _ p _ => p.wf
  | .blkLockWrite _ p _ => p.wf
  | .hartMemoryAccess _ op _ _ _ size _ _ _ _ => op.wf size.val
  | .eventReport p _ _ => p.wf
  | .eventLogWrite blk _ _ => (blkOfCode blk.toNat).isSome
  | .pcieLinkUp _ speed _ _ => decide (0 < speed.val)
  | .bypass tap code => !(tapCodes tap).contains code.toNat
  | .dmi op _ _ => op != 3
  | .nop .. | .halt .. | .haltedEntry .. | .lset .. | .lbnz .. | .jmp .. | .alt .. | .syncb .. | .syncbRelease ..
  | .step .. | .amovi .. | .aaddi .. | .aadd .. | .aidx .. | .tsetb .. | .tsetg .. | .tadv .. | .kset .. | .wld ..
  | .str .. | .drn .. | .sfence .. | .vmv .. | .vld .. | .vst .. | .vadd .. | .vsub .. | .vmul .. | .vfma .. | .vmax ..
  | .vmin .. | .vexp2 .. | .vrcp .. | .vrsqrt .. | .vredsum .. | .vredmax .. | .vcvt .. | .vmov .. | .vsplat ..
  | .tsopAdd .. | .tsopSubtract .. | .tsopWaitAtLeast .. | .tsopWaitThenSubtract .. | .mvr .. | .tsWaitRelease ..
  | .lqIssue .. | .weightLoadDone .. | .sqIssue .. | .dqIssue .. | .trapStopDone .. | .vqIssue .. | .mqIssue ..
  | .haltReqWrite .. | .trapNanWrite .. | .mcoreCtxidWrite .. | .mcoreCmdNone .. | .loadProgram .. | .mcoreStart ..
  | .saveCtx .. | .restoreCtx .. | .mcoreClear .. | .mcoreCmdDone .. | .tcFillArrive .. | .tcSnoopInval ..
  | .mbAgeTimeout .. | .tcWayErrDecay .. | .tcInvAll .. | .tcWayReen .. | .tcLfsrWrite .. | .nfFirstValidClear ..
  | .schedLoad .. | .imageLoadDone | .schedArm .. | .startGather .. | .startRelease .. | .firstStepOpen | .gatherReport
  | .gatherToken .. | .releaseToken .. | .stepCommit .. | .parityFlip | .stepOpen | .inputSetDistribute | .stepOverrun
  | .tsRemotePost .. | .tsValueWrite .. | .tsSelWrite .. | .tstileCmdNone .. | .tstileSave .. | .tstileRestore ..
  | .tstileClear .. | .tstileCmdDone .. | .tsramScrubTick .. | .tsramPoolMaskWrite .. | .tsramCmdNone .. | .zero ..
  | .tsramCmdDone .. | .agentRequest .. | .zeroFillDone .. | .victimScan .. | .exchangeClaim .. | .captureDone ..
  | .commitChunkDone .. | .heldWriteTimeout .. | .tierResponse .. | .tierTimeout .. | .countDecay .. | .hintPromote ..
  | .hintKeep .. | .hintDemote .. | .placeCmdNone .. | .setOwner .. | .discard .. | .setFrozen .. | .clrFrozen ..
  | .pin .. | .unpin .. | .placePromote .. | .placeDemote .. | .recount .. | .placeCmdDone .. | .placeEntSelWrite ..
  | .placeEntSnapshot .. | .carouselBegin .. | .carouselPost .. | .carouselSelector .. | .moverDescFetch ..
  | .moverPieceDone .. | .moverPost .. | .nstackRequest .. | .nsWcbAgeRetire .. | .refreshTick .. | .maintWindowBegin ..
  | .zqDeadline .. | .scrubDeadline .. | .stackTempSample .. | .nsLaneCeDecay .. | .fchanRequest ..
  | .fchanWcbAgeRetire .. | .fchanAlert .. | .fchanRetrainDone .. | .fchanRefresh .. | .fchanTempRead ..
  | .fchanPowerDown .. | .fchanScrub .. | .fchanScrubPriority .. | .fDevCeDecay .. | .dtuTranslate .. | .xlateCmdNone ..
  | .advance .. | .advanceAll .. | .ridFlush .. | .xlateCmdDone .. | .zctxidWrite .. | .ringPoll .. | .cmdqDoorbell ..
  | .cmdqEnable .. | .cmdqFlush .. | .flushComplete .. | .cplCoalTimeout .. | .ringNop .. | .jobSubmit .. | .jobStart ..
  | .jobCtlEnd .. | .jobCtlRerun .. | .jobCtlRerunNotrap .. | .move .. | .inlineWrite .. | .inlineRead ..
  | .inlineTransferDone .. | .ringTsopAdd .. | .ringTsopSubtract .. | .mgmtBarrier .. | .mgmtAdvance .. | .mgmtPlace ..
  | .mgmtTimestamp .. | .hartRun .. | .hartNtStore .. | .cbAgeDrain .. | .hartWatchdog .. | .hartStateUe ..
  | .cpuclCmdNone .. | .remove .. | .hartRemovalDone .. | .msiSend .. | .mtimerInterrupt .. | .aplicAccess ..
  | .homeReadS .. | .homeReadX .. | .homeUpgrade .. | .homeClaim .. | .homeEvictE .. | .homeWb .. | .homeFillS ..
  | .homeRead .. | .homeWrite .. | .snpShare .. | .snpInval .. | .snpCur .. | .snoopResponse .. | .compAck ..
  | .wbAck .. | .snoopTimeout .. | .rpLineRelease .. | .homeLookup .. | .jpTrain .. | .jpDetectTimeout ..
  | .jpTrainDone .. | .jpSignalLost .. | .lpReqWrite .. | .lpReq .. | .lpAck .. | .lpExitDone .. | .forceDownWrite ..
  | .formGo .. | .ident .. | .formGather .. | .formRelease .. | .formTimeout | .dissolve .. | .holdToken ..
  | .trapRecord .. | .dataFlit .. | .jpTxEntryReady .. | .jpRxEntry .. | .jpRxPost .. | .jpLinkFault .. | .jpSilent ..
  | .jpRecoverDone .. | .jpRecoverTimeout .. | .jLaneCeDecay .. | .coreFault .. | .coreWatchdog .. | .dieFault ..
  | .substBistDone .. | .recoveryReport | .resumeReplay .. | .resumeCommit .. | .resumeStop .. | .resumeStepOpen
  | .resumeTimeout | .checkpointCapture .. | .checkpointCaptureDone .. | .eventFetch .. | .paSample .. | .rmCalibrate ..
  | .rmHeartbeat .. | .paSafeEntry .. | .gatePeriod .. | .peakEval .. | .zr6Eval .. | .ratioEval .. | .fillerSlice ..
  | .dieThermalEval .. | .dieTrip .. | .stackTrip .. | .critHeld .. | .coolantFault | .stopReq .. | .emergencyStop
  | .railsOffTimeout | .attrInterval | .rmCmdNone .. | .fracCommit .. | .fracDefault .. | .rmModeWrite .. | .fwPoll
  | .fwLoad | .fwStartDone | .fwStartTimeout | .fwStop | .fwWatchdog .. | .fwClusterUe .. | .agentRestartDone ..
  | .pcieInbound .. | .pcieMsi .. | .pcieIntx .. | .pcieOutbound .. | .pcieCompletion .. | .pcieCplTimeout ..
  | .pcieLinkDown .. | .perstAssertWrite .. | .prpRetrain .. | .linkDisableWrite .. | .prpCmdNone .. | .msiFlush ..
  | .smbusAlertResponse | .setEndpointId .. | .getEndpointId .. | .getEndpointUuid .. | .getMctpVersionSupport ..
  | .getMessageTypeSupport .. | .gettid .. | .settid .. | .getpldmversion .. | .getpldmtypes .. | .getpldmcommands ..
  | .getSensorReading .. | .getStateSensorReadings .. | .setNumericEffecterValue .. | .getNumericEffecterValue ..
  | .setStateEffecterStates .. | .getStateEffecterStates .. | .getPdrRepositoryInfo .. | .getPdr ..
  | .setEventReceiver .. | .pollForPlatformEventMessage .. | .getFruRecordTableMetadata .. | .getFruRecordTable ..
  | .powerOn | .sysResetPin .. | .pwrOkLost | .sysResetReq .. | .rmWatchdog | .stage0Boot .. | .powerOnRequest ..
  | .powerOffRequest .. | .powerUp .. | .railPowerGood | .pwrOkTimeout | .stage2Start .. | .stage3Start
  | .memoryTrainingDone .. | .stackTrainingFail .. | .powerDown | .refclkRelock | .clockLoss | .syncPulse | .syncFire ..
  | .psCmdNone .. | .commit .. | .updateImage .. | .updateCfg .. | .revoke .. | .clearKind .. | .readRecord ..
  | .psCmdDone .. | .psAutoCommit .. | .regulatorPoll .. | .pmbAlert .. | .tapReset | .extest .. | .sample ..
  | .preload .. | .idcode .. | .clamp .. | .highz .. | .chainCfg .. | .diePos .. | .testMode .. | .wsExtest ..
  | .wsIntest .. | .wsPreload .. | .wsBypass .. | .regAccessRead .. | .regAccessWrite .. | .dbgHalt .. | .dbgResume ..
  | .dbgStep .. | .dbgTsValueWrite .. | .dbgMemRead .. | .dbgMemWrite .. | .dbgRbSelWrite .. | .reservedOpcode ..
  | .reservedKind .. | .hartFence .. | .zqInterval .. | .platformEventAccepted | .setdasa .. | .entdaa ..
  | .endpointErrorMessage .. | .vstbyPowerLoss => true

end Sys2Proof
end

section
/-!
SUPPORT. Rules that the proofs share: bits of numbers, maps with rising keys, registers and their fields.
-/
namespace Sys2Proof.Machine

/-! Bits (R4). -/

theorem testBit_bitsOf (n lo w i : Nat) : (bitsOf n lo w).testBit i = (decide (i < w) && n.testBit (i + lo)) := by
  rw [bitsOf, Nat.testBit_mod_two_pow, Nat.testBit_div_two_pow]

theorem bitsOf_lt (n lo w : Nat) : bitsOf n lo w < 2 ^ w := Nat.mod_lt _ (Nat.two_pow_pos w)

/-- The bits above the field, the field and the bits below it. -/
theorem withBits_eq (n lo w v : Nat) :
    withBits n lo w v = (n / 2 ^ (lo + w) * 2 ^ w + v % 2 ^ w) * 2 ^ lo + n % 2 ^ lo := by
  have hlow : n = n / 2 ^ lo * 2 ^ lo + n % 2 ^ lo := by rw [Nat.div_add_mod']
  have hhigh : n / 2 ^ lo = n / 2 ^ (lo + w) * 2 ^ w + bitsOf n lo w := by
    rw [bitsOf, Nat.pow_add, ← Nat.div_div_eq_div_mul, Nat.div_add_mod']
  have hn : n = n / 2 ^ (lo + w) * 2 ^ w * 2 ^ lo + bitsOf n lo w * 2 ^ lo + n % 2 ^ lo := by
    rw [← Nat.add_mul, ← hhigh, ← hlow]
  rw [withBits, Nat.add_mul]
  omega

theorem testBit_withBits (n lo w v i : Nat) :
    (withBits n lo w v).testBit i = if lo ≤ i ∧ i < lo + w then v.testBit (i - lo) else n.testBit i := by
  rw [withBits_eq, Nat.mul_comm, Nat.testBit_two_pow_mul_add _ (Nat.mod_lt _ (Nat.two_pow_pos lo)), Nat.mul_comm,
    Nat.testBit_two_pow_mul_add _ (Nat.mod_lt _ (Nat.two_pow_pos w)), Nat.testBit_mod_two_pow, Nat.testBit_mod_two_pow,
    Nat.testBit_div_two_pow]
  by_cases hlo : i < lo
  · have : ¬ (lo ≤ i ∧ i < lo + w) := by omega
    simp [hlo, this]
  · by_cases hw : i < lo + w
    · have h1 : lo ≤ i ∧ i < lo + w := by omega
      have h2 : i - lo < w := by omega
      simp [hlo, h1, h2]
    · have h1 : ¬ (lo ≤ i ∧ i < lo + w) := by omega
      have h2 : ¬ i - lo < w := by omega
      have h3 : i - lo - w + (lo + w) = i := by omega
      simp [hlo, h1, h2, h3]

theorem bitsOf_withBits_same (n lo w v : Nat) : bitsOf (withBits n lo w v) lo w = v % 2 ^ w := by
  refine Nat.eq_of_testBit_eq fun i => ?_
  rw [testBit_bitsOf, testBit_withBits, Nat.testBit_mod_two_pow]
  by_cases hi : i < w
  · have : lo ≤ i + lo ∧ i + lo < lo + w := by omega
    simp [hi, this]
  · simp [hi]

/-- A field is not changed by a write of bits apart from it. -/
theorem bitsOf_withBits_of_disjoint {lo w lo' w' : Nat} (h : lo' + w' ≤ lo ∨ lo + w ≤ lo') (n v : Nat) :
    bitsOf (withBits n lo w v) lo' w' = bitsOf n lo' w' := by
  refine Nat.eq_of_testBit_eq fun i => ?_
  rw [testBit_bitsOf, testBit_bitsOf, testBit_withBits]
  by_cases hi : i < w'
  · have : ¬ (lo ≤ i + lo' ∧ i + lo' < lo + w) := by omega
    simp [this]
  · simp [hi]

theorem withBits_lt {n lo w m : Nat} (hn : n < 2 ^ m) (hw : lo + w ≤ m) (v : Nat) : withBits n lo w v < 2 ^ m := by
  refine Nat.lt_pow_two_of_testBit _ fun i hi => ?_
  have : ¬ (lo ≤ i ∧ i < lo + w) := by omega
  rw [testBit_withBits, if_neg this]
  exact Nat.testBit_lt_two_pow (lt_of_lt_of_le hn (Nat.pow_le_pow_right (by decide) hi))

/-! Maps with rising keys. -/

section
variable {α : Type} {d : Nat → α}

theorem risingFrom_mono {m : List (Nat × α)} {lo lo' : Nat} (h : lo' ≤ lo) (hm : risingFrom lo m = true) :
    risingFrom lo' m = true := by
  cases m with
  | nil => rfl
  | cons p m =>
    simp only [risingFrom, Bool.and_eq_true, decide_eq_true_eq] at hm ⊢
    exact ⟨le_trans h hm.1, hm.2⟩

theorem mget_of_lt_rising {m : List (Nat × α)} {lo k : Nat} (hm : risingFrom lo m = true) (h : k < lo) : mget d m k = d k := by
  cases m with
  | nil => rfl
  | cons p m =>
    obtain ⟨j, v⟩ := p
    simp only [risingFrom, Bool.and_eq_true, decide_eq_true_eq] at hm
    have hne : k ≠ j := by omega
    have hlt : k < j := by omega
    simp [mget, hne, hlt]

theorem mget_merase_rising {m : List (Nat × α)} {lo : Nat} (hm : risingFrom lo m = true) (k j : Nat) :
    mget d (merase m k) j = if j = k then d k else mget d m j := by
  induction m generalizing lo with
  | nil => simp only [merase, mget]; split <;> simp_all
  | cons p m ih =>
    obtain ⟨i, w⟩ := p
    simp only [risingFrom, Bool.and_eq_true, decide_eq_true_eq] at hm
    have habove (x : Nat) (hx : x < i + 1) : mget d m x = d x := mget_of_lt_rising hm.2 hx
    simp only [merase]
    by_cases hki : k = i
    · subst hki
      rw [if_pos rfl]
      by_cases hjk : j = k
      · simp [hjk, habove k (by omega)]
      · by_cases hlt : j < k
        · simp [mget, hjk, hlt, habove j (by omega)]
        · simp [mget, hjk, hlt]
    · rw [if_neg hki]
      by_cases hlt : k < i
      · by_cases hjk : j = k
        · simp [mget, hjk, hki, hlt]
        · simp [hjk, hlt]
      · simp only [if_neg hlt, mget, ih hm.2]
        by_cases hji : j = i
        · have : i ≠ k := fun h => hki h.symm
          simp [hji, this]
        · by_cases hjk : j = k
          · simp [hjk, hki, hlt]
          · simp [hji, hjk]

theorem rising_merase {m : List (Nat × α)} {lo : Nat} (hm : risingFrom lo m = true) (k : Nat) : risingFrom lo (merase m k) = true := by
  induction m generalizing lo with
  | nil => rfl
  | cons p m ih =>
    have hp := hm
    simp only [risingFrom, Bool.and_eq_true, decide_eq_true_eq] at hm
    simp only [merase]
    split
    · exact risingFrom_mono (by omega) hm.2
    · split
      · exact hp
      · simp [risingFrom, hm.1, ih hm.2]

theorem rising_minsert {m : List (Nat × α)} {lo k : Nat} {v : α} (hm : risingFrom lo m = true) (hk : lo ≤ k) :
    risingFrom lo (minsert m k v) = true := by
  induction m generalizing lo with
  | nil => simp [minsert, risingFrom, hk]
  | cons p m ih =>
    obtain ⟨i, w⟩ := p
    simp only [risingFrom, Bool.and_eq_true, decide_eq_true_eq] at hm
    simp only [minsert]
    split
    · subst_vars; simp [risingFrom, hk, hm.2]
    · split
      · simp only [risingFrom, Bool.and_eq_true, decide_eq_true_eq]
        exact ⟨hk, by omega, hm.2⟩
      · simp [risingFrom, hm.1, ih hm.2 (by omega)]

variable [DecidableEq α]

/-- A write keeps the keys rising. -/
theorem rising_mput {m : List (Nat × α)} (hm : rising m = true) (k : Nat) (v : α) : rising (mput d m k v) = true := by
  simp only [mput]
  split
  · exact rising_merase hm k
  · exact rising_minsert hm (Nat.zero_le k)

/-- A read after a write, where the keys rise. -/
theorem mget_mput_rising {m : List (Nat × α)} (hm : rising m = true) (k j : Nat) (v : α) :
    mget d (mput d m k v) j = if j = k then v else mget d m j := by
  simp only [mput]
  split
  · rename_i h; rw [mget_merase_rising hm, h]
  · exact mget_minsert m k j v

omit [DecidableEq α] in
theorem lookup_cons_ite (m : List (Nat × α)) (i j : Nat) (w : α) :
    ((i, w) :: m).lookup j = if j = i then some w else m.lookup j := by
  by_cases h : j = i
  · simp [h]
  · simp [List.lookup_cons, beq_eq_false_iff_ne.mpr h, h]

omit [DecidableEq α] in
theorem lookup_minsert (m : List (Nat × α)) (k j : Nat) (v : α) :
    (minsert m k v).lookup j = if j = k then some v else m.lookup j := by
  induction m with
  | nil => simp [minsert, lookup_cons_ite]
  | cons p m ih =>
    obtain ⟨i, w⟩ := p
    simp only [minsert]
    split
    · rename_i hki
      by_cases h : j = i <;> simp [lookup_cons_ite, hki, h]
    · split
      · simp [lookup_cons_ite]
      · rename_i hki _
        rw [lookup_cons_ite, lookup_cons_ite, ih]
        by_cases h : j = i
        · have : i ≠ k := fun e => hki e.symm
          simp [h, this]
        · simp [h]

end

/-! Registers (R39 to R47). -/

/-- The registers are in canonical form: the part of Canon that reads and writes of registers rest on. -/
abbrev State.regsWf (s : State) : Prop := mwf regReset s.regs = true

theorem regKey_inj {p q : Page} {o o' : Nat} (ho : o < 4096) (ho' : o' < 4096) :
    regKey p o = regKey q o' ↔ pageKey p = pageKey q ∧ o = o' := by
  simp only [regKey]; omega

/-- The key of a register names its block type. -/
theorem regKey_div {p : Page} {off : Nat} (h : off < 4096) : regKey p off / 0x1000000 = blkCode p.blk := by
  have := p.pd.isLt; have := p.inst.isLt
  simp only [regKey, pageKey]; omega

theorem regKey_off_ne {p : Page} {o o' : Nat} (h : o ≠ o') : regKey p o ≠ regKey p o' := by
  simp only [regKey]; omega

theorem regsWf_setReg {s : State} (h : s.regsWf) (p : Page) (off : Nat) (v : Word) : (s.setReg p off v).regsWf := mwf_mput h _ _

theorem regsWf_setFld {s : State} (h : s.regsWf) (p : Page) (f : RegField) (v i : Nat) : (s.setFld p f v i).regsWf :=
  regsWf_setReg h _ _ _

theorem reg_setReg {s : State} (h : s.regsWf) (p q : Page) (o o' : Nat) (v : Word) :
    (s.setReg p o v).reg q o' = if regKey q o' = regKey p o then v else s.reg q o' := mget_mput h _ _ v

theorem fld_setFld_same {s : State} (h : s.regsWf) (p : Page) (f : RegField) (hf : f.lo + f.w ≤ 32) (v i : Nat) :
    (s.setFld p f v i).fld p f i = v % 2 ^ f.w := by
  have hlt : withBits (s.reg p (f.off + f.stride * i)).toNat f.lo f.w v < 2 ^ 32 := withBits_lt (BitVec.isLt _) hf v
  simp only [State.fld, State.setFld]
  rw [reg_setReg h, if_pos rfl, BitVec.toNat_ofNat, Nat.mod_eq_of_lt hlt, bitsOf_withBits_same]

/-- A write of a field changes no field of other bits, in its register or in another. -/
theorem fld_setFld_of_disjoint {s : State} (h : s.regsWf) {p q : Page} {f g : RegField} (hf : f.lo + f.w ≤ 32) {i j : Nat}
    (hd : regKey q (g.off + g.stride * j) ≠ regKey p (f.off + f.stride * i) ∨ g.lo + g.w ≤ f.lo ∨ f.lo + f.w ≤ g.lo) (v : Nat) :
    (s.setFld p f v i).fld q g j = s.fld q g j := by
  have hlt : withBits (s.reg p (f.off + f.stride * i)).toNat f.lo f.w v < 2 ^ 32 := withBits_lt (BitVec.isLt _) hf v
  simp only [State.fld, State.setFld]
  rw [reg_setReg h]
  split
  · rename_i hk
    have hr : s.reg q (g.off + g.stride * j) = s.reg p (f.off + f.stride * i) := by rw [State.reg, State.reg, hk]
    rw [BitVec.toNat_ofNat, Nat.mod_eq_of_lt hlt, hr]
    exact bitsOf_withBits_of_disjoint (hd.resolve_left fun hne => hne hk) _ _
  · rfl

theorem reg_setFld_of_ne {s : State} (h : s.regsWf) {p q : Page} {f : RegField} {i off : Nat}
    (hk : regKey q off ≠ regKey p (f.off + f.stride * i)) (v : Nat) : (s.setFld p f v i).reg q off = s.reg q off := by
  rw [State.setFld, reg_setReg h, if_neg hk]

theorem fld_lt (s : State) (p : Page) (f : RegField) (i : Nat) : s.fld p f i < 2 ^ f.w := bitsOf_lt _ _ _

theorem fld_congr {s t : State} {p : Page} {f : RegField} {i : Nat}
    (h : t.reg p (f.off + f.stride * i) = s.reg p (f.off + f.stride * i)) : t.fld p f i = s.fld p f i := by
  rw [State.fld, State.fld, h]

theorem reg64_congr {s t : State} {p : Page} {lo : Nat} (hlo : t.reg p lo = s.reg p lo) (hhi : t.reg p (lo + 4) = s.reg p (lo + 4)) :
    t.reg64 p lo = s.reg64 p lo := by
  rw [State.reg64, State.reg64, hlo, hhi]

theorem reg64_lt (s : State) (p : Page) (lo : Nat) : s.reg64 p lo < 2 ^ 64 := by
  have := (s.reg p lo).isLt; have := (s.reg p (lo + 4)).isLt
  simp only [State.reg64]; omega

theorem regsWf_setReg64 {s : State} (h : s.regsWf) (p : Page) (lo v : Nat) : (s.setReg64 p lo v).regsWf :=
  regsWf_setReg (regsWf_setReg h _ _ _) _ _ _

theorem reg64_setReg64_same {s : State} (h : s.regsWf) (p : Page) (lo v : Nat) : (s.setReg64 p lo v).reg64 p lo = v % 2 ^ 64 := by
  have hne : regKey p lo ≠ regKey p (lo + 4) := regKey_off_ne (by omega)
  simp only [State.reg64, State.setReg64]
  rw [reg_setReg (regsWf_setReg h _ _ _), reg_setReg (regsWf_setReg h _ _ _), if_neg hne, if_pos rfl, reg_setReg h, if_pos rfl,
    BitVec.toNat_ofNat, BitVec.toNat_ofNat]
  omega

theorem reg_setReg64_of_ne {s : State} (h : s.regsWf) {p q : Page} {lo off : Nat} (hlo : regKey q off ≠ regKey p lo)
    (hhi : regKey q off ≠ regKey p (lo + 4)) (v : Nat) : (s.setReg64 p lo v).reg q off = s.reg q off := by
  rw [State.setReg64, reg_setReg (regsWf_setReg h _ _ _), if_neg hhi, reg_setReg h, if_neg hlo]

end Sys2Proof.Machine
end

section
/-!
SUPPORT. Writes of block registers (R6, R7, R9, R42, R47, R59, R64).
-/
namespace Sys2Proof.Machine

/-! The field of a write (R6). -/

theorem written_ro {f : RegField} (h : f.acc = .ro) (old v : Nat) : f.written old v = old := by simp [RegField.written, h]

theorem written_rw {f : RegField} (h : f.acc = .rw) (old v : Nat) : f.written old v = v := by simp [RegField.written, h]

theorem written_wo {f : RegField} (h : f.acc = .wo) (old v : Nat) : f.written old v = v := by simp [RegField.written, h]

theorem testBit_written_w1c {f : RegField} (h : f.acc = .w1c) (old : Nat) {v i : Nat} (hv : v < 2 ^ f.w) (hi : i < f.w) :
    (f.written old v).testBit i = (old.testBit i && !v.testBit i) := by
  have hw : f.written old v = old &&& (2 ^ f.w - (v + 1)) := by simp [RegField.written, h, Nat.sub_sub, Nat.add_comm]
  rw [hw, Nat.testBit_and, Nat.testBit_two_pow_sub_succ hv]
  simp [hi]

theorem testBit_written_w1s {f : RegField} (h : f.acc = .w1s) (old v i : Nat) :
    (f.written old v).testBit i = (old.testBit i || v.testBit i) := by
  simp [RegField.written, h]

/-! The arrival of a write: it is counted, and it disarms the lock (R59, R64). -/

/-- The state in which a write that has arrived at a page finds its register. -/
def State.arrived (s : State) (p : Page) (who : Requester) : State := (s.countWrite p).disarm p who

theorem arrived_eq (s : State) (p : Page) (who : Requester) :
    s.arrived p who = { s with regs := (s.arrived p who).regs, pages := (s.arrived p who).pages } := by
  unfold State.arrived State.disarm
  split <;> rfl

theorem arrived_regs (s : State) (p : Page) (who : Requester) : (s.arrived p who).regs = (s.countWrite p).regs := by
  unfold State.arrived State.disarm
  split <;> rfl

theorem regsWf_arrived {s : State} (h : s.regsWf) (p : Page) (who : Requester) : (s.arrived p who).regsWf := by
  rw [State.regsWf, arrived_regs]
  exact regsWf_setFld h _ _ _ _

theorem reg_arrived_of_ne {s : State} (h : s.regsWf) {p q : Page} {off : Nat} (hk : regKey q off ≠ regKey p 0x01C) (who : Requester) :
    (s.arrived p who).reg q off = s.reg q off := by
  rw [State.reg, arrived_regs]
  exact reg_setFld_of_ne h hk _

/-- The count of writes stands at one offset of a page; registers at others are as before. -/
theorem reg_arrived_of_off {s : State} (h : s.regsWf) (p q : Page) {off : Nat} (ho : off < 4096) (hne : off ≠ 0x01C) (who : Requester) :
    (s.arrived p who).reg q off = s.reg q off :=
  reg_arrived_of_ne h (fun hk => hne ((regKey_inj ho (by decide)).mp hk).2) who

theorem page_setPage {s : State} (h : mwf (fun _ => ({} : PageSt)) s.pages = true) (p q : Page) (x : PageSt) :
    (s.setPage p x).page q = if pageKey q = pageKey p then x else s.page q := mget_mput h _ _ x

/-- An arriving write changes nothing of a page but its lock. -/
theorem page_arrived {s : State} (h : mwf (fun _ => ({} : PageSt)) s.pages = true) (p q : Page) (who : Requester) :
    ∃ l, (s.arrived p who).page q = { s.page q with lock := l } := by
  have hp (x : Page) : (s.countWrite p).page x = s.page x := rfl
  unfold State.arrived State.disarm State.setLock
  split
  · rw [page_setPage (s := s.countWrite p) h]
    split
    · rename_i hk
      exact ⟨.locked, by rw [hp, State.page, State.page, hk]⟩
    · exact ⟨_, hp q⟩
  · exact ⟨_, hp q⟩

theorem stagedAt_arrived {s : State} (h : mwf (fun _ => ({} : PageSt)) s.pages = true) (p q : Page) (off : Nat) (who : Requester) :
    (s.arrived p who).stagedAt q off = s.stagedAt q off := by
  obtain ⟨l, hl⟩ := page_arrived h p q who
  rw [State.stagedAt, hl, State.stagedAt]

theorem flag_arrived_of_off {s : State} (h : s.regsWf) (p q : Page) {f : RegField} (ho : f.off < 4096) (hne : f.off ≠ 0x01C)
    (who : Requester) : (s.arrived p who).flag q f = s.flag q f := by
  rw [State.flag, State.flag, State.fld, State.fld, Nat.mul_zero, Nat.add_zero, reg_arrived_of_off h p q ho hne]

theorem present_arrived {s : State} (h : s.regsWf) (p q : Page) (who : Requester) :
    (s.arrived p who).present q = s.present q := by
  have hdies : (s.arrived p who).dies = s.dies := by rw [arrived_eq]
  have hrole (pd : PD) : (s.arrived p who).role pd = s.role pd := by rw [State.role, State.role, hdies]
  have hb (b : Blk) (pd : PD) : (s.arrived p who).bonded b pd = s.bonded b pd := by
    have hf := fun {f : RegField} (ho : f.off < 4096) (hne : f.off ≠ 0x01C) =>
      flag_arrived_of_off h p (diePage .dieCfg pd) ho hne who
    cases b <;> simp only [State.bonded]
    case fchan => rw [hf (by decide) (by decide)]
    case jport => rw [hf (by decide) (by decide)]
    case pcierp => rw [hf (by decide) (by decide)]
  simp only [State.present, hrole, hb]

theorem accessible_arrived {s : State} (hr : s.regsWf) (hp : mwf (fun _ => ({} : PageSt)) s.pages = true) (p q : Page)
    (who : Requester) : (s.arrived p who).accessible q = s.accessible q := by
  obtain ⟨l, hl⟩ := page_arrived hp p q who
  rw [State.accessible, State.accessible, present_arrived hr, flag_arrived_of_off hr p q (by decide) (by decide), hl]

theorem present_of_accessible {s : State} {p : Page} (h : s.accessible p = true) : s.present p = true := by
  rw [State.accessible, Bool.and_eq_true, Bool.and_eq_true] at h
  obtain ⟨⟨hp, -⟩, -⟩ := h
  exact hp

/-- A write to a block register of a page finds the register in the state in which it has arrived. -/
theorem busWrite_block {s : State} {p : Page} {off : Nat} (hn : normPage p = p) (hp : s.present p = true) (ho : 0x100 ≤ off)
    (hro : readOnlyPage p.blk = false) (who : Requester) (v : Word) (err : TierFail) :
    s.busWrite who p off v err = (s.arrived p who).blockWrite who p off v err := by
  have h1 : off ≠ 0x040 := by omega
  have h2 : ¬ off < 0x100 := by omega
  simp [State.busWrite, hn, hp, hro, h1, h2, State.arrived]

theorem busWrite_absent {s : State} {p : Page} (h : s.present (normPage p) = false) (who : Requester) (off : Nat) (v : Word)
    (err : TierFail) : s.busWrite who p off v err = s := by
  simp [State.busWrite, h]

theorem readReply_absent {s : State} {p : Page} (h : s.present (normPage p) = false) (who : Requester) (off : Nat) :
    s.readReply who p off = { s with reply := some (.word 0) } := by
  simp [State.readReply, State.busRead, h]

/-! The fields of a write. -/

/-- No field is protected and none is a command bit. -/
def plainFields (fs : List RegField) : Bool := fs.all fun f => !f.prot && f.acc != .sc

theorem prot_of_plain {fs : List RegField} (h : plainFields fs = true) {f : RegField} (hf : f ∈ fs) : f.prot = false := by
  have := List.all_eq_true.mp h f hf
  simp only [Bool.and_eq_true, Bool.not_eq_true'] at this
  exact this.1

theorem acc_of_plain {fs : List RegField} (h : plainFields fs = true) {f : RegField} (hf : f ∈ fs) : f.acc ≠ .sc := by
  have := List.all_eq_true.mp h f hf
  simp only [Bool.and_eq_true, bne_iff_ne] at this
  exact this.2

/-- Without command bits a write arrives as it was made (R7). -/
theorem heldSc_of_plain {fs : List RegField} (h : ∀ f ∈ fs, f.acc ≠ .sc) (b : Blk) (old v : Nat) : heldSc b fs old v = v := by
  unfold heldSc
  split
  · rfl
  · induction fs with
    | nil => rfl
    | cons f fs ih =>
      have hf : f.acc ≠ .sc := h f List.mem_cons_self
      rw [List.foldl_cons, if_neg fun hs => hf hs.1]
      exact ih fun g hg => h g (List.mem_cons_of_mem f hg)

/-- A write of plain fields that holds no reserved value stores them, and acts where one of them is writable. -/
theorem regWrite_plain {s : State} {p : Page} {off : Nat} {pair : Bool} {n : Nat} (hplain : plainFields (regFields p.blk off pair) = true)
    (hres : s.reservedWrite p off (regFields p.blk off pair) n = false) (who : Requester) (err : TierFail) :
    s.regWrite who p off pair n err =
      (true, if s.unlockedFor p who || (regFields p.blk off pair).any (·.writable) then
          (s.storeFields p off pair (regFields p.blk off pair) n).regAct who p off (s.liveValue who p off pair) n err
        else s.storeFields p off pair (regFields p.blk off pair) n) := by
  generalize hfs : regFields p.blk off pair = fs at hplain hres
  have hprot : fs.any (·.prot) = false := List.any_eq_false.mpr fun f hf => by simp [prot_of_plain hplain hf]
  have hkept (old : Nat) : (fs.filter fun (f : RegField) => f.prot && !s.unlockedFor p who && f.changes old n) = [] :=
    List.filter_eq_nil_iff.mpr fun f hf => by simp [prot_of_plain hplain hf]
  have hany : (fs.any fun f => f.writable && !f.prot) = fs.any (·.writable) := by
    rw [Bool.eq_iff_iff, List.any_eq_true, List.any_eq_true]
    exact exists_congr fun f => and_congr_right fun hf => by simp [prot_of_plain hplain hf]
  simp [State.regWrite, hfs, heldSc_of_plain fun f hf => acc_of_plain hplain hf, hres, hprot, hkept, hany, State.useUnlock]

end Sys2Proof.Machine

open Sys2Proof Sys2Proof.Machine Sys2Proof.Claims

namespace Sys2Proof.Machine

theorem readOnlyPage_of_storesOnly {b : Blk} {off : Nat} (h : storesOnly b off = true) : readOnlyPage b = false := by
  cases b <;> simp_all [storesOnly, readOnlyPage]

/-- A write of a register that only stores its fields does nothing else. -/
theorem regAct_storesOnly {p : Page} {off : Nat} (h : storesOnly p.blk off = true) (s : State) (who : Requester) (old v : Nat)
    (err : TierFail) : s.regAct who p off old v err = s := by
  cases hb : p.blk <;> simp [storesOnly, hb] at h <;> simp [State.regAct, hb]
  case tsram => simp [State.actTsram, h]
  case tstile => simp [State.actTstile, h]
  case place => simp [State.actPlace, h]
  case home => simp [h]
  case timebase => simp [State.actTimebase, h]

/-- What is reserved does not depend on the arrival of the write. -/
theorem reservedWrite_arrived {s : State} (h : s.regsWf) (p q : Page) (who : Requester) (off : Nat) (fs : List RegField) (v : Nat) :
    (s.arrived p who).reservedWrite q off fs v = s.reservedWrite q off fs v := by
  have hcap : (s.arrived p who).fld q Reg.RM_PEAK_CAP_WATTS = s.fld q Reg.RM_PEAK_CAP_WATTS :=
    fld_congr (reg_arrived_of_off h p q (by decide) (by decide) who)
  simp only [State.reservedWrite, State.reservedCombo, hcap]

theorem discards_of_storesOnly {p : Page} {off : Nat} (h : storesOnly p.blk off = true) (s : State) : s.discards p off = false := by
  cases hb : p.blk <;> simp [storesOnly, hb] at h <;> simp [State.discards, hb]

/-- A 32-bit write to a register outside the pairs stores its fields in the state in which it has arrived. -/
theorem busWrite_openRegister {s : State} (hr : s.regsWf) (hp : mwf (fun _ => ({} : PageSt)) s.pages = true) {p : Page} {off : Nat}
    {v : Word} (h : OpenRegister s p off v.toNat) (hlo : isLo p.blk off = false) (hhi : isHi p.blk off = false) (who : Requester) :
    s.busWrite who p off v = (s.arrived p who).setReg p off
      (BitVec.ofNat 32 (storedWord (fieldsAt p.blk off) ((s.arrived p who).reg p off).toNat v.toNat)) := by
  obtain ⟨hn, hacc, ho, hs, -, hres, hplain⟩ := h
  have hro := readOnlyPage_of_storesOnly hs
  have hres' : (s.arrived p who).reservedWrite p off (regFields p.blk off false) v.toNat = false := by
    rw [reservedWrite_arrived hr, hres]
  rw [busWrite_block hn (present_of_accessible hacc) ho hro]
  simp only [State.blockWrite, accessible_arrived hr hp, hacc, hro, discards_of_storesOnly hs, hlo, hhi, Bool.not_true,
    Bool.or_self, Bool.false_eq_true, if_false]
  rw [regWrite_plain hplain hres']
  simp [regAct_storesOnly hs, State.storeFields, regFields]

end Sys2Proof.Machine

/-- Settles O8, code by code. -/
theorem accessCodesWriteFields : Obligations.AccessCodesWriteFields := by
  intro f old v _ hv
  exact ⟨fun h => written_ro h old v, fun h => written_rw h old v, fun h => written_wo h old v,
    fun h i hi => testBit_written_w1c h old hv hi, fun h i _ => testBit_written_w1s h old v i⟩

/-- Settles O9: the write is counted, disarms the lock and stores the fields; nothing answers at an absent page. -/
theorem registerWritesStoreFields : Obligations.RegisterWritesStoreFields := by
  intro s hc
  refine ⟨fun who p r v hopen hlo hhi => ?_, fun who p r habs => ⟨?_, fun v => ?_⟩⟩
  · have hr := regsWf_arrived hc.regs p who
    have ho : 4 * r.val ≠ 0x01C := by
      obtain ⟨-, -, h100, -⟩ := hopen
      omega
    refine ⟨_, congrArg Host.Outcome.next (busWrite_openRegister hc.regs hc.pages hopen hlo hhi who), ?_, ?_, ?_⟩
    · rw [reg_setReg hr, if_pos rfl, reg_arrived_of_ne hc.regs (regKey_off_ne ho)]
    · intro q off hne hsync
      rw [reg_setReg hr, if_neg hne, reg_arrived_of_ne hc.regs hsync]
    · rw [State.setReg, arrived_eq]
  · exact congrArg Host.Outcome.next (readReply_absent habs who _)
  · exact congrArg Host.Outcome.next (busWrite_absent habs who _ v _)
end

section
/-!
SUPPORT. What an interrupt writes: BLK_INT_STAT of its page, registers of CPU cluster pages, and the CPU complex
(R58, R459 to R462); what a saturating counter writes (R551).
-/
namespace Sys2Proof.Machine

/-- t is s but for the registers whose keys are in K, and the CPU complex. -/
structure WritesOnly (K : Set Nat) (s t : State) : Prop where
  frame : ∃ r c, t = { s with regs := r, cpu := c }
  wf : s.regsWf → t.regsWf
  regs : s.regsWf → ∀ k, k ∉ K → mget regReset t.regs k = mget regReset s.regs k

namespace WritesOnly

variable {K : Set Nat} {s t u : State}

theorem refl (K : Set Nat) (s : State) : WritesOnly K s s := ⟨⟨_, _, rfl⟩, id, fun _ _ _ => rfl⟩

theorem trans (h : WritesOnly K s t) (h' : WritesOnly K t u) : WritesOnly K s u where
  frame := by
    obtain ⟨r, c, rfl⟩ := h.frame
    obtain ⟨r', c', rfl⟩ := h'.frame
    exact ⟨r', c', rfl⟩
  wf hs := h'.wf (h.wf hs)
  regs hs k hk := (h'.regs (h.wf hs) k hk).trans (h.regs hs k hk)

theorem mono {K' : Set Nat} (hK : K ⊆ K') (h : WritesOnly K s t) : WritesOnly K' s t :=
  ⟨h.frame, h.wf, fun hs k hk => h.regs hs k fun hm => hk (hK hm)⟩

theorem reg (h : WritesOnly K s t) (hs : s.regsWf) {p : Page} {off : Nat} (hk : regKey p off ∉ K) : t.reg p off = s.reg p off :=
  h.regs hs _ hk

theorem setReg (s : State) {p : Page} {off : Nat} (hk : regKey p off ∈ K) (v : Word) : WritesOnly K s (s.setReg p off v) where
  frame := ⟨_, _, rfl⟩
  wf hs := regsWf_setReg hs p off v
  regs hs k hn := by
    have hne : k ≠ regKey p off := fun h => hn (h ▸ hk)
    rw [State.setReg, mget_mput hs, if_neg hne]

theorem setFld (s : State) {p : Page} {f : RegField} {i : Nat} (hk : regKey p (f.off + f.stride * i) ∈ K) (v : Nat) :
    WritesOnly K s (s.setFld p f v i) := setReg s hk _

theorem setCpu (s : State) (c : CpuSt) : WritesOnly K s { s with cpu := c } := ⟨⟨_, _, rfl⟩, id, fun _ _ _ => rfl⟩

theorem ite {c : Prop} [Decidable c] (h : WritesOnly K s t) (h' : WritesOnly K s u) : WritesOnly K s (if c then t else u) := by
  split
  · exact h
  · exact h'

end WritesOnly

/-- The keys of the registers of CPU cluster pages. -/
def cpuclKeys : Set Nat := {k | k / 0x1000000 = blkCode .cpucl}

theorem regKey_cpucl {p : Page} (hp : p.blk = .cpucl) {off : Nat} (ho : off < 4096) : regKey p off ∈ cpuclKeys := by
  exact (regKey_div ho).trans (by rw [hp])

/-- The registers that an interrupt of a page writes. -/
def intKeys (p : Page) : Set Nat := insert (regKey p 0x010) cpuclKeys

theorem setHart_writes {K : Set Nat} (s : State) (h : Nat) (v : HartSt) : WritesOnly K s (s.setHart h v) := WritesOnly.setCpu s _

theorem setAplic_writes {K : Set Nat} (s : State) (sup : Bool) (d : AplicDom) : WritesOnly K s (s.setAplic sup d) :=
  WritesOnly.setCpu s _

theorem hartTo_writes (s : State) (h : Nat) (st : HartState) : WritesOnly cpuclKeys s (s.hartTo h st) := by
  refine (setHart_writes s h { s.hart h with state := st }).trans (WritesOnly.setFld _ (regKey_cpucl rfl ?_) _)
  split <;> decide

theorem msiDropRaw_writes (s : State) {p : Page} (hp : p.blk = .cpucl) : WritesOnly cpuclKeys s (s.msiDropRaw p) :=
  (WritesOnly.setFld s (regKey_cpucl hp (by decide)) _).trans (WritesOnly.setReg _ (regKey_cpucl hp (by decide)) _)

section
variable {again : State → Nat → State} (hagain : ∀ u i, WritesOnly cpuclKeys u (again u i))
include hagain

theorem msiWith_writes (s : State) {p : Page} (hp : p.blk = .cpucl) (h file ident : Nat) :
    WritesOnly cpuclKeys s (s.msiWith again p h file ident) := by
  have hdrop := msiDropRaw_writes s hp
  have hset := setHart_writes (K := cpuclKeys) s h
  unfold State.msiWith
  split
  · exact (hdrop.trans (hagain _ _)).ite hdrop
  · exact ((hset _).trans (hartTo_writes _ _ _)).ite (hset _)

theorem aplicSendWith_writes (s : State) (sup : Bool) (i : Nat) : WritesOnly cpuclKeys s (s.aplicSendWith again sup i) := by
  unfold State.aplicSendWith
  exact ((setAplic_writes s sup _).trans (msiWith_writes hagain _ rfl _ _ _)).ite (.refl _ s)

theorem aplicPendWith_writes (s : State) (sup : Bool) (i : Nat) : WritesOnly cpuclKeys s (s.aplicPendWith again sup i) := by
  unfold State.aplicPendWith
  exact ((setAplic_writes s sup _).trans (aplicSendWith_writes hagain _ sup i)).ite (.refl _ s)

end

theorem aplicRaise_writes (n : Nat) (s : State) (i : Nat) : WritesOnly cpuclKeys s (s.aplicRaise n i) := by
  induction n generalizing s i with
  | zero => exact .refl _ s
  | succ n ih =>
    have hup (u : State) (sup : Bool) : WritesOnly cpuclKeys u
        (if (u.aplic sup).srcCfg i = 6 then u.aplicPendWith (fun t j => State.aplicRaise n t j) sup i else u) :=
      (aplicPendWith_writes ih u sup i).ite (.refl _ u)
    exact (hup s false).trans (hup _ true)

theorem irqEdge_writes (s : State) (p : Page) (old : Bool) : WritesOnly cpuclKeys s (s.irqEdge p old) := by
  unfold State.irqEdge
  exact (aplicRaise_writes 4 s _).ite (.refl _ s)

theorem setInt_writes (s : State) (p : Page) (i : Nat) : WritesOnly (intKeys p) s (s.setInt p i) :=
  (WritesOnly.setReg s (Set.mem_insert _ _) _).trans ((irqEdge_writes _ p _).mono (Set.subset_insert _ _))

/-! Saturating counters (R551). -/

/-- The keys that a counter writes: its own register and those of its interrupt. -/
def bumpKeys (p : Page) (f : RegField) (i : Nat) : Set Nat := insert (regKey p (f.off + f.stride * i)) (intKeys p)

/-- A counter is set, and may then raise an interrupt of its page. -/
theorem bump_writes_after (s : State) (p : Page) (f : RegField) (n i : Nat) :
    WritesOnly (intKeys p) (s.setFld p f (min (s.fld p f i + n) (2 ^ f.w - 1)) i) (s.bump p f n i) := by
  unfold State.bump
  split
  · exact (setInt_writes _ p _).ite (.refl _ _)
  · exact WritesOnly.ite (.refl _ _) (.refl _ _)

theorem bump_writes (s : State) (p : Page) (f : RegField) (n i : Nat) : WritesOnly (bumpKeys p f i) s (s.bump p f n i) :=
  (WritesOnly.setFld s (Set.mem_insert _ _) _).trans ((bump_writes_after s p f n i).mono (Set.subset_insert _ _))

/-- A counter off the interrupt's registers counts up to its maximum. -/
theorem fld_bump {s : State} (h : s.regsWf) {p : Page} {f : RegField} {i : Nat} (hf : f.lo + f.w ≤ 32)
    (hk : regKey p (f.off + f.stride * i) ∉ intKeys p) (n : Nat) :
    (s.bump p f n i).fld p f i = min (s.fld p f i + n) (2 ^ f.w - 1) := by
  have hlt : min (s.fld p f i + n) (2 ^ f.w - 1) < 2 ^ f.w := by
    have := Nat.two_pow_pos f.w
    omega
  rw [fld_congr ((bump_writes_after s p f n i).reg (regsWf_setFld h p f _ i) hk), fld_setFld_same h p f hf, Nat.mod_eq_of_lt hlt]

end Sys2Proof.Machine
end

section
/-!
SUPPORT. The event log: the queue of a source, an entry accepted, an entry fetched (R13, R14, R546, R547).
-/
open Sys2Proof.Claims

namespace Sys2Proof.Machine

/-! The queue of a source (R546). -/

def State.setSrcQueue (s : State) (k : Nat) (q : SrcQ) : State := { s with evq := mput (fun _ => {}) s.evq k q }

theorem setSrcQueue_evq (s : State) (k : Nat) (q : SrcQ) : (s.setSrcQueue k q).evq = mput (fun _ => {}) s.evq k q := rfl

theorem srcQueue_set {s : State} (h : rising s.evq = true) (k k' : Nat) (q : SrcQ) :
    srcQueue (s.setSrcQueue k q) k' = if k' = k then q else srcQueue s k' := mget_mput_rising h k k' q

theorem srcQueue_set_same {s : State} (h : rising s.evq = true) (k : Nat) (q : SrcQ) : srcQueue (s.setSrcQueue k q) k = q := by
  rw [srcQueue_set h, if_pos rfl]

theorem srcQueue_set_of_ne {s : State} (h : rising s.evq = true) {k k' : Nat} (hk : k' ≠ k) (q : SrcQ) :
    srcQueue (s.setSrcQueue k q) k' = srcQueue s k' := by
  rw [srcQueue_set h, if_neg hk]

theorem rising_setSrcQueue {s : State} (h : rising s.evq = true) (k : Nat) (q : SrcQ) : rising (s.setSrcQueue k q).evq = true := by
  rw [setSrcQueue_evq]
  exact rising_mput h k q

/-- The event that a page's block stamps. -/
def State.stamp (s : State) (p : Page) (num data : Nat) : Event :=
  { timestamp := s.clock.time
    step := if s.inStep then BitVec.ofNat 48 s.sched.step.toNat else 0
    beat := if s.inStep then BitVec.ofNat 18 s.sched.beat else 0
    stepValid := s.inStep, deviation := false, pdie := (s.hostPd p).val, blkType := blkCode p.blk, inst := p.inst.val
    code := BitVec.ofNat 16 (blkCode p.blk * 256 + num), data := BitVec.ofNat 64 data }

/-- A source's queue once an event comes to it. -/
def SrcQ.push (q : SrcQ) (e : Event) : SrcQ :=
  if q.q.length < 16 then { q with q := q.q ++ [e] } else { q with lost := if q.lost = 0xFFFFFFFF then q.lost else q.lost + 1 }

/-- The key of the source that is a page's block. -/
def State.pageSrc (s : State) (p : Page) : Nat := srcKey (blkCode p.blk) (s.hostPd p).val p.inst.val

theorem report_eq (s : State) (p : Page) (num data : Nat) :
    s.report p num data = s.setSrcQueue (s.pageSrc p) ((srcQueue s (s.pageSrc p)).push (s.stamp p num data)) := rfl

theorem lost_push (l : Word) : (if l = 0xFFFFFFFF then l else l + 1).toNat = min (l.toNat + 1) (2 ^ 32 - 1) := by
  have := l.isLt
  split
  · rename_i h; subst h; rfl
  · rename_i h
    have hne : l.toNat ≠ 0xFFFFFFFF := fun he => h (BitVec.eq_of_toNat_eq he)
    have hone : (1 : Word).toNat = 1 := rfl
    rw [BitVec.toNat_add, hone]
    omega

theorem reported_report {s : State} (h : rising s.evq = true) (p : Page) (num data : Nat) :
    Reported s (s.report p num data) p num data := by
  rw [report_eq]
  refine ⟨fun hlt => ⟨s.stamp p num data, ?_, rfl, rfl, rfl, rfl, rfl, rfl, rfl, rfl, rfl⟩, fun hge => ?_, fun k' hk => ?_⟩
  · have hroom : (srcQueue s (s.pageSrc p)).push (s.stamp p num data) =
        { srcQueue s (s.pageSrc p) with q := (srcQueue s (s.pageSrc p)).q ++ [s.stamp p num data] } := if_pos hlt
    exact (srcQueue_set_same h _ _).trans hroom
  · have hfull : (srcQueue s (s.pageSrc p)).push (s.stamp p num data) = { srcQueue s (s.pageSrc p) with
        lost := if (srcQueue s (s.pageSrc p)).lost = 0xFFFFFFFF then (srcQueue s (s.pageSrc p)).lost
          else (srcQueue s (s.pageSrc p)).lost + 1 } := if_neg (not_lt.mpr hge)
    have hq := congrArg SrcQ.q ((srcQueue_set_same h (s.pageSrc p) _).trans hfull)
    have hlost := congrArg (fun q => q.lost.toNat) ((srcQueue_set_same h (s.pageSrc p) _).trans hfull)
    exact ⟨hq, hlost.trans (lost_push _)⟩
  · exact srcQueue_set_of_ne h hk _

/-- Keys of sources tell their block types apart. -/
theorem srcKey_ne {code code' pd pd' inst inst' : Nat} (hc : code ≠ code') (hp : pd < 64) (hp' : pd' < 64) (hi : inst < 64)
    (hi' : inst' < 64) : srcKey code pd inst ≠ srcKey code' pd' inst' := by
  simp only [srcKey]; omega

/-! An entry accepted (R546, R547). -/

/-- t is s but for the registers with keys in K, the CPU complex, the queues of the sources and the count of free values. -/
structure LogWrites (K : Set Nat) (s t : State) : Prop where
  frame : ∃ q r c f, t = { s with evq := q, regs := r, cpu := c, freeCtr := f }
  wf : s.regsWf → t.regsWf
  regs : s.regsWf → ∀ k, k ∉ K → mget regReset t.regs k = mget regReset s.regs k

theorem WritesOnly.logWrites {K : Set Nat} {s t : State} (h : WritesOnly K s t) : LogWrites K s t where
  frame := by
    obtain ⟨r, c, rfl⟩ := h.frame
    exact ⟨_, r, c, _, rfl⟩
  wf := h.wf
  regs := h.regs

theorem WritesOnly.evq {K : Set Nat} {s t : State} (h : WritesOnly K s t) : t.evq = s.evq := by
  obtain ⟨r, c, rfl⟩ := h.frame
  rfl

theorem WritesOnly.srcQueue_eq {K : Set Nat} {s t : State} (h : WritesOnly K s t) (k : Nat) : srcQueue t k = srcQueue s k := by
  rw [srcQueue, srcQueue, h.evq]

theorem LogWrites.trans {K : Set Nat} {s t u : State} (h : LogWrites K s t) (h' : LogWrites K t u) : LogWrites K s u where
  frame := by
    obtain ⟨q, r, c, f, rfl⟩ := h.frame
    obtain ⟨q', r', c', f', rfl⟩ := h'.frame
    exact ⟨q', r', c', f', rfl⟩
  wf hs := h'.wf (h.wf hs)
  regs hs k hk := (h'.regs (h.wf hs) k hk).trans (h.regs hs k hk)

theorem LogWrites.reg {K : Set Nat} {s t : State} (h : LogWrites K s t) (hs : s.regsWf) {p : Page} {off : Nat} (hk : regKey p off ∉ K) :
    t.reg p off = s.reg p off :=
  h.regs hs _ hk

theorem logWrites_refl (K : Set Nat) (s : State) : LogWrites K s s := ⟨⟨_, _, _, _, rfl⟩, id, fun _ _ _ => rfl⟩

/-- Queues and the count of free values are no registers. -/
theorem logWrites_setSrcQueue (K : Set Nat) (s : State) (k : Nat) (q : SrcQ) : LogWrites K s (s.setSrcQueue k q) :=
  ⟨⟨_, _, _, _, rfl⟩, id, fun _ _ _ => rfl⟩

theorem logWrites_reportOpen (K : Set Nat) (s : State) (p : Page) (num : Nat) : LogWrites K s (s.reportOpen p num) :=
  ⟨⟨_, _, _, _, rfl⟩, id, fun _ _ _ => rfl⟩

/-- Registers of the log off BLK_INT_STAT are none of an interrupt's. -/
theorem evPage_notMem_intKeys {off : Nat} (ho : off < 4096) (hne : off ≠ 0x010) : regKey evPage off ∉ intKeys evPage := by
  rintro (h | h)
  · exact hne ((regKey_inj ho (by decide)).mp h).2
  · have h22 : regKey evPage off / 0x1000000 = blkCode .evlog := regKey_div ho
    exact absurd (h22.symm.trans h) (by decide)

theorem evPage_notMem_bumpKeys {f : RegField} {off : Nat} (ho : off < 4096) (hf : f.off < 4096) (hint : off ≠ 0x010)
    (hne : off ≠ f.off) :
    regKey evPage off ∉ bumpKeys evPage f 0 := by
  rintro (h | h)
  · exact hne ((regKey_inj ho (by simpa using hf)).mp h).2
  · exact evPage_notMem_intKeys ho hint h

theorem intKeys_subset_bumpKeys (p : Page) (f : RegField) (i : Nat) : intKeys p ⊆ bumpKeys p f i := Set.subset_insert _ _

/-- A counter of the log counts, with an interrupt of the log after it. -/
theorem bump_setInt_writes (s : State) (f : RegField) (n i : Nat) :
    WritesOnly (bumpKeys evPage f 0) s ((s.bump evPage f n).setInt evPage i) :=
  (bump_writes s evPage f n 0).trans ((setInt_writes _ evPage i).mono (intKeys_subset_bumpKeys _ _ _))

theorem fld_bump_setInt {s : State} (h : s.regsWf) {f : RegField} (hf : f.lo + f.w ≤ 32) (ho : f.off < 4096) (hne : f.off ≠ 0x010)
    (n i : Nat) : ((s.bump evPage f n).setInt evPage i).fld evPage f = min (s.fld evPage f + n) (2 ^ f.w - 1) := by
  have hk : regKey evPage (f.off + f.stride * 0) ∉ intKeys evPage := evPage_notMem_intKeys (by simpa using ho) (by simpa using hne)
  rw [fld_congr ((setInt_writes _ evPage i).reg ((bump_writes s evPage f n 0).wf h) hk), fld_bump h hf hk]

theorem evDropped_eq (s : State) : s.evDropped =
    if s.fld evPage Reg.EV_DROP_COUNT = 0 then ((s.bump evPage Reg.EV_DROP_COUNT).setInt evPage 2).reportOpen evPage 1
    else (s.bump evPage Reg.EV_DROP_COUNT).setInt evPage 2 := rfl

theorem evSrcLost_eq (s : State) (k : Nat) : s.evSrcLost k =
    if (srcQueue s k).lost = 0 then s
    else ((s.setSrcQueue k { srcQueue s k with lost := 0 }).bump evPage Reg.EV_SRC_DROP_COUNT (srcQueue s k).lost.toNat).setInt
      evPage 2 := rfl

/-- The entries that the log holds and nobody has consumed. -/
def State.evOccupied (s : State) : Nat := min 8192 (s.reg64 evPage 0x108 - s.reg64 evPage 0x110)

theorem evOcc_eq (s : State) : s.evOcc =
    if s.fld evPage Reg.EV_STAT_OCC < s.fld evPage Reg.EV_OCC_THR_THR ∧ s.fld evPage Reg.EV_OCC_THR_THR ≤ s.evOccupied then
      (s.setFld evPage Reg.EV_STAT_OCC s.evOccupied).setInt evPage 1
    else s.setFld evPage Reg.EV_STAT_OCC s.evOccupied := rfl

theorem evDropped_writes (s : State) : LogWrites (bumpKeys evPage Reg.EV_DROP_COUNT 0) s s.evDropped := by
  have hb := (bump_setInt_writes s Reg.EV_DROP_COUNT 1 2).logWrites
  rw [evDropped_eq]
  split
  · exact hb.trans (logWrites_reportOpen _ _ _ _)
  · exact hb

theorem fld_evDropped {s : State} (h : s.regsWf) :
    s.evDropped.fld evPage Reg.EV_DROP_COUNT = min (s.fld evPage Reg.EV_DROP_COUNT + 1) (2 ^ 32 - 1) := by
  have hb := fld_bump_setInt h (f := Reg.EV_DROP_COUNT) (by decide) (by decide) (by decide) 1 2
  rw [evDropped_eq]
  split <;> exact hb

theorem rising_evDropped {s : State} (h : rising s.evq = true) : rising s.evDropped.evq = true := by
  have he : rising ((s.bump evPage Reg.EV_DROP_COUNT).setInt evPage 2).evq = true := by
    rw [(bump_setInt_writes s Reg.EV_DROP_COUNT 1 2).evq]
    exact h
  rw [evDropped_eq]
  split
  · exact rising_setSrcQueue he _ _
  · exact he

/-- The event that an entry was overwritten comes from the log itself. -/
theorem srcQueue_evDropped {s : State} (h : rising s.evq = true) {code : Nat} (hc : code ≠ 0x16) (pd : PD) (inst : Fin 64) :
    srcQueue s.evDropped (srcKey code pd.val inst.val) = srcQueue s (srcKey code pd.val inst.val) := by
  have hw := bump_setInt_writes s Reg.EV_DROP_COUNT 1 2
  have he : rising ((s.bump evPage Reg.EV_DROP_COUNT).setInt evPage 2).evq = true := by
    rw [hw.evq]
    exact h
  rw [evDropped_eq]
  split
  · have hne : srcKey code pd.val inst.val ≠ ((s.bump evPage Reg.EV_DROP_COUNT).setInt evPage 2).pageSrc evPage :=
      srcKey_ne hc (by omega) (by omega) inst.isLt (by decide)
    exact (srcQueue_set_of_ne he hne _).trans (hw.srcQueue_eq _)
  · exact hw.srcQueue_eq _

theorem evSrcLost_writes (s : State) (k : Nat) : LogWrites (bumpKeys evPage Reg.EV_SRC_DROP_COUNT 0) s (s.evSrcLost k) := by
  rw [evSrcLost_eq]
  split
  · exact logWrites_refl _ s
  · exact (logWrites_setSrcQueue _ s _ _).trans (bump_setInt_writes _ _ _ _).logWrites

theorem fld_evSrcLost {s : State} (h : s.regsWf) (k : Nat) : (s.evSrcLost k).fld evPage Reg.EV_SRC_DROP_COUNT =
    min (s.fld evPage Reg.EV_SRC_DROP_COUNT + (srcQueue s k).lost.toNat) (2 ^ 32 - 1) := by
  have hlt := fld_lt s evPage Reg.EV_SRC_DROP_COUNT 0
  rw [evSrcLost_eq]
  split
  · rename_i h0
    rw [h0]
    have : s.fld evPage Reg.EV_SRC_DROP_COUNT < 2 ^ 32 := hlt
    have hzero : BitVec.toNat (0 : Word) = 0 := rfl
    omega
  · exact fld_bump_setInt (s := s.setSrcQueue _ _) h (by decide) (by decide) (by decide) _ _

theorem srcQueue_evSrcLost {s : State} (h : rising s.evq = true) (k : Nat) :
    srcQueue (s.evSrcLost k) k = { srcQueue s k with lost := 0 } := by
  rw [evSrcLost_eq]
  split
  · rename_i h0
    rw [← h0]
  · rw [(bump_setInt_writes _ _ _ _).srcQueue_eq, srcQueue_set_same h]

theorem evOcc_writes (s : State) : WritesOnly (bumpKeys evPage Reg.EV_STAT_OCC 0) s s.evOcc := by
  have hs := WritesOnly.setFld (K := bumpKeys evPage Reg.EV_STAT_OCC 0) s (Set.mem_insert _ _)
    s.evOccupied
  rw [evOcc_eq]
  exact (hs.trans ((setInt_writes _ evPage 1).mono (intKeys_subset_bumpKeys _ _ _))).ite hs

theorem fld_evOcc {s : State} (h : s.regsWf) :
    s.evOcc.fld evPage Reg.EV_STAT_OCC = s.evOccupied := by
  have hlt : s.evOccupied < 2 ^ Reg.EV_STAT_OCC.w :=
    lt_of_le_of_lt (Nat.min_le_left _ _) (by decide)
  have hset := fld_setFld_same h evPage Reg.EV_STAT_OCC (by decide) s.evOccupied 0
  rw [Nat.mod_eq_of_lt hlt] at hset
  rw [evOcc_eq]
  split
  · refine (fld_congr ?_).trans hset
    exact ((setInt_writes _ evPage 1).reg (regsWf_setFld h evPage Reg.EV_STAT_OCC _ 0)
      (evPage_notMem_intKeys (by decide) (by decide)))
  · exact hset

/-- The log with an entry in its next place. -/
def State.putEntry (s : State) (e : Event) : State := { s with evlog := minsert s.evlog (s.reg64 evPage 0x108 % 8192) e }

/-- The oldest event of a source in the log, with the count of what was written. -/
def State.evStored (s : State) (k : Nat) (e : Event) (es : List Event) : State :=
  ((s.setSrcQueue k { srcQueue s k with q := es }).putEntry e).bump64 evPage 0x108

/-- The log with the event in its place, what it overwrites counted. -/
def State.evTaken (s : State) (k : Nat) (e : Event) (es : List Event) : State :=
  if 8192 ≤ s.reg64 evPage 0x108 ∧ s.reg64 evPage 0x110 ≤ s.reg64 evPage 0x108 - 8192 then (s.evStored k e es).evDropped
  else s.evStored k e es

theorem evAccept_nil {s : State} {k : Nat} (h : (srcQueue s k).q = []) : s.evAccept k = s := by
  rw [srcQueue] at h
  rw [State.evAccept, h]

theorem evAccept_cons {s : State} {k : Nat} {e : Event} {es : List Event} (h : (srcQueue s k).q = e :: es) :
    s.evAccept k = ((s.evTaken k e es).evSrcLost k).evOcc := by
  rw [srcQueue] at h
  rw [State.evAccept, h]
  rfl

theorem regsWf_evStored {s : State} (h : s.regsWf) (k : Nat) (e : Event) (es : List Event) : (s.evStored k e es).regsWf :=
  regsWf_setReg64 (s := (s.setSrcQueue _ _).putEntry e) h _ _ _

theorem reg64_evStored {s : State} (h : s.regsWf) (k : Nat) (e : Event) (es : List Event) :
    (s.evStored k e es).reg64 evPage 0x108 = (s.reg64 evPage 0x108 + 1) % 2 ^ 64 :=
  reg64_setReg64_same (s := (s.setSrcQueue _ _).putEntry e) h _ _ _

theorem reg_evStored {s : State} (h : s.regsWf) (k : Nat) (e : Event) (es : List Event) {off : Nat} (hlo : off ≠ 0x108)
    (hhi : off ≠ 0x10C) :
    (s.evStored k e es).reg evPage off = s.reg evPage off :=
  reg_setReg64_of_ne (s := (s.setSrcQueue _ _).putEntry e) h (regKey_off_ne hlo) (regKey_off_ne hhi) _

theorem evStored_frame (s : State) (k : Nat) (e : Event) (es : List Event) :
    ∃ l q r, s.evStored k e es = { s with evlog := l, evq := q, regs := r } := by
  obtain ⟨r, hr⟩ : ∃ r, s.evStored k e es =
      { (s.setSrcQueue k { srcQueue s k with q := es }).putEntry e with regs := r } := ⟨_, rfl⟩
  exact ⟨_, _, r, hr⟩

theorem evStored_evq (s : State) (k : Nat) (e : Event) (es : List Event) :
    (s.evStored k e es).evq = (s.setSrcQueue k { srcQueue s k with q := es }).evq := rfl

theorem evStored_evlog (s : State) (k : Nat) (e : Event) (es : List Event) :
    (s.evStored k e es).evlog = minsert s.evlog (s.reg64 evPage 0x108 % 8192) e := rfl

theorem srcQueue_evStored {s : State} (h : rising s.evq = true) (k : Nat) (e : Event) (es : List Event) :
    srcQueue (s.evStored k e es) k = { srcQueue s k with q := es } := by
  rw [srcQueue, evStored_evq]
  exact srcQueue_set_same h k _

theorem rising_evStored {s : State} (h : rising s.evq = true) (k : Nat) (e : Event) (es : List Event) :
    rising (s.evStored k e es).evq = true := by
  rw [evStored_evq]
  exact rising_setSrcQueue h _ _

theorem evTaken_writes (s : State) (k : Nat) (e : Event) (es : List Event) :
    LogWrites (bumpKeys evPage Reg.EV_DROP_COUNT 0) (s.evStored k e es) (s.evTaken k e es) := by
  unfold State.evTaken
  split
  · exact evDropped_writes _
  · exact logWrites_refl _ _

theorem fld_evTaken {s : State} (h : s.regsWf) (k : Nat) (e : Event) (es : List Event) :
    (s.evTaken k e es).fld evPage Reg.EV_DROP_COUNT =
      if 8192 ≤ s.reg64 evPage 0x108 ∧ s.reg64 evPage 0x110 ≤ s.reg64 evPage 0x108 - 8192 then
        min (s.fld evPage Reg.EV_DROP_COUNT + 1) (2 ^ 32 - 1)
      else s.fld evPage Reg.EV_DROP_COUNT := by
  have hsame : (s.evStored k e es).fld evPage Reg.EV_DROP_COUNT = s.fld evPage Reg.EV_DROP_COUNT :=
    fld_congr (reg_evStored h k e es (by decide) (by decide))
  unfold State.evTaken
  split
  · rw [fld_evDropped (regsWf_evStored h k e es), hsame]
  · exact hsame

theorem rising_evTaken {s : State} (h : rising s.evq = true) (k : Nat) (e : Event) (es : List Event) :
    rising (s.evTaken k e es).evq = true := by
  unfold State.evTaken
  split
  · exact rising_evDropped (rising_evStored h k e es)
  · exact rising_evStored h k e es

theorem srcQueue_evTaken {s : State} (h : rising s.evq = true) {code : Nat} (hc : code ≠ 0x16) (pd : PD) (inst : Fin 64) (e : Event)
    (es : List Event) : srcQueue (s.evTaken (srcKey code pd.val inst.val) e es) (srcKey code pd.val inst.val) =
      { srcQueue s (srcKey code pd.val inst.val) with q := es } := by
  have hst := srcQueue_evStored h (srcKey code pd.val inst.val) e es
  unfold State.evTaken
  split
  · rw [srcQueue_evDropped (rising_evStored h _ e es) hc, hst]
  · exact hst

/-- The registers that an accepted event leaves its count in, the occupancy's and those of an interrupt of the log. -/
def acceptKeys : Set Nat :=
  bumpKeys evPage Reg.EV_DROP_COUNT 0 ∪ (bumpKeys evPage Reg.EV_SRC_DROP_COUNT 0 ∪ bumpKeys evPage Reg.EV_STAT_OCC 0)

theorem LogWrites.mono {K K' : Set Nat} {s t : State} (hK : K ⊆ K') (h : LogWrites K s t) : LogWrites K' s t :=
  ⟨h.frame, h.wf, fun hs k hk => h.regs hs k fun hm => hk (hK hm)⟩

theorem evAccepted_writes (s : State) (k : Nat) (e : Event) (es : List Event) :
    LogWrites acceptKeys (s.evStored k e es) ((s.evTaken k e es).evSrcLost k).evOcc :=
  (((evTaken_writes s k e es).mono Set.subset_union_left).trans
    ((evSrcLost_writes _ k).mono (Set.subset_union_left.trans Set.subset_union_right))).trans
    ((evOcc_writes _).logWrites.mono (Set.subset_union_right.trans Set.subset_union_right))

theorem evPage_notMem_acceptKeys {off : Nat} (ho : off < 4096) (hoff : off ∉ [0x010, 0x104, 0x118, 0x11C]) :
    regKey evPage off ∉ acceptKeys := by
  simp only [List.mem_cons, List.not_mem_nil, or_false, not_or] at hoff
  obtain ⟨hint, hocc, hdrop, hsrc⟩ := hoff
  rintro (h | h | h)
  · exact evPage_notMem_bumpKeys ho (by decide) hint hdrop h
  · exact evPage_notMem_bumpKeys ho (by decide) hint hsrc h
  · exact evPage_notMem_bumpKeys ho (by decide) hint hocc h

theorem LogWrites.evlog {K : Set Nat} {s t : State} (h : LogWrites K s t) : t.evlog = s.evlog := by
  obtain ⟨q, r, c, f, rfl⟩ := h.frame
  rfl

section
variable {s : State} (hs : s.regsWf) (k : Nat) (e : Event) (es : List Event)

theorem evAccepted_frame : ∃ l q r c f,
    ((s.evTaken k e es).evSrcLost k).evOcc = { s with evlog := l, evq := q, regs := r, cpu := c, freeCtr := f } := by
  obtain ⟨q, r, c, f, h⟩ := (evAccepted_writes s k e es).frame
  obtain ⟨l, q', r', hst⟩ := evStored_frame s k e es
  rw [hst] at h
  exact ⟨l, q, r, c, f, h⟩

theorem evAccepted_evlog :
    ((s.evTaken k e es).evSrcLost k).evOcc.evlog = minsert s.evlog (s.reg64 evPage 0x108 % 8192) e := by
  rw [(evAccepted_writes s k e es).evlog, evStored_evlog]

include hs

theorem regsWf_evTaken : (s.evTaken k e es).regsWf := (evTaken_writes s k e es).wf (regsWf_evStored hs k e es)

theorem evAccepted_written : ((s.evTaken k e es).evSrcLost k).evOcc.reg64 evPage 0x108 = (s.reg64 evPage 0x108 + 1) % 2 ^ 64 := by
  have hw := evAccepted_writes s k e es
  have hst := regsWf_evStored hs k e es
  rw [← reg64_evStored hs k e es]
  exact reg64_congr (hw.reg hst (evPage_notMem_acceptKeys (by decide) (by decide)))
    (hw.reg hst (evPage_notMem_acceptKeys (by decide) (by decide)))

theorem evAccepted_consumed : ((s.evTaken k e es).evSrcLost k).evOcc.reg64 evPage 0x110 = s.reg64 evPage 0x110 := by
  have hw := evAccepted_writes s k e es
  have hst := regsWf_evStored hs k e es
  refine (reg64_congr (hw.reg hst (evPage_notMem_acceptKeys ?_ ?_)) (hw.reg hst (evPage_notMem_acceptKeys ?_ ?_))).trans
    (reg64_congr (reg_evStored hs k e es ?_ ?_) (reg_evStored hs k e es ?_ ?_)) <;> decide

theorem evAccepted_drop : ((s.evTaken k e es).evSrcLost k).evOcc.fld evPage Reg.EV_DROP_COUNT =
    if 8192 ≤ s.reg64 evPage 0x108 ∧ s.reg64 evPage 0x110 ≤ s.reg64 evPage 0x108 - 8192 then
      min (s.fld evPage Reg.EV_DROP_COUNT + 1) (2 ^ 32 - 1)
    else s.fld evPage Reg.EV_DROP_COUNT := by
  have ht := regsWf_evTaken hs k e es
  have hl := evSrcLost_writes (s.evTaken k e es) k
  rw [← fld_evTaken hs k e es]
  refine fld_congr (((evOcc_writes _).reg (hl.wf ht) ?_).trans (hl.reg ht ?_)) <;>
    exact evPage_notMem_bumpKeys (by decide) (by decide) (by decide) (by decide)

theorem evAccepted_srcDrop (hr : rising s.evq = true) {code : Nat} (hc : code ≠ 0x16) (pd : PD) (inst : Fin 64)
    (hk : k = srcKey code pd.val inst.val) :
    srcQueue ((s.evTaken k e es).evSrcLost k).evOcc k = { q := es, lost := 0 } ∧
    ((s.evTaken k e es).evSrcLost k).evOcc.fld evPage Reg.EV_SRC_DROP_COUNT =
      min (s.fld evPage Reg.EV_SRC_DROP_COUNT + (srcQueue s k).lost.toNat) (2 ^ 32 - 1) := by
  subst hk
  have ht := regsWf_evTaken hs (srcKey code pd.val inst.val) e es
  have hl := evSrcLost_writes (s.evTaken (srcKey code pd.val inst.val) e es) (srcKey code pd.val inst.val)
  have hq := srcQueue_evTaken hr hc pd inst e es
  have hfld : (s.evTaken (srcKey code pd.val inst.val) e es).fld evPage Reg.EV_SRC_DROP_COUNT =
      s.fld evPage Reg.EV_SRC_DROP_COUNT :=
    fld_congr (((evTaken_writes s _ e es).reg (regsWf_evStored hs _ e es)
      (evPage_notMem_bumpKeys (by decide) (by decide) (by decide) (by decide))).trans
      (reg_evStored hs _ e es (by decide) (by decide)))
  constructor
  · rw [(evOcc_writes _).srcQueue_eq, srcQueue_evSrcLost (rising_evTaken hr _ e es), hq]
  · have hocc := fld_congr (f := Reg.EV_SRC_DROP_COUNT) (i := 0) ((evOcc_writes _).reg (hl.wf ht)
      (evPage_notMem_bumpKeys (by decide) (by decide) (by decide) (by decide)))
    rw [hocc, fld_evSrcLost ht, hfld, hq]

theorem evAccepted_occ : ((s.evTaken k e es).evSrcLost k).evOcc.fld evPage Reg.EV_STAT_OCC =
    min 8192 ((s.reg64 evPage 0x108 + 1) % 2 ^ 64 - s.reg64 evPage 0x110) := by
  have hl := (evSrcLost_writes (s.evTaken k e es) k).wf (regsWf_evTaken hs k e es)
  have ho := evOcc_writes ((s.evTaken k e es).evSrcLost k)
  have hsame {lo : Nat} (h : lo = 0x108 ∨ lo = 0x110) :
      ((s.evTaken k e es).evSrcLost k).evOcc.reg64 evPage lo = ((s.evTaken k e es).evSrcLost k).reg64 evPage lo := by
    refine reg64_congr (ho.reg hl (evPage_notMem_bumpKeys ?_ ?_ ?_ ?_)) (ho.reg hl (evPage_notMem_bumpKeys ?_ ?_ ?_ ?_)) <;>
      obtain rfl | rfl := h <;> decide
  rw [fld_evOcc hl, State.evOccupied, ← hsame (.inl rfl), ← hsame (.inr rfl), evAccepted_written hs, evAccepted_consumed hs]

end
end Sys2Proof.Machine
end

section
/-!
SUPPORT. A fetch from the event log: EV_RD_SEQ is committed, EV_RD_STAT and EV_ENTRY answer (R47, R547).
-/
open Sys2Proof.Claims

namespace Sys2Proof.Machine

/-! Flags. -/

theorem flag_setFlag_same {s : State} (h : s.regsWf) (p : Page) {f : RegField} (hf : f.lo + f.w ≤ 32) (hw : 0 < f.w) (b : Bool) :
    (s.setFlag p f b).flag p f = b := by
  have hlt : b2n b < 2 ^ f.w :=
    lt_of_lt_of_le (by cases b <;> decide : b2n b < 2 ^ 1) (Nat.pow_le_pow_right (by decide) hw)
  rw [State.flag, State.setFlag, fld_setFld_same h p f hf, Nat.mod_eq_of_lt hlt]
  cases b <;> rfl

theorem flag_setFlag_of_disjoint {s : State} (h : s.regsWf) {p q : Page} {f g : RegField} (hf : f.lo + f.w ≤ 32)
    (hd : g.lo + g.w ≤ f.lo ∨ f.lo + f.w ≤ g.lo) (b : Bool) : (s.setFlag p f b).flag q g = s.flag q g := by
  rw [State.flag, State.setFlag, fld_setFld_of_disjoint h hf (.inr hd), State.flag]

theorem regsWf_setFlag {s : State} (h : s.regsWf) (p : Page) (f : RegField) (b : Bool) : (s.setFlag p f b).regsWf :=
  regsWf_setFld h p f _ 0

theorem reg_setFlag_of_ne {s : State} (h : s.regsWf) {p q : Page} {f : RegField} {off : Nat} (hk : regKey q off ≠ regKey p f.off)
    (b : Bool) : (s.setFlag p f b).reg q off = s.reg q off :=
  reg_setFld_of_ne (i := 0) h (by simpa using hk) _

/-! EV_RD_STAT and EV_ENTRY. -/

/-- EV_RD_STAT with its three bits. -/
def State.readStat (s : State) (valid gone notYet : Bool) : State :=
  ((s.setFlag evPage Reg.EV_RD_STAT_VALID valid).setFlag evPage Reg.EV_RD_STAT_GONE gone).setFlag evPage Reg.EV_RD_STAT_NOT_YET notYet

theorem fetchIs_readStat {s : State} (h : s.regsWf) (v g y : Bool) : FetchIs (s.readStat v g y) v g y := by
  have h1 := regsWf_setFlag h evPage Reg.EV_RD_STAT_VALID v
  have h2 := regsWf_setFlag h1 evPage Reg.EV_RD_STAT_GONE g
  refine ⟨?_, ?_, flag_setFlag_same h2 evPage (by decide) (by decide) y⟩
  · rw [State.readStat, flag_setFlag_of_disjoint h2 (by decide) (by decide), flag_setFlag_of_disjoint h1 (by decide) (by decide),
      flag_setFlag_same h evPage (by decide) (by decide)]
  · rw [State.readStat, flag_setFlag_of_disjoint h2 (by decide) (by decide), flag_setFlag_same h1 evPage (by decide) (by decide)]

theorem regsWf_readStat {s : State} (h : s.regsWf) (v g y : Bool) : (s.readStat v g y).regsWf :=
  regsWf_setFlag (regsWf_setFlag (regsWf_setFlag h _ _ _) _ _ _) _ _ _

theorem reg_readStat {s : State} (h : s.regsWf) {off : Nat} (hne : off ≠ 0x128) (v g y : Bool) :
    (s.readStat v g y).reg evPage off = s.reg evPage off := by
  have hk : regKey evPage off ≠ regKey evPage 0x128 := regKey_off_ne hne
  have h1 := regsWf_setFlag h evPage Reg.EV_RD_STAT_VALID v
  rw [State.readStat, reg_setFlag_of_ne (regsWf_setFlag h1 _ _ _) hk, reg_setFlag_of_ne h1 hk, reg_setFlag_of_ne h hk]

theorem setFlag_frame (s : State) (p : Page) (f : RegField) (b : Bool) : ∃ r, s.setFlag p f b = { s with regs := r } := ⟨_, rfl⟩

theorem readStat_frame (s : State) (v g y : Bool) : ∃ r, s.readStat v g y = { s with regs := r } := by
  obtain ⟨r1, h1⟩ := setFlag_frame s evPage Reg.EV_RD_STAT_VALID v
  obtain ⟨r2, h2⟩ := setFlag_frame { s with regs := r1 } evPage Reg.EV_RD_STAT_GONE g
  rw [State.readStat, h1, h2]
  exact setFlag_frame { s with regs := r2 } evPage Reg.EV_RD_STAT_NOT_YET y

/-- The first n words of an entry are shown in EV_ENTRY. -/
def State.showEntry (s : State) (e : Event) (n : Nat) : State :=
  (List.range n).foldl (fun (t : State) i => t.setReg evPage (0x140 + 4 * i) (BitVec.ofNat 32 (e.bits / 2 ^ (32 * i)))) s

theorem showEntry_succ (s : State) (e : Event) (n : Nat) : s.showEntry e (n + 1) =
    (s.showEntry e n).setReg evPage (0x140 + 4 * n) (BitVec.ofNat 32 (e.bits / 2 ^ (32 * n))) := by
  rw [State.showEntry, List.range_succ, List.foldl_append]
  rfl

theorem showEntry_frame (s : State) (e : Event) (n : Nat) : ∃ r, s.showEntry e n = { s with regs := r } := by
  induction n with
  | zero => exact ⟨_, rfl⟩
  | succ n ih =>
    obtain ⟨r, hr⟩ := ih
    rw [showEntry_succ, hr]
    exact ⟨_, rfl⟩

theorem regsWf_showEntry {s : State} (h : s.regsWf) (e : Event) (n : Nat) : (s.showEntry e n).regsWf := by
  induction n with
  | zero => exact h
  | succ n ih =>
    rw [showEntry_succ]
    exact regsWf_setReg ih _ _ _

theorem reg_showEntry_below {s : State} (h : s.regsWf) (e : Event) (n : Nat) {off : Nat} (hoff : off < 0x140) :
    (s.showEntry e n).reg evPage off = s.reg evPage off := by
  induction n with
  | zero => rfl
  | succ n ih => rw [showEntry_succ, reg_setReg (regsWf_showEntry h e n), if_neg (regKey_off_ne (by omega)), ih]

theorem reg_showEntry {s : State} (h : s.regsWf) (e : Event) {n i : Nat} (hi : i < n) :
    (s.showEntry e n).reg evPage (0x140 + 4 * i) = BitVec.ofNat 32 (e.bits / 2 ^ (32 * i)) := by
  induction n with
  | zero => exact absurd hi (Nat.not_lt_zero i)
  | succ n ih =>
    rw [showEntry_succ, reg_setReg (regsWf_showEntry h e n)]
    by_cases hin : i = n
    · rw [hin, if_pos rfl]
    · rw [if_neg (regKey_off_ne (by omega)), ih (by omega)]

theorem entry_showEntry {s : State} (h : s.regsWf) (e : Event) {n i : Nat} (hi : i < n) :
    (s.showEntry e n).fld evPage Reg.EV_ENTRY_ENTRY i = e.bits / 2 ^ (32 * i) % 2 ^ 32 := by
  have hreg : (s.showEntry e n).reg evPage (Reg.EV_ENTRY_ENTRY.off + Reg.EV_ENTRY_ENTRY.stride * i) = _ := reg_showEntry h e hi
  rw [State.fld, hreg, BitVec.toNat_ofNat]
  simp [bitsOf, Reg.EV_ENTRY_ENTRY]

theorem fetchIs_congr {s t : State} (h : t.reg evPage 0x128 = s.reg evPage 0x128) {v g y : Bool} (hs : FetchIs s v g y) :
    FetchIs t v g y := by
  have hf {f : RegField} (ho : f.off = 0x128) : t.flag evPage f = s.flag evPage f := by
    rw [State.flag, State.flag, State.fld, State.fld, Nat.mul_zero, Nat.add_zero, ho, h]
  obtain ⟨hv, hg, hy⟩ := hs
  exact ⟨(hf rfl).trans hv, (hf rfl).trans hg, (hf rfl).trans hy⟩

/-! The fetch. -/

theorem evFetch_notYet {s : State} (h : s.reg64 evPage 0x108 ≤ s.reg64 evPage 0x120) : s.evFetch = s.readStat false false true := by
  rw [State.evFetch]
  exact if_pos h

theorem evFetch_gone {s : State} (h : s.reg64 evPage 0x120 + 8192 < s.reg64 evPage 0x108) :
    s.evFetch = s.readStat false true false := by
  rw [State.evFetch]
  exact (if_neg (by omega)).trans (if_pos h)

theorem evFetch_entry {s : State} (h : s.reg64 evPage 0x120 < s.reg64 evPage 0x108)
    (h' : s.reg64 evPage 0x108 ≤ s.reg64 evPage 0x120 + 8192) {e : Event}
    (he : s.evlog.lookup (s.reg64 evPage 0x120 % 8192) = some e) : s.evFetch = (s.readStat true false false).showEntry e 8 := by
  rw [State.evFetch]
  refine (if_neg (by omega)).trans ((if_neg (by omega)).trans ?_)
  rw [he]
  rfl

theorem storedWord_pair {f g : RegField} (hfo : f.own = false) (hfa : f.acc = .rw) (hgo : g.own = false) (hga : g.acc = .rw)
    (old v : Nat) : storedWord [f, g] old v = withBits (withBits old f.lo f.w (f.get v)) g.lo g.w (g.get v) := by
  simp [storedWord, RegField.writable, hfo, hfa, hgo, hga, written_rw]

/-- EV_RD_SEQ holds what is written to it. -/
theorem storedWord_rdSeq {old n : Nat} (ho : old < 2 ^ 64) (hn : n < 2 ^ 64) : storedWord (regFields .evlog 0x120 true) old n = n := by
  have hfs : regFields .evlog 0x120 true = [Reg.EV_RD_SEQ_LO_SEQ, { Reg.EV_RD_SEQ_HI_SEQ with lo := 32 }] := by decide
  have hst : storedWord (regFields .evlog 0x120 true) old n = withBits (withBits old 0 32 (bitsOf n 0 32)) 32 32 (bitsOf n 32 32) := by
    rw [hfs]
    exact storedWord_pair rfl rfl rfl rfl old n
  rw [hst]
  refine Nat.eq_of_testBit_eq fun i => ?_
  rw [testBit_withBits, testBit_withBits, testBit_bitsOf, testBit_bitsOf]
  by_cases h1 : i < 32
  · simp [h1]
  · by_cases h2 : i < 64
    · have h3 : 32 ≤ i := by omega
      have h4 : i - 32 < 32 := by omega
      simp [h2, h3, h4]
    · have hbig {x : Nat} (hx : x < 2 ^ 64) : x.testBit i = false :=
        Nat.testBit_lt_two_pow (lt_of_lt_of_le hx (Nat.pow_le_pow_right (by decide) (by omega)))
      simp [h1, h2, hbig ho, hbig hn]

theorem actEvlog_eq (s : State) (off : Nat) :
    s.actEvlog off = if off = 0x110 then s.evOcc else if off = 0x120 then s.evFetch else s := by
  unfold State.actEvlog
  split <;> simp_all

theorem regAct_rdSeq (s : State) (who : Requester) (old v : Nat) (err : TierFail) :
    s.regAct who evPage 0x120 old v err = s.evFetch := by
  have hb : evPage.blk = .evlog := rfl
  rw [State.regAct, hb]
  exact (actEvlog_eq s 0x120).trans ((if_neg (by decide)).trans (if_pos rfl))

theorem regWrite_rdSeq (s : State) (who : Requester) {n : Nat} (hn : n < 2 ^ 64) (err : TierFail) :
    s.regWrite who evPage 0x120 true n err = (true, (s.setReg64 evPage 0x120 n).evFetch) := by
  have hres : s.reservedWrite evPage 0x120 (regFields evPage.blk 0x120 true) n = false := by
    have hall : ∀ f ∈ regFields evPage.blk 0x120 true, f.ok = [] := by decide
    simp only [State.reservedWrite, Bool.or_eq_false_iff]
    refine ⟨List.any_eq_false.mpr fun f hf => ?_, rfl⟩
    simp [RegField.permits, hall f hf]
  have hany : ((regFields evPage.blk 0x120 true).any fun f => f.writable) = true := by decide
  rw [regWrite_plain (by decide) hres, hany, Bool.or_true, if_pos rfl]
  have hst : s.storeFields evPage 0x120 true (regFields evPage.blk 0x120 true) n = s.setReg64 evPage 0x120 n := by
    rw [State.storeFields, if_pos rfl, show evPage.blk = .evlog from rfl, storedWord_rdSeq (reg64_lt s evPage 0x120) hn]
  rw [hst, regAct_rdSeq]

/-- A write of the high half reaches the log in the state in which it has arrived. -/
theorem busWrite_rdSeq {s : State} (hr : s.regsWf) (hp : mwf (fun _ => ({} : PageSt)) s.pages = true)
    (hacc : s.accessible evPage = true) (who : Requester) (hi : Word) :
    s.busWrite who evPage 0x124 hi = (s.arrived evPage who).hiWrite who evPage 0x120 hi .none := by
  rw [busWrite_block rfl (present_of_accessible hacc) (by decide) rfl, State.blockWrite, accessible_arrived hr hp, hacc]
  rfl

/-- EV_RD_SEQ is committed by the requester that staged its low half. -/
theorem hiWrite_rdSeq_staged {s : State} {who : Requester} {lo : Word} (h : s.stagedAt evPage 0x120 = some ⟨0x120, lo, some who⟩)
    (hi : Word) (err : TierFail) : s.hiWrite who evPage 0x120 hi err =
      (s.setReg64 evPage 0x120 (lo.toNat + hi.toNat * 2 ^ 32)).evFetch.setStaged evPage 0x120 none := by
  have hlt : lo.toNat + hi.toNat * 2 ^ 32 < 2 ^ 64 := by
    have := lo.isLt; have := hi.isLt
    omega
  rw [State.hiWrite, h]
  simp only [if_true]
  rw [regWrite_rdSeq s who hlt]
  rfl

/-- With nothing staged EV_RD_SEQ is committed over the low half as it stands. -/
theorem hiWrite_rdSeq_unstaged {s : State} (h : s.stagedAt evPage 0x120 = none) (who : Requester) (hi : Word) (err : TierFail) :
    s.hiWrite who evPage 0x120 hi err = (s.setReg64 evPage 0x120 ((s.reg evPage 0x120).toNat + hi.toNat * 2 ^ 32)).evFetch := by
  have hlt : (s.reg evPage 0x120).toNat + hi.toNat * 2 ^ 32 < 2 ^ 64 := by
    have := (s.reg evPage 0x120).isLt; have := hi.isLt
    omega
  have hlive : s.liveWord who evPage 0x120 = (s.reg evPage 0x120).toNat := rfl
  rw [State.hiWrite, h]
  simp only [hlive]
  rw [regWrite_rdSeq s who hlt]

theorem setReg64_frame (s : State) (p : Page) (lo v : Nat) : ∃ r, s.setReg64 p lo v = { s with regs := r } := ⟨_, rfl⟩

/-- The log as a fetch of entry n finds it. -/
def State.fetching (s : State) (who : Requester) (n : Nat) : State := (s.arrived evPage who).setReg64 evPage 0x120 n

section
variable {s : State} (hs : s.regsWf) (who : Requester) (n : Nat)

theorem fetching_frame : ∃ r q, s.fetching who n = { s with regs := r, pages := q } := by
  obtain ⟨r, hr⟩ := setReg64_frame (s.arrived evPage who) evPage 0x120 n
  obtain ⟨r', q, ha⟩ : ∃ r q, s.arrived evPage who = { s with regs := r, pages := q } := ⟨_, _, arrived_eq s evPage who⟩
  rw [ha] at hr
  exact ⟨r, q, by rw [State.fetching, ha, hr]⟩

include hs

theorem regsWf_fetching : (s.fetching who n).regsWf := regsWf_setReg64 (regsWf_arrived hs _ _) _ _ _

theorem reg_fetching {off : Nat} (ho : off < 4096) (hoff : off ∉ [0x01C, 0x120, 0x124]) :
    (s.fetching who n).reg evPage off = s.reg evPage off := by
  simp only [List.mem_cons, List.not_mem_nil, or_false, not_or] at hoff
  obtain ⟨hsync, hlo, hhi⟩ := hoff
  rw [State.fetching, reg_setReg64_of_ne (regsWf_arrived hs _ _) (regKey_off_ne hlo) (regKey_off_ne hhi),
    reg_arrived_of_off hs _ _ ho hsync]

theorem rdSeq_fetching (hn : n < 2 ^ 64) : (s.fetching who n).reg64 evPage 0x120 = n := by
  rw [State.fetching, reg64_setReg64_same (regsWf_arrived hs _ _), Nat.mod_eq_of_lt hn]

theorem written_fetching : (s.fetching who n).reg64 evPage 0x108 = s.reg64 evPage 0x108 :=
  reg64_congr (reg_fetching hs who n (by decide) (by decide)) (reg_fetching hs who n (by decide) (by decide))

end

/-! What a fetch leaves. -/

theorem readStat_frame_of_fetching {s : State} (who : Requester) (n : Nat) (v g y : Bool) :
    ∃ r q, (s.fetching who n).readStat v g y = { s with regs := r, pages := q } := by
  obtain ⟨r, q, hf⟩ := fetching_frame (s := s) who n
  rw [hf]
  obtain ⟨r', hr⟩ := readStat_frame { s with regs := r, pages := q } v g y
  exact ⟨r', q, hr⟩

theorem setStaged_frame (s : State) (p : Page) (off : Nat) (x : Option Staged) : ∃ q, s.setStaged p off x = { s with pages := q } :=
  ⟨_, rfl⟩

/-- The end of a commit changes no register. -/
theorem reg_setStaged (s : State) (p q : Page) (off o : Nat) (x : Option Staged) : (s.setStaged p off x).reg q o = s.reg q o := rfl

/-- A command changes registers and the states of pages alone. -/
def PagesOnly (s t : State) : Prop := ∃ r q, t = { s with regs := r, pages := q }

theorem PagesOnly.eq {s t : State} (h : PagesOnly s t) : t = { s with regs := t.regs, pages := t.pages } := by
  obtain ⟨r, q, rfl⟩ := h
  rfl

theorem PagesOnly.setStaged {s t : State} (h : PagesOnly s t) (p : Page) (off : Nat) (x : Option Staged) :
    PagesOnly s (t.setStaged p off x) := by
  obtain ⟨r, q, rfl⟩ := h
  obtain ⟨q', hq⟩ := setStaged_frame { s with regs := r, pages := q } p off x
  exact ⟨r, q', hq⟩

/-- What a fetch leaves in EV_RD_STAT and EV_ENTRY: an entry, or none with EV_ENTRY as it was. -/
structure Fetched (s t : State) (v g y : Bool) (e : Option Event) : Prop where
  stat : FetchIs t v g y
  entry : ∀ i, i < 8 → t.fld evPage Reg.EV_ENTRY_ENTRY i =
    match e with
    | some e => e.bits / 2 ^ (32 * i) % 2 ^ 32
    | none => s.fld evPage Reg.EV_ENTRY_ENTRY i
  frame : PagesOnly s t

theorem Fetched.setStaged {s t : State} {v g y : Bool} {e : Option Event} (h : Fetched s t v g y e) (x : Option Staged) :
    Fetched s (t.setStaged evPage 0x120 x) v g y e :=
  ⟨fetchIs_congr (reg_setStaged t evPage evPage 0x120 _ x) h.stat, h.entry, h.frame.setStaged evPage 0x120 x⟩

section
variable {s : State} (hs : s.regsWf) (who : Requester) {n : Nat} (hn : n < 2 ^ 64)
include hs

theorem fetched_readStat (v g y : Bool) : Fetched s ((s.fetching who n).readStat v g y) v g y none where
  stat := fetchIs_readStat (regsWf_fetching hs who n) v g y
  entry i hi := by
    have hoff : Reg.EV_ENTRY_ENTRY.off + Reg.EV_ENTRY_ENTRY.stride * i = 0x140 + 4 * i := rfl
    refine fld_congr ?_
    rw [hoff, reg_readStat (regsWf_fetching hs who n) (by omega)]
    refine reg_fetching hs who n (by omega) ?_
    simp only [List.mem_cons, List.not_mem_nil, or_false]
    omega
  frame := readStat_frame_of_fetching who n v g y

theorem fetched_showEntry (e : Event) :
    Fetched s (((s.fetching who n).readStat true false false).showEntry e 8) true false false (some e) where
  stat := by
    have hw := regsWf_readStat (regsWf_fetching hs who n) true false false
    exact fetchIs_congr (reg_showEntry_below hw e 8 (by decide)) (fetchIs_readStat (regsWf_fetching hs who n) true false false)
  entry i hi := entry_showEntry (regsWf_readStat (regsWf_fetching hs who n) true false false) e hi
  frame := by
    obtain ⟨r, q, hf⟩ := readStat_frame_of_fetching (s := s) who n true false false
    rw [hf]
    obtain ⟨r', hr⟩ := showEntry_frame { s with regs := r, pages := q } e 8
    exact ⟨r', q, hr⟩

include hn

theorem fetched_notYet (h : s.reg64 evPage 0x108 ≤ n) : Fetched s (s.fetching who n).evFetch false false true none := by
  rw [evFetch_notYet (by rw [written_fetching hs, rdSeq_fetching hs who n hn]; exact h)]
  exact fetched_readStat hs who false false true

theorem fetched_gone (h : n + 8192 < s.reg64 evPage 0x108) : Fetched s (s.fetching who n).evFetch false true false none := by
  rw [evFetch_gone (by rw [written_fetching hs, rdSeq_fetching hs who n hn]; exact h)]
  exact fetched_readStat hs who false true false

theorem fetched_entry (h : n < s.reg64 evPage 0x108) (h' : s.reg64 evPage 0x108 ≤ n + 8192) {e : Event}
    (he : s.evlog.lookup (n % 8192) = some e) : Fetched s (s.fetching who n).evFetch true false false (some e) := by
  have hlog : (s.fetching who n).evlog = s.evlog := by
    obtain ⟨r, q, hf⟩ := fetching_frame (s := s) who n
    rw [hf]
  have hw := written_fetching hs who n
  have hr := rdSeq_fetching hs who n hn
  rw [evFetch_entry (by rw [hw, hr]; exact h) (by rw [hw, hr]; exact h') (by rw [hlog, hr]; exact he)]
  exact fetched_showEntry hs who e

end

/-- The outcome of an EVENT_FETCH whose low half its requester staged. -/
theorem eventFetch_staged {s : State} (hc : Canon s) {who : Requester} {lo : Word} (hacc : s.accessible evPage = true)
    (hst : s.stagedAt evPage 0x120 = some ⟨0x120, lo, some who⟩) (hi : Word) :
    exec (.eventFetch who hi) s = .next ((s.fetching who (lo.toNat + hi.toNat * 2 ^ 32)).evFetch.setStaged evPage 0x120 none) := by
  have hst' : (s.arrived evPage who).stagedAt evPage 0x120 = some ⟨0x120, lo, some who⟩ := by rw [stagedAt_arrived hc.pages, hst]
  refine congrArg Host.Outcome.next ((busWrite_rdSeq hc.regs hc.pages hacc who hi).trans ?_)
  rw [hiWrite_rdSeq_staged hst', State.fetching]

/-- The outcome of an EVENT_FETCH with nothing staged. -/
theorem eventFetch_unstaged {s : State} (hc : Canon s) (who : Requester) (hacc : s.accessible evPage = true)
    (hst : s.stagedAt evPage 0x120 = none) (hi : Word) :
    exec (.eventFetch who hi) s = .next (s.fetching who ((s.reg evPage 0x120).toNat + hi.toNat * 2 ^ 32)).evFetch := by
  have hst' : (s.arrived evPage who).stagedAt evPage 0x120 = none := by rw [stagedAt_arrived hc.pages, hst]
  refine congrArg Host.Outcome.next ((busWrite_rdSeq hc.regs hc.pages hacc who hi).trans ?_)
  rw [hiWrite_rdSeq_unstaged hst', reg_arrived_of_off hc.regs evPage evPage (by decide) (by decide), State.fetching]

theorem pair_lt (lo hi : Word) : lo.toNat + hi.toNat * 2 ^ 32 < 2 ^ 64 := by
  have := lo.isLt; have := hi.isLt
  omega

end Sys2Proof.Machine

open Sys2Proof Sys2Proof.Machine

/-- Settles O52: the queue of the source, the log's place for the entry, and the fetch by its three answers. -/
theorem eventsQueueLogAndFetch : Obligations.EventsQueueLogAndFetch := by
  intro s hc
  refine ⟨fun p num data => ⟨fun hp => ?_, fun hp => ?_⟩, fun blk pd inst => ⟨fun hq => ?_, fun e es hq => ?_⟩,
    fun who lo hi hacc hst => ⟨fun h => ?_, fun h => ?_, fun h h' e he => ?_⟩, fun who hi _ hst hacc h => ?_⟩
  · refine ⟨s.report p num.toNat data.toNat, ?_, reported_report hc.evq p _ _, rfl⟩
    exact congrArg Host.Outcome.next (if_pos hp)
  · exact congrArg Host.Outcome.next (if_neg (by rw [hp]; decide))
  · exact congrArg Host.Outcome.next (evAccept_nil hq)
  · refine ⟨_, congrArg Host.Outcome.next (evAccept_cons hq), ?_, fun i hi => ?_, evAccepted_written hc.regs _ e es,
      evAccepted_consumed hc.regs _ e es, ?_, evAccepted_drop hc.regs _ e es,
      fun hblk => evAccepted_srcDrop hc.regs _ e es hc.evq hblk pd inst rfl, evAccepted_occ hc.regs _ e es⟩
    · rw [evAccepted_evlog, lookup_minsert, if_pos rfl]
    · rw [evAccepted_evlog, lookup_minsert, if_neg hi]
    · obtain ⟨l, q, r, c, f, h⟩ := evAccepted_frame (s := s) (srcKey blk.toNat pd.val inst.val) e es
      rw [h]
  · have hf := (fetched_notYet hc.regs who (pair_lt lo hi) h).setStaged none
    exact ⟨_, eventFetch_staged hc hacc hst hi, hf.stat, hf.frame.eq, hf.entry⟩
  · have hf := (fetched_gone hc.regs who (pair_lt lo hi) h).setStaged none
    exact ⟨_, eventFetch_staged hc hacc hst hi, hf.stat, hf.frame.eq⟩
  · have hf := (fetched_entry hc.regs who (pair_lt lo hi) h h' he).setStaged none
    exact ⟨_, eventFetch_staged hc hacc hst hi, hf.stat, hf.entry, hf.frame.eq⟩
  · have hf := fetched_notYet hc.regs who (pair_lt (s.reg evPage 0x120) hi) h
    exact ⟨_, eventFetch_unstaged hc who hacc hst hi, hf.stat, hf.frame.eq⟩
end

section
/-!
SUPPORT. The Turnstiles at a replay (R533, R534): the snapshot of beat 0 takes their place as it stands.
-/
namespace Sys2Proof.Machine

/-- What every step of a fold keeps, the fold keeps. -/
theorem foldl_keeps {α β : Type} {f : State → α → State} {g : State → β} (h : ∀ s a, g (f s a) = g s) (l : List α)
    (s : State) :
    g (l.foldl f s) = g s := by
  induction l generalizing s with
  | nil => rfl
  | cons a l ih => rw [List.foldl_cons, ih, h]

@[simp] theorem setFld_ts (s : State) (p : Page) (f : RegField) (v i : Nat) : (s.setFld p f v i).ts = s.ts := rfl

@[simp] theorem setFld_sched (s : State) (p : Page) (f : RegField) (v i : Nat) : (s.setFld p f v i).sched = s.sched := rfl

@[simp] theorem report_ts (s : State) (p : Page) (num data : Nat) (dev : Bool) (beat : Option Nat) :
    (s.report p num data dev beat).ts = s.ts := rfl

@[simp] theorem report_sched (s : State) (p : Page) (num data : Nat) (dev : Bool) (beat : Option Nat) :
    (s.report p num data dev beat).sched = s.sched := rfl

@[simp] theorem setJp_ts (s : State) (f : RegField) (v : Nat) : (s.setJp f v).ts = s.ts := by
  rw [State.setJp]
  apply foldl_keeps (g := State.ts)
  simp

@[simp] theorem setJp_sched (s : State) (f : RegField) (v : Nat) : (s.setJp f v).sched = s.sched := by
  rw [State.setJp]
  apply foldl_keeps (g := State.sched)
  simp

@[simp] theorem holdOver_ts (s : State) (v : Nat) : (s.holdOver v).ts = s.ts := by
  rw [State.holdOver, setFld_ts, setJp_ts]

@[simp] theorem holdOver_sched (s : State) (v : Nat) : (s.holdOver v).sched = s.sched := by
  rw [State.holdOver, setFld_sched, setJp_sched]

@[simp] theorem setOutcome_ts (s : State) (pd : PD) (mc : MC) (v : Nat) : (s.setOutcome pd mc v).ts = s.ts :=
  setFld_ts s _ _ _ _

@[simp] theorem outcomesDone_ts (s : State) : s.outcomesDone.ts = s.ts := by
  rw [State.outcomesDone]
  apply foldl_keeps (g := State.ts)
  exact fun u c => setOutcome_ts u c.1 c.2 1

/-- Without an image no core is restored, and the Turnstiles are those of the snapshot. -/
theorem restoreStep_cells {s : State} (h : s.sched.image = none) : s.restoreStep.ts.cells = s.ts.snap := by
  simp [State.restoreStep, State.restoreTurnstiles, State.dropCaptures, State.eachCore, State.progCores, State.emptyMvr,
    State.usedDies, h]

/-- RESUME with DECISION REPLAY puts the snapshot in place of the Turnstiles. -/
theorem resume_replay_cells {s : State} (hs : s.sched.state = .held) (hi : s.sched.image = none)
    (code attempt cats m t0 : Nat) : (s.resume 0 code attempt cats m t0).ts.cells = s.ts.snap := by
  simp only [State.resume, hs, ne_eq, not_true_eq_false, if_false, State.setSched, outcomesDone_ts]
  rw [restoreStep_cells, holdOver_ts, report_ts]
  rw [holdOver_sched, report_sched, hi]

@[simp] theorem sendToks_ts (s : State) (ns : List Nat) (t : Tok) : (s.sendToks ns t).ts = s.ts := by
  rw [State.sendToks]
  apply foldl_keeps (g := State.ts)
  intros; rfl

@[simp] theorem sendToks_sched (s : State) (ns : List Nat) (t : Tok) : (s.sendToks ns t).sched = s.sched := by
  rw [State.sendToks]
  apply foldl_keeps (g := State.sched)
  intros; rfl

/-- A first RESUME token with DECISION REPLAY that comes in on an active port of a held device without an image. -/
theorem resumeReplay_cells {s : State} {port : JPort} {hdr : TokHdr} (hs : s.sched.state = .held) (hi : s.sched.image = none)
    (hport : s.jpState port.val = 5) (hpart : hdr.partId = s.reg jp0 0x118) (hseen : s.jal.seen = []) (attempt : Byte) (t0 : DWord) :
    ∃ t, exec (.resumeReplay port hdr attempt t0) s = .next t ∧ t.ts.cells = s.ts.snap := by
  refine ⟨_, rfl, ?_⟩
  simp only [State.resumeIn, State.tokenOk, State.floodIn, hport, hpart, hseen, ne_eq, not_true_eq_false, false_and, if_false,
    Bool.not_true, Bool.false_eq_true, List.contains_nil, if_true]
  rw [show BitVec.toNat (0 : Byte) = 0 from rfl, resume_replay_cells, sendToks_ts]
  · rw [sendToks_sched, hs]
  · rw [sendToks_sched, hi]

/-- A held device with no image and one active port, whose beat-0 snapshot does not list its keys in rising order: Canon asks
that of the live Turnstiles alone. -/
def heldUnsorted : State := State.setJpState { sched := { state := .held }, ts := { snap := [(1, {}), (0, {})] } } 0 5

theorem regsWf_setJpState {s : State} (h : s.regsWf) (n v : Nat) : (s.setJpState n v).regsWf := regsWf_setFld h _ _ _ _

theorem regsWf_heldUnsorted : heldUnsorted.regsWf := by
  rw [heldUnsorted]
  exact regsWf_setJpState (by rfl) 0 5

theorem canon_heldUnsorted (cs : List Instr) : Canon { heldUnsorted with pending := cs } := by
  constructor
  case regs =>
    dsimp only
    exact regsWf_heldUnsorted
  all_goals rfl

theorem step_cons (s : State) (c : Instr) (cs : List Instr) :
    step { s with pending := c :: cs } = exec c { s with pending := cs } := rfl

end Sys2Proof.Machine

open Sys2Proof Sys2Proof.Machine

/-- Refutes O5: Canon says nothing of the beat-0 snapshot of the Turnstiles, and RESUME_REPLAY puts that snapshot in their place.
The held state `heldUnsorted` is canonical with keys 1, 0 in its snapshot, and after the command the Turnstiles list 1 before 0.
(The refuted statement is about every canonical state; no run from reset is claimed to reach this one.) -/
theorem not_stepsKeepCanonicalForm : ¬ Obligations.StepsKeepCanonicalForm := by
  intro h
  obtain ⟨t, ht, hcells⟩ := resumeReplay_cells (s := { heldUnsorted with pending := [] }) (port := 0) (hdr := ⟨0, 0, 0, 0⟩) rfl rfl
    (by decide) (by decide) rfl 1 0
  have hrise := (h { heldUnsorted with pending := [.resumeReplay 0 ⟨0, 0, 0, 0⟩ 1 0] } t (canon_heldUnsorted _)
    ((step_cons _ _ _).trans ht)).cells
  rw [hcells] at hrise
  exact absurd hrise (by decide)
end

section
/-!
SUPPORT. The states of pages, and what an arrived write finds of its page: the lock, the header and what a block discards
(R47, R56 to R64).
-/
namespace Sys2Proof.Machine

/-! States of pages. -/

/-- The states of pages are in canonical form: the part of Canon that reads and writes of them rest on. -/
abbrev State.pagesWf (s : State) : Prop := mwf (fun _ => ({} : PageSt)) s.pages = true

theorem page_setPage_same {s : State} (h : s.pagesWf) (p : Page) (x : PageSt) : (s.setPage p x).page p = x := by
  rw [page_setPage h, if_pos rfl]

theorem pagesWf_setPage {s : State} (h : s.pagesWf) (p : Page) (x : PageSt) : (s.setPage p x).pagesWf := mwf_mput h _ _

/-- A page that is not in its reset state reads back in any state. -/
theorem page_setPage_of_ne (s : State) (p : Page) {x : PageSt} (hx : x ≠ {}) : (s.setPage p x).page p = x := by
  have hput : mput (fun _ => ({} : PageSt)) s.pages (pageKey p) x = minsert s.pages (pageKey p) x := if_neg hx
  rw [State.page, State.setPage, hput, mget_minsert, if_pos rfl]

theorem page_setLock {s : State} (h : s.pagesWf) (p : Page) (l : Lock) : (s.setLock p l).page p = { s.page p with lock := l } :=
  page_setPage_same h p _

theorem page_setLock_of_ne {s : State} (h : s.pagesWf) {p q : Page} (hk : pageKey q ≠ pageKey p) (l : Lock) :
    (s.setLock p l).page q = s.page q := by
  rw [State.setLock, page_setPage h, if_neg hk]

theorem pagesWf_arrived {s : State} (h : s.pagesWf) (p : Page) (who : Requester) : (s.arrived p who).pagesWf := by
  unfold State.arrived State.disarm
  split
  · exact pagesWf_setPage (s := s.countWrite p) h p _
  · exact h

/-- The write of a requester that has not armed the lock leaves the page as it is. -/
theorem page_arrived_of_lock_ne {s : State} {p : Page} {who : Requester} (h : (s.page p).lock ≠ .armed who) (q : Page) :
    (s.arrived p who).page q = s.page q := by
  have hlock : ((s.countWrite p).page p).lock ≠ .armed who := h
  rw [State.arrived, State.disarm, if_neg hlock]
  rfl

/-! What a block discards. -/

theorem leadPd_arrived (s : State) (p : Page) (who : Requester) : (s.arrived p who).leadPd = s.leadPd := by
  rw [arrived_eq]
  rfl

theorem sched_arrived (s : State) (p : Page) (who : Requester) : (s.arrived p who).sched = s.sched := by
  rw [arrived_eq]

theorem ringState_arrived {s : State} (h : s.regsWf) (p : Page) (who : Requester) (r : Nat) :
    (s.arrived p who).ringState r = s.ringState r :=
  fld_congr (reg_arrived_of_off h p (ringPage r) (by decide) (by decide) who)

/-- What a block discards does not depend on the arrival of the write. -/
theorem discards_arrived {s : State} (h : s.regsWf) (p q : Page) (who : Requester) (off : Nat) :
    (s.arrived p who).discards q off = s.discards q off := by
  simp only [State.discards, State.ringFixed, leadPd_arrived, sched_arrived, ringState_arrived h]

/-! Writes of the header and of the lock. -/

theorem busWrite_lock {s : State} {p : Page} (hn : normPage p = p) (hp : s.present p = true) (hro : readOnlyPage p.blk = false)
    (who : Requester) (v : Word) : s.busWrite who p 0x040 v = (s.countWrite p).lockWrite p who v := by
  simp [State.busWrite, hn, hp, hro]

theorem busWrite_header {s : State} {p : Page} {off : Nat} (hn : normPage p = p) (hp : s.present p = true)
    (hro : readOnlyPage p.blk = false) (ho : off < 0x100) (hl : off ≠ 0x040) (who : Requester) (v : Word) :
    s.busWrite who p off v = (s.arrived p who).headerWrite p who off v := by
  simp [State.busWrite, hn, hp, hro, ho, hl, State.arrived]

/-- The lock that a write of BLK_LOCK leaves (R64). -/
def Lock.next (l : Lock) (who : Requester) (v : Word) : Lock :=
  if v = 0x5EED then .armed who else if v = 0x0B1A ∧ l = .armed who then .unlocked who else .locked

theorem lockWrite_eq (s : State) (p : Page) (who : Requester) (v : Word) :
    s.lockWrite p who v = s.setLock p ((s.page p).lock.next who v) := by
  have hkey (k : Word) : v.toNat = k.toNat ↔ v = k := ⟨BitVec.eq_of_toNat_eq, congrArg _⟩
  have h1 : v.toNat = 0x5EED ↔ v = 0x5EED := hkey 0x5EED
  have h2 : v.toNat = 0x0B1A ↔ v = 0x0B1A := hkey 0x0B1A
  simp only [State.lockWrite, Lock.next, h1, h2, apply_ite (s.setLock p)]

/-- What a write of BLK_LOCK leaves of the machine: its lock and the count of writes, and nothing else changed. -/
theorem blkLockWrite_next {s : State} {p : Page} (hn : normPage p = p) (hp : s.present p = true) (hro : readOnlyPage p.blk = false)
    (who : Requester) (v : Word) :
    exec (.blkLockWrite who p v) s = .next ((s.countWrite p).setLock p ((s.page p).lock.next who v)) :=
  congrArg Host.Outcome.next ((busWrite_lock hn hp hro who v).trans (lockWrite_eq _ p who v))

theorem lock_setLock_countWrite {s : State} (h : s.pagesWf) (p : Page) (l : Lock) :
    ((((s.countWrite p).setLock p l)).page p).lock = l := by
  rw [page_setLock (s := s.countWrite p) h]

theorem fld_countWrite {s : State} (h : s.regsWf) (p : Page) :
    (s.countWrite p).fld p Reg.BLK_SYNC_WRITE_COUNT = (s.fld p Reg.BLK_SYNC_WRITE_COUNT + 1) % 2 ^ 31 := by
  rw [State.countWrite, fld_setFld_same h p _ (by decide)]
  exact Nat.mod_mod _ _

end Sys2Proof.Machine

open Sys2Proof Sys2Proof.Machine

/-- Settles O14: BLK_LOCK counts the write and sets the page's lock. -/
theorem lockWritesChangeTheLockAlone : Obligations.LockWritesChangeTheLockAlone := by
  intro s hc who p key hn hp hro
  have hpg := page_setLock (s := s.countWrite p) hc.pages p ((s.page p).lock.next who key)
  refine ⟨_, blkLockWrite_next hn hp hro who key, fun q off hk => reg_setFld_of_ne hc.regs hk _,
    fun q hq => page_setLock_of_ne (s := s.countWrite p) hc.pages hq _, ?_, ?_, fld_countWrite hc.regs p, rfl⟩
  · rw [hpg]; rfl
  · rw [hpg]; rfl
end

section
/-!
SUPPORT. Reads of register pages and their snapshots (R47, R48, R50).
-/
namespace Sys2Proof.Machine

/-! The pairs (R47). -/

/-- Pairs lie among the block's own registers. -/
theorem offset_of_isLo {b : Blk} {off : Nat} (h : isLo b off = true) : 0x100 ≤ off := by
  have hall : ∀ x ∈ pairLos b, 0x100 ≤ x := by cases b <;> decide
  exact hall off (by simpa [isLo] using h)

theorem next_of_lo {lo hi : Fin 1024} (h : hi.val = lo.val + 1) : 4 * hi.val = 4 * lo.val + 4 := by omega

/-! Snapshots. -/

/-- What a filter drops is not found. -/
theorem find_filter_not {α : Type} (f : α → Bool) (l : List α) : (l.filter fun x => !f x).find? f = none := by
  rw [List.find?_eq_none]
  intro x hx
  simpa using (List.mem_filter.mp hx).2

theorem snapAt_takeSnap {s : State} (h : s.pagesWf) (who : Requester) (p : Page) (off : Nat) (hi : Word) :
    (s.takeSnap who p off hi).snapAt who p off = some ⟨off, who, hi⟩ := by
  rw [State.snapAt, State.takeSnap, page_setPage_same h, List.find?_append, find_filter_not]
  simp

theorem snapAt_dropSnap {s : State} (h : s.pagesWf) (who : Requester) (p : Page) (off : Nat) :
    (s.dropSnap who p off).snapAt who p off = none := by
  rw [State.snapAt, State.dropSnap, page_setPage_same h, find_filter_not]

/-! Reads of an accessible page. -/

theorem busRead_block {s : State} {p : Page} {off : Nat} (hn : normPage p = p) (hacc : s.accessible p = true) (ho : 0x100 ≤ off)
    (who : Requester) : s.busRead who p off = s.blockRead who p off := by
  have hlt : ¬ off < 0x100 := by omega
  simp [State.busRead, hn, hacc, present_of_accessible hacc, hlt]

theorem blockRead_lo {s : State} {p : Page} {off : Nat} (h : isLo p.blk off = true) (who : Requester) :
    s.blockRead who p off = (s.readWord who p off, s.takeSnap who p off (s.readWord who p (off + 4))) := if_pos h

section
variable {s : State} {who : Requester} {p : Page} {off : Nat} (hlo : isLo p.blk (off + 4) = false) (hhi : isHi p.blk (off + 4) = true)
include hlo hhi

/-- A read of _HI answers and discards its requester's snapshot. -/
theorem blockRead_hi_snap {x : Snap} (hx : s.snapAt who p off = some x) :
    s.blockRead who p (off + 4) = (x.hi, s.dropSnap who p off) := by
  simp only [State.blockRead, hlo, hhi, Nat.add_sub_cancel, hx, Bool.false_eq_true, if_false, if_true]

theorem blockRead_hi_current (hx : s.snapAt who p off = none) :
    s.blockRead who p (off + 4) = (s.readWord who p (off + 4), s) := by
  simp only [State.blockRead, hlo, hhi, Nat.add_sub_cancel, hx, Bool.false_eq_true, if_false, if_true]

end

theorem readReply_eq {s t : State} {who : Requester} {p : Page} {off : Nat} {w : Word} (h : s.busRead who p off = (w, t)) :
    s.readReply who p off = { t with reply := some (.word w) } := by
  rw [State.readReply, h]

/-! BLK_SYNC (R50). -/

/-- BLK_SYNC has no write-only field: a read returns the register as it stands. -/
theorem readWord_sync (s : State) (who : Requester) (p : Page) : s.readWord who p 0x01C = s.reg p 0x01C := by
  have hfs : fieldsAt p.blk 0x01C = [Reg.BLK_SYNC_WRITE_COUNT] := rfl
  have hlive : s.liveWord who p 0x01C = (s.reg p 0x01C).toNat := rfl
  rw [State.readWord, hfs, hlive]
  exact (BitVec.ofNat_toNat _ _).trans (BitVec.setWidth_eq _)

theorem busRead_sync {s : State} {p : Page} (hn : normPage p = p) (hp : s.present p = true) (who : Requester) :
    s.busRead who p 0x01C = (s.reg p 0x01C, s) := by
  have hlt : 0x01C < 0x100 := by decide
  simp [State.busRead, hn, hp, hlt, readWord_sync]

/-- A state whose registers are those of reset but for BLK_SYNC of the event log, which holds SYNC_TIMEOUT. -/
def syncBitHeld : State := ({} : State).setReg evPage 0x01C 0x80000000

theorem regsWf_syncBitHeld : syncBitHeld.regsWf := regsWf_setReg (s := {}) rfl evPage _ _

theorem reg_syncBitHeld : syncBitHeld.reg evPage 0x01C = 0x80000000 := by
  rw [syncBitHeld, reg_setReg (s := {}) rfl, if_pos rfl]

theorem canon_syncBitHeld : Canon syncBitHeld := by
  constructor
  case regs => exact regsWf_syncBitHeld
  all_goals rfl

end Sys2Proof.Machine

open Sys2Proof Sys2Proof.Machine

/-- Settles O11: the low read takes the snapshot, the high read finds it or finds none. -/
theorem pairReadsTakeSnapshots : Obligations.PairReadsTakeSnapshots := by
  intro s hc who p lo hi hval hlo hhi hnlo hn hacc
  have hoff := next_of_lo hval
  have h100 := offset_of_isLo hlo
  have hbus := busRead_block hn hacc (off := 4 * hi.val) (by omega) who
  rw [hoff] at hhi hnlo hbus
  have hexec : exec (.hiRead who p hi) s = .next (s.readReply who p (4 * lo.val + 4)) :=
    congrArg (fun o => Host.Outcome.next (s.readReply who p o)) hoff
  refine ⟨?_, fun x hx => ?_, fun hx => ?_⟩
  · have hbus := (busRead_block hn hacc h100 who).trans (blockRead_lo hlo who)
    refine ⟨_, congrArg Host.Outcome.next (readReply_eq hbus), rfl, ?_, rfl⟩
    rw [hoff]
    exact snapAt_takeSnap hc.pages who p _ _
  · rw [readReply_eq (hbus.trans (blockRead_hi_snap hnlo hhi hx))] at hexec
    exact ⟨_, hexec, rfl, snapAt_dropSnap hc.pages who p _, rfl⟩
  · rw [hexec, readReply_eq (hbus.trans (blockRead_hi_current hnlo hhi hx)), hoff]

/-- Refutes O12: a BLK_SYNC read returns the register as it stands, and Canon does not say that its bit 31 is 0. In
`syncBitHeld` the register of the event log holds 0x80000000, so the read answers a word with bit 31 set.
(The refuted statement is about every canonical state; no run from reset is claimed to reach this one.) -/
theorem not_syncReadsCountWrites : ¬ Obligations.SyncReadsCountWrites := by
  intro h
  have hread : exec (.blkSyncRead (.hart 0) evPage) syncBitHeld = .next { syncBitHeld with reply := some (.word 0x80000000) } := by
    refine congrArg Host.Outcome.next (readReply_eq ?_)
    rw [busRead_sync rfl rfl, reg_syncBitHeld]
  obtain ⟨⟨t, ht, ⟨w, hw, -, hbit⟩, -⟩, -⟩ := h syncBitHeld canon_syncBitHeld (.hart 0) evPage rfl rfl
  rw [hread] at ht
  cases ht
  cases hw
  exact absurd hbit (by decide)
end

section
/-!
SUPPORT. An interrupt sets bits of BLK_INT_STAT and clears none; what a captured error leaves in BLK_STAT and BLK_ERR_INFO
(R58, R61, R459 to R462).
-/
namespace Sys2Proof.Machine

/-! The registers that an interrupt writes. -/

theorem regKey_mod {p : Page} {off : Nat} (h : off < 4096) : regKey p off % 4096 = off := by
  simp only [regKey]; omega

/-- BLK_INT_STAT of any page; CPUCL_HART_STAT and CPUCL_MSI_DROP_COUNT. -/
def irqKeys : Set Nat := {k | k % 4096 = 0x010 ∨ k ∈ cpuclKeys ∧ (k % 4096 = 0x104 ∨ k % 4096 = 0x12C)}

theorem regKey_notMem_irqKeys {p : Page} {off : Nat} (ho : off < 4096) (hint : off ≠ 0x010)
    (hcl : p.blk = .cpucl → off ≠ 0x104 ∧ off ≠ 0x12C) : regKey p off ∉ irqKeys := by
  have hblk : regKey p off ∈ cpuclKeys → p.blk = .cpucl := fun h => by
    have hcode : blkCode p.blk = blkCode .cpucl := (regKey_div ho).symm.trans h
    cases hb : p.blk <;> rw [hb] at hcode <;> revert hcode <;> decide
  rw [irqKeys, Set.mem_ofPred_eq, regKey_mod ho]
  rintro (h | ⟨hk, h | h⟩)
  · exact hint h
  · exact (hcl (hblk hk)).1 h
  · exact (hcl (hblk hk)).2 h

/-- Header registers but BLK_INT_STAT are none of an interrupt's. -/
theorem header_notMem_irqKeys {off : Nat} (p : Page) (ho : off < 0x100) (hint : off ≠ 0x010) : regKey p off ∉ irqKeys :=
  regKey_notMem_irqKeys (by omega) hint fun _ => by omega

/-- t is s but for an interrupt's registers, of whose causes none is cleared, and the CPU complex. `setInt_writes` names every
register of the CPU cluster's pages; writes to those pages and their own errors need the registers one by one. -/
structure Raises (s t : State) : Prop extends WritesOnly irqKeys s t where
  sets : s.regsWf → ∀ p i, (s.reg p 0x010).getLsbD i = true → (t.reg p 0x010).getLsbD i = true

namespace Raises

variable {s t u : State}

theorem refl (s : State) : Raises s s := ⟨.refl _ s, fun _ _ _ => id⟩

theorem trans (h : Raises s t) (h' : Raises t u) : Raises s u :=
  ⟨h.toWritesOnly.trans h'.toWritesOnly, fun hs p i hi => h'.sets (h.wf hs) p i (h.sets hs p i hi)⟩

theorem ite {c : Prop} [Decidable c] (h : Raises s t) (h' : Raises s u) : Raises s (if c then t else u) := by
  split
  · exact h
  · exact h'

theorem setCpu (s : State) (c : CpuSt) : Raises s { s with cpu := c } := ⟨.setCpu s c, fun _ _ _ => id⟩

/-- A register of the CPU cluster that is no cause of an interrupt. -/
theorem setFld (s : State) {p : Page} (hp : p.blk = .cpucl) {f : RegField} (hf : f.off = 0x104 ∨ f.off = 0x12C) (v : Nat) :
    Raises s (s.setFld p f v) where
  toWritesOnly := by
    refine .setFld s (Or.inr ?_) v
    rw [Nat.mul_zero, Nat.add_zero, regKey_mod (by omega)]
    exact ⟨regKey_cpucl hp (by omega), hf⟩
  sets hs q i hi := by
    have hk : regKey q 0x010 ≠ regKey p (f.off + f.stride * 0) := fun h => by
      have := ((regKey_inj (by decide) (by omega)).mp h).2
      omega
    rwa [reg_setFld_of_ne hs hk]

theorem orInt (s : State) (p : Page) (bits : Nat) : Raises s (s.orInt p bits) where
  toWritesOnly := .setReg s (Or.inl (regKey_mod (by decide))) _
  sets hs q i hi := by
    rw [State.orInt, reg_setReg hs]
    split
    · rename_i hk
      have hq : s.reg p 0x010 = s.reg q 0x010 := congrArg (mget regReset s.regs) hk.symm
      rw [BitVec.getLsbD_or, hq, hi, Bool.true_or]
    · exact hi

end Raises

/-! What follows an interrupt (R459 to R462). -/

theorem setHart_raises (s : State) (h : Nat) (v : HartSt) : Raises s (s.setHart h v) := .setCpu s _

theorem setAplic_raises (s : State) (sup : Bool) (d : AplicDom) : Raises s (s.setAplic sup d) := .setCpu s _

theorem hartTo_raises (s : State) (h : Nat) (st : HartState) : Raises s (s.hartTo h st) := by
  refine (setHart_raises s h { s.hart h with state := st }).trans (.setFld _ rfl (.inl ?_) _)
  split <;> rfl

theorem msiDropRaw_raises (s : State) {p : Page} (hp : p.blk = .cpucl) : Raises s (s.msiDropRaw p) :=
  (Raises.setFld s hp (.inr rfl) _).trans (.orInt _ p _)

section
variable {again : State → Nat → State} (hagain : ∀ u i, Raises u (again u i))
include hagain

theorem msiWith_raises (s : State) {p : Page} (hp : p.blk = .cpucl) (h file ident : Nat) : Raises s (s.msiWith again p h file ident) := by
  have hdrop := msiDropRaw_raises s hp
  have hset := setHart_raises s h
  unfold State.msiWith
  split
  · exact (hdrop.trans (hagain _ _)).ite hdrop
  · exact ((hset _).trans (hartTo_raises _ _ _)).ite (hset _)

theorem aplicSendWith_raises (s : State) (sup : Bool) (i : Nat) : Raises s (s.aplicSendWith again sup i) := by
  unfold State.aplicSendWith
  exact ((setAplic_raises s sup _).trans (msiWith_raises hagain _ rfl _ _ _)).ite (.refl s)

theorem aplicPendWith_raises (s : State) (sup : Bool) (i : Nat) : Raises s (s.aplicPendWith again sup i) := by
  unfold State.aplicPendWith
  exact ((setAplic_raises s sup _).trans (aplicSendWith_raises hagain _ sup i)).ite (.refl s)

end

theorem aplicRaise_raises (n : Nat) (s : State) (i : Nat) : Raises s (s.aplicRaise n i) := by
  induction n generalizing s i with
  | zero => exact .refl s
  | succ n ih =>
    have hup (u : State) (sup : Bool) : Raises u
        (if (u.aplic sup).srcCfg i = 6 then u.aplicPendWith (fun t j => State.aplicRaise n t j) sup i else u) :=
      (aplicPendWith_raises ih u sup i).ite (.refl u)
    exact (hup s false).trans (hup _ true)

theorem irqEdge_raises (s : State) (p : Page) (old : Bool) : Raises s (s.irqEdge p old) := by
  unfold State.irqEdge
  exact (aplicRaise_raises 4 s _).ite (.refl s)

theorem setInt_raises (s : State) (p : Page) (i : Nat) : Raises s (s.setInt p i) := (Raises.orInt s p _).trans (irqEdge_raises _ p _)

/-! A captured error (R61). -/

/-- BLK_STAT.ERR and BLK_ERR_INFO as an error leaves them. -/
def State.errInfo (s : State) (p : Page) (info0 info1 info2 info3 : Nat) : State :=
  ((((s.setFlag p Reg.BLK_STAT_ERR true).setReg p 0x020 (BitVec.ofNat 32 info0)).setReg p 0x024 (BitVec.ofNat 32 info1)).setReg
    p 0x028 (BitVec.ofNat 32 info2)).setReg p 0x02C (BitVec.ofNat 32 info3)

section
variable (s : State) (p : Page) (i0 i1 i2 i3 : Nat)

/-- The registers that a captured error writes, its interrupt apart. -/
def errKeys (p : Page) : Set Nat := {k | ∃ off ∈ [0x00C, 0x020, 0x024, 0x028, 0x02C], k = regKey p off}

theorem errInfo_writes : WritesOnly (errKeys p) s (s.errInfo p i0 i1 i2 i3) := by
  have hmem {off : Nat} (h : off ∈ [0x00C, 0x020, 0x024, 0x028, 0x02C]) : regKey p off ∈ errKeys p := ⟨off, h, rfl⟩
  exact (((((WritesOnly.setFld s (f := Reg.BLK_STAT_ERR) (hmem (by decide)) 1).trans (.setReg _ (hmem (by decide)) _)).trans
    (.setReg _ (hmem (by decide)) _)).trans (.setReg _ (hmem (by decide)) _)).trans (.setReg _ (hmem (by decide)) _))

variable {s}

theorem flag_errInfo (h : s.regsWf) : (s.errInfo p i0 i1 i2 i3).flag p Reg.BLK_STAT_ERR = true := by
  have h0 := regsWf_setFlag h p Reg.BLK_STAT_ERR true
  have h1 := regsWf_setReg h0 p 0x020 (BitVec.ofNat 32 i0)
  have h2 := regsWf_setReg h1 p 0x024 (BitVec.ofNat 32 i1)
  have h3 := regsWf_setReg h2 p 0x028 (BitVec.ofNat 32 i2)
  have hreg : (s.errInfo p i0 i1 i2 i3).reg p 0x00C = (s.setFlag p Reg.BLK_STAT_ERR true).reg p 0x00C := by
    simp only [State.errInfo, reg_setReg h3, reg_setReg h2, reg_setReg h1, reg_setReg h0]
    simp [regKey]
  rw [State.flag, fld_congr (f := Reg.BLK_STAT_ERR) (i := 0) hreg]
  exact flag_setFlag_same h p (by decide) (by decide) true

theorem info_errInfo (h : s.regsWf) : (s.errInfo p i0 i1 i2 i3).reg p 0x020 = BitVec.ofNat 32 i0 := by
  have h0 := regsWf_setFlag h p Reg.BLK_STAT_ERR true
  have h1 := regsWf_setReg h0 p 0x020 (BitVec.ofNat 32 i0)
  have h2 := regsWf_setReg h1 p 0x024 (BitVec.ofNat 32 i1)
  have h3 := regsWf_setReg h2 p 0x028 (BitVec.ofNat 32 i2)
  simp only [State.errInfo, reg_setReg h3, reg_setReg h2, reg_setReg h1, reg_setReg h0]
  simp [regKey]

end

/-- The first error since ERR was clear is captured, with an interrupt; a later one changes nothing. -/
theorem capture_eq (s : State) (p : Page) (code off source data info2 info3 : Nat) : s.capture p code off source data info2 info3 =
    if s.flag p Reg.BLK_STAT_ERR then s
    else (s.errInfo p (code + off * 2 ^ 16 + source * 2 ^ 28) data info2 info3).setInt p 0 := rfl

section
variable (s : State) (p : Page) (code off source data info2 info3 : Nat)

theorem capture_writes : WritesOnly (errKeys p ∪ irqKeys) s (s.capture p code off source data info2 info3) := by
  rw [capture_eq]
  exact WritesOnly.ite (.refl _ s) (((errInfo_writes s p _ _ _ _).mono Set.subset_union_left).trans
    ((setInt_raises _ p 0).toWritesOnly.mono Set.subset_union_right))

variable {s}

theorem flag_capture (h : s.regsWf) : (s.capture p code off source data info2 info3).flag p Reg.BLK_STAT_ERR = true := by
  rw [capture_eq]
  split
  · assumption
  · have hw := (errInfo_writes s p (code + off * 2 ^ 16 + source * 2 ^ 28) data info2 info3).wf h
    have hreg := (setInt_raises (s.errInfo p (code + off * 2 ^ 16 + source * 2 ^ 28) data info2 info3) p 0).toWritesOnly.reg hw
      (header_notMem_irqKeys (off := 0x00C) p (by decide) (by decide))
    rw [State.flag, fld_congr (f := Reg.BLK_STAT_ERR) (i := 0) hreg]
    exact flag_errInfo p _ _ _ _ h

theorem info_capture (h : s.regsWf) (hclear : s.flag p Reg.BLK_STAT_ERR = false) :
    (s.capture p code off source data info2 info3).reg p 0x020 = BitVec.ofNat 32 (code + off * 2 ^ 16 + source * 2 ^ 28) := by
  have hw := (errInfo_writes s p (code + off * 2 ^ 16 + source * 2 ^ 28) data info2 info3).wf h
  rw [capture_eq, hclear, if_neg (by decide),
    (setInt_raises _ p 0).toWritesOnly.reg hw (header_notMem_irqKeys (off := 0x020) p (by decide) (by decide))]
  exact info_errInfo p _ _ _ _ h

end

/-! An error of the header, SOURCE 1 to 4 (R61, R705). -/

/-- SOURCE stands in the upper four bits of BLK_ERR_INFO0. -/
theorem source_info0 {n source : Nat} (hn : n < 2 ^ 28) (hs : source < 16) :
    bitsOf (BitVec.ofNat 32 (n + source * 2 ^ 28)).toNat 28 4 = source := by
  have hlt : n + source * 2 ^ 28 < 2 ^ 32 := by omega
  rw [BitVec.toNat_ofNat, Nat.mod_eq_of_lt hlt, bitsOf, Nat.add_mul_div_right _ _ (Nat.two_pow_pos 28), Nat.div_eq_of_lt hn,
    Nat.zero_add]
  exact Nat.mod_eq_of_lt hs

section
variable {s : State} (hs : s.regsWf) (p : Page) (source off : Nat) (who : Requester) (v : Word)

theorem headerError_frame : ∃ r c q, s.headerError p source off who v = { s with regs := r, cpu := c, evq := q } := by
  obtain ⟨r, c, h⟩ := (capture_writes s p (blkCode p.blk * 256 + 0xF0 + source) off source
    (if source = 4 then 0 else v.toNat) 0 0).frame
  rw [State.headerError, h, report_eq]
  exact ⟨r, c, _, rfl⟩

/-- The event that records the error is in no register. -/
theorem reg_headerError (q : Page) (o : Nat) : (s.headerError p source off who v).reg q o =
    (s.capture p (blkCode p.blk * 256 + 0xF0 + source) off source (if source = 4 then 0 else v.toNat)).reg q o := rfl

include hs

theorem flag_headerError : (s.headerError p source off who v).flag p Reg.BLK_STAT_ERR = true := flag_capture p _ _ _ _ _ _ hs

theorem reg_headerError_of_notMem {q : Page} {o : Nat} (hk : regKey q o ∉ errKeys p ∪ irqKeys) :
    (s.headerError p source off who v).reg q o = s.reg q o :=
  (capture_writes s p _ _ _ _ _ _).reg hs hk

/-- BLK_ERR_INFO0 names the source of the error that is captured. -/
theorem source_headerError (hsrc : source < 16) (hoff : off < 4096) (hclear : s.flag p Reg.BLK_STAT_ERR = false) :
    bitsOf ((s.headerError p source off who v).reg p 0x020).toNat 28 4 = source := by
  have hcode : blkCode p.blk ≤ 24 := by cases p.blk <;> decide
  rw [reg_headerError, info_capture p _ _ _ _ _ _ hs hclear]
  exact source_info0 (by omega) hsrc

end

/-- A block's own registers are not those of a captured error, and a pair's not those of an interrupt. -/
theorem pair_notMem_errIrq {p : Page} {lo off : Nat} (hlo : isLo p.blk lo = true) (hoff : off = lo ∨ off = lo + 4) :
    regKey p off ∉ errKeys p ∪ irqKeys := by
  have hall : ∀ x ∈ pairLos p.blk, 0x100 ≤ x ∧ x + 4 < 4096 := by cases p.blk <;> decide
  have hmem : lo ∈ pairLos p.blk := by simpa [isLo] using hlo
  obtain ⟨h100, h4096⟩ := hall lo hmem
  have ho : off < 4096 := by omega
  rintro (⟨o, hmo, hk⟩ | h)
  · have heq := ((regKey_inj ho (by simp at hmo; omega)).mp hk).2
    simp at hmo
    omega
  · refine regKey_notMem_irqKeys ho (by omega) (fun hb => ?_) h
    have hcl : ∀ x ∈ pairLos .cpucl, (x ≠ 0x104 ∧ x ≠ 0x12C) ∧ x + 4 ≠ 0x104 ∧ x + 4 ≠ 0x12C := by decide
    have := hcl lo (hb ▸ hmem)
    omega

end Sys2Proof.Machine
end

section
/-!
SUPPORT. Writes of pairs: the low half is staged, the high half commits both (R47).
-/
open Sys2Proof.Claims

namespace Sys2Proof.Machine

/-! Staged values. -/

theorem stagedAt_setStaged_some {s : State} (h : s.pagesWf) (p : Page) {off : Nat} {x : Staged} (hx : x.off = off) :
    (s.setStaged p off (some x)).stagedAt p off = some x := by
  have hrest : ((s.page p).staged.filter fun y => y.off != off).find? (fun y => y.off == off) = none := find_filter_not _ _
  rw [State.stagedAt, State.setStaged, page_setPage_same h, List.find?_append, hrest]
  simp [hx]

theorem stagedAt_setStaged_none {s : State} (h : s.pagesWf) (p : Page) (off : Nat) :
    (s.setStaged p off none).stagedAt p off = none := by
  rw [State.stagedAt, State.setStaged, page_setPage_same h]
  exact find_filter_not _ _

theorem reg64_arrived {s : State} (h : s.regsWf) (p : Page) {lo : Nat} (hlo : isLo p.blk lo = true) (who : Requester) :
    (s.arrived p who).reg64 p lo = s.reg64 p lo := by
  have h100 := offset_of_isLo hlo
  exact reg64_congr (reg_arrived_of_ne h (regKey_off_ne (by omega)) who) (reg_arrived_of_ne h (regKey_off_ne (by omega)) who)

/-! A write that reaches a half of a pair. -/

section
variable {s : State} (hc : Canon s) {p : Page} {lo : Nat} (hlo : isLo p.blk lo = true) (hn : normPage p = p)
  (hacc : s.accessible p = true) (hro : readOnlyPage p.blk = false)
include hc hlo hn hacc hro

theorem busWrite_lo (hd : s.discards p lo = false) (who : Requester) (v : Word) :
    s.busWrite who p lo v = (s.arrived p who).loWrite who p lo v := by
  rw [busWrite_block hn (present_of_accessible hacc) (offset_of_isLo hlo) hro, State.blockWrite, accessible_arrived hc.regs hc.pages,
    hacc, hro, discards_arrived hc.regs, hd, hlo]
  rfl

theorem busWrite_hi (hnlo : isLo p.blk (lo + 4) = false) (hd : s.discards p (lo + 4) = false) (who : Requester) (v : Word) :
    s.busWrite who p (lo + 4) v = (s.arrived p who).hiWrite who p lo v .none := by
  have h100 := offset_of_isLo hlo
  have hhi : isHi p.blk (lo + 4) = true := by simp [isHi, hlo]
  rw [busWrite_block hn (present_of_accessible hacc) (by omega) hro, State.blockWrite, accessible_arrived hc.regs hc.pages,
    hacc, hro, discards_arrived hc.regs, hd, hnlo, hhi]
  rfl

end

/-- The pair with what a write of n leaves in its fields. -/
def State.putPair (s : State) (p : Page) (lo n : Nat) : State := s.setReg64 p lo (storedWord (regFields p.blk lo true) (s.reg64 p lo) n)

theorem reg64_putPair {s : State} (h : s.regsWf) (p : Page) (lo n : Nat) :
    (s.putPair p lo n).reg64 p lo = storedWord (regFields p.blk lo true) (s.reg64 p lo) n % 2 ^ 64 := reg64_setReg64_same h p lo _

/-- An arrived write of an open pair stores its fields. -/
theorem regWrite_openPair {s : State} (h : s.regsWf) {p : Page} {lo n : Nat} (hopen : OpenPair s p lo n) (who : Requester)
    (err : TierFail) : (s.arrived p who).regWrite who p lo true n err = (true, (s.arrived p who).putPair p lo n) := by
  obtain ⟨-, -, -, hs, -, hres, hplain⟩ := hopen
  have hres' : (s.arrived p who).reservedWrite p lo (regFields p.blk lo true) n = false := by rw [reservedWrite_arrived h, hres]
  rw [regWrite_plain hplain hres']
  simp [regAct_storesOnly hs, State.storeFields, State.putPair]

/-! The high half. -/

theorem hiWrite_commits {s u : State} {who : Requester} {p : Page} {lo : Nat} {x : Staged} {v : Word} {err : TierFail}
    (hx : s.stagedAt p lo = some x) (htag : x.tag = some who)
    (hw : s.regWrite who p lo true (x.value.toNat + v.toNat * 2 ^ 32) err = (true, u)) :
    s.hiWrite who p lo v err = u.setStaged p lo none := by
  simp only [State.hiWrite, hx, htag, if_true, hw]

theorem hiWrite_discarded {s : State} {who : Requester} {p : Page} {lo : Nat} {x : Staged}
    (hx : s.stagedAt p lo = some x) (htag : x.tag ≠ some who) (v : Word) (err : TierFail) :
    s.hiWrite who p lo v err = s.headerError p 3 (lo + 4) who v := by
  simp only [State.hiWrite, hx, htag, if_false]

theorem hiWrite_unstaged {s : State} {p : Page} {lo : Nat} (hx : s.stagedAt p lo = none) (who : Requester) (v : Word)
    (err : TierFail) :
    s.hiWrite who p lo v err = (s.regWrite who p lo true (s.liveWord who p lo + v.toNat * 2 ^ 32) err).2 := by
  simp only [State.hiWrite, hx]

theorem stagedAt_headerError (s : State) (p : Page) (source off : Nat) (who : Requester) (v : Word) (q : Page) (o : Nat) :
    (s.headerError p source off who v).stagedAt q o = s.stagedAt q o := by
  obtain ⟨r, c, e, h⟩ := headerError_frame (s := s) p source off who v
  rw [h]
  rfl

end Sys2Proof.Machine

open Sys2Proof Sys2Proof.Machine

/-- Settles O10: the low half is staged; the high half commits both, is discarded with an error, or takes the low half as it
stands. -/
theorem pairsCommitBothHalves : Obligations.PairsCommitBothHalves := by
  intro s hc who p lo hi v hval hlo _ hnlo hn hacc hro hdlo hdhi
  have hoff := next_of_lo hval
  have h100 := offset_of_isLo hlo
  have hwf := regsWf_arrived hc.regs p who
  have hpg := pagesWf_arrived hc.pages p who
  have hst := stagedAt_arrived hc.pages p p (4 * lo.val) who
  have hr64 := reg64_arrived hc.regs p hlo who
  have hexec : exec (.hiWrite who p hi v) s = .next ((s.arrived p who).hiWrite who p (4 * lo.val) v .none) := by
    rw [hoff] at hnlo hdhi
    refine congrArg Host.Outcome.next ?_
    rw [hoff, busWrite_hi hc hlo hn hacc hro hnlo hdhi]
  refine ⟨?_, fun x hx htag hopen => ?_, fun x hx htag herr => ?_, fun hx hlive hopen => ?_⟩
  · refine ⟨_, congrArg Host.Outcome.next (busWrite_lo hc hlo hn hacc hro hdlo who v), stagedAt_setStaged_some hpg p rfl,
      fun q off hk => reg_arrived_of_ne hc.regs hk who, ?_⟩
    rw [State.loWrite, State.setStaged, State.setPage, arrived_eq]
  · have hw := regWrite_openPair hc.regs hopen who .none
    rw [hiWrite_commits (hst.trans hx) htag hw] at hexec
    refine ⟨_, hexec, ?_, stagedAt_setStaged_none hpg p _⟩
    rw [← hr64]
    exact reg64_putPair hwf p _ _
  · rw [hiWrite_discarded (hst.trans hx) htag] at hexec
    have hclear : (s.arrived p who).flag p Reg.BLK_STAT_ERR = false := by
      rw [flag_arrived_of_off hc.regs p p (by decide) (by decide), herr]
    have hhi : 4 * lo.val + 4 < 4096 := by omega
    have hreg {off : Nat} (ho : off = 4 * lo.val ∨ off = 4 * lo.val + 4) :=
      reg_headerError_of_notMem hwf p 3 (4 * lo.val + 4) who v (pair_notMem_errIrq hlo ho)
    exact ⟨_, hexec, flag_headerError hwf p 3 _ who v, source_headerError hwf p 3 _ who v (by decide) hhi hclear,
      (stagedAt_headerError _ p 3 _ who v p _).trans (hst.trans hx),
      (reg64_congr (hreg (.inl rfl)) (hreg (.inr rfl))).trans hr64⟩
  · have hlo32 : (s.arrived p who).reg p (4 * lo.val) = s.reg p (4 * lo.val) :=
      reg_arrived_of_ne hc.regs (regKey_off_ne (by omega)) who
    rw [hiWrite_unstaged (hst.trans hx), hlive, hlo32, regWrite_openPair hc.regs hopen] at hexec
    refine ⟨_, hexec, ?_⟩
    rw [← hr64]
    exact reg64_putPair hwf p _ _
end

section
/-!
SUPPORT. The controls of the header: ENABLE, FENCE, SOFT_RESET and the causes set for test (R56 to R62, R64).
-/
namespace Sys2Proof.Machine

/-! BLK_CTRL as a word. -/

/-- BLK_CTRL with its three controls. -/
def ctrlBits (enable reset fence : Bool) : Word := BitVec.ofNat 32 (b2n enable + b2n reset * 2 + b2n fence * 4)

theorem ctrlBits_enable (e r f : Bool) : (ctrlBits e r f).getLsbD 0 = e := by cases e <;> cases r <;> cases f <;> decide
theorem ctrlBits_reset (e r f : Bool) : (ctrlBits e r f).getLsbD 1 = r := by cases e <;> cases r <;> cases f <;> decide
theorem ctrlBits_fence (e r f : Bool) : (ctrlBits e r f).getLsbD 2 = f := by cases e <;> cases r <;> cases f <;> decide

/-- BLK_CTRL as it stands, with a control replaced. -/
theorem ctrlWord_withEnable (s : State) (p : Page) (on : Bool) :
    BitVec.ofNat 32 (withBits (s.ctrlWord p) 0 1 (b2n on)) = ctrlBits on false (s.flag p Reg.BLK_CTRL_FENCE) := by
  unfold State.ctrlWord
  cases s.flag p Reg.BLK_CTRL_ENABLE <;> cases s.flag p Reg.BLK_CTRL_FENCE <;> cases on <;> rfl

theorem ctrlWord_withReset (s : State) (p : Page) : BitVec.ofNat 32 (withBits (s.ctrlWord p) 1 1 1) =
    ctrlBits (s.flag p Reg.BLK_CTRL_ENABLE) true (s.flag p Reg.BLK_CTRL_FENCE) := by
  unfold State.ctrlWord
  cases s.flag p Reg.BLK_CTRL_ENABLE <;> cases s.flag p Reg.BLK_CTRL_FENCE <;> rfl

theorem ctrlWord_withFence (s : State) (p : Page) (on : Bool) :
    BitVec.ofNat 32 (withBits (s.ctrlWord p) 2 1 (b2n on)) = ctrlBits (s.flag p Reg.BLK_CTRL_ENABLE) false on := by
  unfold State.ctrlWord
  cases s.flag p Reg.BLK_CTRL_ENABLE <;> cases s.flag p Reg.BLK_CTRL_FENCE <;> cases on <;> rfl

/-! The fence (R60). -/

/-- FENCE with its effect, FENCED (log 18). -/
def State.setFence (s : State) (p : Page) (on : Bool) : State := (s.setFlag p Reg.BLK_CTRL_FENCE on).setFlag p Reg.BLK_STAT_FENCED on

/-- t is s but for FENCE and FENCED of the page. -/
structure FenceIs (s t : State) (p : Page) (fence fenced : Bool) : Prop where
  frame : ∃ r, t = { s with regs := r }
  wf : t.regsWf
  enable : t.flag p Reg.BLK_CTRL_ENABLE = s.flag p Reg.BLK_CTRL_ENABLE
  fence : t.flag p Reg.BLK_CTRL_FENCE = fence
  fenced : t.flag p Reg.BLK_STAT_FENCED = fenced

theorem fenceIs_refl {s : State} (h : s.regsWf) (p : Page) :
    FenceIs s s p (s.flag p Reg.BLK_CTRL_FENCE) (s.flag p Reg.BLK_STAT_FENCED) := ⟨⟨_, rfl⟩, h, rfl, rfl, rfl⟩

/-- FENCED stands in a register of its own. -/
theorem flag_setFenced {s : State} (h : s.regsWf) (p : Page) {g : RegField} (hg : g.off = 0x008) (b : Bool) :
    (s.setFlag p Reg.BLK_STAT_FENCED b).flag p g = s.flag p g := by
  have hk : regKey p (g.off + g.stride * 0) ≠ regKey p Reg.BLK_STAT_FENCED.off := regKey_off_ne (by rw [hg, Nat.mul_zero]; decide)
  rw [State.flag, fld_congr (reg_setFlag_of_ne h hk b), State.flag]

theorem fenceIs_setFence {s : State} (h : s.regsWf) (p : Page) (on : Bool) : FenceIs s (s.setFence p on) p on on := by
  have h1 := regsWf_setFlag h p Reg.BLK_CTRL_FENCE on
  refine ⟨⟨_, rfl⟩, regsWf_setFlag h1 p _ on, ?_, ?_, flag_setFlag_same h1 p (by decide) (by decide) on⟩
  · rw [State.setFence, flag_setFenced h1 p rfl, flag_setFlag_of_disjoint h (by decide) (by decide)]
  · rw [State.setFence, flag_setFenced h1 p rfl, flag_setFlag_same h p (by decide) (by decide)]

theorem FenceIs.page {s t : State} {p : Page} {a b : Bool} (h : FenceIs s t p a b) (q : Page) : t.page q = s.page q := by
  obtain ⟨r, rfl⟩ := h.frame
  rfl

theorem FenceIs.pagesWf {s t : State} {p : Page} {a b : Bool} (h : FenceIs s t p a b) (hs : s.pagesWf) : t.pagesWf := by
  obtain ⟨r, rfl⟩ := h.frame
  exact hs

theorem fenceWrite_set {v : Word} (hv : v.getLsbD 2 = true) (s : State) (p : Page) (who : Requester) (opened : Bool) :
    s.fenceWrite p who opened v = s.setFence p true := if_pos hv

theorem fenceWrite_clear {s : State} {p : Page} {v : Word} (hv : v.getLsbD 2 = false) (hf : s.flag p Reg.BLK_CTRL_FENCE = true)
    (who : Requester) : s.fenceWrite p who true v = s.setFence p false := by
  simp only [State.fenceWrite, hv, hf, State.setFence, Bool.false_eq_true, Bool.not_true, if_false, if_true]

/-- A write of BLK_CTRL with FENCE as it stands leaves FENCE as it stands. -/
theorem fenceIs_held {s : State} (h : s.regsWf) {p : Page} {v : Word} (hv : v.getLsbD 2 = s.flag p Reg.BLK_CTRL_FENCE)
    (who : Requester) (opened : Bool) : ∃ g, FenceIs s (s.fenceWrite p who opened v) p (s.flag p Reg.BLK_CTRL_FENCE) g := by
  by_cases hf : s.flag p Reg.BLK_CTRL_FENCE = true
  · rw [fenceWrite_set (hv.trans hf), hf]
    exact ⟨true, fenceIs_setFence h p true⟩
  · rw [Bool.not_eq_true] at hf
    have hkept : s.fenceWrite p who opened v = s := by
      simp only [State.fenceWrite, hv, hf, Bool.false_eq_true, Bool.not_false, if_false, if_true]
    rw [hkept]
    exact ⟨_, fenceIs_refl h p⟩

/-! ENABLE (R56). -/

/-- What a write of ENABLE leaves of a page, its block no ring. -/
structure EnableIs (s t : State) (p : Page) (on : Bool) : Prop where
  enable : t.flag p Reg.BLK_CTRL_ENABLE = on
  fence : t.flag p Reg.BLK_CTRL_FENCE = s.flag p Reg.BLK_CTRL_FENCE
  fenced : t.flag p Reg.BLK_STAT_FENCED = s.flag p Reg.BLK_STAT_FENCED
  page : t.page p = { s.page p with
    disabled := if on then false else if s.flag p Reg.BLK_CTRL_ENABLE then true else (s.page p).disabled }

theorem enableWrite_block {p : Page} (hb : p.blk ≠ .cmdq) (s : State) (on : Bool) : s.enableWrite p on =
    if on then (s.setFlag p Reg.BLK_CTRL_ENABLE on).setPage p { s.page p with disabled := false }
    else if s.flag p Reg.BLK_CTRL_ENABLE then (s.setFlag p Reg.BLK_CTRL_ENABLE on).setPage p { s.page p with disabled := true }
    else s.setFlag p Reg.BLK_CTRL_ENABLE on := if_neg hb

theorem enableIs_enableWrite {s : State} (h : s.regsWf) (hp : s.pagesWf) {p : Page} (hb : p.blk ≠ .cmdq) (on : Bool) :
    EnableIs s (s.enableWrite p on) p on := by
  have hen := flag_setFlag_same h p (f := Reg.BLK_CTRL_ENABLE) (by decide) (by decide) on
  have hfe := flag_setFlag_of_disjoint (q := p) h (f := Reg.BLK_CTRL_ENABLE) (g := Reg.BLK_CTRL_FENCE) (p := p) (by decide) (by decide) on
  have hfd := flag_setFlag_of_disjoint (q := p) h (f := Reg.BLK_CTRL_ENABLE) (g := Reg.BLK_STAT_FENCED) (p := p) (by decide) (by decide) on
  have hpage := page_setPage_same (s := s.setFlag p Reg.BLK_CTRL_ENABLE on) hp p
  rw [enableWrite_block hb]
  cases on
  · by_cases hwas : s.flag p Reg.BLK_CTRL_ENABLE = true
    · rw [if_neg (by decide), if_pos hwas]
      exact ⟨hen, hfe, hfd, by rw [hpage, hwas]; rfl⟩
    · rw [if_neg (by decide), if_neg hwas]
      exact ⟨hen, hfe, hfd, by rw [Bool.not_eq_true] at hwas; rw [hwas]; rfl⟩
  · rw [if_pos rfl]
    exact ⟨hen, hfe, hfd, hpage _⟩

/-! A write of BLK_CTRL. -/

/-- The state in which a write of BLK_CTRL finds its controls: arrived, with the unlock used up. -/
def State.ctrlArrived (s : State) (p : Page) (who : Requester) : State := (s.arrived p who).useUnlock p who true

theorem useUnlock_frame (s : State) (p : Page) (who : Requester) (prot : Bool) : ∃ q, s.useUnlock p who prot = { s with pages := q } := by
  unfold State.useUnlock
  split
  · exact ⟨_, rfl⟩
  · exact ⟨_, rfl⟩

section
variable {s : State} (hc : Canon s) (p : Page) (who : Requester)
include hc

theorem regsWf_ctrlArrived : (s.ctrlArrived p who).regsWf := by
  obtain ⟨q, h⟩ := useUnlock_frame (s.arrived p who) p who true
  rw [State.ctrlArrived, h]
  exact regsWf_arrived hc.regs p who

theorem pagesWf_ctrlArrived : (s.ctrlArrived p who).pagesWf := by
  have h := pagesWf_arrived hc.pages p who
  unfold State.ctrlArrived State.useUnlock
  split
  · exact pagesWf_setPage h p _
  · exact h

theorem flag_ctrlArrived {f : RegField} (ho : f.off < 4096) (hne : f.off ≠ 0x01C) : (s.ctrlArrived p who).flag p f = s.flag p f := by
  obtain ⟨q, h⟩ := useUnlock_frame (s.arrived p who) p who true
  rw [State.ctrlArrived, h]
  exact flag_arrived_of_off hc.regs p p ho hne who

/-- The requester for which the page is unlocked uses its unlock up. -/
theorem ctrlArrived_unlocked (hl : (s.page p).lock = .unlocked who) :
    (s.arrived p who).unlockedFor p who = true ∧ ((s.ctrlArrived p who).page p).lock = .locked := by
  have hne : (s.page p).lock ≠ .armed who := by rw [hl]; exact Lock.noConfusion
  have hun : (s.arrived p who).unlockedFor p who = true := by
    rw [State.unlockedFor, page_arrived_of_lock_ne hne, hl]
    exact beq_self_eq_true _
  refine ⟨hun, ?_⟩
  have hset : s.ctrlArrived p who = (s.arrived p who).setLock p .locked := by
    rw [State.ctrlArrived, State.useUnlock, hun]
    rfl
  rw [hset, page_setLock (pagesWf_arrived hc.pages p who)]

end

theorem headerWrite_ctrl {p : Page} (hro : readOnlyPage p.blk = false) (s : State) (who : Requester) (v : Word) :
    s.headerWrite p who 0x008 v = s.ctrlWrite p who v := by
  simp [State.headerWrite, hro]

theorem headerWrite_intSet {p : Page} (hro : readOnlyPage p.blk = false) (s : State) (who : Requester) (v : Word) :
    s.headerWrite p who 0x018 v =
      (s.orInt p (v &&& BitVec.ofNat 32 (2 ^ max 1 (intBits p.blk) - 1)).toNat).irqEdge p (s.srcLevel p) := by
  simp [State.headerWrite, hro]

/-- BLK_CTRL without SOFT_RESET: FENCE first, then ENABLE. -/
theorem ctrlWrite_noReset {v : Word} (hv : v.getLsbD 1 = false) (s : State) (p : Page) (who : Requester) : s.ctrlWrite p who v =
    ((s.useUnlock p who true).fenceWrite p who (s.unlockedFor p who) v).enableWrite p (v.getLsbD 0) := by
  simp only [State.ctrlWrite, hv, Bool.false_and, Bool.false_eq_true, if_false]

/-- SOFT_RESET of a page that is not resetting begins its reset, after FENCE and ENABLE. -/
theorem ctrlWrite_reset {s : State} {p : Page} {v : Word} (hv : v.getLsbD 1 = true) (hr : (s.page p).resetting = false)
    (who : Requester) : s.ctrlWrite p who v =
    (((s.useUnlock p who true).fenceWrite p who (s.unlockedFor p who) v).enableWrite p (v.getLsbD 0)).softReset p := by
  simp only [State.ctrlWrite, hv, hr, Bool.not_false, Bool.and_true, if_true]

section
variable {s : State} {p : Page} (hn : normPage p = p) (hp : s.present p = true) (hro : readOnlyPage p.blk = false)
  (who : Requester)
include hn hp hro

theorem busWrite_ctrl (v : Word) : s.busWrite who p 0x008 v = (s.arrived p who).ctrlWrite p who v := by
  rw [busWrite_header hn hp hro (by decide) (by decide), headerWrite_ctrl hro]

/-- The outcome of ENABLE_WRITE and FENCE_WRITE. -/
theorem busWrite_ctrlBits (enable fence : Bool) : s.busWrite who p 0x008 (ctrlBits enable false fence) =
    ((s.ctrlArrived p who).fenceWrite p who ((s.arrived p who).unlockedFor p who) (ctrlBits enable false fence)).enableWrite p enable := by
  rw [busWrite_ctrl hn hp hro, ctrlWrite_noReset (ctrlBits_reset _ _ _), ctrlBits_enable]
  rfl

theorem enableWrite_next (on : Bool) : exec (.enableWrite who p on) s = .next (((s.ctrlArrived p who).fenceWrite p who
    ((s.arrived p who).unlockedFor p who) (ctrlBits on false (s.flag p Reg.BLK_CTRL_FENCE))).enableWrite p on) := by
  refine congrArg Host.Outcome.next ?_
  rw [hn, ctrlWord_withEnable, busWrite_ctrlBits hn hp hro]

theorem fenceWrite_next (on : Bool) : exec (.fenceWrite who p on) s = .next (((s.ctrlArrived p who).fenceWrite p who
    ((s.arrived p who).unlockedFor p who) (ctrlBits (s.flag p Reg.BLK_CTRL_ENABLE) false on)).enableWrite p
      (s.flag p Reg.BLK_CTRL_ENABLE)) := by
  refine congrArg Host.Outcome.next ?_
  rw [hn, ctrlWord_withFence, busWrite_ctrlBits hn hp hro]

/-- SOFT_RESET resets the page as the other controls leave it. -/
theorem softReset_next (hc : Canon s) (hr : (s.page p).resetting = false) :
    ∃ u : State, exec (.softReset who p) s = .next (u.softReset p) := by
  obtain ⟨l, hl⟩ := page_arrived hc.pages p p who
  have hres : ((s.arrived p who).page p).resetting = false := by rw [hl]; exact hr
  have hctrl := ctrlWrite_reset (ctrlBits_reset (s.flag p Reg.BLK_CTRL_ENABLE) true (s.flag p Reg.BLK_CTRL_FENCE)) hres who
  rw [← busWrite_ctrl hn hp hro, ← ctrlWord_withReset] at hctrl
  have hexec : exec (.softReset who p) s = .next (s.busWrite who p 0x008 (BitVec.ofNat 32 (withBits (s.ctrlWord p) 1 1 1))) :=
    congrArg (fun q => Host.Outcome.next (s.busWrite who p 0x008 (BitVec.ofNat 32 (withBits (s.ctrlWord q) 1 1 1)))) hn
  exact ⟨_, hexec.trans (congrArg _ hctrl)⟩

end

/-! The soft reset (R62). -/

theorem page_softReset (s : State) (p : Page) :
    (s.softReset p).page p = { resetting := true, wedged := (s.page p).wedged } := by
  refine page_setPage_of_ne _ p fun h => ?_
  have hr : true = false := congrArg PageSt.resetting h
  exact absurd hr (by decide)

theorem softResetDone_eq {s : State} {p : Page} (h : (s.page p).resetting = true) :
    s.softResetDone p = s.setPage p { s.page p with resetting := false, wedged := false } := if_pos h

/-! The causes set for test (R58). -/

/-- A written cause that the page defines is set, whatever its interrupt does. -/
theorem cause_intSet {s : State} (h : s.regsWf) (p : Page) {bits : Word} {n i : Nat} (hi : i < n) (hb : bits.getLsbD i = true)
    (old : Bool) :
    (((s.orInt p (bits &&& BitVec.ofNat 32 (2 ^ n - 1)).toNat).irqEdge p old).reg p 0x010).getLsbD i = true := by
  refine (irqEdge_raises _ p old).sets ((Raises.orInt s p _).wf h) p i ?_
  have h32 : i < 32 := BitVec.lt_of_getLsbD hb
  rw [State.orInt, reg_setReg h, if_pos rfl, BitVec.getLsbD_or, BitVec.ofNat_toNat, BitVec.setWidth_eq, BitVec.getLsbD_and, hb,
    BitVec.getLsbD_ofNat, Nat.testBit_two_pow_sub_one]
  simp [h32, hi]

end Sys2Proof.Machine

open Sys2Proof Sys2Proof.Machine

/-- Settles O13, control by control: ENABLE, FENCE set and cleared, SOFT_RESET begun and done, the causes and the two keys. -/
theorem headerControlsActOnTheBlock : Obligations.HeaderControlsActOnTheBlock := by
  intro s hc who p hn hp hro
  have hwf := regsWf_ctrlArrived hc p who
  have hpg := pagesWf_ctrlArrived hc p who
  have hen : (s.ctrlArrived p who).flag p Reg.BLK_CTRL_ENABLE = s.flag p Reg.BLK_CTRL_ENABLE :=
    flag_ctrlArrived hc p who (by decide) (by decide)
  have hfe : (s.ctrlArrived p who).flag p Reg.BLK_CTRL_FENCE = s.flag p Reg.BLK_CTRL_FENCE :=
    flag_ctrlArrived hc p who (by decide) (by decide)
  have hlock (key : Word) : Sys2Proof.Claims.Completes (.blkLockWrite who p key) s fun t =>
      (t.page p).lock = (s.page p).lock.next who key :=
    ⟨_, blkLockWrite_next hn hp hro who key, lock_setLock_countWrite hc.pages p _⟩
  refine ⟨fun hb on => ?_, fun hb => ?_, fun hb hl hset => ?_, fun hr => ?_, fun hr => ?_, fun bits => ?_, hlock _, fun ha => ?_,
    fun key h1 h2 => ?_⟩
  · obtain ⟨g, hf⟩ := fenceIs_held hwf ((ctrlBits_fence on false _).trans hfe.symm) who ((s.arrived p who).unlockedFor p who)
    have he := enableIs_enableWrite hf.wf (hf.pagesWf hpg) hb on
    refine ⟨_, enableWrite_next hn hp hro who on, he.enable, fun hoff hwas => ?_, fun hon => ?_⟩
    · rw [he.page, hf.enable, hen, hoff, hwas]; rfl
    · rw [he.page, hon]; rfl
  · have hf := fenceIs_setFence hwf p true
    have he := enableIs_enableWrite hf.wf (hf.pagesWf hpg) hb (s.flag p Reg.BLK_CTRL_ENABLE)
    have hnext := fenceWrite_next hn hp hro who true
    rw [fenceWrite_set (ctrlBits_fence _ _ _)] at hnext
    exact ⟨_, hnext, he.fence.trans hf.fence, he.fenced.trans hf.fenced⟩
  · obtain ⟨hun, hlk⟩ := ctrlArrived_unlocked hc p who hl
    have hf := fenceIs_setFence hwf p false
    have he := enableIs_enableWrite hf.wf (hf.pagesWf hpg) hb (s.flag p Reg.BLK_CTRL_ENABLE)
    have hnext := fenceWrite_next hn hp hro who false
    rw [hun, fenceWrite_clear (ctrlBits_fence _ _ _) (hfe.trans hset)] at hnext
    refine ⟨_, hnext, he.fence.trans hf.fence, he.fenced.trans hf.fenced, ?_⟩
    rw [he.page, hf.page]
    exact hlk
  · obtain ⟨u, hu⟩ := softReset_next hn hp hro who hc hr
    have hpage := page_softReset u p
    exact ⟨_, hu, congrArg PageSt.resetting hpage, congrArg PageSt.staged hpage, congrArg PageSt.snaps hpage,
      congrArg PageSt.lock hpage⟩
  · refine ⟨s.softResetDone p, ?_, ?_⟩
    · exact congrArg (fun q => Host.Outcome.next (s.softResetDone q)) hn
    · rw [softResetDone_eq hr]
      exact ⟨congrArg PageSt.resetting (page_setPage_same hc.pages p _), rfl⟩
  · refine ⟨_, congrArg Host.Outcome.next ((busWrite_header hn hp hro (by decide) (by decide) who bits).trans
      (headerWrite_intSet hro _ who bits)), fun i hi hb => cause_intSet (regsWf_arrived hc.regs p who) p hi hb _⟩
  · obtain ⟨t, ht, hl⟩ := hlock 0x0B1A
    exact ⟨t, ht, hl.trans (by simp [Lock.next, ha])⟩
  · obtain ⟨t, ht, hl⟩ := hlock key
    refine ⟨t, ht, hl.trans ?_⟩
    rw [Lock.next, if_neg h1, if_neg (not_and_or.mpr h2)]
end

section
/-!
SUPPORT. A hart's access to a line that its L2 holds: the bytes it brings, the bytes it stores, and the reservations that a
store ends (R446, R451, R452, R474, R476).
-/
open Sys2Proof.Claims

namespace Sys2Proof.Machine

/-! Answers and reservations. -/

/-- The hart's access brings it r. -/
def Answered (t : State) (h : Nat) (r : Reply) : Prop := t.reply = some r ∧ mget (fun _ => .illegal) t.cpu.answers h = r

theorem answered_hartAnswer (s : State) (h : Nat) (r : Reply) : Answered (s.hartAnswer h r) h r :=
  ⟨rfl, (mget_minsert s.cpu.answers h h r).trans (if_pos rfl)⟩

theorem hart_setHart {s : State} (hr : rising s.cpu.harts = true) (h k : Nat) (v : HartSt) :
    (s.setHart h v).hart k = if k = h then v else s.hart k := mget_mput_rising hr h k v

theorem resv_setResv {s : State} (hr : rising s.cpu.harts = true) (h : Nat) (r : Option Nat) : ((s.setResv h r).hart h).resv = r := by
  rw [State.setResv, hart_setHart hr, if_pos rfl]

theorem hart_setResv_of_ne {s : State} (hr : rising s.cpu.harts = true) {h k : Nat} (hk : k ≠ h) (r : Option Nat) :
    (s.setResv h r).hart k = s.hart k := by
  rw [State.setResv, hart_setHart hr, if_neg hk]

/-- What a map makes of every value it makes of the value read, where it keeps the default. -/
theorem mget_map {α : Type} {d : Nat → α} {f : α → α} {k : Nat} (hd : f (d k) = d k) (m : List (Nat × α)) :
    mget d (m.map fun x => (x.1, f x.2)) k = f (mget d m k) := by
  induction m with
  | nil => exact hd.symm
  | cons x m ih =>
    obtain ⟨j, v⟩ := x
    simp only [List.map_cons, mget, ih]
    split
    · rfl
    · split
      · exact hd.symm
      · rfl

/-- A hart once a line is written: its reservation of it has ended. -/
def HartSt.freed (v : HartSt) (line : Nat) : HartSt := if v.resv = some line then { v with resv := none } else v

theorem resv_freed_ne (v : HartSt) (line : Nat) : (v.freed line).resv ≠ some line := by
  unfold HartSt.freed
  split
  · exact (Option.some_ne_none line).symm
  · assumption

theorem freed_of_none {v : HartSt} (h : v.resv = none) (line : Nat) : v.freed line = v := by
  rw [HartSt.freed, h, if_neg (Option.some_ne_none line).symm]

theorem hart_dropResv (s : State) (line k : Nat) : (s.dropResv line).hart k = (s.hart k).freed line :=
  mget_map (f := fun v => HartSt.freed v line) (freed_of_none rfl line) s.cpu.harts

/-! The lines of an L2. -/

/-- The lines of the L2s stand at rising keys: the part of Canon that reads and writes of them rest on. -/
abbrev State.l2Rising (s : State) : Prop := rising s.homeSt.l2 = true

theorem l2Line_setL2 {s : State} (hr : s.l2Rising) (h line : Nat) (c : Option CLine) : (s.setL2 h line c).l2Line h line = c := by
  have hget := mget_mput_rising (d := fun _ => none) hr (lineKey h line) (lineKey h line) c
  rw [if_pos rfl] at hget
  exact hget

theorem l2Rising_setL2 {s : State} (hr : s.l2Rising) (h line : Nat) (c : Option CLine) : (s.setL2 h line c).l2Rising :=
  rising_mput (d := fun _ => none) hr (lineKey h line) c

/-- The state in which the L2 owns a line that it may write: E became M (R474). -/
def State.owning (s : State) (h line : Nat) (c : CLine) : State :=
  if c.st = .m then s else s.setL2 h line (some { c with st := .m })

theorem owning_frame (s : State) (h line : Nat) (c : CLine) :
    ∃ hm, s.owning h line c = { s with memsys := { s.memsys with home := hm } } := by
  unfold State.owning
  split
  · exact ⟨_, rfl⟩
  · exact ⟨_, rfl⟩

theorem l2Line_owning {s : State} (hr : s.l2Rising) {h line : Nat} {c : CLine} (hl : s.l2Line h line = some c) :
    (s.owning h line c).l2Line h line = some { c with st := .m } := by
  unfold State.owning
  split
  · rename_i hm
    rw [hl, ← hm]
  · exact l2Line_setL2 hr h line _

theorem l2Rising_owning {s : State} (hr : s.l2Rising) (h line : Nat) (c : CLine) : (s.owning h line c).l2Rising := by
  unfold State.owning
  split
  · exact hr
  · exact l2Rising_setL2 hr h line _

theorem cbDrain_of_none {s : State} {f : CbEnt → Bool} (h : ∀ e ∈ s.homeSt.cb, f e = false) : s.cbDrain f = s := by
  have hnil : s.homeSt.cb.filter f = [] := List.filter_eq_nil_iff.mpr fun e he => by simp [h e he]
  rw [State.cbDrain, hnil, List.foldl_nil]

section
variable {s : State} {h line : Nat} {c : CLine} (hcb : ∀ e ∈ s.homeSt.cb, e.hart ≠ h) (hl : s.l2Line h line = some c)
include hcb

theorem cbDrain_own : s.cbDrain (fun e => e.hart == h) = s :=
  cbDrain_of_none fun e he => beq_eq_false_iff_ne.mpr (hcb e he)

theorem cbDrain_ownLine : s.cbDrain (fun e => e.hart == h && e.line == line) = s :=
  cbDrain_of_none fun e he => by simp [hcb e he]

include hl

theorem hartGet_read (err : TierFail) : s.hartGet h line false err = (0, c.data, s) := by
  simp [State.hartGet, State.hartLine, cbDrain_ownLine hcb, hl]

theorem hartGet_write (hst : c.st = .m ∨ c.st = .e) (err : TierFail) : s.hartGet h line true err = (0, c.data, s.owning h line c) := by
  obtain hm | he := hst
  · simp [State.hartGet, State.hartLine, cbDrain_ownLine hcb, hl, hm, State.owning]
  · simp [State.hartGet, State.hartLine, cbDrain_ownLine hcb, hl, he, State.owning]

end

/-! An access inside one line. -/

theorem accessParts_line {a n : Nat} (hn : 0 < n) (hfit : a % 64 + n ≤ 64) (pb : Option Nat) :
    accessParts a n pb = [(a / 64, a % 64, n)] := by
  have hcount : (a + n - 1) / 64 - a / 64 + 1 = 1 := by omega
  have hlo : max a (a / 64 * 64) = a := by omega
  have hhi : min (a + n) (a / 64 * 64 + 64) = a + n := by omega
  have hoff : a - a / 64 * 64 = a % 64 := by omega
  have hlen : a + n - a = n := by omega
  have hparts : rpParts a n = [(a / 64, a % 64, n)] := by
    simp only [rpParts, if_neg (Nat.ne_of_gt hn), hcount, List.range_one, List.map_cons, List.map_nil, Nat.add_zero, hlo, hhi, hoff,
      hlen]
  have hpage : n ≤ 4096 - a % 4096 := by omega
  cases pb with
  | none => exact hparts
  | some b => exact (if_pos hpage).trans hparts

theorem hartBytes_line {s t : State} {h l lo n : Nat} {w : Bool} {err : TierFail} {bs : List Byte}
    (hget : s.hartGet h l w err = (0, bs, t)) : s.hartBytes h [(l, lo, n)] w err = (0, l * 64 + lo, (bs.drop lo).take n, t) := by
  simp [State.hartBytes, hget]

theorem hartStore_line (s : State) (h l lo n : Nat) (bs : List Byte) : s.hartStore h [(l, lo, n)] bs =
    s.hartPut h l ((2 ^ n - 1) * 2 ^ lo) (List.replicate lo 0 ++ bs.take n ++ List.replicate (64 - lo - n) 0) := rfl

theorem hartPut_held {s : State} {h l : Nat} {c : CLine} (hl : s.l2Line h l = some c) (mask : Nat) (bs : List Byte) :
    s.hartPut h l mask bs = (s.setL2 h l (some { c with data := overlay mask c.data bs })).dropResv l := by
  simp only [State.hartPut, hl]

theorem length_leBytes (v n : Nat) : (leBytes v n).length = n := by
  induction n generalizing v with
  | zero => rfl
  | succ n ih => rw [leBytes, List.length_cons, ih]

section
variable {u : State} {h : Nat} {c : CLine} {a : BitVec 52} {n : Nat} (hu : u.l2Line h (a.toNat / 64) = some { c with st := .m })
include hu

/-- A store into a line that the L2 owns replaces its bytes and ends the reservations of the line. -/
theorem hartStore_owned (v : Nat) : u.hartStore h [(a.toNat / 64, a.toNat % 64, n)] (leBytes v n) =
    (u.setL2 h (a.toNat / 64) (some (lineWith c a n (leBytes v n)))).dropResv (a.toNat / 64) := by
  rw [hartStore_line, hartPut_held hu, List.take_of_length_le (by rw [length_leBytes])]
  rfl

theorem l2Line_hartStore (hr : u.l2Rising) (v : Nat) :
    (u.hartStore h [(a.toNat / 64, a.toNat % 64, n)] (leBytes v n)).l2Line h (a.toNat / 64) = some (lineWith c a n (leBytes v n)) := by
  rw [hartStore_owned hu]
  exact l2Line_setL2 hr h _ _

theorem hart_hartStore (v k : Nat) : (u.hartStore h [(a.toNat / 64, a.toNat % 64, n)] (leBytes v n)).hart k =
    (u.hart k).freed (a.toNat / 64) := by
  rw [hartStore_owned hu, hart_dropResv]
  rfl

theorem hartStore_frame (v : Nat) : ∃ hm cp, u.hartStore h [(a.toNat / 64, a.toNat % 64, n)] (leBytes v n) =
    { u with memsys := { u.memsys with home := hm }, cpu := cp } := by
  rw [hartStore_owned hu]
  exact ⟨_, _, rfl⟩

end

/-! What each operation makes of its bytes. -/

section
variable {s s1 : State} {h : Nat} {va : DWord} {a n fa : Nat} {pb : Option Nat} {data bs : List Byte} {err : TierFail}
  (hparts : accessParts a n pb = [(a / 64, a % 64, n)])
include hparts

section
variable (hbs : s.hartBytes h [(a / 64, a % 64, n)] false err = (0, fa, bs, s1))
include hbs

theorem hartTiered_load : s.hartTiered h va .load a n pb data false err = s1.hartAnswer h (.bytes bs) := by
  simp [State.hartTiered, HartOp.writes, hparts, hbs]

theorem hartTiered_fetch : s.hartTiered h va .fetch a n pb data false err = s1.hartAnswer h (.bytes bs) := by
  simp [State.hartTiered, HartOp.writes, hparts, hbs]

theorem hartTiered_lr :
    s.hartTiered h va .lr a n pb data false err = (s1.setResv h (some (a / 64))).hartAnswer h (.bytes bs) := by
  simp [State.hartTiered, HartOp.writes, hparts, hbs]

end

section
variable (hbs : s.hartBytes h [(a / 64, a % 64, n)] true err = (0, fa, bs, s1))
include hbs

theorem hartTiered_store : s.hartTiered h va .store a n pb data false err = s1.hartStore h [(a / 64, a % 64, n)] data := by
  simp [State.hartTiered, HartOp.writes, hparts, hbs]

theorem hartTiered_amo (o : AmoOp) : s.hartTiered h va (.amo o) a n pb data false err =
    (s1.hartStore h [(a / 64, a % 64, n)] (leBytes (amoResult o n (leNat bs) (leNat data)) n)).hartAnswer h (.bytes bs) := by
  simp [State.hartTiered, HartOp.writes, hparts, hbs]

end

end

section
variable {s : State} {h : Nat} (va : DWord) {a n : Nat} (pb : Option Nat) (data : List Byte) (err : TierFail)

/-- SC without its reservation stores nothing. -/
theorem hartTiered_sc_fails (hres : (s.hart h).resv ≠ some (a / 64)) : s.hartTiered h va .sc a n pb data false err =
    (s.setResv h none).hartAnswer h (.bytes (leBytes 1 8)) := by
  simp [State.hartTiered, State.hartSc, hres]

/-- SC while its reservation stands stores, and uses it up. -/
theorem hartTiered_sc_stores {s1 : State} {fa : Nat} {bs : List Byte} {err : TierFail} (hparts : rpParts a n = [(a / 64, a % 64, n)])
    (hcb : ∀ e ∈ s.homeSt.cb, e.hart ≠ h) (hres : (s.hart h).resv = some (a / 64)) (hres1 : (s1.hart h).resv = some (a / 64))
    (hbs : s.hartBytes h [(a / 64, a % 64, n)] true err = (0, fa, bs, s1)) : s.hartTiered h va .sc a n pb data false err =
    ((s1.setResv h none).hartStore h [(a / 64, a % 64, n)] data).hartAnswer h (.bytes (leBytes 0 8)) := by
  simp [State.hartTiered, State.hartSc, hparts, cbDrain_own hcb, hres, hres1, hbs]

end

/-! The ranges of a hart's address (R29, R36, R45). -/

theorem windowPort_none {a : Nat} (ha : a < 2 ^ 43) : windowPort a = none := if_neg (by omega)

theorem aboveWindows_false {a : Nat} (ha : a < 2 ^ 43) : aboveWindows a = false := decide_eq_false (by omega)

/-- An access below the windows, aligned where it must be and inside one line, is to tiered memory where that is backed. -/
theorem hartAt_line {s : State} {a n : Nat} {op : HartOp} (ha : a < 2 ^ 43) (hn : 0 < n) (hfit : a % 64 + n ≤ 64)
    (hmis : misalignedAtomic op a n = false) (h : HartId) (va : DWord) (pb : Option Nat) (data : Nat) (rl vec : Bool)
    (err : TierFail) : s.hartAt h va op a n pb data rl vec err =
      if s.backed (a / 64 * 64) then s.hartTiered h.val va op a n pb (leBytes data n) rl err
      else s.hartFault h.val va a 0x13 (HartOp.kind op) := by
  simp only [State.hartAt, aboveWindows_false ha, windowPort_none ha, hmis, accessParts_line hn hfit, Bool.false_eq_true, if_false,
    List.all_cons, List.all_nil, Bool.and_true]
  cases s.backed (a / 64 * 64) <;> rfl

theorem hartAt_misaligned {s : State} {a n : Nat} {op : HartOp} (ha : a < 2 ^ 43) (hmis : misalignedAtomic op a n = true)
    (h : HartId) (va : DWord) (pb : Option Nat) (data : Nat) (rl vec : Bool) (err : TierFail) :
    s.hartAt h va op a n pb data rl vec err = s.hartAnswer h.val (.misaligned va) := by
  simp only [State.hartAt, aboveWindows_false ha, windowPort_none ha, hmis, Bool.false_eq_true, if_false, if_true]

theorem hartAt_register {s : State} {a : Nat} (ha : 2 ^ 43 + 2 ^ 42 ≤ a) (h : HartId) (va : DWord) (op : HartOp) (n : Nat)
    (pb : Option Nat) (data : Nat) (rl vec : Bool) (err : TierFail) :
    s.hartAt h va op a n pb data rl vec err = s.hartRegister h va op a n vec data := if_pos (decide_eq_true ha)

section
variable {s : State} {h : HartId}

theorem hartMemoryAccess_idle (hr : s.hartRuns h = false) (op : HartOp) (va : DWord) (pa pb : Option (BitVec 52)) (size : Fin 4)
    (data : DWord) (rl vec : Bool) (err : TierFail) : exec (.hartMemoryAccess h op va pa pb size data rl vec err) s = .next s :=
  if_pos (by rw [hr]; rfl)

theorem hartMemoryAccess_untranslated (hr : s.hartRuns h = true) (op : HartOp) (va : DWord) (pb : Option (BitVec 52))
    (size : Fin 4) (data : DWord) (rl vec : Bool) (err : TierFail) :
    exec (.hartMemoryAccess h op va none pb size data rl vec err) s = .next (s.hartAnswer h.val (.translation va)) :=
  if_neg (by rw [hr]; decide)

/-- A translated access inside one page is made at its system address. -/
theorem hartMemoryAccess_at (hr : s.hartRuns h = true) {va : DWord} {size : Fin 4} (hva : va.toNat % 4096 + 2 ^ size.val ≤ 4096)
    (op : HartOp) (a : BitVec 52) (pb : Option (BitVec 52)) (data : DWord) (rl vec : Bool) (err : TierFail) :
    exec (.hartMemoryAccess h op va (some a) pb size data rl vec err) s =
      .next (s.hartAt h va op a.toNat (2 ^ size.val) (pb.map (·.toNat)) data.toNat rl vec err) :=
  (if_neg (by rw [hr]; decide)).trans (if_neg fun hx => by obtain ⟨hlt, -⟩ := hx; omega)

end

end Sys2Proof.Machine
end

section
/-!
SUPPORT. The memory accesses of a hart, operation by operation: a line that its L2 holds, what is misaligned or not backed, and
register space (R45, R446, R451, R452, R468).
-/
open Sys2Proof.Claims

namespace Sys2Proof.Machine

/-! A line that the L2 holds. -/

section
variable {s : State} (hc : Canon s) {h : HartId} {va : DWord} {a : BitVec 52} {size : Fin 4} {c : CLine}
  (hit : Hit s h va a (2 ^ size.val) c) (pb : Option (BitVec 52)) (data : DWord) (vec : Bool) (err : TierFail)
include hit

theorem hit_next {op : HartOp} (hmis : misalignedAtomic op a.toNat (2 ^ size.val) = false) :
    exec (.hartMemoryAccess h op va (some a) pb size data false vec err) s = .next (s.hartTiered h.val va op a.toNat (2 ^ size.val)
      (pb.map (·.toNat)) (leBytes data.toNat (2 ^ size.val)) false err) := by
  obtain ⟨hruns, ha, hb, hfit, hva, -, -⟩ := hit
  rw [hartMemoryAccess_at hruns hva, hartAt_line ha (Nat.two_pow_pos _) hfit hmis, if_pos hb]

theorem hit_parts : accessParts a.toNat (2 ^ size.val) (pb.map (·.toNat)) =
    [(a.toNat / 64, a.toNat % 64, 2 ^ size.val)] := by
  obtain ⟨-, -, -, hfit, -, -, -⟩ := hit
  exact accessParts_line (Nat.two_pow_pos _) hfit _

theorem hit_bytes_read : s.hartBytes h.val [(a.toNat / 64, a.toNat % 64, 2 ^ size.val)] false err =
    (0, a.toNat / 64 * 64 + a.toNat % 64, bytesAt c a (2 ^ size.val), s) := by
  obtain ⟨-, -, -, -, -, hl, hcb⟩ := hit
  exact hartBytes_line (hartGet_read hcb hl err)

theorem hit_bytes_write (hst : c.st = .m ∨ c.st = .e) :
    s.hartBytes h.val [(a.toNat / 64, a.toNat % 64, 2 ^ size.val)] true err =
      (0, a.toNat / 64 * 64 + a.toNat % 64, bytesAt c a (2 ^ size.val), s.owning h.val (a.toNat / 64) c) := by
  obtain ⟨-, -, -, -, -, hl, hcb⟩ := hit
  exact hartBytes_line (hartGet_write hcb hl hst err)

theorem hit_owned (hr : s.l2Rising) :
    (s.owning h.val (a.toNat / 64) c).l2Line h.val (a.toNat / 64) = some { c with st := .m } := by
  obtain ⟨-, -, -, -, -, hl, -⟩ := hit
  exact l2Line_owning hr hl

theorem hit_load : exec (.hartMemoryAccess h .load va (some a) pb size data false vec err) s =
    .next (s.hartAnswer h.val (.bytes (bytesAt c a (2 ^ size.val)))) := by
  rw [hit_next hit pb data vec err rfl, hartTiered_load (hit_parts hit pb) (hit_bytes_read hit err)]

theorem hit_fetch : exec (.hartMemoryAccess h .fetch va (some a) pb size data false vec err) s =
    .next (s.hartAnswer h.val (.bytes (bytesAt c a (2 ^ size.val)))) := by
  rw [hit_next hit pb data vec err rfl, hartTiered_fetch (hit_parts hit pb) (hit_bytes_read hit err)]

include hc

/-- A store that may write: the line takes the bytes, its reservations end, and nothing else of the memory system changes. -/
theorem hit_store (hst : c.st = .m ∨ c.st = .e) :
    Completes (.hartMemoryAccess h .store va (some a) pb size data false vec err) s fun t =>
      t.l2Line h.val (a.toNat / 64) = some (lineWith c a (2 ^ size.val) (leBytes data.toNat (2 ^ size.val))) ∧
      (∀ k, (t.hart k).resv ≠ some (a.toNat / 64)) ∧ t.memsys.dram = s.memsys.dram ∧ t.place = s.place := by
  have hu := hit_owned hit hc.l2
  have hexec := hit_next hit (op := .store) pb data vec err rfl
  rw [hartTiered_store (hit_parts hit pb) (hit_bytes_write hit err hst)] at hexec
  obtain ⟨hm, hown⟩ := owning_frame s h.val (a.toNat / 64) c
  obtain ⟨hm', cp, hstore⟩ := hartStore_frame (n := 2 ^ size.val) hu data.toNat
  refine ⟨_, hexec, l2Line_hartStore hu (l2Rising_owning hc.l2 _ _ _) _, fun k => ?_, ?_, ?_⟩
  · rw [hart_hartStore hu]
    exact resv_freed_ne _ _
  · rw [hstore, hown]
  · rw [hstore, hown]

section
variable (hal : a.toNat % 2 ^ size.val = 0)
include hal

theorem hit_lr : Completes (.hartMemoryAccess h .lr va (some a) pb size data false vec err) s fun t =>
    Answered t h.val (.bytes (bytesAt c a (2 ^ size.val))) ∧ (t.hart h.val).resv = some (a.toNat / 64) ∧ t.memsys = s.memsys ∧
    ∀ k, k ≠ h.val → t.hart k = s.hart k := by
  have hexec := hit_next hit (op := .lr) pb data vec err (by simp [misalignedAtomic, hal])
  rw [hartTiered_lr (hit_parts hit pb) (hit_bytes_read hit err)] at hexec
  exact ⟨_, hexec, answered_hartAnswer _ _ _, resv_setResv hc.harts _ _, rfl, fun k hk => hart_setResv_of_ne hc.harts hk _⟩

theorem hit_sc_fails (hres : (s.hart h.val).resv ≠ some (a.toNat / 64)) :
    Completes (.hartMemoryAccess h .sc va (some a) pb size data false vec err) s fun t =>
      Answered t h.val (.bytes (leBytes 1 8)) ∧ (t.hart h.val).resv = none ∧ t.memsys = s.memsys := by
  have hexec := hit_next hit (op := .sc) pb data vec err (by simp [misalignedAtomic, hal])
  rw [hartTiered_sc_fails va _ _ err hres] at hexec
  exact ⟨_, hexec, answered_hartAnswer _ _ _, resv_setResv hc.harts _ _, rfl⟩

theorem hit_sc_stores (hres : (s.hart h.val).resv = some (a.toNat / 64)) (hst : c.st = .m ∨ c.st = .e) :
    Completes (.hartMemoryAccess h .sc va (some a) pb size data false vec err) s fun t =>
      Answered t h.val (.bytes (leBytes 0 8)) ∧ (t.hart h.val).resv = none ∧
      t.l2Line h.val (a.toNat / 64) = some (lineWith c a (2 ^ size.val) (leBytes data.toNat (2 ^ size.val))) := by
  obtain ⟨hm, hown⟩ := owning_frame s h.val (a.toNat / 64) c
  have hharts : (s.owning h.val (a.toNat / 64) c).cpu = s.cpu := by rw [hown]
  have hres1 : ((s.owning h.val (a.toNat / 64) c).hart h.val).resv = some (a.toNat / 64) := by
    rw [State.hart, hharts]
    exact hres
  have hr1 : rising (s.owning h.val (a.toNat / 64) c).cpu.harts = true := hharts ▸ hc.harts
  have hu : ((s.owning h.val (a.toNat / 64) c).setResv h.val none).l2Line h.val (a.toNat / 64) = some { c with st := .m } :=
    hit_owned hit hc.l2
  have hcb : ∀ e ∈ s.homeSt.cb, e.hart ≠ h.val := by
    obtain ⟨-, -, -, -, -, -, hcb⟩ := hit
    exact hcb
  have hexec := hit_next hit (op := .sc) pb data vec err (by simp [misalignedAtomic, hal])
  rw [hartTiered_sc_stores va _ _ (hit_parts hit none) hcb hres hres1 (hit_bytes_write hit err hst)] at hexec
  refine ⟨_, hexec, answered_hartAnswer _ _ _, ?_, l2Line_hartStore hu (l2Rising_owning hc.l2 _ _ _) _⟩
  have hnone := resv_setResv hr1 h.val none
  refine (congrArg HartSt.resv (hart_hartStore hu data.toNat h.val)).trans ?_
  rw [freed_of_none hnone, hnone]

theorem hit_amo (o : AmoOp) (hst : c.st = .m ∨ c.st = .e) :
    Completes (.hartMemoryAccess h (.amo o) va (some a) pb size data false vec err) s fun t =>
      Answered t h.val (.bytes (bytesAt c a (2 ^ size.val))) ∧ (∀ k, (t.hart k).resv ≠ some (a.toNat / 64)) ∧
      t.l2Line h.val (a.toNat / 64) = some (lineWith c a (2 ^ size.val) (leBytes (amoResult o (2 ^ size.val)
        (leNat (bytesAt c a (2 ^ size.val))) (leNat (leBytes data.toNat (2 ^ size.val)))) (2 ^ size.val))) := by
  have hu := hit_owned hit hc.l2
  have hexec := hit_next hit (op := .amo o) pb data vec err (by simp [misalignedAtomic, hal])
  rw [hartTiered_amo (hit_parts hit pb) (hit_bytes_write hit err hst)] at hexec
  refine ⟨_, hexec, answered_hartAnswer _ _ _, fun k => ?_, l2Line_hartStore hu (l2Rising_owning hc.l2 _ _ _) _⟩
  have hresv := resv_freed_ne ((s.owning h.val (a.toNat / 64) c).hart k) (a.toNat / 64)
  rwa [← hart_hartStore hu] at hresv

end

end

/-! What is misaligned or not backed. -/

section
variable {s : State} (h : HartId) (va : DWord) (addr code kind : Nat)

theorem hartCapture_memsys : (s.hartCapture h.val addr code kind).memsys = s.memsys := by
  obtain ⟨r, cp, hcap⟩ := (capture_writes s (cpuclPageOf s h.val) (blkCode (cpuclPageOf s h.val).blk * 256 + 0) 0 0 0
    (bitsOf addr 6 32) (bitsOf addr 38 14 + code * 2 ^ 16 + kind * 2 ^ 24 + h.val % 2 * 2 ^ 27)).frame
  rw [State.hartCapture, State.blockErr, hcap]

/-- A failed access brings its exception, and its error is captured on the CPU cluster's page. -/
theorem hartFault_spec (hr : s.regsWf) : Answered (s.hartFault h.val va addr code kind) h.val
      (if kind = 0 then .loadFault va else if kind = 1 then .fetchFault va else .storeFault va) ∧
    (s.hartFault h.val va addr code kind).memsys = s.memsys ∧
    (s.hartFault h.val va addr code kind).flag (cpuclPageOf s h.val) Reg.BLK_STAT_ERR = true :=
  ⟨answered_hartAnswer _ _ _, hartCapture_memsys h addr code kind, flag_capture _ _ _ _ _ _ _ hr⟩

end

/-! Register space (R45). -/

/-- Register space takes aligned words of scalar accesses alone. -/
theorem notWordAccess_of {n a : Nat} {vec : Bool} (hbad : n ≠ 4 ∨ a % 4 ≠ 0 ∨ vec = true) :
    (n == 4 && a % 4 == 0 && !vec) = false := by
  obtain h | h | h := hbad <;> simp [h]

section
variable {s : State} {h : HartId} {va : DWord} {a : Nat} {p : Page} {off : Nat} (hdec : s.decodeReg a = some (p, off))
include hdec

theorem hartRegister_load {data : Nat} (hal : a % 4 = 0) : s.hartRegister h va .load a 4 false data =
    (s.busRead (.hart h) p off).2.hartAnswer h.val (.word (s.busRead (.hart h) p off).1) := by
  simp [State.hartRegister, hdec, hal]

theorem hartRegister_store {data : Nat} (hal : a % 4 = 0) :
    s.hartRegister h va .store a 4 false data = s.busWrite (.hart h) p off (BitVec.ofNat 32 data) := by
  simp [State.hartRegister, hdec, hal]

section
variable {n : Nat} {vec : Bool} (hbad : n ≠ 4 ∨ a % 4 ≠ 0 ∨ vec = true)
include hbad

theorem hartRegister_load_refused (data : Nat) : s.hartRegister h va .load a n vec data = s.hartAnswer h.val (.loadFault va) := by
  simp [State.hartRegister, hdec, notWordAccess_of hbad, State.hartRefuse, HartOp.kind]

theorem hartRegister_store_refused (data : Nat) : s.hartRegister h va .store a n vec data = s.hartAnswer h.val (.storeFault va) := by
  simp [State.hartRegister, hdec, notWordAccess_of hbad, State.hartRefuse, HartOp.kind]

end

end

end Sys2Proof.Machine

open Sys2Proof Sys2Proof.Machine

/-- Settles O46, by the address: no translation, a line that the L2 holds (operation by operation), what is misaligned or not
backed, and register space. -/
theorem hartsLoadStoreAndReserve : Obligations.HartsLoadStoreAndReserve := by
  intro s hc h va a pb size data vec err n line answered
  refine ⟨fun op pa rl hr => hartMemoryAccess_idle hr _ _ _ _ _ _ _ _ _,
    fun op rl hr => ⟨_, hartMemoryAccess_untranslated hr _ _ _ _ _ _ _ _, answered_hartAnswer _ _ _, rfl⟩,
    fun c hit => ⟨⟨_, hit_load hit _ _ _ _, answered_hartAnswer _ _ _, rfl, rfl⟩,
      ⟨_, hit_fetch hit _ _ _ _, answered_hartAnswer _ _ _, rfl, rfl⟩, hit_store hc hit _ _ _ _,
      fun hal => ⟨hit_lr hc hit _ _ _ _ hal, hit_sc_fails hc hit _ _ _ _ hal, hit_sc_stores hc hit _ _ _ _ hal,
        hit_amo hc hit _ _ _ _ hal⟩⟩,
    fun op hr ha hva => ⟨fun hmis => ?_, fun hmis hb hfit => ?_⟩,
    fun hr ha hva p off hdec => ⟨fun hn hal hvec => ?_, fun hbad => ?_⟩⟩
  · refine ⟨_, (hartMemoryAccess_at hr hva _ _ _ _ _ _ _).trans (congrArg _ (hartAt_misaligned ha hmis _ _ _ _ _ _ _)),
      answered_hartAnswer _ _ _, rfl⟩
  · have hexec := hartMemoryAccess_at hr hva op a pb data false vec err
    rw [hartAt_line ha (Nat.two_pow_pos _) hfit hmis, if_neg (by rw [hb]; decide)] at hexec
    exact ⟨_, hexec, hartFault_spec h va _ _ _ hc.regs⟩
  · subst hvec
    have hexec (op : HartOp) := hartMemoryAccess_at hr hva op a pb data false false err
    have hn4 : 2 ^ size.val = 4 := hn
    simp only [hartAt_register ha, hn4] at hexec
    refine ⟨⟨_, hexec .load, ?_⟩, ?_⟩
    · rw [hartRegister_load hdec hal]
      exact answered_hartAnswer _ _ _
    · rw [hexec .store, hartRegister_store hdec hal]
  · have hexec (op : HartOp) := hartMemoryAccess_at hr hva op a pb data false vec err
    simp only [hartAt_register ha] at hexec
    refine ⟨⟨_, hexec .load, ?_⟩, _, hexec .store, ?_⟩
    · rw [hartRegister_load_refused hdec hbad]
      exact ⟨answered_hartAnswer _ _ _, rfl⟩
    · rw [hartRegister_store_refused hdec hbad]
      exact ⟨answered_hartAnswer _ _ _, rfl⟩
end

section
/-!
SUPPORT. What the work around a drain leaves alone: interrupts, counters, storage errors, poison, the bank calendar (R115, R274,
R276, R282).
-/
open Sys2Proof.Claims

namespace Sys2Proof.Machine

theorem core_setCore_same {s : State} (h : rising s.cores = true) (pd : PD) (mc : MC) (c : CoreSt) :
    (s.setCore pd mc c).core pd mc = c :=
  (mget_mput_rising h _ _ c).trans (if_pos rfl)

theorem rising_setCore {s : State} (h : rising s.cores = true) (pd : PD) (mc : MC) (c : CoreSt) :
    rising (s.setCore pd mc c).cores = true :=
  rising_mput (d := fun _ => ({} : CoreSt)) h _ c

/-- t has s's context, drain queue and numeric flags of the core, s's states of the slabs of Tier S, and the bytes m there. -/
structure DrainFrame (pd : PD) (mc : MC) (s t : State) (m : List (Nat × Byte)) : Prop where
  rising : rising s.cores = true → rising t.cores = true
  x : (t.core pd mc).x = (s.core pd mc).x
  dq : (t.core pd mc).dq = (s.core pd mc).dq
  nf : (t.core pd mc).nf = (s.core pd mc).nf
  slabs : t.tierS.slabs = s.tierS.slabs
  mem : t.tierS.mem = m

/-- A step that changes nothing that a drain reads or writes. -/
abbrev KeepsDrain (pd : PD) (mc : MC) (s t : State) : Prop := DrainFrame pd mc s t s.tierS.mem

section
variable {pd : PD} {mc : MC} {s t u : State}

theorem DrainFrame.trans {m m' : List (Nat × Byte)} (h : DrainFrame pd mc s t m) (h' : DrainFrame pd mc t u m') :
    DrainFrame pd mc s u m' where
  rising hs := h'.rising (h.rising hs)
  x := h'.x.trans h.x
  dq := h'.dq.trans h.dq
  nf := h'.nf.trans h.nf
  slabs := h'.slabs.trans h.slabs
  mem := h'.mem

theorem DrainFrame.of_cores {m : List (Nat × Byte)} (hc : t.cores = s.cores) (hs : t.tierS.slabs = s.tierS.slabs)
    (hm : t.tierS.mem = m) : DrainFrame pd mc s t m := by
  have hcore : t.core pd mc = s.core pd mc := congrArg (fun l => mget (fun _ => ({} : CoreSt)) l (coreKey pd mc)) hc
  exact ⟨fun h => hc ▸ h, by rw [hcore], by rw [hcore], by rw [hcore], hs, hm⟩

theorem KeepsDrain.refl (s : State) : KeepsDrain pd mc s s := .of_cores rfl rfl rfl

theorem KeepsDrain.trans (h : KeepsDrain pd mc s t) (h' : KeepsDrain pd mc t u) : KeepsDrain pd mc s u :=
  DrainFrame.trans h (m' := s.tierS.mem) (h.mem ▸ h')

theorem KeepsDrain.ite {c : Prop} [Decidable c] (h : KeepsDrain pd mc s t) (h' : KeepsDrain pd mc s u) :
    KeepsDrain pd mc s (if c then t else u) := by
  split
  · exact h
  · exact h'

/-- A change of the core's other registers. -/
theorem KeepsDrain.setCore (hs : rising s.cores = true) {c : CoreSt} (hx : c.x = (s.core pd mc).x)
    (hdq : c.dq = (s.core pd mc).dq) (hnf : c.nf = (s.core pd mc).nf) : KeepsDrain pd mc s (s.setCore pd mc c) where
  rising _ := rising_setCore hs pd mc c
  x := by rw [core_setCore_same hs, hx]
  dq := by rw [core_setCore_same hs, hdq]
  nf := by rw [core_setCore_same hs, hnf]
  slabs := rfl
  mem := rfl

/-- Registers, the CPU complex and the queues of events are none of a drain's. -/
theorem LogWrites.keepsDrain {K : Set Nat} (h : LogWrites K s t) : KeepsDrain pd mc s t := by
  obtain ⟨q, r, c, f, rfl⟩ := h.frame
  exact .of_cores rfl rfl rfl

theorem WritesOnly.keepsDrain {K : Set Nat} (h : WritesOnly K s t) : KeepsDrain pd mc s t := h.logWrites.keepsDrain

variable (s)

theorem setInt_keepsDrain (p : Page) (i : Nat) : KeepsDrain pd mc s (s.setInt p i) := (setInt_writes s p i).keepsDrain

theorem bump_keepsDrain (p : Page) (f : RegField) (n i : Nat) : KeepsDrain pd mc s (s.bump p f n i) :=
  (bump_writes s p f n i).keepsDrain

theorem blockErr_keepsDrain (p : Page) (num data info2 info3 : Nat) : KeepsDrain pd mc s (s.blockErr p num data info2 info3) :=
  (capture_writes s p _ _ _ _ _ _).keepsDrain

theorem calReserve_keepsDrain (runs : List CalRun) : KeepsDrain pd mc s (s.calReserve runs) := .of_cores rfl rfl rfl

theorem actTierS_keepsDrain (ld : Nat) (ctx : Option Nat) (n : Nat) : KeepsDrain pd mc s (s.actTierS ld ctx n) := by
  unfold State.actTierS State.actAdd
  split
  · exact (KeepsDrain.refl s).ite (.of_cores rfl rfl rfl)
  · exact .refl s

theorem sCorrected_keepsDrain (ld bank n : Nat) : KeepsDrain pd mc s (s.sCorrected ld bank n) := by
  have hb := bump_keepsDrain (pd := pd) (mc := mc) s (s.tsramPage ld) Reg.TSRAM_CE_COUNT n bank
  exact (hb.trans (setInt_keepsDrain _ _ 1)).ite hb

theorem issueErr_keepsDrain (err : IssueErr) : KeepsDrain pd mc s (s.issueErr pd mc err) := by
  cases err with
  | none => exact .refl s
  | accCe n =>
    have hb := bump_keepsDrain (pd := pd) (mc := mc) s (mcorePage pd mc) Reg.MCORE_ACC_CE_COUNT n.val 0
    exact (hb.trans (setInt_keepsDrain _ _ 4)).ite hb
  | tsCe b n => exact sCorrected_keepsDrain s _ _ _
  | tsUe a => exact .of_cores rfl rfl rfl
  | sumFlip i c m => exact .refl s
  | tcLine a => exact .refl s

theorem sDetect_keepsDrain (w cls : Nat) : KeepsDrain pd mc s (s.sDetect w cls) := by
  have hmark (d : List (Nat × Bool)) (p : Page) (data : Nat) : KeepsDrain pd mc s
      ((({ s with tierS := { s.tierS with detected := d } } : State).setFlag p Reg.TSRAM_STAT_POISON true).report p 2 data) :=
    .of_cores rfl rfl rfl
  have hshow (u : State) (p : Page) (v w : Word) :
      KeepsDrain pd mc u (if u.flag p Reg.TSRAM_UE_ADDR_HI_VALID then u else (u.setReg p 0x128 v).setReg p 0x12C w) :=
    (KeepsDrain.refl u).ite (.of_cores rfl rfl rfl)
  unfold State.sDetect
  split
  · exact .refl s
  · exact (hmark _ _ _).trans ((bump_keepsDrain _ _ _ 1 0).trans ((setInt_keepsDrain _ _ 2).trans
      ((hshow _ _ _ _).trans (blockErr_keepsDrain _ _ _ _ _ _))))

variable {s} (hs : rising s.cores = true)
include hs

theorem poisonFault_keepsDrain (e : QEnt) (hit : Option (Nat × Nat)) (arrive : Nat → Nat) :
    KeepsDrain pd mc s (s.poisonFault pd mc e hit arrive) := by
  cases hit with
  | none => exact .refl s
  | some w =>
    have hd := sDetect_keepsDrain (pd := pd) (mc := mc) s w.2 0
    exact hd.trans (.setCore (hd.rising hs) rfl rfl rfl)

/-- A free calendar lets the work issue, the end of a hold recorded and its runs reserved (R274, R276). -/
theorem calendar_free {runs : List CalRun} (hfree : s.calHolder runs = none) (go : State → State) :
    ∃ t, KeepsDrain pd mc s t ∧ s.calendar pd mc runs go = go t := by
  have hact (u : State) (ctx : Option Nat) :
      KeepsDrain pd mc u (runs.foldl (fun (t : State) r => t.actTierS r.ld ctx (r.count * r.nb)) u) :=
    List.foldlRecOn runs _ (.refl u) fun t ht r _ => ht.trans (actTierS_keepsDrain t _ _ _)
  have hend (data : Nat) : KeepsDrain pd mc s
      ((s.bump (diePage .tsram pd) Reg.TSRAM_HOLD_COUNT_COUNT).report (diePage .tsram pd) 1 data) :=
    (bump_keepsDrain s _ _ 1 0).trans (.of_cores rfl rfl rfl)
  unfold State.calendar
  rw [hfree]
  refine ⟨_, ?_, rfl⟩
  refine KeepsDrain.trans ?_ (hact _ _)
  refine KeepsDrain.trans ((KeepsDrain.refl s).ite ?_) (calReserve_keepsDrain _ _)
  exact (hend _).trans (.setCore ((hend _).rising hs) (hend _).x.symm (hend _).dq.symm (hend _).nf.symm)

end

end Sys2Proof.Machine
end

section
/-!
SUPPORT. The rows of a drain in Tier S, and the drain at the head of its queue: its scales read, its rows converted (R91, R142,
R187, R272, R280).
-/
open Sys2Proof.Claims

namespace Sys2Proof.Machine

/-! The rows of a drain in Tier S (R142, R280). -/

section
variable {pd : PD} {mc : MC} {s u : State} {m : List (Nat × Byte)}

/-- A scheduled write stores its bytes, an image's line kept. -/
theorem sWrite_drainFrame (h : DrainFrame pd mc s u m) (a : Nat) (bs : List Byte) :
    DrainFrame pd mc s (u.sWrite a bs).2 (if s.imageRo a then m else mputs tierSReset m a bs) := by
  have himage : u.imageRo a = s.imageRo a := by
    rw [State.imageRo, State.slab, h.slabs]
    rfl
  obtain rfl := h.mem
  rw [State.sWrite, himage]
  split
  · exact h.trans ((bump_keepsDrain u _ _ 1 0).trans (setInt_keepsDrain _ _ 4))
  · exact h.trans (.of_cores rfl rfl rfl)

/-- The lines of row i with the bytes bs, as scheduled writes leave them. -/
def storedRow (s : State) (t : BitVec 128) (i : Nat) (bs : List Byte) (m : List (Nat × Byte)) : List (Nat × Byte) :=
  (List.range ((bs.length + 127) / 128)).foldl (fun m j =>
    if s.imageRo (tdSeg t i j) then m else mputs tierSReset m (tdSeg t i j) ((bs.drop (128 * j)).take 128)) m

theorem storedRows_eq (s : State) (t : BitVec 128) (rows : List (List Byte)) (m : List (Nat × Byte)) :
    storedRows s t rows m = rows.zipIdx.foldl (fun m r => storedRow s t r.2 r.1 m) m := rfl

theorem drainRow_drainFrame (h : DrainFrame pd mc s u m) (t : BitVec 128) (i : Nat) (bs : List Byte) :
    DrainFrame pd mc s (u.drainRow t i bs).2 (storedRow s t i bs m) :=
  List.foldl_rel (r := fun (p : Bool × State) m => DrainFrame pd mc s p.2 m) h fun _ _ _ _ hp => sWrite_drainFrame hp _ _

/-- Rows written one after the other, with the first that was not written whole. -/
def State.drainRows (s : State) (t : BitVec 128) (ofmt : Nat) (out : List (List Nat)) : Option Nat × State :=
  out.zipIdx.foldl (fun p r =>
    (if p.1.isNone && !(p.2.drainRow t r.2 (outBytes ofmt r.1)).1 then some r.2 else p.1,
      (p.2.drainRow t r.2 (outBytes ofmt r.1)).2)) (none, s)

theorem drainRows_drainFrame (h : DrainFrame pd mc s u m) (t : BitVec 128) (ofmt : Nat) (out : List (List Nat)) :
    DrainFrame pd mc s (u.drainRows t ofmt out).2 (storedRows s t (out.map (outBytes ofmt)) m) := by
  rw [storedRows_eq, List.zipIdx_map, List.foldl_map]
  exact List.foldl_rel (r := fun (p : Option Nat × State) m => DrainFrame pd mc s p.2 m) h
    fun _ _ _ _ hp => drainRow_drainFrame hp t _ _

end

/-! What a drain leaves. -/

/-- The rows of a drain in vector registers. -/
def CoreCtx.drainRegs (x : CoreCtx) (vd : Nat) (out : List (List Nat)) : CoreCtx :=
  out.zipIdx.foldl (fun (x : CoreCtx) (r : List Nat × Nat) => x.wrV (vd + r.2) (lanes fun l => BitVec.ofNat 32 (r.1.getD l 0))) x

/-- The values that a drain converts, from scale vectors and the entries of accumulator rows. -/
def drainedFrom (scale : DWord → Nat → Fv) (acc : Nat → Nat → Word) (rows ofmt : Nat) (sat rsEn csEn : Bool) (rs cs : DWord)
    (base : Nat) (mask : BitVec 16) : List (List Nat) :=
  (List.range rows).map fun i => (outCols mask).zipIdx.map fun c =>
    drainElem ofmt sat (if rsEn then some (scale rs i) else none) (if csEn then some (scale cs c.2) else none) (acc (base + i) c.1)

theorem drained_eq (s : State) (pd : PD) (mc : MC) (rows ofmt : Nat) (sat rsEn csEn : Bool) (rs cs : DWord) (base : Nat)
    (mask : BitVec 16) : drained s pd mc rows ofmt sat rsEn csEn rs cs base mask =
      drainedFrom s.scaleAt (s.core pd mc).x.rdAcc rows ofmt sat rsEn csEn rs cs base mask := rfl

/-- The core's drain has left its queue, with context x and the bytes m of Tier S, and the numeric flags name it (R187). -/
structure Drained (pd : PD) (mc : MC) (s u : State) (tile base : Nat) (x : CoreCtx) (m : List (Nat × Byte)) : Prop where
  rising : rising u.cores = true
  dq : (u.core pd mc).dq = (s.core pd mc).dq.tail
  x : (u.core pd mc).x = x
  mem : u.tierS.mem = m
  lastTile : (u.core pd mc).nf.lastTile = tile
  lastAcc : (u.core pd mc).nf.lastAcc = base
  lastValid : (u.core pd mc).nf.lastValid = true

section
variable {pd : PD} {mc : MC} {s u v : State} {tile base : Nat} {x : CoreCtx} {m : List (Nat × Byte)}

theorem Drained.keeps (h : Drained pd mc s u tile base x m) (hk : KeepsDrain pd mc u v) : Drained pd mc s v tile base x m where
  rising := hk.rising h.rising
  dq := hk.dq.trans h.dq
  x := hk.x.trans h.x
  mem := hk.mem.trans h.mem
  lastTile := hk.nf ▸ h.lastTile
  lastAcc := hk.nf ▸ h.lastAcc
  lastValid := hk.nf ▸ h.lastValid

/-- Poison met in the lines of a scale vector takes nothing back (R282). -/
theorem Drained.poison (h : Drained pd mc s u tile base x m) (on : Bool) (e : QEnt) (hit : Option (Nat × Nat))
    (arrive : Nat → Nat) : Drained pd mc s (if on then u.poisonFault pd mc e hit arrive else u) tile base x m :=
  h.keeps ((poisonFault_keepsDrain h.rising e hit arrive).ite (.refl u))

theorem drained_modCore (hs : rising s.cores = true) (h : DrainFrame pd mc s u m) {f : CoreSt → CoreSt}
    (hdq : (f (u.core pd mc)).dq = (u.core pd mc).dq.tail) (hx : (f (u.core pd mc)).x = x)
    (htile : (f (u.core pd mc)).nf.lastTile = tile) (hacc : (f (u.core pd mc)).nf.lastAcc = base)
    (hvalid : (f (u.core pd mc)).nf.lastValid = true) : Drained pd mc s (u.modCore pd mc f) tile base x m := by
  have hcore : (u.modCore pd mc f).core pd mc = f (u.core pd mc) := core_setCore_same (h.rising hs) pd mc _
  exact ⟨rising_setCore (h.rising hs) pd mc _, by rw [hcore, hdq, h.dq], by rw [hcore, hx], h.mem, by rw [hcore, htile],
    by rw [hcore, hacc], by rw [hcore, hvalid]⟩

end

/-! The drain at the head of its queue. -/

theorem stopOr_none {r : Option Nat} (h : r = none) (s : State) (pd : PD) (mc : MC) (e : QEnt) (go : State) :
    s.stopOr pd mc e r go = go := by
  rw [h]
  rfl

/-- The first beat at which a drain whose scales were asked for at h may read its rows (R272). -/
def scalesRead (lines : Nat × Nat) : Option Nat → Nat
  | some h => h + 21 + lines.1 + lines.2
  | none => 0

/-- What is wrong with a drain at its issue (R142): n values of a row want room in its tile, or its rows in the vector registers,
and the accumulators have its rows. -/
def drnBad (ld : Nat) (t : BitVec 128) (n ofmt : Nat) (dst : Bool) (vd base : Nat) : Option Nat :=
  if dst then firstReason [(tdRows t == 0 || ofmt != 3 || decide (32 < vd + tdRows t) || decide (1024 < base + tdRows t), 0x04)]
  else orReason (tdCheck ld t) (firstReason [(decide (tdWidth t < n * fmtWidth ofmt) || decide (1024 < base + tdRows t), 0x04)])

section
variable {ld : Nat} {t : BitVec 128} {n ofmt vd base : Nat} (hbase : base + tdRows t ≤ 1024)
include hbase

theorem drnBad_tile (hcheck : tdCheck ld t = none) (hroom : n * fmtWidth ofmt ≤ tdWidth t) :
    drnBad ld t n ofmt false vd base = none := by
  simp [drnBad, orReason, firstReason, hcheck, hbase, hroom]

theorem drnBad_registers (hrows : tdRows t ≠ 0) (hfmt : ofmt = 3) (hregs : vd + tdRows t ≤ 32) :
    drnBad ld t n ofmt true vd base = none := by
  simp [drnBad, firstReason, hrows, hfmt, hregs, hbase]

end

section
variable {s : State} {pd : PD} {mc : MC} {e : QEnt} {ld : Nat} {t : BitVec 128} {ofmt : Nat} {sat rsEn csEn : Bool} {rs cs : DWord}
  {dst : Bool} {vd tile base : Nat} {mask : BitVec 16} (err : IssueErr)
  (hd : Heads s pd mc .dq e (.drn t ofmt sat rsEn csEn rs cs dst vd tile base) ld)
  (hport : (s.core pd mc).hist.dqFree ≤ s.sched.beat) (hmask : (s.core pd mc).maskBefore base e.seq = mask)
include hd hport hmask

/-- A drain with scales that it has not read asks for them, and keeps its place (R272). -/
theorem dqIssue_scales (hen : (rsEn || csEn) = true) (hnone : e.h = none) (hrs : rsEn = true → scaleOk ld rs (tdRows t) = true)
    (hcs : csEn = true → scaleOk ld cs (outCols mask).length = true) :
    ∃ runs, s.dqIssue pd mc err = s.calendar pd mc runs fun s1 =>
      s1.modCore pd mc fun c => { c with dq := { e with h := some s.sched.beat } :: c.dq.tail } := by
  obtain ⟨hhead, hop, hld⟩ := hd
  have hok : (rsEn && !scaleOk ld rs (tdRows t) || csEn && !scaleOk ld cs (outCols mask).length) = false := by
    simpa using ⟨hrs, hcs⟩
  unfold State.dqIssue
  rw [hhead, hld]
  simp only [hop, if_neg (not_lt.mpr hport), hmask, hen, hnone, hok, Option.isNone_none, Bool.and_self, if_true, State.stopOr]
  exact ⟨_, rfl⟩

/-- A drain whose scales are read converts its rows and leaves its queue (R91, R142). -/
theorem dqIssue_drains (hs : rising s.cores = true) (hread : (rsEn || csEn) = true → e.h.isSome = true)
    (hlines : ∀ h, e.h = some h →
      scalesRead (scaleLines (tdRows t) (outCols mask).length rsEn csEn) (some h) ≤ s.sched.beat + 4)
    (hready : (s.core pd mc).drnReady e (tdRows t) base (s.sched.beat + 4) (drnPeriod ofmt) dst vd = true)
    (hgood : drnBad ld t (outCols mask).length ofmt dst vd base = none) {out : List (List Nat)}
    (hout : drained s pd mc (tdRows t) ofmt sat rsEn csEn rs cs base mask = out) :
    ∃ runs go, s.dqIssue pd mc err = s.calendar pd mc runs go ∧ ∀ s1, KeepsDrain pd mc s s1 →
      Drained pd mc s (go s1) tile base (if dst then (s.core pd mc).x.drainRegs vd out else (s.core pd mc).x)
        (if dst then s.tierS.mem else storedRows s t (out.map (outBytes ofmt)) s.tierS.mem) := by
  obtain ⟨hhead, hop, hld⟩ := hd
  have hdone : ¬((rsEn || csEn) && e.h.isNone) = true := by
    simpa [Option.isSome_iff_ne_none] using hread
  have hwait : ¬(s.sched.beat + 4 < scalesRead (scaleLines (tdRows t) (outCols mask).length rsEn csEn) e.h ∨
      (!(s.core pd mc).drnReady e (tdRows t) base (s.sched.beat + 4) (drnPeriod ofmt) dst vd) = true) := by
    rw [hready]
    cases hh : e.h with
    | none => simp [scalesRead]
    | some h => simpa using hlines h hh
  subst hmask
  unfold State.dqIssue
  rw [hhead, hld]
  obtain ⟨pc, d, seq, op, h⟩ := e
  cases hop
  refine ⟨_, _, (if_neg (not_lt.mpr hport)).trans ((if_neg hdone).trans ((if_neg hwait).trans (stopOr_none hgood _ _ _ _ _))),
    fun s1 h1 => ?_⟩
  have h2 : KeepsDrain pd mc s (s1.issueErr pd mc err) := h1.trans (issueErr_keepsDrain s1 err)
  have hscale : s.scaleAt = (s1.issueErr pd mc err).scaleAt := by
    funext a i
    rw [State.scaleAt, State.scaleAt, State.sRead, State.sRead, h2.mem]
  rw [drained_eq, hscale] at hout
  subst hout
  have hrows (out : List (List Nat)) : DrainFrame pd mc s
      (if dst then (none, s1.issueErr pd mc err) else (s1.issueErr pd mc err).drainRows t ofmt out).2
      (if dst then s.tierS.mem else storedRows s t (out.map (outBytes ofmt)) s.tierS.mem) := by
    split
    · exact h2
    · exact drainRows_drainFrame h2 t ofmt out
  have hx (out : List (List Nat)) :=
    congrArg (fun x : CoreCtx => if dst then x.drainRegs vd out else x) (hrows out).x
  cases h with
  | none => exact drained_modCore hs (hrows _) rfl (hx _) rfl rfl rfl
  | some h => exact ((drained_modCore hs (hrows _) rfl (hx _) rfl rfl rfl).poison _ _ _ _).poison _ _ _ _

end

end Sys2Proof.Machine

open Sys2Proof Sys2Proof.Machine

/-- Settles O26, by the beat of the drain: the one at which it asks for its scales, and the one at which its rows go out. -/
theorem drainsConvertAccumulatorRows : Obligations.DrainsConvertAccumulatorRows := by
  intro s hc pd mc
  constructor <;> intro e ld t ofmt sat rsEn csEn rs cs dst vd tile base err hd
  · intro hport hen hnone hrs hcs hfree
    obtain ⟨runs, hexec⟩ := dqIssue_scales err hd hport rfl hen hnone hrs hcs
    obtain ⟨s1, h1, hgo⟩ := calendar_free (pd := pd) (mc := mc) hc.cores (hfree runs)
      fun u => u.modCore pd mc fun c => { c with dq := { e with h := some s.sched.beat } :: c.dq.tail }
    have hcore := core_setCore_same (h1.rising hc.cores) pd mc
    refine ⟨_, congrArg Host.Outcome.next (hexec.trans hgo), ?_, ?_, h1.mem⟩
    · rw [State.modCore, hcore, h1.dq]
    · rw [State.modCore, hcore, h1.x]
  · intro mask n out hport hread hlines hready hbase hfree
    have hdrain (hgood : drnBad ld t n ofmt dst vd base = none) : ∃ u, exec (.dqIssue pd mc err) s = .next u ∧
        Drained pd mc s u tile base (if dst then (s.core pd mc).x.drainRegs vd out else (s.core pd mc).x)
          (if dst then s.tierS.mem else storedRows s t (out.map (outBytes ofmt)) s.tierS.mem) := by
      obtain ⟨runs, go, hexec, hdone⟩ := dqIssue_drains err hd hport rfl hc.cores hread hlines hready hgood rfl
      obtain ⟨s1, h1, hgo⟩ := calendar_free (pd := pd) (mc := mc) hc.cores (hfree runs) go
      exact ⟨_, congrArg Host.Outcome.next (hexec.trans hgo), hdone s1 h1⟩
    constructor
    · rintro rfl hcheck hroom
      obtain ⟨u, hu, h⟩ := hdrain (drnBad_tile hbase hcheck hroom)
      exact ⟨u, hu, h.dq, h.x, h.mem, h.lastTile, h.lastAcc, h.lastValid⟩
    · rintro rfl hrows hfmt hregs
      obtain ⟨u, hu, h⟩ := hdrain (drnBad_registers hbase hrows hfmt hregs)
      exact ⟨u, hu, h.dq, h.mem, h.x, h.lastTile, h.lastAcc, h.lastValid⟩
end

section
/-!
SUPPORT. What the issue of work and a stop change: one core, and no byte of Tier S and nothing of the memory system beside it
(R151, R274, R276, R282).
-/
open Sys2Proof.Claims

namespace Sys2Proof.Machine

/-! One core among all. -/

theorem coreKey_inj {pd pd' : PD} {mc mc' : MC} : coreKey pd' mc' = coreKey pd mc ↔ pd' = pd ∧ mc' = mc := by
  simp only [coreKey, Fin.ext_iff]
  omega

theorem core_setCore_of_ne {s : State} (h : rising s.cores = true) {pd pd' : PD} {mc mc' : MC} (hne : pd' ≠ pd ∨ mc' ≠ mc)
    (c : CoreSt) : (s.setCore pd mc c).core pd' mc' = s.core pd' mc' := by
  have hkey : ¬coreKey pd' mc' = coreKey pd mc := fun hk => by
    obtain ⟨hpd, hmc⟩ := coreKey_inj.mp hk
    exact hne.elim (· hpd) (· hmc)
  exact (mget_mput_rising h _ _ c).trans (if_neg hkey)

/-! The cores, the bytes of Tier S and the memory system. -/

/-- What interrupts, events, counters, marks of errors and the bank calendar are none of. -/
def State.work (s : State) : List (Nat × CoreSt) × List (Nat × Byte) × MemSt := (s.cores, s.tierS.mem, s.memsys)

theorem LogWrites.work {K : Set Nat} {s t : State} (h : LogWrites K s t) : t.work = s.work := by
  obtain ⟨q, r, c, f, rfl⟩ := h.frame
  rfl

theorem WritesOnly.sched {K : Set Nat} {s t : State} (h : WritesOnly K s t) : t.sched = s.sched := by
  obtain ⟨r, c, rfl⟩ := h.frame
  rfl

section
variable (s : State)

@[simp] theorem work_setReg (p : Page) (off : Nat) (v : Word) : (s.setReg p off v).work = s.work := rfl

@[simp] theorem work_setFlag (p : Page) (f : RegField) (b : Bool) (i : Nat) : (s.setFlag p f b i).work = s.work := rfl

@[simp] theorem work_report (p : Page) (num data : Nat) : (s.report p num data).work = s.work := rfl

@[simp] theorem work_setInt (p : Page) (i : Nat) : (s.setInt p i).work = s.work := (setInt_writes s p i).logWrites.work

@[simp] theorem work_bump (p : Page) (f : RegField) (n i : Nat) : (s.bump p f n i).work = s.work :=
  (bump_writes s p f n i).logWrites.work

@[simp] theorem work_blockErr (p : Page) (num data info2 info3 : Nat) : (s.blockErr p num data info2 info3).work = s.work :=
  (capture_writes s p _ _ _ _ _ _).logWrites.work

@[simp] theorem work_calReserve (runs : List CalRun) : (s.calReserve runs).work = s.work := rfl

@[simp] theorem work_sPoison (w : Nat) : (s.sPoison w).work = s.work := rfl

@[simp] theorem work_dropWait (pd : PD) (mc : MC) : (s.dropWait pd mc).work = s.work := rfl

@[simp] theorem work_actTierS (ld : Nat) (ctx : Option Nat) (n : Nat) : (s.actTierS ld ctx n).work = s.work := by
  unfold State.actTierS State.actAdd
  split
  · split <;> rfl
  · rfl

@[simp] theorem work_sCorrected (ld bank n : Nat) : (s.sCorrected ld bank n).work = s.work := by
  simp [State.sCorrected, apply_ite State.work]

@[simp] theorem work_issueErr (pd : PD) (mc : MC) (err : IssueErr) : (s.issueErr pd mc err).work = s.work := by
  cases err <;> simp [State.issueErr, apply_ite State.work]

@[simp] theorem work_sDetect (w cls : Nat) : (s.sDetect w cls).work = s.work := by
  have hmark (d : List (Nat × Bool)) (p : Page) (data : Nat) :
      ((({ s with tierS := { s.tierS with detected := d } } : State).setFlag p Reg.TSRAM_STAT_POISON true).report p 2 data).work =
        s.work := rfl
  have hshow (u : State) (p : Page) (v w : Word) :
      (if u.flag p Reg.TSRAM_UE_ADDR_HI_VALID then u else (u.setReg p 0x128 v).setReg p 0x12C w).work = u.work := by
    split <;> rfl
  unfold State.sDetect
  split
  · rfl
  · exact (work_blockErr _ _ _ _ _ _).trans ((hshow _ _ _ _).trans ((work_setInt _ _ _).trans ((work_bump _ _ _ _ _).trans
      (hmark _ _ _))))

@[simp] theorem work_schedError (reason lc pc code : Nat) : (s.schedError reason lc pc code).work = s.work := by
  have hlog : ((s.blockErr s.leadPage 4 0 (lc + pc * 2 ^ 16) reason).report s.leadPage 4
      (reason + lc * 2 ^ 8 + pc * 2 ^ 18)).work = s.work := by simp
  unfold State.schedError
  split
  · exact hlog
  · exact hlog

end

/-! A step that changes one core. -/

/-- t has s's bytes of Tier S, s's memory system and s's cores but this one, which is c. -/
structure OnlyCore (pd : PD) (mc : MC) (s t : State) (c : CoreSt) : Prop where
  rising : rising t.cores = true
  core : t.core pd mc = c
  others : ∀ pd' mc', pd' ≠ pd ∨ mc' ≠ mc → t.core pd' mc' = s.core pd' mc'
  mem : t.tierS.mem = s.tierS.mem
  memsys : t.memsys = s.memsys

section
variable {pd : PD} {mc : MC} {s t u : State} {c : CoreSt}

theorem OnlyCore.refl (hs : Machine.rising s.cores = true) : OnlyCore pd mc s s (s.core pd mc) :=
  ⟨hs, rfl, fun _ _ _ => rfl, rfl, rfl⟩

theorem OnlyCore.of_work (h : OnlyCore pd mc s t c) (hw : u.work = t.work) : OnlyCore pd mc s u c := by
  simp only [State.work, Prod.mk.injEq] at hw
  obtain ⟨hcores, hmem, hmemsys⟩ := hw
  have hcore (pd' : PD) (mc' : MC) : u.core pd' mc' = t.core pd' mc' :=
    congrArg (fun l => mget (fun _ => ({} : CoreSt)) l (coreKey pd' mc')) hcores
  exact ⟨hcores ▸ h.rising, (hcore pd mc).trans h.core, fun pd' mc' hne => (hcore pd' mc').trans (h.others pd' mc' hne),
    hmem.trans h.mem, hmemsys.trans h.memsys⟩

theorem OnlyCore.setCore (h : OnlyCore pd mc s t c) (c' : CoreSt) : OnlyCore pd mc s (t.setCore pd mc c') c' where
  rising := rising_setCore h.rising pd mc c'
  core := core_setCore_same h.rising pd mc c'
  others pd' mc' hne := (core_setCore_of_ne h.rising hne c').trans (h.others pd' mc' hne)
  mem := h.mem
  memsys := h.memsys

theorem OnlyCore.modCore (h : OnlyCore pd mc s t c) (f : CoreSt → CoreSt) : OnlyCore pd mc s (t.modCore pd mc f) (f c) :=
  h.core ▸ h.setCore (f (t.core pd mc))

theorem OnlyCore.ctxIs (h : OnlyCore pd mc s t c) : CtxIs s t pd mc c.x := ⟨congrArg CoreSt.x h.core, h.others⟩

theorem addFault_eq (c : CoreSt) (f : FaultPend) : ∃ g, c.addFault f = { c with faultPend := g } := ⟨_, rfl⟩

/-- Poison met by a scheduled read becomes a fault of the core, decided later (R282). -/
theorem OnlyCore.poisonFault (h : OnlyCore pd mc s t c) (e : QEnt) (hit : Option (Nat × Nat)) (arrive : Nat → Nat) :
    ∃ f, OnlyCore pd mc s (t.poisonFault pd mc e hit arrive) { c with faultPend := f } := by
  cases hit with
  | none => exact ⟨c.faultPend, h⟩
  | some w =>
    obtain ⟨f, hf⟩ := addFault_eq c { beat := arrive w.1, kind := 9, index := saBank (w.2 * 16), pc := e.pc }
    exact ⟨f, hf ▸ (h.of_work (work_sDetect t w.2 0)).modCore fun c =>
      c.addFault { beat := arrive w.1, kind := 9, index := saBank (w.2 * 16), pc := e.pc }⟩

/-- A free calendar lets the work issue, in a state whose core has at most the end of its hold run to show (R274, R276). -/
theorem calendar_free_onlyCore (hs : rising s.cores = true) {runs : List CalRun} (hfree : s.calHolder runs = none)
    (go : State → State) :
    ∃ t n b, s.calendar pd mc runs go = go t ∧ OnlyCore pd mc s t { s.core pd mc with heldRun := n, heldBy := b } := by
  have hact (u : State) (ctx : Option Nat) :
      (runs.foldl (fun (t : State) r => t.actTierS r.ld ctx (r.count * r.nb)) u).work = u.work :=
    List.foldlRecOn runs _ (motive := fun v => v.work = u.work) rfl fun t ht r _ => (work_actTierS t _ _ _).trans ht
  have hbegin (ctx : Option Nat) {v : State} {c : CoreSt} (h : OnlyCore pd mc s v c) : OnlyCore pd mc s
      (runs.foldl (fun (t : State) r => t.actTierS r.ld ctx (r.count * r.nb)) (v.calReserve runs)) c := h.of_work (hact _ _)
  unfold State.calendar
  rw [hfree]
  by_cases hrun : (s.core pd mc).heldRun = 0
  · simp only [hrun, if_true]
    exact ⟨_, 0, (s.core pd mc).heldBy, rfl, hrun ▸ hbegin _ (.refl hs)⟩
  · simp only [hrun, if_false]
    exact ⟨_, 0, none, rfl, hbegin _ (((OnlyCore.refl hs).of_work (by simp)).setCore _)⟩

/-! A stop with SCHED_ERROR (R151). -/

theorem coreStop_onlyCore (hs : rising s.cores = true) (pc reason : Nat) : OnlyCore pd mc s (s.coreStop pd mc pc reason)
    { (s.core pd mc).discard with stopPend := none, status := .stoppedError } := by
  have hdiscard := (OnlyCore.refl hs).modCore (pd := pd) (mc := mc) fun c => { c.discard with stopPend := none }
  have hstop := (hdiscard.of_work (work_dropWait _ pd mc)).modCore fun c => { c with status := .stoppedError }
  exact hstop.of_work (by simp [State.coreStop, State.enterStopped])

theorem reg_congr_page {p q : Page} (hkey : pageKey q = pageKey p) (s : State) (off : Nat) : s.reg q off = s.reg p off := by
  rw [State.reg, State.reg, regKey, regKey, hkey]

/-- A captured error clears BLK_STAT.ERR of no page (R61). -/
theorem err_blockErr_of_err (hs : s.regsWf) {q : Page} (hq : s.flag q Reg.BLK_STAT_ERR = true) (p : Page)
    (num data info2 info3 : Nat) : (s.blockErr p num data info2 info3).flag q Reg.BLK_STAT_ERR = true := by
  by_cases hkey : pageKey q = pageKey p
  · have hflag (u : State) : u.flag q Reg.BLK_STAT_ERR = u.flag p Reg.BLK_STAT_ERR := by
      rw [State.flag, State.flag, State.fld, State.fld, reg_congr_page hkey]
    exact (hflag _).trans (flag_capture p _ _ _ _ _ _ hs)
  · have hoff : ∀ off ∈ [0x00C, 0x020, 0x024, 0x028, 0x02C], off < 4096 := by decide
    have hnot : regKey q 0x00C ∉ errKeys p ∪ irqKeys := by
      rintro (⟨off, hmem, heq⟩ | hirq)
      · exact hkey ((regKey_inj (by decide) (hoff off hmem)).mp heq).1
      · exact header_notMem_irqKeys q (by decide) (by decide) hirq
    rw [State.flag, State.blockErr, fld_congr (f := Reg.BLK_STAT_ERR) (i := 0) ((capture_writes s p _ _ _ _ _ _).reg hs hnot)]
    exact hq

theorem err_schedError_of_err (hs : s.regsWf) {q : Page} (hq : s.flag q Reg.BLK_STAT_ERR = true) (reason lc pc code : Nat) :
    (s.schedError reason lc pc code).flag q Reg.BLK_STAT_ERR = true := by
  have herr := err_blockErr_of_err hs hq s.leadPage 4 0 (lc + pc * 2 ^ 16) reason
  unfold State.schedError
  split
  · exact herr
  · exact herr

/-- The first error of a step is the one that it carries. -/
theorem stepErr_schedError (hfirst : s.sched.stepErr = none) (reason lc pc code : Nat) :
    (s.schedError reason lc pc code).sched.stepErr = some ⟨reason, lc, pc, code⟩ := by
  simp [State.schedError, hfirst]

theorem regsWf_report (hs : s.regsWf) (p : Page) (num data : Nat) : (s.report p num data).regsWf := hs

theorem flag_report (s : State) (p q : Page) (num data : Nat) (f : RegField) : (s.report p num data).flag q f = s.flag q f := rfl

theorem sched_report (s : State) (p : Page) (num data : Nat) : (s.report p num data).sched = s.sched := rfl

theorem regsWf_blockErr (hs : s.regsWf) (p : Page) (num data info2 info3 : Nat) : (s.blockErr p num data info2 info3).regsWf :=
  (capture_writes s p _ _ _ _ _ _).wf hs

theorem sched_blockErr (s : State) (p : Page) (num data info2 info3 : Nat) : (s.blockErr p num data info2 info3).sched = s.sched :=
  (capture_writes s p _ _ _ _ _ _).sched

theorem regsWf_enterStopped (hs : s.regsWf) (st : CoreStatus) : (s.enterStopped pd mc st).regsWf :=
  (setInt_writes ((s.dropWait pd mc).modCore pd mc fun c => { c with status := st }) _ 2).wf hs

theorem sched_enterStopped (s : State) (st : CoreStatus) : (s.enterStopped pd mc st).sched = s.sched :=
  (setInt_writes ((s.dropWait pd mc).modCore pd mc fun c => { c with status := st }) _ 2).sched

theorem err_coreStop (hs : s.regsWf) (pc reason : Nat) :
    (s.coreStop pd mc pc reason).flag (mcorePage pd mc) Reg.BLK_STAT_ERR = true := by
  have hwf (f : CoreSt → CoreSt) : ((s.modCore pd mc f).enterStopped pd mc .stoppedError).regsWf :=
    regsWf_enterStopped (s := s.modCore pd mc f) hs _
  unfold State.coreStop
  refine err_schedError_of_err (regsWf_report (regsWf_blockErr (hwf _) _ _ _ _ _) _ _ _) ?_ _ _ _ _
  rw [flag_report]
  exact flag_capture _ _ _ _ _ _ _ (hwf _)

theorem stepErr_coreStop (hfirst : s.sched.stepErr = none) (pc reason : Nat) : (s.coreStop pd mc pc reason).sched.stepErr =
    some ⟨0x0D, s.lcNo pd mc, pc, if reason = 0x0E then 0x14 else 0x30⟩ := by
  unfold State.coreStop
  refine stepErr_schedError ?_ _ _ _ _
  rw [sched_report, sched_blockErr, sched_enterStopped]
  exact hfirst

theorem stopped_coreStop (hc : Canon s) (pc reason : Nat) : Stopped s (s.coreStop pd mc pc reason) pd mc pc reason := by
  have hcore := (coreStop_onlyCore (pd := pd) (mc := mc) hc.cores pc reason).core
  exact ⟨congrArg CoreSt.status hcore, congrArg CoreSt.lq hcore, congrArg CoreSt.sq hcore, congrArg CoreSt.dq hcore,
    congrArg CoreSt.vq hcore, congrArg CoreSt.mq hcore, err_coreStop hc.regs pc reason,
    fun hfirst _ => stepErr_coreStop hfirst pc reason⟩

end

end Sys2Proof.Machine
end

section
/-!
SUPPORT. The weight load at the head of its queue, and its last row (R99, R101, R102, R142).
-/
open Sys2Proof.Claims

namespace Sys2Proof.Machine

/-- What is wrong with a weight load at its issue whose first row is written at beat l (R142, R150). -/
def State.wldBad (s : State) (pd : PD) (mc : MC) (ld : Nat) (t : BitVec 128) (k : DWord) (l : Nat) : Option Nat :=
  orReason (tdCheck ld t) (firstReason
    [(tdRows t != 256 || tdWidth t != 256, 0x04), (!tagsOk (kMask k) (kTags k), 0x06), (s.spans (s.core pd mc) (l + 255), 0x07)])

/-- A core whose weight load issues at beat now and leaves w in its bank (R101). -/
def CoreSt.takeLoad (c : CoreSt) (bank : Bool) (w : WBank) (now : Nat) : CoreSt :=
  { c.popQueue .lq now with
    x := c.x.setBank bank w
    hist := { (c.popQueue .lq now).hist with lastL := some (now + 24), allDone := max c.hist.allDone (now + 24 + 255) } }

/-- The work of a weight load that issues at beat now (R99, R101, R282). -/
def State.loadBank (s : State) (pd : PD) (mc : MC) (e : QEnt) (bank : Bool) (t : BitVec 128) (k : DWord) (now : Nat) : State :=
  let u := s.modCore pd mc fun c => c.takeLoad bank (s.loadedBank t k (c.x.bank bank) (now + 24)) now
  u.poisonFault pd mc e (u.rowPoison t 256 2) fun r => now + 24 + r

section
variable {s t : State} {pd : PD} {mc : MC} {e : QEnt} {ld : Nat} {bank : Bool} {td : BitVec 128} {k : DWord}

theorem wldBad_shape (hcheck : tdCheck ld td = none) (hshape : tdRows td ≠ 256 ∨ tdWidth td ≠ 256) (l : Nat) :
    s.wldBad pd mc ld td k l = some 0x04 := by
  simp [State.wldBad, orReason, firstReason, hcheck, hshape]

theorem wldBad_none {l : Nat} (hcheck : tdCheck ld td = none) (hrows : tdRows td = 256) (hwidth : tdWidth td = 256)
    (htags : tagsOk (kMask k) (kTags k) = true) (hspan : s.spans (s.core pd mc) (l + 255) = false) :
    s.wldBad pd mc ld td k l = none := by
  simp [State.wldBad, orReason, firstReason, hcheck, hrows, hwidth, htags, hspan]

/-- A weight load at the head of its queue whose first row may be written 24 beats on (R101, R102): a stop, or its work. -/
theorem lqIssue_ready (err : IssueErr) (hd : Heads s pd mc .lq e (.wld bank td k) ld)
    (hready : (s.core pd mc).wldReady e bank (s.sched.beat + 24) = true) : s.lqIssue pd mc err =
      s.stopOr pd mc e (s.wldBad pd mc ld td k (s.sched.beat + 24)) (s.calendar pd mc
        [tdRun ld td 256 2 (s.absB (s.sched.beat + 14)) 1 false (s.lcNo pd mc)] fun u =>
          (u.issueErr pd mc err).loadBank pd mc e bank td k s.sched.beat) := by
  obtain ⟨hhead, hop, hld⟩ := hd
  unfold State.lqIssue
  rw [hhead, hld]
  simp only [hop, hready, Bool.not_true, Bool.false_eq_true, if_false]
  rfl

theorem loadedBank_congr (hmem : t.tierS.mem = s.tierS.mem) (old : WBank) (l : Nat) :
    t.loadedBank td k old l = s.loadedBank td k old l := by
  simp only [State.loadedBank, State.rowBytes, State.sRead, hmem]

/-- The work of a weight load is its core's, poison met by its reads told apart. -/
theorem loadBank_onlyCore {c : CoreSt} (h : OnlyCore pd mc s t c) (now : Nat) :
    ∃ f, OnlyCore pd mc s (t.loadBank pd mc e bank td k now)
      { c.takeLoad bank (s.loadedBank td k (c.x.bank bank) (now + 24)) now with faultPend := f } := by
  rw [← loadedBank_congr h.mem]
  exact (h.modCore fun c => c.takeLoad bank (t.loadedBank td k (c.x.bank bank) (now + 24)) now).poisonFault e _ _

end

/-- The last row of a load makes its bank VALID, 255 beats after the first (R101). -/
theorem weightLoadDone_eq {s : State} {pd : PD} {mc : MC} {bank : Bool} {l : Nat}
    (hload : ((s.core pd mc).x.bank bank).loadL = some l) : exec (.weightLoadDone pd mc bank) s =
      if l + 255 ≤ s.sched.beat then .next (s.setCore pd mc { s.core pd mc with
        x := (s.core pd mc).x.setBank bank { (s.core pd mc).x.bank bank with valid := true } })
      else .next s := by
  change execWeightLoadDone pd mc bank s = _
  simp only [execWeightLoadDone, hload]

end Sys2Proof.Machine

open Sys2Proof Sys2Proof.Machine

/-- Settles O24, by what the load meets: its issue with its conditions met, its issue with a wrong shape, and its last row, due or
not. -/
theorem weightLoadsFillTheirBank : Obligations.WeightLoadsFillTheirBank := by
  intro s hc pd mc
  refine ⟨fun e ld bank t k err hd hready hcheck hrows hwidth htags hspan hfree => ?_,
    fun e ld bank t k err hd hready hcheck hshape => ?_, fun bank l hload hdue => ?_, fun bank l hload hearly => ?_⟩
  · obtain ⟨u, n, b, hgo, hu⟩ := calendar_free_onlyCore (pd := pd) (mc := mc) hc.cores hfree fun u =>
      (u.issueErr pd mc err).loadBank pd mc e bank t k s.sched.beat
    obtain ⟨f, hload⟩ := loadBank_onlyCore (e := e) (bank := bank) (td := t) (k := k)
      (hu.of_work (work_issueErr u pd mc err)) s.sched.beat
    have hexec := (lqIssue_ready err hd hready).trans
      ((stopOr_none (wldBad_none hcheck hrows hwidth htags hspan) _ _ _ _ _).trans hgo)
    exact ⟨_, congrArg Host.Outcome.next hexec, hload.ctxIs, congrArg CoreSt.lq hload.core,
      congrArg (fun c => c.hist.lastL) hload.core, hload.mem, hload.memsys⟩
  · have hexec := lqIssue_ready err hd hready
    rw [wldBad_shape hcheck hshape] at hexec
    exact ⟨_, congrArg Host.Outcome.next hexec, stopped_coreStop hc e.pc 0x04⟩
  · exact ⟨_, (weightLoadDone_eq hload).trans (if_pos hdue), ((OnlyCore.refl hc.cores).setCore _).ctxIs, rfl⟩
  · exact (weightLoadDone_eq hload).trans (if_neg (by omega))
end

section
/-!
SUPPORT. The registers of the sequencer (R130): a read after a write, and the canonical form that a write keeps.
-/
namespace Sys2Proof.Machine

theorem rdA_wrA {x : CoreCtx} (h : rising x.a = true) (m n : Nat) (v : DWord) :
    (x.wrA n v).rdA m = if m = 0 then 0 else if m = n then v else x.rdA m := by
  by_cases hm : m = 0
  · simp [CoreCtx.rdA, hm]
  · by_cases hn : n = 0
    · simp [CoreCtx.rdA, CoreCtx.wrA, hm, hn]
    · simp [CoreCtx.rdA, CoreCtx.wrA, hm, hn, mget_mput_rising h]

theorem rdL_wrL {x : CoreCtx} (h : rising x.l = true) (m n : Nat) (v : Word) :
    (x.wrL n v).rdL m = if m = n then v else x.rdL m := mget_mput_rising h n m v

theorem rdT_wrT {x : CoreCtx} (h : rising x.t = true) (m n : Nat) (v : BitVec 128) :
    (x.wrT n v).rdT m = if m = n then v else x.rdT m := mget_mput_rising h n m v

theorem rdK_wrK {x : CoreCtx} (h : rising x.k = true) (m n : Nat) (v : DWord) :
    (x.wrK n v).rdK m = if m = n then v else x.rdK m := mget_mput_rising h n m v

section
variable {x : CoreCtx} (h : CtxCanon x)
include h

theorem ctxCanon_wrA (n : Nat) (v : DWord) : CtxCanon (x.wrA n v) := by
  unfold CoreCtx.wrA
  split
  · exact h
  · exact { h with a := rising_mput (d := fun _ => 0) h.a n v }

theorem ctxCanon_wrL (n : Nat) (v : Word) : CtxCanon (x.wrL n v) := { h with l := rising_mput (d := fun _ => 0) h.l n v }

theorem ctxCanon_wrT (n : Nat) (v : BitVec 128) : CtxCanon (x.wrT n v) := { h with t := rising_mput (d := fun _ => 0) h.t n v }

theorem ctxCanon_wrK (n : Nat) (v : DWord) : CtxCanon (x.wrK n v) := { h with k := rising_mput (d := fun _ => 0) h.k n v }

end

end Sys2Proof.Machine

open Sys2Proof Sys2Proof.Machine

/-- Settles O15, register file by register file. -/
theorem sequencerRegistersReadWhatWasWritten : Obligations.SequencerRegistersReadWhatWasWritten := by
  intro x h
  exact ⟨rdA_wrA h.a, rdL_wrL h.l, rdT_wrT h.t, rdK_wrK h.k, ctxCanon_wrA h, ctxCanon_wrL h, ctxCanon_wrT h, ctxCanon_wrK h⟩
end

section
/-!
SUPPORT. The dispatch of an instruction: what traces and the errors of a schedule write, and the one core that it changes
(R134, R146, R147, R239, R695, R700).
-/
open Sys2Proof.Claims

namespace Sys2Proof.Machine

/-! Traces, events, interrupts and errors. -/

/-- t is s but for registers, the CPU complex, queued events, free values, traces and the error of the step. -/
structure Records (s t : State) : Prop where
  frame : ∃ r c q f tr e, t = { s with
    regs := r, cpu := c, evq := q, freeCtr := f, traces := tr, sched := { s.sched with stepErr := e } }
  wf : s.regsWf → t.regsWf

section
variable {s t u : State}

theorem Records.refl (s : State) : Records s s := ⟨⟨_, _, _, _, _, _, rfl⟩, id⟩

theorem Records.trans (h : Records s t) (h' : Records t u) : Records s u where
  frame := by
    obtain ⟨r, c, q, f, tr, e, rfl⟩ := h.frame
    obtain ⟨r', c', q', f', tr', e', rfl⟩ := h'.frame
    exact ⟨r', c', q', f', tr', e', rfl⟩
  wf := h'.wf ∘ h.wf

theorem LogWrites.records {K : Set Nat} (h : LogWrites K s t) : Records s t where
  frame := by
    obtain ⟨q, r, c, f, rfl⟩ := h.frame
    exact ⟨r, c, q, f, _, _, rfl⟩
  wf := h.wf

theorem WritesOnly.records {K : Set Nat} (h : WritesOnly K s t) : Records s t := h.logWrites.records

theorem Records.work (h : Records s t) : t.work = s.work := by
  obtain ⟨r, c, q, f, tr, e, rfl⟩ := h.frame
  rfl

theorem Records.ts (h : Records s t) : t.ts = s.ts := by
  obtain ⟨r, c, q, f, tr, e, rfl⟩ := h.frame
  rfl

theorem Records.ite {c : Prop} [Decidable c] (h : Records s t) (h' : Records s u) : Records s (if c then t else u) := by
  split
  · exact h
  · exact h'

variable (s)

theorem report_records (p : Page) (num data : Nat) (dev : Bool) (beat : Option Nat) : Records s (s.report p num data dev beat) :=
  ⟨⟨_, _, _, _, _, _, rfl⟩, id⟩

theorem setFlag_records (p : Page) (f : RegField) (b : Bool) (i : Nat) : Records s (s.setFlag p f b i) :=
  ⟨⟨_, _, _, _, _, _, rfl⟩, fun h => regsWf_setFld h p f _ i⟩

theorem setInt_records (p : Page) (i : Nat) : Records s (s.setInt p i) := (setInt_writes s p i).records

theorem bump_records (p : Page) (f : RegField) (n i : Nat) : Records s (s.bump p f n i) := (bump_writes s p f n i).records

theorem blockErr_records (p : Page) (num data info2 info3 : Nat) : Records s (s.blockErr p num data info2 info3) :=
  (capture_writes s p _ _ _ _ _ _).records

theorem traceRec_records (pd : PD) (w : Nat) : Records s (s.traceRec pd w) := by
  have hput (l : List (Nat × TraceSt)) : Records s { s with traces := l } := ⟨⟨_, _, _, _, _, _, rfl⟩, id⟩
  have hend (l : List (Nat × TraceSt)) (p : Page) (c : Prop) [Decidable c] :
      Records s (if c then ({ s with traces := l } : State).setInt p 2 else { s with traces := l }) :=
    ((hput l).trans (setInt_records _ p 2)).ite (hput l)
  exact (Records.refl s).ite ((bump_records s _ _ 1 0).ite ((Records.refl s).ite (hend _ _ _)))

theorem traceDispatch_records (pd : PD) (mc : MC) (pc op stall : Nat) : Records s (s.traceDispatch pd mc pc op stall) :=
  (traceRec_records s pd _).ite (.refl s)

theorem schedError_records (reason lc pc code : Nat) : Records s (s.schedError reason lc pc code) := by
  have herr := (blockErr_records s s.leadPage 4 0 (lc + pc * 2 ^ 16) reason).trans
    (report_records _ s.leadPage 4 (reason + lc * 2 ^ 8 + pc * 2 ^ 18) false none)
  unfold State.schedError
  split
  · exact herr
  · exact herr.trans ⟨⟨_, _, _, _, _, _, rfl⟩, id⟩

end

/-! A core among what the others keep. -/

/-- t has the core c in the place of s's, the beat of s, and all that OthersKept names. -/
structure CoreBecomes (pd : PD) (mc : MC) (s t : State) (c : CoreSt) : Prop where
  rising : rising t.cores = true
  core : t.core pd mc = c
  kept : OthersKept s t pd mc
  beat : t.sched.beat = s.sched.beat

section
variable {pd : PD} {mc : MC} {s t u : State} {c : CoreSt}

theorem CoreBecomes.refl (hs : Machine.rising s.cores = true) : CoreBecomes pd mc s s (s.core pd mc) :=
  ⟨hs, rfl, ⟨fun _ _ _ => rfl, rfl, rfl, rfl, rfl, rfl, rfl⟩, rfl⟩

theorem CoreBecomes.records (h : CoreBecomes pd mc s t c) (hr : Records t u) : CoreBecomes pd mc s u c := by
  obtain ⟨r, k, q, f, tr, e, rfl⟩ := hr.frame
  exact ⟨h.rising, h.core, h.kept, h.beat⟩

theorem CoreBecomes.setCore (h : CoreBecomes pd mc s t c) (c' : CoreSt) : CoreBecomes pd mc s (t.setCore pd mc c') c' := by
  obtain ⟨hcores, hrest⟩ := h.kept
  exact ⟨rising_setCore h.rising pd mc c', core_setCore_same h.rising pd mc c',
    ⟨fun pd' mc' hne => (core_setCore_of_ne h.rising hne c').trans (hcores pd' mc' hne), hrest⟩, h.beat⟩

theorem CoreBecomes.modCore (h : CoreBecomes pd mc s t c) (f : CoreSt → CoreSt) : CoreBecomes pd mc s (t.modCore pd mc f) (f c) :=
  h.core ▸ h.setCore (f (t.core pd mc))

/-- A change of the core that goes by the beat. -/
theorem CoreBecomes.atBeat (h : CoreBecomes pd mc s t c) {d : Nat} (hd : d = s.sched.beat) (f : Nat → CoreSt → CoreSt) :
    CoreBecomes pd mc s (t.modCore pd mc (f d)) (f s.sched.beat c) := hd ▸ h.modCore (f d)

theorem CoreBecomes.dropWait (h : CoreBecomes pd mc s t c) (pd' : PD) (mc' : MC) : CoreBecomes pd mc s (t.dropWait pd' mc') c :=
  ⟨h.rising, h.core, h.kept, h.beat⟩

theorem CoreBecomes.enterStopped (h : CoreBecomes pd mc s t c) (st : CoreStatus) :
    CoreBecomes pd mc s (t.enterStopped pd mc st) { c with status := st } :=
  ((h.dropWait pd mc).modCore fun c => { c with status := st }).records (setInt_records _ _ 2)

theorem CoreBecomes.simple (h : CoreBecomes pd mc s t c) (f : CoreCtx → CoreCtx) :
    CoreBecomes pd mc s (t.simple pd mc f) ({ c with x := f c.x }.next (s.sched.beat + 1)) :=
  h.atBeat h.beat fun d c => CoreSt.next { c with x := f c.x } (d + 1)

/-- The core behind an instruction that queues work, with the operands that it reads at beat d (R146). -/
def CoreSt.enqueued (c : CoreSt) (q : QName) (d : Nat) (f : CoreCtx → CoreCtx) (op : CoreCtx → QOp) : CoreSt :=
  let e : QEnt := { pc := c.x.pc.toNat, d := d, seq := c.seq, op := op c.x }
  (({ c with x := f c.x, seq := c.seq + 1 } : CoreSt).setQueue q (c.queue q ++ [e])).next (d + 1)

theorem CoreBecomes.enqueue (h : CoreBecomes pd mc s t c) (q : QName) (f : CoreCtx → CoreCtx) (op : CoreCtx → QOp) :
    CoreBecomes pd mc s (t.enqueue pd mc q f op) (c.enqueued q s.sched.beat f op) := by
  rw [← h.beat, ← h.core]
  exact h.setCore _

/-! An instruction's own step (R134, R146). -/

/-- The core to which an instruction that dispatches comes: no hold, and the alternative that a join may have ended (R239). -/
def CoreSt.dispatching (c : CoreSt) (a : Option AltRun) : CoreSt := { c with altRun := a, hold := .none }

/-- The core behind its instruction, where a single step may have halted it (R695). -/
def CoreSt.stepped (c : CoreSt) (st : CoreStatus) (d : Option CoreStatus) (b : Bool) : CoreSt :=
  { c with status := st, dhalt := d, dstep := b }

/-- The state in which an instruction that dispatches acts: its trace record taken, a due join checked, no hold. -/
def State.dispatching (s : State) (pd : PD) (mc : MC) (op : Nat) : State :=
  ((s.traceDispatch pd mc (s.core pd mc).x.pc.toNat op (s.core pd mc).stall).joinCheck pd mc).modCore pd mc
    fun c => { c with hold := .none }

theorem dispatch_ready {i : TInstr} (hr : Ready s pd mc i) {want : TInstr → Option (State → State)} {act : State → State}
    (hwant : want i = some act) {q : Option QName} (hq : q.any (fun n => !(s.core pd mc).hasPlace n s.sched.beat) = false) (op : Nat) :
    s.dispatch pd mc op want q = (act (s.dispatching pd mc op)).afterStep pd mc := by
  obtain ⟨hcan, hstop, hpc, hdec⟩ := hr
  simp only [State.dispatch, hcan, hstop, Nat.not_le.mpr hpc, hdec, hwant, hq, Bool.not_true, Bool.false_eq_true, if_false]
  rfl

/-- An instruction whose queue has no place does not dispatch. -/
theorem dispatch_noPlace {i : TInstr} (hr : Ready s pd mc i) {want : TInstr → Option (State → State)} {act : State → State}
    (hwant : want i = some act) {n : QName} (hq : (s.core pd mc).hasPlace n s.sched.beat = false) (op : Nat) :
    s.dispatch pd mc op want (some n) = s := by
  obtain ⟨hcan, hstop, hpc, hdec⟩ := hr
  simp [State.dispatch, hcan, hstop, Nat.not_le.mpr hpc, hdec, hwant, hq]

theorem CoreBecomes.joinCheck (h : CoreBecomes pd mc s t c) :
    ∃ a, CoreBecomes pd mc s (t.joinCheck pd mc) { c with altRun := a } := by
  have hsame : CoreBecomes pd mc s t { c with altRun := c.altRun } := h
  unfold State.joinCheck
  dsimp only
  split
  · split
    · have hnone := h.modCore fun c => { c with altRun := none }
      exact ⟨none, hnone.records ((Records.refl _).ite (schedError_records _ _ _ _ _))⟩
    · exact ⟨_, hsame⟩
  · exact ⟨_, hsame⟩

theorem dispatching_coreBecomes (hs : rising s.cores = true) (op : Nat) :
    ∃ a, CoreBecomes pd mc s (s.dispatching pd mc op) ((s.core pd mc).dispatching a) := by
  obtain ⟨a, h⟩ := ((CoreBecomes.refl hs).records (traceDispatch_records s pd mc (s.core pd mc).x.pc.toNat op
    (s.core pd mc).stall)).joinCheck
  exact ⟨a, h.modCore fun c => { c with hold := .none }⟩

/-- Outside an alternative a dispatch begins with its record alone. -/
theorem dispatching_records (halt : (s.core pd mc).altRun = none) (op : Nat) :
    ∃ u, Records s u ∧ s.dispatching pd mc op = u.modCore pd mc fun c => { c with hold := .none } := by
  have hr := traceDispatch_records s pd mc (s.core pd mc).x.pc.toNat op (s.core pd mc).stall
  refine ⟨_, hr, ?_⟩
  have hcore : ((s.traceDispatch pd mc (s.core pd mc).x.pc.toNat op (s.core pd mc).stall).core pd mc).altRun = none := by
    obtain ⟨r, c, q, f, tr, e, h⟩ := hr.frame
    rw [h]
    exact halt
  rw [State.dispatching, State.joinCheck, hcore]

theorem CoreBecomes.debugHalted (h : CoreBecomes pd mc s t c) :
    ∃ d, CoreBecomes pd mc s (t.debugHalted pd mc) { c with status := .stoppedReq, dhalt := d, dstep := false } :=
  ⟨_, ((h.enterStopped .stoppedReq).modCore fun c => { c with dhalt := some (t.core pd mc).status, dstep := false }).records
    (setInt_records _ _ 1)⟩

/-- A single-stepped core halts behind its instruction, its registers and queues as the instruction leaves them (R695). -/
theorem CoreBecomes.afterStep (h : CoreBecomes pd mc s t c) :
    ∃ st d b, CoreBecomes pd mc s (t.afterStep pd mc) (c.stepped st d b) := by
  unfold State.afterStep
  dsimp only
  split
  · obtain ⟨d, hd⟩ := h.debugHalted
    exact ⟨_, d, _, hd.records (setFlag_records _ _ _ _ 0)⟩
  · exact ⟨c.status, c.dhalt, c.dstep, h⟩

theorem afterStep_of_running (h : (t.core pd mc).dstep = false) : t.afterStep pd mc = t := by
  simp [State.afterStep, h]

/-! An instruction that acts on its core alone: g is what it makes of the core. -/

section
variable (hs : rising s.cores = true) {cmd : Instr} {op : Nat} {want : TInstr → Option (State → State)} {q : Option QName}
  (hexec : exec cmd s = .next (s.dispatch pd mc op want q)) {i : TInstr} (hr : Ready s pd mc i) {act : State → State}
  (hwant : want i = some act) (hq : q.any (fun n => !(s.core pd mc).hasPlace n s.sched.beat) = false) {g : CoreSt → CoreSt}
  (hact : ∀ u c, CoreBecomes pd mc s u c → CoreBecomes pd mc s (act u) (g c))
include hs hexec hr hwant hq hact

theorem dispatch_coreBecomes : ∃ t a st d b, exec cmd s = .next t ∧
    CoreBecomes pd mc s t ((g ((s.core pd mc).dispatching a)).stepped st d b) := by
  obtain ⟨a, hbegin⟩ := dispatching_coreBecomes (pd := pd) (mc := mc) hs op
  obtain ⟨st, d, b, hend⟩ := (hact _ _ hbegin).afterStep
  exact ⟨_, a, st, d, b, hexec, dispatch_ready hr hwant hq op ▸ hend⟩

/-- Outside a single step nothing halts the core behind its instruction. -/
theorem dispatch_running (hstep : (s.core pd mc).dstep = false) (hg : ∀ c, (g c).dstep = c.dstep) :
    ∃ t a, exec cmd s = .next t ∧ CoreBecomes pd mc s t (g ((s.core pd mc).dispatching a)) := by
  obtain ⟨a, hbegin⟩ := dispatching_coreBecomes (pd := pd) (mc := mc) hs op
  have hend := hact _ _ hbegin
  have hrun : ((act (s.dispatching pd mc op)).core pd mc).dstep = false := by rw [hend.core, hg]; exact hstep
  rw [dispatch_ready hr hwant hq, afterStep_of_running hrun] at hexec
  exact ⟨_, a, hexec, hend⟩

end

end

end Sys2Proof.Machine
end

section
/-!
SUPPORT. Instructions that act on their core alone, as their dispatch leaves the machine (R136, R139 to R147).
-/
open Sys2Proof.Claims

namespace Sys2Proof.Machine

@[simp] theorem pc_wrA (x : CoreCtx) (n : Nat) (v : DWord) : (x.wrA n v).pc = x.pc := by
  unfold CoreCtx.wrA
  split <;> rfl

@[simp] theorem pc_wrL (x : CoreCtx) (n : Nat) (v : Word) : (x.wrL n v).pc = x.pc := rfl

@[simp] theorem pc_wrT (x : CoreCtx) (n : Nat) (v : BitVec 128) : (x.wrT n v).pc = x.pc := rfl

@[simp] theorem pc_wrK (x : CoreCtx) (n : Nat) (v : DWord) : (x.wrK n v).pc = x.pc := rfl

section
variable {s : State} (hc : Canon s) {pd : PD} {mc : MC} {i : TInstr} (hr : Ready s pd mc i)
include hc hr

/-- An instruction that changes the core's registers at dispatch and holds nothing (R136, R147). -/
theorem simple_completes {cmd : Instr} {op : Nat} {want : TInstr → Option (State → State)} {f : CoreCtx → CoreCtx}
    (hexec : exec cmd s = .next (s.dispatch pd mc op want)) (hwant : want i = some fun t => t.simple pd mc f)
    (hpc : ∀ x, (f x).pc = x.pc) :
    Completes cmd s fun t => Went s t pd mc (s.sched.beat + 1) f ∧ OthersKept s t pd mc := by
  obtain ⟨t, a, st, d, b, ht, h⟩ := dispatch_coreBecomes hc.cores hexec hr hwant rfl fun u c hu => hu.simple f
  refine ⟨t, ht, ?_, h.kept⟩
  rw [Went, h.core]
  exact ⟨congrArg (fun n => { f (s.core pd mc).x with pc := n + 1 }) (hpc _), rfl, rfl, rfl, rfl, rfl, rfl⟩

end

end Sys2Proof.Machine

open Sys2Proof Sys2Proof.Machine

/-- Settles O16, instruction by instruction: each is one change of the core's registers. -/
theorem addressInstructionsTakeEffectAtDispatch : Obligations.AddressInstructionsTakeEffectAtDispatch := by
  intro s hc pd mc
  exact ⟨fun h => simple_completes hc h rfl rfl fun _ => rfl, fun _ _ h => simple_completes hc h rfl rfl fun x => pc_wrL x _ _,
    fun _ _ h => simple_completes hc h rfl rfl fun x => pc_wrA x _ _, fun _ _ _ h => simple_completes hc h rfl rfl fun x => pc_wrA x _ _,
    fun _ _ _ h => simple_completes hc h rfl rfl fun x => pc_wrA x _ _,
    fun _ _ _ _ h => simple_completes hc h rfl rfl fun x => pc_wrA x _ _,
    fun _ _ h => simple_completes hc h rfl rfl fun x => pc_wrT x _ _,
    fun _ _ _ _ _ h => simple_completes hc h rfl rfl fun x => pc_wrT x _ _,
    fun _ _ h => simple_completes hc h rfl rfl fun x => pc_wrT x _ _, fun _ _ _ h => simple_completes hc h rfl rfl fun x => pc_wrK x _ _⟩

end

section
open Sys2Proof.Claims

namespace Sys2Proof.Machine

section
variable {s t : State} {pd : PD} {mc : MC}

/-- What holds dispatch, an SFENCE apart, holds it at every beat (R139 to R141). -/
theorem canDispatch_of_hold (hnone : (t.core pd mc).hold ≠ .none) (hfence : ∀ d n, (t.core pd mc).hold ≠ .sfence d n) :
    t.canDispatch pd mc = false := by
  unfold State.canDispatch
  dsimp only
  split
  · exact absurd ‹_› hnone
  · exact absurd ‹_› (hfence _ _)
  · simp

theorem status_of_ready {i : TInstr} (hr : Ready s pd mc i) : (s.core pd mc).status = .running := by
  obtain ⟨hcan, -⟩ := hr
  simp only [State.canDispatch, Bool.and_eq_true, beq_iff_eq] at hcan
  obtain ⟨⟨⟨⟨-, hrun⟩, -⟩, -⟩, -⟩ := hcan
  exact hrun

end

/-! SYNCB (R139). -/

/-- The core behind a SYNCB that dispatches at beat d. -/
def CoreSt.synced (c : CoreSt) (d beat : Nat) : CoreSt :=
  { c.next (max (d + 1) beat) with
    stall := max (d + 1) beat - max (d - c.stall + 1) beat
    hold := if d + 1 < beat then .sync beat else .none }

section
variable {s : State} {pd : PD} {mc : MC} {beat : Nat}

theorem syncb_completes (hc : Canon s) (hr : Ready s pd mc (.syncb beat)) : Completes (.syncb pd mc) s fun t =>
    Went s t pd mc (max (s.sched.beat + 1) beat) id ∧ OthersKept s t pd mc ∧
      (t.core pd mc).hold = if s.sched.beat + 1 < beat then .sync beat else .none := by
  obtain ⟨t, a, st, d, b, ht, h⟩ := dispatch_coreBecomes (cmd := .syncb pd mc) hc.cores rfl hr rfl rfl
    fun u c hu => hu.atBeat hu.beat fun d c => c.synced d beat
  refine ⟨t, ht, ?_, h.kept, congrArg CoreSt.hold h.core⟩
  rw [Went, h.core]
  exact ⟨rfl, rfl, rfl, rfl, rfl, rfl, rfl⟩

theorem syncbRelease_eq (hold : (s.core pd mc).hold = .sync beat) : exec (.syncbRelease pd mc) s =
    if beat ≤ s.sched.beat then .next (s.modCore pd mc fun c => { c with hold := .none }) else .next s := by
  change execSyncbRelease pd mc s = _
  simp only [execSyncbRelease, hold]

end

end Sys2Proof.Machine

open Sys2Proof Sys2Proof.Machine

/-- Settles O18: what SYNCB leaves of its core, and the release of its hold at its beat and before. -/
theorem syncbHoldsUntilItsBeat : Obligations.SyncbHoldsUntilItsBeat := by
  intro s hc pd mc
  refine ⟨fun beat hr => ?_, fun beat hold hdue => (syncbRelease_eq hold).trans (if_pos hdue),
    fun beat hold hearly => (syncbRelease_eq hold).trans (if_neg (by omega))⟩
  obtain ⟨t, ht, hwent, hkept, hhold⟩ := syncb_completes hc hr
  refine ⟨t, ht, hwent, hkept, fun hlater => ?_, fun hpast => hhold.trans (if_neg (by omega))⟩
  have hsync := hhold.trans (if_pos hlater)
  exact ⟨hsync, canDispatch_of_hold (by simp [hsync]) (by simp [hsync])⟩
end

section
open Sys2Proof.Claims

namespace Sys2Proof.Machine

/-! HALT, STEP, SFENCE and words that do not decode (R134, R140, R141, R147). -/

section
variable {s t u : State} {pd : PD} {mc : MC} {c : CoreSt}

/-- An empty merging buffer has nothing to write out. -/
theorem mbFlush_of_empty (h : (t.tc pd mc).mb = []) : t.mbFlush pd mc = t := by
  simp [State.mbFlush, h]

theorem CoreBecomes.tc (h : CoreBecomes pd mc s t c) : t.tc pd mc = s.tc pd mc := by
  obtain ⟨-, -, -, htcs, -⟩ := h.kept
  exact congrArg (fun l => mget (fun _ => ({} : TCache)) l (coreKey pd mc)) htcs

end

section
variable {s : State} (hc : Canon s) {pd : PD} {mc : MC}
include hc

theorem haltedEntry_completes (hrun : (s.core pd mc).status = .running) (hhold : (s.core pd mc).hold = .halt)
    (hempty : (s.core pd mc).queuesEmpty = true) : Completes (.haltedEntry pd mc) s fun t =>
      (t.core pd mc).status = .halted ∧ (t.core pd mc).x = (s.core pd mc).x ∧ OthersKept s t pd mc := by
  have h := ((CoreBecomes.refl (pd := pd) (mc := mc) hc.cores).setCore { s.core pd mc with status := .halted, hold := .none }).records
    (setInt_records _ (mcorePage pd mc) 1)
  refine ⟨_, if_pos ⟨hrun, hhold, hempty⟩, ?_, ?_, h.kept⟩
  · rw [h.core]
  · rw [h.core]

variable (hstep : (s.core pd mc).dstep = false)
include hstep

theorem halt_completes (hr : Ready s pd mc .halt) : Completes (.halt pd mc) s fun t =>
    Went s t pd mc (s.sched.beat + 1) id ∧ OthersKept s t pd mc ∧ (t.core pd mc).hold = .halt ∧ t.canDispatch pd mc = false := by
  obtain ⟨t, a, ht, h⟩ := dispatch_running (cmd := .halt pd mc) hc.cores rfl hr rfl rfl
    (fun u c hu => (hu.simple id).modCore fun c => { c with hold := .halt }) hstep fun _ => rfl
  have hhold := congrArg CoreSt.hold h.core
  refine ⟨t, ht, ?_, h.kept, hhold, canDispatch_of_hold (by simp [hhold]) (by simp [hhold])⟩
  rw [Went, h.core]
  exact ⟨rfl, rfl, rfl, rfl, rfl, rfl, rfl⟩

end

/-! STEP and SFENCE, which flush the merging buffer (R140, R147). -/

/-- The core behind an SFENCE at beat d, unless the flush of its merging buffer has stopped it (R147, R178). -/
def CoreSt.awaiting (c : CoreSt) (d : Nat) : CoreSt :=
  if c.status = .running then { c with hold := .sfence d c.seq, seq := c.seq + 1 } else c

/-- The core behind a STEP, unless the flush of its merging buffer has stopped it (R140). -/
def CoreSt.ended (c : CoreSt) : CoreSt := if c.status = .running then { c with status := .waitStep, hold := .step } else c

theorem awaiting_running {c : CoreSt} (h : c.status = .running) (d : Nat) :
    c.awaiting d = { c with hold := .sfence d c.seq, seq := c.seq + 1 } := if_pos h

theorem ended_running {c : CoreSt} (h : c.status = .running) : c.ended = { c with status := .waitStep, hold := .step } := if_pos h

theorem dstep_awaiting (c : CoreSt) (d : Nat) : (c.awaiting d).dstep = c.dstep := by
  unfold CoreSt.awaiting
  split <;> rfl

theorem dstep_ended (c : CoreSt) : c.ended.dstep = c.dstep := by
  unfold CoreSt.ended
  split <;> rfl

section
variable {s : State} {pd : PD} {mc : MC} (hmb : (s.tc pd mc).mb = [])
include hmb

/-- With nothing in the merging buffer its flush changes nothing. -/
theorem CoreBecomes.mbFlush {u : State} {c : CoreSt} (hu : CoreBecomes pd mc s u c) : CoreBecomes pd mc s (u.mbFlush pd mc) c := by
  rwa [mbFlush_of_empty (hu.tc ▸ hmb)]

variable (hc : Canon s) (hstep : (s.core pd mc).dstep = false)
include hc hstep

theorem step_completes (hr : Ready s pd mc .step) : Completes (.step pd mc) s fun t =>
    Went s t pd mc (s.sched.beat + 1) id ∧ OthersKept s t pd mc ∧ (t.core pd mc).status = .waitStep := by
  obtain ⟨t, a, ht, h⟩ := dispatch_running (cmd := .step pd mc) hc.cores rfl hr rfl rfl
    (fun u c hu => ((hu.simple id).mbFlush hmb).modCore CoreSt.ended) hstep fun c => dstep_ended _
  have hcore := h.core.trans (ended_running (by exact status_of_ready hr))
  refine ⟨t, ht, ?_, h.kept, congrArg CoreSt.status hcore⟩
  rw [Went, hcore]
  exact ⟨rfl, rfl, rfl, rfl, rfl, rfl, rfl⟩

theorem sfence_completes (hr : Ready s pd mc .sfence) : Completes (.sfence pd mc) s fun t =>
    Went s t pd mc (s.sched.beat + 1) id ∧ OthersKept s t pd mc ∧
      (t.core pd mc).hold = .sfence s.sched.beat (s.core pd mc).seq ∧ (t.core pd mc).seq = (s.core pd mc).seq + 1 := by
  obtain ⟨t, a, ht, h⟩ := dispatch_running (cmd := .sfence pd mc) hc.cores rfl hr rfl rfl
    (fun u c hu => ((hu.simple id).mbFlush hmb).atBeat hu.beat fun d c => c.awaiting d) hstep fun c => dstep_awaiting _ _
  have hcore := h.core.trans (awaiting_running (by exact status_of_ready hr) _)
  refine ⟨t, ht, ?_, h.kept, congrArg CoreSt.hold hcore, congrArg CoreSt.seq hcore⟩
  rw [Went, hcore]
  exact ⟨rfl, rfl, rfl, rfl, rfl, rfl, rfl⟩

end

/-- A word at PC that does not decode stops the core that would dispatch it (R134, R151). -/
theorem reservedOpcode_eq {s : State} {pd : PD} {mc : MC} {r : Nat} (hcan : s.canDispatch pd mc = true)
    (hstop : (s.core pd mc).stopPend = none) (hpc : (s.core pd mc).x.pc.toNat < (s.core pd mc).progLen)
    (hdec : decodeT s.fullDies.length ((s.core pd mc).fetch (s.core pd mc).x.pc.toNat) = .error r) :
    exec (.reservedOpcode pd mc) s = .next (s.coreStop pd mc (s.core pd mc).x.pc.toNat r) := by
  change execReservedOpcode pd mc s = _
  simp only [execReservedOpcode, hcan, hpc, hstop, hdec, and_self, if_true]

end Sys2Proof.Machine

open Sys2Proof Sys2Proof.Machine

/-- Settles O19, end by end: HALT and its drained entry, STEP, SFENCE, and a word that does not decode. -/
theorem programEndsAndFencesHoldDispatch : Obligations.ProgramEndsAndFencesHoldDispatch := by
  intro s hc pd mc hstep
  exact ⟨halt_completes hc hstep, haltedEntry_completes hc, fun hr hmb => step_completes hmb hc hstep hr,
    fun hr hmb => sfence_completes hmb hc hstep hr,
    fun r hcan hstop hpc hdec => ⟨_, reservedOpcode_eq hcan hstop hpc hdec, stopped_coreStop hc _ r⟩⟩
end

section
/-!
SUPPORT. Instructions that queue work with the operands that they read at dispatch (R142 to R146).
-/
open Sys2Proof.Claims

namespace Sys2Proof.Machine

section
variable {s : State} {pd : PD} {mc : MC} {q : QName}

theorem place_of_hasPlace (h : (s.core pd mc).hasPlace q s.sched.beat = true) :
    (some q).any (fun n => !(s.core pd mc).hasPlace n s.sched.beat) = false := by
  simp [h]

/-- A queue of 8 entries has no place (R146). -/
theorem hasPlace_full {c : CoreSt} {now : Nat} (h : (c.queue q).length = 8) : c.hasPlace q now = false := by
  simp [CoreSt.hasPlace, h]

variable (hc : Canon s) {i : TInstr} (hr : Ready s pd mc i) {cmd : Instr} {op : Nat} {want : TInstr → Option (State → State)}
  (hexec : exec cmd s = .next (s.dispatch pd mc op want (some q)))
include hc hr hexec

/-- An instruction that queues its work and does nothing else. -/
theorem enqueue_completes {f : CoreCtx → CoreCtx} {work : CoreCtx → QOp}
    (hwant : want i = some fun t => t.enqueue pd mc q f work) (hplace : (s.core pd mc).hasPlace q s.sched.beat = true) :
    ∃ t a st d b, exec cmd s = .next t ∧
      CoreBecomes pd mc s t ((((s.core pd mc).dispatching a).enqueued q s.sched.beat f work).stepped st d b) :=
  dispatch_coreBecomes hc.cores hexec hr hwant (place_of_hasPlace hplace) fun _ _ hu => hu.enqueue q f work

end

/-! The array's queues (R142, R143, R145). -/

/-- The core behind a WLD that queues its load (R142, R143). -/
def CoreSt.wldQueued (c : CoreSt) (d bsel n k : Nat) : CoreSt :=
  let b := selBank bsel c.x.lastW
  let e := c.enqueued .lq d (fun x => { x with lastW := b }) fun x => .wld b (x.rdT n) (x.rdK k)
  if b then { e with wldSeen1 := true } else { e with wldSeen0 := true }

/-- The core behind an STR that queues its stream (R143). -/
def CoreSt.strQueued (c : CoreSt) (d bsel n accBase tileId : Nat) (set wide : Bool) : CoreSt :=
  let b := selBank bsel c.x.lastS
  c.enqueued .sq d (fun x => { x with lastS := b }) fun x =>
    .str b (x.rdT n) set wide accBase tileId (if b then c.wldSeen1 else c.wldSeen0)

section
variable (c : CoreSt) (d bsel n k : Nat)

theorem lq_wldQueued : (c.wldQueued d bsel n k).lq = c.lq ++ [⟨c.x.pc.toNat, d, c.seq,
    .wld (selBank bsel c.x.lastW) (c.x.rdT n) (c.x.rdK k), none⟩] := by
  unfold CoreSt.wldQueued
  dsimp only
  split <;> rfl

theorem x_wldQueued : (c.wldQueued d bsel n k).x = { c.x with pc := c.x.pc + 1, lastW := selBank bsel c.x.lastW } := by
  unfold CoreSt.wldQueued
  dsimp only
  split <;> rfl

theorem nextD_wldQueued : (c.wldQueued d bsel n k).nextD = d + 1 := by
  unfold CoreSt.wldQueued
  dsimp only
  split <;> rfl

end

section
variable {s : State} (hc : Canon s) {pd : PD} {mc : MC}
include hc

theorem wld_completes {bsel n k : Nat} (hr : Ready s pd mc (.wld bsel n k))
    (hplace : (s.core pd mc).hasPlace .lq s.sched.beat = true) : Completes (.wld pd mc) s fun t =>
      ∃ b, b = selBank bsel (s.core pd mc).x.lastW ∧
      (t.core pd mc).lq = (s.core pd mc).lq ++ [⟨(s.core pd mc).x.pc.toNat, s.sched.beat, (s.core pd mc).seq,
        .wld b ((s.core pd mc).x.rdT n) ((s.core pd mc).x.rdK k), none⟩] ∧
      (t.core pd mc).x = { (s.core pd mc).x with pc := (s.core pd mc).x.pc + 1, lastW := b } ∧
      (t.core pd mc).nextD = s.sched.beat + 1 ∧ OthersKept s t pd mc := by
  have hact (u : State) (c : CoreSt) (hu : CoreBecomes pd mc s u c) : CoreBecomes pd mc s
      ((u.enqueue pd mc .lq (fun x => { x with lastW := selBank bsel (u.core pd mc).x.lastW }) fun x =>
        .wld (selBank bsel (u.core pd mc).x.lastW) (x.rdT n) (x.rdK k)).modCore pd mc fun c =>
          if selBank bsel (u.core pd mc).x.lastW then { c with wldSeen1 := true } else { c with wldSeen0 := true })
      (c.wldQueued s.sched.beat bsel n k) := by
    obtain rfl := hu.core
    exact (hu.enqueue _ _ _).modCore _
  obtain ⟨t, a, st, d, b, ht, h⟩ := dispatch_coreBecomes (cmd := .wld pd mc) hc.cores rfl hr rfl (place_of_hasPlace hplace) hact
  refine ⟨t, ht, _, rfl, ?_⟩
  rw [h.core]
  exact ⟨lq_wldQueued _ _ _ _ _, x_wldQueued _ _ _ _ _, nextD_wldQueued _ _ _ _ _, h.kept⟩

/-- Work that its queue takes with nothing else changed but PC. -/
theorem queued_completes {q : QName} {i : TInstr} (hr : Ready s pd mc i) (hplace : (s.core pd mc).hasPlace q s.sched.beat = true)
    {cmd : Instr} {op : Nat} {want : TInstr → Option (State → State)} {work : CoreCtx → QOp}
    (hexec : exec cmd s = .next (s.dispatch pd mc op want (some q)))
    (hwant : want i = some fun t => t.enqueue pd mc q id work) {e : QOp} (he : work (s.core pd mc).x = e) :
    Completes cmd s fun t =>
      (t.core pd mc).queue q = (s.core pd mc).queue q ++ [⟨(s.core pd mc).x.pc.toNat, s.sched.beat, (s.core pd mc).seq, e, none⟩] ∧
      (t.core pd mc).x = { (s.core pd mc).x with pc := (s.core pd mc).x.pc + 1 } ∧
      (t.core pd mc).nextD = s.sched.beat + 1 ∧ OthersKept s t pd mc := by
  obtain ⟨t, a, st, d, b, ht, h⟩ := enqueue_completes hc hr hexec hwant hplace
  refine ⟨t, ht, ?_⟩
  beta_reduce
  rw [h.core, ← he]
  cases q <;> exact ⟨rfl, rfl, rfl, h.kept⟩

theorem str_completes {bsel n accBase tileId : Nat} {set wide : Bool} (hr : Ready s pd mc (.str bsel n set wide accBase tileId))
    (hplace : (s.core pd mc).hasPlace .sq s.sched.beat = true) : Completes (.str pd mc) s fun t =>
      ∃ b, b = selBank bsel (s.core pd mc).x.lastS ∧
      (t.core pd mc).sq = (s.core pd mc).sq ++ [⟨(s.core pd mc).x.pc.toNat, s.sched.beat, (s.core pd mc).seq,
        .str b ((s.core pd mc).x.rdT n) set wide accBase tileId
          (if b then (s.core pd mc).wldSeen1 else (s.core pd mc).wldSeen0), none⟩] ∧
      (t.core pd mc).x = { (s.core pd mc).x with pc := (s.core pd mc).x.pc + 1, lastS := b } ∧
      (t.core pd mc).nextD = s.sched.beat + 1 ∧ OthersKept s t pd mc := by
  have hact (u : State) (c : CoreSt) (hu : CoreBecomes pd mc s u c) : CoreBecomes pd mc s
      (u.enqueue pd mc .sq (fun x => { x with lastS := selBank bsel (u.core pd mc).x.lastS }) fun x =>
        .str (selBank bsel (u.core pd mc).x.lastS) (x.rdT n) set wide accBase tileId
          (if selBank bsel (u.core pd mc).x.lastS then (u.core pd mc).wldSeen1 else (u.core pd mc).wldSeen0))
      (c.strQueued s.sched.beat bsel n accBase tileId set wide) := by
    obtain rfl := hu.core
    exact hu.enqueue _ _ _
  obtain ⟨t, a, st, d, b, ht, h⟩ := dispatch_coreBecomes (cmd := .str pd mc) hc.cores rfl hr rfl (place_of_hasPlace hplace) hact
  refine ⟨t, ht, _, rfl, ?_⟩
  rw [h.core]
  exact ⟨rfl, rfl, rfl, h.kept⟩

end

/-! The vector queue (R144). -/

section
variable {s : State} (hc : Canon s) {pd : PD} {mc : MC} {i : TInstr} (hr : Ready s pd mc i)
  (hplace : (s.core pd mc).hasPlace .vq s.sched.beat = true)
include hc hr hplace

theorem vqueued_completes {cmd : Instr} {op : Nat} {want : TInstr → Option (State → State)} {work : CoreCtx → QOp}
    (hexec : exec cmd s = .next (s.dispatch pd mc op want (some .vq)))
    (hwant : want i = some fun t => t.enqueue pd mc .vq id work) {e : QOp} (he : work (s.core pd mc).x = e) :
    Completes cmd s fun t => VQueued s t pd mc e := by
  obtain ⟨t, a, st, d, b, ht, h⟩ := enqueue_completes hc hr hexec hwant hplace
  have hqueued : VQueued s t pd mc (work (s.core pd mc).x) := by
    rw [VQueued, h.core]
    exact ⟨rfl, rfl, rfl, rfl, rfl, rfl, rfl, h.kept⟩
  exact ⟨t, ht, he ▸ hqueued⟩

end

/-- A row of VOP queues the operation that its function code names. -/
theorem vopQueues {c : PD → MC → Instr} {fn : Nat} (hexec : ∀ pd mc s, exec (c pd mc) s = .next (s.vopRow pd mc fn)) :
    VopQueues c fn := by
  intro s hc pd mc vd va vb vc bf16 bcast hr hplace
  exact vqueued_completes hc hr hplace (hexec pd mc s) (if_pos rfl) rfl

end Sys2Proof.Machine

open Sys2Proof Sys2Proof.Machine

/-- Settles O20: each with a place in its queue, and WLD with its queue full. -/
theorem arrayInstructionsQueueTheirOperands : Obligations.ArrayInstructionsQueueTheirOperands := by
  intro s hc pd mc
  exact ⟨fun _ _ _ hr hplace => wld_completes hc hr hplace, fun _ _ _ _ _ _ hr hplace => str_completes hc hr hplace,
    fun _ _ _ _ _ _ _ _ _ _ _ hr hplace => queued_completes (q := .dq) hc hr hplace rfl rfl rfl,
    fun _ _ _ _ hr hplace => queued_completes (q := .mq) hc hr hplace rfl rfl rfl,
    fun _ _ _ hr hfull => congrArg Host.Outcome.next (dispatch_noPlace hr rfl (hasPlace_full (q := .lq) hfull) 0x20)⟩

/-- Settles O21: VMV, VLD and VST with the operands they read, and the function code of each VOP row. -/
theorem vectorInstructionsQueueTheirOperands : Obligations.VectorInstructionsQueueTheirOperands := by
  refine ⟨fun s hc pd mc hplace => ⟨fun _ _ _ _ _ _ _ hr => vqueued_completes hc hr hplace rfl rfl rfl,
    fun _ _ _ _ _ hr => vqueued_completes hc hr hplace rfl rfl rfl,
    fun _ _ _ _ _ _ hr => vqueued_completes hc hr hplace rfl rfl rfl⟩, ?_⟩
  exact ⟨vopQueues fun _ _ _ => rfl, vopQueues fun _ _ _ => rfl, vopQueues fun _ _ _ => rfl, vopQueues fun _ _ _ => rfl,
    vopQueues fun _ _ _ => rfl, vopQueues fun _ _ _ => rfl, vopQueues fun _ _ _ => rfl, vopQueues fun _ _ _ => rfl,
    vopQueues fun _ _ _ => rfl, vopQueues fun _ _ _ => rfl, vopQueues fun _ _ _ => rfl, vopQueues fun _ _ _ => rfl,
    vopQueues fun _ _ _ => rfl, vopQueues fun _ _ _ => rfl⟩
end

section
/-!
SUPPORT. Turnstile instructions: posts, waits and ALT at their dispatch (R138, R252 to R257).
-/
open Sys2Proof.Claims

namespace Sys2Proof.Machine

section
variable {s : State} {pd : PD} {mc : MC}

/-! Outside an alternative and a single step the Turnstiles, the clock and the dies are as they were when an instruction acts. -/

theorem dispatching_ts (halt : (s.core pd mc).altRun = none) (op : Nat) : (s.dispatching pd mc op).ts = s.ts := by
  obtain ⟨u, hu, h⟩ := dispatching_records halt op
  rw [h]
  exact hu.ts

theorem dispatching_clock (halt : (s.core pd mc).altRun = none) (op : Nat) : (s.dispatching pd mc op).clock = s.clock := by
  obtain ⟨u, ⟨⟨r, c, q, f, tr, e, rfl⟩, -⟩, h⟩ := dispatching_records halt op
  rw [h]
  rfl

theorem dispatching_pdOfLd (halt : (s.core pd mc).altRun = none) (op n : Nat) : (s.dispatching pd mc op).pdOfLd n = s.pdOfLd n := by
  obtain ⟨u, ⟨⟨r, c, q, f, tr, e, rfl⟩, -⟩, h⟩ := dispatching_records halt op
  rw [h]
  rfl

/-- What an instruction of a core outside a single step leaves is what its action leaves. -/
theorem dispatch_act {i : TInstr} (hr : Ready s pd mc i) {cmd : Instr} {op : Nat} {want : TInstr → Option (State → State)}
    (hexec : exec cmd s = .next (s.dispatch pd mc op want)) {act : State → State} (hwant : want i = some act)
    (hstep : ((act (s.dispatching pd mc op)).core pd mc).dstep = false) :
    exec cmd s = .next (act (s.dispatching pd mc op)) := by
  rw [hexec, dispatch_ready hr hwant rfl, afterStep_of_running hstep]

/-! Posts (R254). -/

/-- The operation that a TSOP posts: to its own Turnstiles or its die's pool, or to the pool of another die. -/
def State.tsopOf (s : State) (pd : PD) (mc : MC) (sub : Bool) (cls ldie index k : Nat) : TsOp :=
  let lat := if cls = 0 then 3 else if cls = 1 then 12 else 180
  { key := if cls = 2 then poolKey ((s.pdOfLd ldie).getD pd) index else tsKeyOf pd mc cls index
    y := s.clock.beats.toNat + lat, sub := sub, ring := false, who := whoCore (s.lcNo pd mc), k := k
    sbeat := s.sched.beat - (s.core pd mc).stall + lat, lc := s.lcNo pd mc, src := 0 }

theorem tsopPost_near (s : State) (pd : PD) (mc : MC) (sub : Bool) {cls : Nat} (hcls : cls < 2) (ldie index k : Nat) :
    s.tsopPost pd mc sub cls ldie index k =
      (s.simple pd mc id).tsPost (s.tsopOf pd mc sub cls ldie index k) := if_neg (by omega)

theorem tsopPost_far (s : State) (pd : PD) (mc : MC) (sub : Bool) (ldie index k : Nat) : s.tsopPost pd mc sub 2 ldie index k =
    { s.simple pd mc id with
      ts := { s.ts with remote := s.ts.remote ++ [s.tsopOf pd mc sub 2 ldie index k] } } := rfl

variable (hc : Canon s) (hstep : (s.core pd mc).dstep = false) (halt : (s.core pd mc).altRun = none)
include hc hstep halt

/-- A TSOP that posts goes on at the next beat; its post lies where its class says, with the operands of its dispatch. -/
theorem tsop_posts {sub : Bool} {cls ldie index k : Nat} (hr : Ready s pd mc (.tsop (b2n sub) cls ldie index k)) :
    ∃ t u : State, exec (if sub then .tsopSubtract pd mc else .tsopAdd pd mc) s = .next t ∧ Went s t pd mc (s.sched.beat + 1) id ∧
      t = u.tsopPost pd mc sub cls ldie index k ∧ u.ts = s.ts ∧ u.clock = s.clock ∧ u.pdOfLd ldie = s.pdOfLd ldie := by
  obtain ⟨a, hbegin⟩ := dispatching_coreBecomes (pd := pd) (mc := mc) hc.cores 0x30
  have hsimple := hbegin.simple id
  have hcore : ((s.dispatching pd mc 0x30).tsopPost pd mc sub cls ldie index k).core pd mc =
      (((s.dispatching pd mc 0x30).simple pd mc id)).core pd mc := by
    unfold State.tsopPost
    dsimp only
    split <;> rfl
  have hpost := hcore.trans hsimple.core
  refine ⟨(s.dispatching pd mc 0x30).tsopPost pd mc sub cls ldie index k, _, ?_, ?_, rfl, dispatching_ts halt _,
    dispatching_clock halt _, dispatching_pdOfLd halt _ _⟩
  · have hrun := (congrArg CoreSt.dstep hpost).trans hstep
    cases sub with
    | false => exact dispatch_act (act := fun u => u.tsopPost pd mc false cls ldie index k) hr rfl rfl hrun
    | true => exact dispatch_act (act := fun u => u.tsopPost pd mc true cls ldie index k) hr rfl rfl hrun
  · rw [Went, hpost]
    exact ⟨rfl, rfl, rfl, rfl, rfl, rfl, rfl⟩

theorem tsop_near {sub : Bool} {cls ldie index k : Nat} (hcls : cls < 2)
    (hr : Ready s pd mc (.tsop (b2n sub) cls ldie index k)) :
    Completes (if sub then .tsopSubtract pd mc else .tsopAdd pd mc) s fun t =>
      Went s t pd mc (s.sched.beat + 1) id ∧
      (∃ o, t.ts = { s.ts with ops := s.ts.ops ++ [o] } ∧ o.key = tsKeyOf pd mc cls index ∧ o.sub = sub ∧ o.k = k ∧
        o.y = s.clock.beats.toNat + (if cls = 0 then 3 else 12)) := by
  obtain ⟨t, u, ht, hwent, hpost, hts, hclock, -⟩ := tsop_posts hc hstep halt hr
  have hkey : (u.tsopOf pd mc sub cls ldie index k).key = tsKeyOf pd mc cls index := by
    have hne : cls ≠ 2 := by omega
    exact if_neg hne
  have hlat : (if cls = 0 then 3 else if cls = 1 then 12 else 180) = if cls = 0 then 3 else 12 := by
    split
    · rfl
    · exact if_pos (by omega)
  refine ⟨t, ht, hwent, u.tsopOf pd mc sub cls ldie index k, ?_, hkey, rfl, rfl, ?_⟩
  · rw [hpost, tsopPost_near u pd mc sub hcls, ← hts]
    rfl
  · rw [← hclock, ← hlat]
    rfl

theorem tsop_far {sub : Bool} {ldie index k : Nat} (hr : Ready s pd mc (.tsop (b2n sub) 2 ldie index k)) :
    Completes (if sub then .tsopSubtract pd mc else .tsopAdd pd mc) s fun t =>
      Went s t pd mc (s.sched.beat + 1) id ∧
      (∃ o, t.ts = { s.ts with remote := s.ts.remote ++ [o] } ∧ o.key = poolKey ((s.pdOfLd ldie).getD pd) index ∧ o.sub = sub ∧
        o.k = k ∧ o.y = s.clock.beats.toNat + 180) := by
  obtain ⟨t, u, ht, hwent, hpost, hts, hclock, hpd⟩ := tsop_posts hc hstep halt hr
  refine ⟨t, ht, hwent, u.tsopOf pd mc sub 2 ldie index k, ?_, ?_, rfl, rfl, ?_⟩
  · rw [hpost, tsopPost_far, ← hts]
  · rw [← hpd]
    rfl
  · rw [← hclock]
    rfl

/-! Waits (R138, R252). -/

omit hc hstep halt in
theorem startWait_core {u : State} {c : CoreSt} (hu : CoreBecomes pd mc s u c) (key n : Nat) (kind : WaitKind) (hold : DHold) :
    (u.startWait pd mc key n kind hold).core pd mc = { c with status := .waitTs, hold := hold } :=
  (hu.modCore fun c => { c with status := .waitTs, hold := hold }).core

omit hc hstep halt in
theorem startWait_ts {u : State} {c : CoreSt} (hu : CoreBecomes pd mc s u c) (hts : u.ts = s.ts) (key n : Nat) (kind : WaitKind)
    (hold : DHold) : (u.startWait pd mc key n kind hold).ts = { s.ts with waits := s.ts.waits ++
      [⟨key, kind, n, pd, mc, s.sched.beat, s.sched.beat - c.stall⟩] } := by
  rw [← hts, ← hu.beat, ← hu.core]
  rfl

/-- An instruction that waits leaves its core's registers and says what it waits for. -/
theorem wait_completes {i : TInstr} (hr : Ready s pd mc i) {cmd : Instr} {op : Nat} {want : TInstr → Option (State → State)}
    (hexec : exec cmd s = .next (s.dispatch pd mc op want)) {begin_ : State → State} (hbegin : ∀ u, Records u (begin_ u))
    {key n : Nat} {kind : WaitKind} {hold : DHold}
    (hwant : want i = some fun u => (begin_ u).startWait pd mc key n kind hold) : Completes cmd s fun t =>
      (t.core pd mc).status = .waitTs ∧ (t.core pd mc).hold = hold ∧ (t.core pd mc).x = (s.core pd mc).x ∧
      t.ts = { s.ts with waits := s.ts.waits ++ [⟨key, kind, n, pd, mc, s.sched.beat, s.sched.beat - (s.core pd mc).stall⟩] } := by
  obtain ⟨a, hw⟩ := dispatching_coreBecomes (pd := pd) (mc := mc) hc.cores op
  have hu := hw.records (hbegin _)
  have hcore := startWait_core hu key n kind hold
  have hrun := (congrArg CoreSt.dstep hcore).trans hstep
  exact ⟨(begin_ (s.dispatching pd mc op)).startWait pd mc key n kind hold, dispatch_act hr hexec hwant hrun,
    congrArg CoreSt.status hcore, congrArg CoreSt.hold hcore, (congrArg CoreSt.x hcore).trans rfl,
    startWait_ts hu ((hbegin _).ts.trans (dispatching_ts halt op)) key n kind hold⟩

end

end Sys2Proof.Machine

open Sys2Proof Sys2Proof.Machine

/-- Settles O22: posts near and far, the two waits, and ALT with or without its record. -/
theorem turnstileInstructionsPostOrWait : Obligations.TurnstileInstructionsPostOrWait := by
  intro s hc pd mc hstep halt
  refine ⟨fun _ _ _ _ _ hcls hr => tsop_near hc hstep halt hcls hr, fun _ _ _ _ hr => tsop_far hc hstep halt hr,
    fun _ _ _ _ hr => ?_, fun _ _ _ _ hr => ?_, fun _ _ _ hr => ?_⟩
  · obtain ⟨t, ht, hst, -, hx, hts⟩ := wait_completes (cmd := .tsopWaitAtLeast pd mc) hc hstep halt hr rfl .refl rfl
    exact ⟨t, ht, hst, hx, hts⟩
  · obtain ⟨t, ht, hst, -, hx, hts⟩ := wait_completes (cmd := .tsopWaitThenSubtract pd mc) hc hstep halt hr rfl .refl rfl
    exact ⟨t, ht, hst, hx, hts⟩
  · exact wait_completes (cmd := .alt pd mc) hc hstep halt hr rfl
      (fun u => (Records.refl u).ite (schedError_records u 0x0A (u.lcNo pd mc) (u.core pd mc).x.pc.toNat 0x30)) rfl
end

section
/-!
SUPPORT. A wait alone on its Turnstile, released when the value is reached (R147, R252, R255, R257).
-/
open Sys2Proof.Claims

namespace Sys2Proof.Machine

/-! Values of Turnstiles. -/

theorem Records.cores {s t : State} (h : Records s t) : t.cores = s.cores := by
  obtain ⟨r, c, q, f, tr, e, rfl⟩ := h.frame
  rfl

theorem Records.core {s t : State} (h : Records s t) (pd : PD) (mc : MC) : t.core pd mc = s.core pd mc :=
  congrArg (fun l => mget (fun _ => ({} : CoreSt)) l (coreKey pd mc)) h.cores

theorem Records.tsCell {s t : State} (h : Records s t) (k : Nat) : t.tsCell k = s.tsCell k :=
  congrArg (fun (ts : Tiles) => mget (fun _ => ({} : TsCell)) ts.cells k) h.ts

theorem tsCell_setTsCell {s : State} (h : rising s.ts.cells = true) (k j : Nat) (c : TsCell) :
    (s.setTsCell k c).tsCell j = if j = k then c else s.tsCell j := mget_mput_rising h k j c

theorem traceTs_records (s : State) (k v : Nat) : Records s (s.traceTs k v) :=
  (traceRec_records s (keyPd k) _).ite (.refl s)

/-- A new value is stored with what the Turnstile has of its step, and traced (R257, R700). -/
theorem tsStore_stores (s : State) (k v tag : Nat) :
    ∃ c : TsCell, c.v = v ∧ Records (s.setTsCell k c) (s.tsStore k v tag) := by
  unfold State.tsStore
  dsimp only
  exact ⟨_, rfl, (Records.refl _).ite (traceTs_records _ k v)⟩

/-! The keys (R251). -/

theorem keyIsPool_privKey (pd : PD) (mc : MC) (i : Nat) : keyIsPool (privKey pd mc i) = false :=
  decide_eq_false (by unfold privKey; omega)

theorem keyIsPool_poolKey (pd : PD) (i : Nat) : keyIsPool (poolKey pd i) = true :=
  decide_eq_true (by unfold poolKey; omega)

/-! The release. -/

/-- The core whose wait is released at beat rel, lat beats before it goes on behind its instruction. -/
def CoreSt.waitReleased (c : CoreSt) (rel sched lat : Nat) : CoreSt :=
  { c with
    status := .running, hold := .none, stall := rel - sched, nextD := rel + lat
    x := { c.x with pc := c.x.pc + 1 } }

/-- The beats from a release to the next dispatch (R147, R257). -/
def waitLat (key : Nat) : Nat := if keyIsPool key then 12 else 3

/-- The scheduled beat of the release of a wait (R257). -/
def State.waitSched (s : State) (w : TsWait) : Nat := max w.w (tsSince s.sched.step.toNat (s.tsCell w.key) w.n)

/-- The pending waits without one. -/
def State.unwait (s : State) (w : TsWait) : State := { s with ts := { s.ts with waits := s.ts.waits.filter fun x => x != w } }

section
variable {s : State} {w : TsWait}

theorem grantWait_atLeast (hkind : w.kind = .atLeast) : s.grantWait w =
    ((s.unwait w).resumeWait w (max w.d s.sched.beat) (s.waitSched w) 0).modCore w.pd w.mc
      fun c => { c with x := { c.x with pc := c.x.pc + 1 } } := by
  simp only [State.grantWait, hkind]
  rfl

theorem grantWait_thenSub (hkind : w.kind = .thenSub) : s.grantWait w =
    (((s.unwait w).tsStore w.key ((s.tsCell w.key).v - w.n) (s.waitSched w)).resumeWait w (max w.d s.sched.beat)
      (s.waitSched w) 0).modCore w.pd w.mc fun c => { c with x := { c.x with pc := c.x.pc + 1 } } := by
  simp only [State.grantWait, hkind]
  rfl

theorem CoreBecomes.resumeWait {t : State} {c : CoreSt} (h : CoreBecomes w.pd w.mc s t c) (rel sched jump : Nat) :
    CoreBecomes w.pd w.mc s (t.resumeWait w rel sched jump)
      { c with status := .running, hold := .none, stall := rel - sched, nextD := rel + (waitLat w.key + jump) } :=
  h.modCore fun c =>
    { c with status := .running, hold := .none, stall := rel - sched, nextD := rel + (waitLat w.key + jump) }

/-- The core of a wait behind its release, in any state that has the cores of s. -/
theorem released_core {u : State} (hs : rising s.cores = true) (hcores : u.cores = s.cores) (rel sched : Nat) :
    ((u.resumeWait w rel sched 0).modCore w.pd w.mc fun c => { c with x := { c.x with pc := c.x.pc + 1 } }).core w.pd w.mc =
      (s.core w.pd w.mc).waitReleased rel sched (waitLat w.key) := by
  have hcore : u.core w.pd w.mc = s.core w.pd w.mc :=
    congrArg (fun l => mget (fun _ => ({} : CoreSt)) l (coreKey w.pd w.mc)) hcores
  have hrising : rising u.cores = true := hcores ▸ hs
  rw [← hcore]
  exact (((CoreBecomes.refl hrising).resumeWait rel sched 0).modCore fun c => { c with x := { c.x with pc := c.x.pc + 1 } }).core

variable (hwaits : s.ts.waits = [w])
include hwaits

theorem unwait_waits : (s.unwait w).ts.waits = [] := by
  simp [State.unwait, hwaits]

variable (hlive : s.waitLive w = true) (hreached : w.n ≤ (s.tsCell w.key).v)
include hlive hreached

/-- A wait-at-least alone on its Turnstile is granted once its value is reached. -/
theorem judgeWaits_atLeast (hkind : w.kind = .atLeast) : s.judgeWaits w.key = s.grantWait w := by
  simp [State.judgeWaits, hwaits, hlive, hkind, insWait, hreached]

/-- A wait-then-subtract alone on its Turnstile contends with none. -/
theorem judgeWaits_thenSub (hkind : w.kind = .thenSub) (hnone : (s.grantWait w).ts.waits = []) :
    s.judgeWaits w.key = s.grantWait w := by
  simp [State.judgeWaits, hwaits, hlive, hkind, insWait, hreached, hnone]

end

theorem tsWaitRelease_judges {s : State} {pd : PD} {mc : MC} {index : Fin 4096} {own : Bool} {key : Nat}
    (hkey : key = if own then privKey pd mc index.val else poolKey pd index.val)
    (hpoke : (s.tsCell key).poke ≠ some s.clock.beats.toNat) :
    exec (.tsWaitRelease pd (if own then some mc else none) index) s = .next (s.judgeWaits key) := by
  subst hkey
  cases own with
  | false => exact if_neg hpoke
  | true => exact if_neg hpoke

theorem waitLat_key {pd : PD} {mc : MC} {i key : Nat} {own : Bool} (hkey : key = if own then privKey pd mc i else poolKey pd i) :
    waitLat key = if own then 3 else 12 := by
  subst hkey
  cases own with
  | false => simp [waitLat, keyIsPool_poolKey]
  | true => simp [waitLat, keyIsPool_privKey]

end Sys2Proof.Machine

open Sys2Proof Sys2Proof.Machine

/-- Settles O23: a wait-at-least leaves the Turnstiles as they are, a wait-then-subtract stores what is left. -/
theorem waitsReleaseWhenTheValueIsReached : Obligations.WaitsReleaseWhenTheValueIsReached := by
  intro s hc pd mc index own w hkey hpd hmc hwaits hlive hreached hpoke
  subst hpd hmc
  have hexec := tsWaitRelease_judges hkey hpoke
  rw [← waitLat_key hkey]
  refine ⟨fun hkind => ?_, fun hkind => ?_⟩
  · rw [judgeWaits_atLeast hwaits hlive hreached hkind, grantWait_atLeast hkind] at hexec
    have hcore := released_core (u := s.unwait w) (w := w) hc.cores rfl (max w.d s.sched.beat) (s.waitSched w)
    exact ⟨_, hexec, congrArg CoreSt.status hcore, congrArg CoreSt.hold hcore, congrArg (fun c => c.x.pc) hcore,
      congrArg CoreSt.nextD hcore, unwait_waits hwaits, rfl⟩
  · obtain ⟨c, hv, hrec⟩ := tsStore_stores (s.unwait w) w.key ((s.tsCell w.key).v - w.n) (s.waitSched w)
    have hcore := released_core (w := w) hc.cores hrec.cores (max w.d s.sched.beat) (s.waitSched w)
    have hcell (k : Nat) : (s.grantWait w).tsCell k = if k = w.key then c else s.tsCell k := by
      rw [grantWait_thenSub hkind]
      exact (hrec.tsCell k).trans (tsCell_setTsCell (s := s.unwait w) hc.cells w.key k c)
    have hnone : (s.grantWait w).ts.waits = [] := by
      rw [grantWait_thenSub hkind]
      exact (congrArg Tiles.waits hrec.ts).trans (unwait_waits hwaits)
    rw [judgeWaits_thenSub hwaits hlive hreached hkind hnone] at hexec
    rw [← grantWait_thenSub hkind] at hcore
    refine ⟨_, hexec, congrArg CoreSt.status hcore, congrArg CoreSt.hold hcore, congrArg (fun c => c.x.pc) hcore,
      congrArg CoreSt.nextD hcore, hnone, ?_, fun k hk => (hcell k).trans (if_neg hk)⟩
    rw [hcell, if_pos rfl, hv]
end

section
/-!
SUPPORT. What a unit's own access to tiered memory leaves alone: everything beside the memory system, the registers, the CPU
complex, the operand caches and the events (R293 to R302, R338 to R349, R469 to R482).
-/
namespace Sys2Proof.Machine

/-- t is s but for the memory system, the operand caches, registers, the CPU complex, queued events and free values. -/
structure MemRun (s t : State) : Prop where
  frame : ∃ m tc r c q f, t = { s with memsys := m, tcs := tc, regs := r, cpu := c, evq := q, freeCtr := f }
  wf : s.regsWf → t.regsWf

section
variable {s t u : State}

theorem MemRun.refl (s : State) : MemRun s s := ⟨⟨_, _, _, _, _, _, rfl⟩, id⟩

theorem MemRun.trans (h : MemRun s t) (h' : MemRun t u) : MemRun s u where
  frame := by
    obtain ⟨m, tc, r, c, q, f, rfl⟩ := h.frame
    obtain ⟨m', tc', r', c', q', f', rfl⟩ := h'.frame
    exact ⟨m', tc', r', c', q', f', rfl⟩
  wf := h'.wf ∘ h.wf

theorem MemRun.ite {c : Prop} [Decidable c] (h : MemRun s t) (h' : MemRun s u) : MemRun s (if c then t else u) := by
  split
  · exact h
  · exact h'

/-- The state beside a code and bytes. -/
theorem MemRun.ite_read {c : Prop} [Decidable c] {x y : Nat × List Byte × State} (h : MemRun s x.2.2) (h' : MemRun s y.2.2) :
    MemRun s (if c then x else y).2.2 := by
  split
  · exact h
  · exact h'

theorem MemRun.foldl {α : Type} {f : State → α → State} (h : ∀ u a, MemRun u (f u a)) (l : List α) (s : State) :
    MemRun s (l.foldl f s) := by
  induction l generalizing s with
  | nil => exact .refl s
  | cons a l ih => exact (h s a).trans (ih _)

theorem MemRun.foldl_snd {α β : Type} {f : β × State → α → β × State} (h : ∀ x a, MemRun x.2 (f x a).2) (l : List α)
    (x : β × State) : MemRun x.2 (l.foldl f x).2 := by
  induction l generalizing x with
  | nil => exact .refl x.2
  | cons a l ih => exact (h x a).trans (ih _)

theorem LogWrites.memRun {K : Set Nat} (h : LogWrites K s t) : MemRun s t where
  frame := by
    obtain ⟨q, r, c, f, rfl⟩ := h.frame
    exact ⟨_, _, r, c, q, f, rfl⟩
  wf := h.wf

theorem WritesOnly.memRun {K : Set Nat} (h : WritesOnly K s t) : MemRun s t := h.logWrites.memRun

variable (s)

theorem setMemsys_memRun (m : MemSt) : MemRun s { s with memsys := m } := ⟨⟨_, _, _, _, _, _, rfl⟩, id⟩

theorem setFld_memRun (p : Page) (f : RegField) (v i : Nat) : MemRun s (s.setFld p f v i) :=
  ⟨⟨_, _, _, _, _, _, rfl⟩, fun h => regsWf_setFld h p f v i⟩

theorem bump_memRun (p : Page) (f : RegField) (n i : Nat) : MemRun s (s.bump p f n i) := (bump_writes s p f n i).memRun

theorem setInt_memRun (p : Page) (i : Nat) : MemRun s (s.setInt p i) := (setInt_writes s p i).memRun

theorem report_memRun (p : Page) (num data : Nat) : MemRun s (s.report p num data) := ⟨⟨_, _, _, _, _, _, rfl⟩, id⟩

theorem reportOpen_memRun (p : Page) (num : Nat) : MemRun s (s.reportOpen p num) := (logWrites_reportOpen ∅ s p num).memRun

/-! DRAM lines without an error of the array (R343, R346 to R349). -/

theorem occView_memRun (loc : Nat) : MemRun s (s.occView loc) := (setFld_memRun s _ _ _ _).ite (setFld_memRun s _ _ _ _)

theorem setWcb_memRun (loc : Nat) (l : List WcbEnt) : MemRun s (s.setWcb loc l) :=
  (setMemsys_memRun s _).trans (occView_memRun _ loc)

theorem arrayWrite_memRun (line : Nat) (bs : List Byte) (poison : Bool) : MemRun s (s.arrayWrite line bs poison) :=
  setMemsys_memRun s _

theorem decodeLine_none (line : Nat) : (s.decodeLine line .none).2 = s := by
  unfold State.decodeLine
  split <;> rfl

theorem readLine_none (line : Nat) : (s.readLine line .none).2.2 = s := by
  unfold State.readLine
  split
  · split
    · rfl
    · exact decodeLine_none s line
  · exact decodeLine_none s line

theorem rmwLine_memRun (line mask : Nat) (bs : List Byte) : MemRun s (s.rmwLine line mask bs .none) := by
  unfold State.rmwLine
  dsimp only
  rw [decodeLine_none]
  have hwrite := arrayWrite_memRun s line
  refine (hwrite _ _).ite (MemRun.ite (MemRun.ite ?_ ?_) (hwrite _ _))
  · exact ((hwrite _ _).trans (bump_memRun _ _ _ _ _)).trans (report_memRun _ _ _ _)
  · exact ((hwrite _ _).trans (bump_memRun _ _ _ _ _)).trans (report_memRun _ _ _ _)

theorem retireLine_memRun (line : Nat) : MemRun s (s.retireLine line .none) := by
  unfold State.retireLine
  split
  · exact .refl s
  · exact (rmwLine_memRun s _ _ _).trans (setWcb_memRun _ _ _)

theorem writeLine_memRun (line mask : Nat) (bs : List Byte) : MemRun s (s.writeLine line mask bs .none) := by
  have hput (e : WcbEnt) : MemRun s (let s1 := if (s.wcb (chanKey (line * 128))).length < wcbCap (line * 128) then s
        else match (s.wcb (chanKey (line * 128))).head? with
          | some o => s.retireLine o.line .none
          | none => s
      s1.setWcb (line * 128) (s1.wcb (chanKey (line * 128)) ++ [e])) := by
    dsimp only
    refine MemRun.trans ((MemRun.refl s).ite ?_) (setWcb_memRun _ _ _)
    split
    · exact retireLine_memRun s _
    · exact .refl s
  unfold State.writeLine
  dsimp only
  refine (MemRun.refl s).ite (((arrayWrite_memRun s _ _ _).trans (setWcb_memRun _ _ _)).ite ((rmwLine_memRun s _ _ _).ite ?_))
  split
  · exact ((setWcb_memRun s _ _).trans (retireLine_memRun _ _)).ite (setWcb_memRun s _ _)
  · exact hput _

/-! Requests at an agent (R293 to R305). -/

theorem countRefusal_memRun (f code : Nat) : MemRun s (s.countRefusal f code) :=
  ((((setInt_memRun s _ _).ite (.refl s)).trans (bump_memRun _ _ _ _ _)).ite ((bump_memRun s _ _ _ _).ite (bump_memRun s _ _ _ _)))

theorem promote_memRun (f : Nat) : MemRun s (s.promote f) :=
  (((setMemsys_memRun s _).trans (setFld_memRun _ _ _ _ _)).ite (bump_memRun s _ _ _ _)).ite (.refl s)

theorem countAccess_memRun (f : Nat) : MemRun s (s.countAccess f) :=
  have hcount (e : PEntry) : MemRun s (s.setEntry f e) := setMemsys_memRun s _
  ((hcount _).trans (promote_memRun _ f)).ite (hcount _)

theorem setEngine_memRun (k : Nat) (g : Option Engine) : MemRun s (s.setEngine k g) :=
  (setMemsys_memRun s _).trans (setFld_memRun _ _ _ _ _)

theorem bufWrite_memRun (f line mask : Nat) (bs : List Byte) : MemRun s (s.bufWrite f line mask bs) := by
  unfold State.bufWrite
  split
  · exact setEngine_memRun s _ _
  · exact .refl s

theorem tierErr_memRun (f line : Nat) (timeout : Bool) : MemRun s (s.tierErr f line timeout) :=
  (((bump_memRun s _ _ _ _).trans (reportOpen_memRun _ _ _)).ite
    ((bump_memRun s _ _ _ _).trans (report_memRun _ _ _ _))).trans (setInt_memRun _ _ _)

theorem agentRead_memRun (ctx line : Nat) : MemRun s (s.agentRead ctx line).2.2 := by
  have hcount := countAccess_memRun s (frameOfLine line)
  unfold State.agentRead
  dsimp only
  split
  · exact countRefusal_memRun s _ _
  split
  · exact hcount.trans (bump_memRun _ _ _ _ _)
  split
  · split
    · exact hcount.trans (tierErr_memRun _ _ _ _)
    · exact hcount
  split
  · exact hcount.trans (tierErr_memRun _ _ _ _)
  rw [readLine_none]
  split
  · exact hcount.trans (tierErr_memRun _ _ _ _)
  · exact hcount

theorem zeroFill_memRun (f k : Nat) : MemRun s (s.zeroFill f k) := by
  unfold State.zeroFill
  dsimp only
  split
  · exact ((MemRun.refl s).ite (setMemsys_memRun s _)).trans (setMemsys_memRun _ _)
  · exact .refl s

theorem agentWrite_memRun (ctx line mask : Nat) (bs : List Byte) (back : Bool) :
    MemRun s (s.agentWrite ctx line mask bs back).2 := by
  have hfill (c : Prop) [Decidable c] := (countAccess_memRun s (frameOfLine line)).trans
    ((zeroFill_memRun _ (frameOfLine line) (chunkOfLine line)).ite (c := c) (.refl _))
  unfold State.agentWrite
  dsimp only
  split
  · exact countRefusal_memRun s _ _
  split
  · exact (hfill _).trans (bufWrite_memRun _ _ _ _ _)
  · exact (hfill _).trans ((MemRun.refl _).ite (writeLine_memRun _ _ _ _))

theorem lineToAgent_memRun (ctx line mask : Nat) (bs : List Byte) (back : Bool) :
    MemRun s (s.lineToAgent ctx line mask bs back).2 := agentWrite_memRun s _ _ _ _ _

/-! The directory and the copies (R472, R473, R475, R481). -/

theorem dirCount_memRun (line : Nat) (up : Bool) : MemRun s (s.dirCount line up) := setFld_memRun s _ _ _ _

theorem setDirSet_memRun (line : Nat) (d : DirSet) : MemRun s (s.setDirSet line d) := setMemsys_memRun s _

theorem dirErase_memRun (line : Nat) : MemRun s (s.dirErase line) := by
  unfold State.dirErase
  dsimp only
  split
  · exact (setDirSet_memRun s _ _).trans (dirCount_memRun _ _ _)
  · exact .refl s

theorem setL3_memRun (line : Nat) (c : Option L3Line) : MemRun s (s.setL3 line c) := setMemsys_memRun s _

theorem setL2_memRun (h line : Nat) (c : Option CLine) : MemRun s (s.setL2 h line c) := setMemsys_memRun s _

theorem setRp_memRun (p line : Nat) (c : Option CLine) : MemRun s (s.setRp p line c) := setMemsys_memRun s _

theorem setTcs_memRun (l : List (Nat × TCache)) : MemRun s { s with tcs := l } := ⟨⟨_, _, _, _, _, _, rfl⟩, id⟩

theorem tcInval_memRun (key line : Nat) : MemRun s (s.tcInval key line) := by
  unfold State.tcInval
  exact setTcs_memRun s _

theorem asyncFail_memRun (h addr code kind : Nat) : MemRun s (s.asyncFail h addr code kind) :=
  (((bump_memRun s _ _ _ _).trans (capture_writes _ _ _ _ _ _ _ _).memRun).trans (reportOpen_memRun _ _ _)).trans
    (setInt_memRun _ _ _)

theorem cbDrain_memRun (p : CbEnt → Bool) : MemRun s (s.cbDrain p) := by
  refine MemRun.foldl (fun u e => ?_) _ s
  have hdrop : MemRun u (u.setHome { u.homeSt with cb := u.homeSt.cb.filter fun x => !(x.hart == e.hart && x.line == e.line) }) :=
    setMemsys_memRun u _
  dsimp only
  refine MemRun.trans (t := (State.lineToAgent _ e.ctx e.line e.mask _ true).2)
    (MemRun.trans (hdrop.trans ?_) (lineToAgent_memRun _ _ _ _ _ _)) ((MemRun.refl _).ite (asyncFail_memRun _ _ _ _ _))
  split
  · exact (dirErase_memRun _ _).ite (.refl _)
  · exact .refl _

theorem resvLost_memRun (h line : Nat) : MemRun s (s.resvLost h line) :=
  (setHart_writes (K := ∅) s h _).memRun.ite (.refl s)

theorem snoopHolder_memRun (p : Part) (line : Nat) (k : Snoop) : MemRun s (s.snoopHolder p line k).2 := by
  unfold State.snoopHolder
  split
  · exact .refl s
  cases p with
  | l2 h =>
    dsimp only
    split
    · exact cbDrain_memRun s _
    split
    · exact .refl s
    cases k with
    | share => exact setL2_memRun s _ _ _
    | inval => exact (setL2_memRun s _ _ _).trans (resvLost_memRun _ _ _)
    | cur => exact .refl s
  | rport n =>
    dsimp only
    split
    · exact .refl s
    · exact (MemRun.refl s).ite (setRp_memRun s _ _ _)
  | tc key => exact (tcInval_memRun s _ _).ite (.refl s)

theorem acceptWb_memRun (w : WbEnt) : MemRun s (s.acceptWb w) := by
  have hput : MemRun s (let s1 := s.setHome { s.homeSt with wb := s.homeSt.wb.map fun x =>
      if x.who == w.who && x.line == w.line then { x with accepted := true } else x }
      if w.dirty then s1.setL3 w.line (some { data := w.data, dirty := true, ctx := w.ctx }) else s1) :=
    MemRun.ite ((setMemsys_memRun s _).trans (setL3_memRun _ _ _)) (setMemsys_memRun s _)
  unfold State.acceptWb
  dsimp only
  split
  · exact ((hput.trans (dirErase_memRun _ _)).ite (hput.trans (setDirSet_memRun _ _ _))).ite hput
  · exact hput

theorem invalAll_memRun (e : DirEnt) : MemRun s (s.invalAll e) := by
  refine MemRun.foldl (fun u p => ?_) _ s
  have hsnoop := snoopHolder_memRun u p e.line .inval
  have haccept : MemRun u (match (u.snoopHolder p e.line .inval).2.homeSt.wb.find? (fun w => w.who == p && w.line == e.line) with
      | some w => (u.snoopHolder p e.line .inval).2.acceptWb w
      | none => (u.snoopHolder p e.line .inval).2) := by
    split
    · exact hsnoop.trans (acceptWb_memRun _ _)
    · exact hsnoop
  dsimp only
  split
  · exact hsnoop.trans (setL3_memRun _ _ _)
  · exact haccept
  · exact haccept
  · exact hsnoop

theorem dirPut_memRun (e : DirEnt) : MemRun s (s.dirPut e) := by
  unfold State.dirPut
  dsimp only
  refine (dirErase_memRun s _).ite ?_
  split
  · exact setDirSet_memRun s _ _
  · refine MemRun.trans (MemRun.trans ?_ (setDirSet_memRun _ _ _)) (dirCount_memRun _ _ _)
    split
    · exact ((invalAll_memRun s _).trans (bump_memRun _ _ _ _ _)).trans (dirErase_memRun _ _)
    · exact .refl s

/-! Transactions (R474 to R482). -/

theorem grantCheck_memRun (t : Txn) : MemRun s (s.grantCheck t).2 := by
  unfold State.grantCheck
  dsimp only
  split
  · split
    · exact .refl s
    · exact (countRefusal_memRun s _ _).trans (bump_memRun _ _ _ _ _)
  · exact .refl s

theorem takeAnswer_memRun (t : Txn) (p : Part) (a : SnpAns) : MemRun s (s.takeAnswer t p a).2 := by
  have haccept : MemRun s (match s.homeSt.wb.find? (fun w => w.who == p && w.line == t.line && !w.accepted) with
      | some w => s.acceptWb w
      | none => s) := by
    split
    · exact acceptWb_memRun s _
    · exact .refl s
  cases a with
  | data d c => exact (setL3_memRun s _ _).ite (.refl s)
  | clean => exact .refl s
  | notPresent => exact .refl s
  | wbInFlight => exact haccept.trans (bump_memRun _ _ _ _ _)
  | evictingClean => exact haccept.trans (bump_memRun _ _ _ _ _)

theorem homeData_memRun (ctx line : Nat) : MemRun s (s.homeData ctx line).2.2 := by
  unfold State.homeData
  split
  · split
    · exact .refl s
    · exact .refl s
  · exact agentRead_memRun s _ _

theorem txnData_memRun (t : Txn) : MemRun s (s.txnData t).2.2 := by
  unfold State.txnData
  split
  · exact .refl s
  · exact homeData_memRun s _ _

theorem giveM_memRun (t : Txn) (data : List Byte) : MemRun s (s.giveM t data) := by
  have hline : MemRun s ((match t.who with
      | some (.l2 h) => s.setL2 h t.line (some { st := .m, data := data, ctx := t.ctx })
      | some (.rport n) => s.setRp n t.line (some { st := .m, data := data, ctx := t.ctx })
      | _ => s).setL3 t.line none) := by
    refine MemRun.trans ?_ (setL3_memRun _ _ _)
    split
    · exact setL2_memRun s _ _ _
    · exact setRp_memRun s _ _ _
    · exact .refl s
  unfold State.giveM
  dsimp only
  split
  · exact hline.trans (dirPut_memRun _ _)
  · exact hline

theorem homeServe_memRun (t : Txn) : MemRun s (s.homeServe t).2.2 := by
  have hdata := txnData_memRun s t
  unfold State.homeServe
  dsimp only
  split
  case h_1 =>
    refine (hdata.trans (dirPut_memRun _ _)).ite_read (.ite_read ?_ ?_) <;> dsimp only <;>
      exact MemRun.trans (MemRun.trans (MemRun.ite (hdata.trans (setL3_memRun _ _ _)) hdata) (setL2_memRun _ _ _ _))
        (dirPut_memRun _ _)
  case h_2 =>
    split
    · exact hdata.trans (dirErase_memRun _ _)
    · exact hdata.trans (giveM_memRun _ _ _)
  case h_3 =>
    split
    · split
      · exact giveM_memRun s _ _
      · exact .refl s
    · exact .refl s
  case h_4 => exact giveM_memRun s _ _
  case h_5 => exact (hdata.trans (dirPut_memRun _ _)).ite_read (hdata.trans (dirPut_memRun _ _))
  case h_6 => exact hdata.trans (dirPut_memRun _ _)
  case h_7 =>
    have hwrite (e : DirEnt) := (dirPut_memRun s e).trans (lineToAgent_memRun _ t.ctx t.line t.mask t.data false)
    refine (hwrite _).ite_read ?_
    cases State.l3Line (State.lineToAgent _ t.ctx t.line t.mask t.data false).2 t.line with
    | none => exact hwrite _
    | some l => exact ((hwrite _).trans (setL3_memRun _ _ _)).ite_read ((hwrite _).trans (setL3_memRun _ _ _))

theorem runTxn_memRun (t : Txn) : MemRun s (s.runTxn t).2.2 := by
  have hgrant := grantCheck_memRun s t
  unfold State.runTxn
  dsimp only
  split
  · exact hgrant
  · refine MemRun.trans (hgrant.trans ?_) (homeServe_memRun _ _)
    exact MemRun.foldl_snd (fun x p => (snoopHolder_memRun x.2 p _ _).trans (takeAnswer_memRun _ _ _ _)) _ (_, _)

theorem cohRead_memRun (ctx line : Nat) : MemRun s (s.cohRead ctx line).2.2 := runTxn_memRun s _

theorem cohWrite_memRun (ctx line mask : Nat) (bs : List Byte) (origin : Option Nat) :
    MemRun s (s.cohWrite ctx line mask bs origin).2 := by
  unfold State.cohWrite
  exact runTxn_memRun s _

/-! Byte ranges. -/

theorem readLines_memRun (ctx line n : Nat) : MemRun s (s.readLines ctx line n).2.2 := by
  induction n generalizing s line with
  | zero => exact .refl s
  | succ n ih =>
    have hread := cohRead_memRun s ctx line
    unfold State.readLines
    dsimp only
    split
    · exact hread
    · exact hread.trans (ih _ _)

theorem memRead_memRun (ctx a n : Nat) : MemRun s (s.memRead ctx a n).2.2 := by
  unfold State.memRead
  split
  · exact .refl s
  split
  · exact .refl s
  · exact readLines_memRun s _ _ _

theorem writeLines_memRun (ctx a n : Nat) (bs : List Byte) : MemRun s (s.writeLines ctx a n bs).2 := by
  induction n generalizing s a bs with
  | zero => exact .refl s
  | succ n ih =>
    cases bs with
    | nil => exact .refl s
    | cons b bs =>
      unfold State.writeLines
      dsimp only
      split
      · exact cohWrite_memRun s _ _ _ _ _
      · exact (cohWrite_memRun s _ _ _ _ _).trans (ih _ _ _)

theorem memWrite_memRun (ctx a : Nat) (bs : List Byte) : MemRun s (s.memWrite ctx a bs).2 := by
  unfold State.memWrite
  split
  · exact .refl s
  split
  · exact .refl s
  · exact writeLines_memRun s _ _ _ _

end

end Sys2Proof.Machine
end

section
/-!
SUPPORT. The end of a command of MCORE_CMD, and the work of the commands (R155 to R157, R200).
-/
open Sys2Proof.Claims

namespace Sys2Proof.Machine

theorem flag_congr {s t : State} {p : Page} {f : RegField} {i : Nat}
    (h : t.reg p (f.off + f.stride * i) = s.reg p (f.off + f.stride * i)) : t.flag p f i = s.flag p f i := by
  rw [State.flag, State.flag, fld_congr h]

/-! A command's end (R155). -/

/-- An interrupt's own cause stands after it. -/
theorem cause_setInt {s : State} (h : s.regsWf) (p : Page) {i : Nat} (hi : i < 32) : ((s.setInt p i).reg p 0x010).getLsbD i = true := by
  refine (irqEdge_raises _ p _).sets ((Raises.orInt s p _).wf h) p i ?_
  rw [State.orInt, reg_setReg h, if_pos rfl, BitVec.getLsbD_or, BitVec.getLsbD_ofNat]
  simp [hi]

/-- A captured error clears no cause of an interrupt. -/
theorem cause_blockErr {s : State} (h : s.regsWf) (p : Page) {i : Nat} (hi : (s.reg p 0x010).getLsbD i = true)
    (num data info2 info3 : Nat) : ((s.blockErr p num data info2 info3).reg p 0x010).getLsbD i = true := by
  have hinfo (i0 i1 i2 i3 : Nat) := errInfo_writes s p i0 i1 i2 i3
  have hkey : regKey p 0x010 ∉ errKeys p := by
    rintro ⟨off, hoff, heq⟩
    exact regKey_off_ne (p := p) (fun h => by subst h; revert hoff; decide) heq
  rw [State.blockErr, capture_eq]
  split
  · exact hi
  · exact (setInt_raises _ p 0).sets ((hinfo _ _ _ _).wf h) p i (by rw [(hinfo _ _ _ _).reg h hkey]; exact hi)

/-- MCORE_CMD and MCORE_CMD_STATUS are none of the registers of errors and interrupts. -/
theorem mcoreCmd_notMem_errIrq {pd : PD} {mc : MC} {off : Nat} (ho : off = 0x124 ∨ off = 0x128 ∨ off = 0x12C) :
    regKey (mcorePage pd mc) off ∉ errKeys (mcorePage pd mc) ∪ irqKeys := by
  have hoff : off < 4096 ∧ off ≠ 0x010 ∧ off ∉ [0x00C, 0x020, 0x024, 0x028, 0x02C] := by
    obtain rfl | rfl | rfl := ho <;> decide
  rintro (⟨o, hmem, heq⟩ | h)
  · exact regKey_off_ne (p := mcorePage pd mc) (fun h => hoff.2.2 (by rwa [h])) heq
  · exact regKey_notMem_irqKeys hoff.1 hoff.2.1 (fun hb => by cases hb) h

section
variable {s t : State} {pd : PD} {mc : MC}

theorem coreEnded_congr {n : Nat} (h : CoreEnded s pd mc n) (hgo : t.reg (mcorePage pd mc) 0x124 = s.reg (mcorePage pd mc) 0x124)
    (hst : t.reg (mcorePage pd mc) 0x128 = s.reg (mcorePage pd mc) 0x128)
    (hint : (s.reg (mcorePage pd mc) 0x010).getLsbD 3 = true → (t.reg (mcorePage pd mc) 0x010).getLsbD 3 = true) :
    CoreEnded t pd mc n := by
  obtain ⟨h1, h2, h3, h4⟩ := h
  exact ⟨(flag_congr hgo).trans h1, (fld_congr hst).trans h2, (flag_congr hst).trans h3, hint h4⟩

variable (s pd mc)

/-- The command registers once a command has ended. -/
def State.cmdStatus (code : Nat) : State :=
  ((s.setFlag (mcorePage pd mc) Reg.MCORE_CMD_GO false).setFld (mcorePage pd mc) Reg.MCORE_CMD_STATUS_CODE code).setFlag
    (mcorePage pd mc) Reg.MCORE_CMD_STATUS_VALID true

theorem cmdEnd_eq (cmd reason code : Nat) : s.cmdEnd pd mc cmd reason code =
    if code = 0 then (s.cmdStatus pd mc code).setInt (mcorePage pd mc) 3
    else ((s.cmdStatus pd mc code).setInt (mcorePage pd mc) 3).cmdFail pd mc cmd reason code := rfl

theorem cmdStatus_records (code : Nat) : Records s (s.cmdStatus pd mc code) :=
  ((setFlag_records s _ _ _ 0).trans ⟨⟨_, _, _, _, _, _, rfl⟩, fun h => regsWf_setFld h _ _ _ 0⟩).trans (setFlag_records _ _ _ _ 0)

theorem cmdFail_records (cmd reason code : Nat) : Records s (s.cmdFail pd mc cmd reason code) :=
  (blockErr_records s _ _ _ _ _).trans (report_records _ _ _ _ _ _)

theorem cmdEnd_records (cmd reason code : Nat) : Records s (s.cmdEnd pd mc cmd reason code) := by
  have hstatus := (cmdStatus_records s pd mc code).trans (setInt_records _ (mcorePage pd mc) 3)
  rw [cmdEnd_eq]
  exact hstatus.ite (hstatus.trans (cmdFail_records _ _ _ _ _ _))

variable {s}

theorem coreEnded_status (hs : s.regsWf) {code : Nat} (hcode : code < 256) :
    CoreEnded ((s.cmdStatus pd mc code).setInt (mcorePage pd mc) 3) pd mc code := by
  have hgo := regsWf_setFlag hs (mcorePage pd mc) Reg.MCORE_CMD_GO false
  have hst := regsWf_setFld hgo (mcorePage pd mc) Reg.MCORE_CMD_STATUS_CODE code 0
  have hw := (cmdStatus_records s pd mc code).wf hs
  have hreg {off : Nat} (ho : off = 0x124 ∨ off = 0x128 ∨ off = 0x12C) :=
    (setInt_raises (s.cmdStatus pd mc code) (mcorePage pd mc) 3).toWritesOnly.reg hw
      fun h => mcoreCmd_notMem_errIrq (pd := pd) (mc := mc) ho (Or.inr h)
  have hkey : regKey (mcorePage pd mc) 0x124 ≠ regKey (mcorePage pd mc) 0x128 := regKey_off_ne (by decide)
  refine ⟨?_, ?_, ?_, cause_setInt hw _ (by decide)⟩
  · refine (flag_congr (f := Reg.MCORE_CMD_GO) (i := 0) (hreg (.inl rfl))).trans ((flag_congr (s := s.setFlag (mcorePage pd mc)
      Reg.MCORE_CMD_GO false) ?_).trans (flag_setFlag_same hs _ (by decide) (by decide) false))
    exact (reg_setFld_of_ne hst hkey _).trans (reg_setFld_of_ne hgo hkey _)
  · rw [fld_congr (hreg (.inr (.inl rfl))), State.cmdStatus, State.setFlag,
      fld_setFld_of_disjoint hst (by decide) (.inr (by decide)), fld_setFld_same hgo _ _ (by decide)]
    exact Nat.mod_eq_of_lt hcode
  · exact (flag_congr (hreg (.inr (.inl rfl)))).trans (flag_setFlag_same hst _ (by decide) (by decide) true)

/-- A command's end, whatever its code: the status is loaded, the cause is set. -/
theorem coreEnded_cmdEnd (hs : s.regsWf) {code : Nat} (hcode : code < 256) (cmd reason : Nat) :
    CoreEnded (s.cmdEnd pd mc cmd reason code) pd mc code := by
  have hended := coreEnded_status pd mc hs hcode
  have hw := (setInt_records (s.cmdStatus pd mc code) (mcorePage pd mc) 3).wf ((cmdStatus_records s pd mc code).wf hs)
  have hreg {off : Nat} (ho : off = 0x124 ∨ off = 0x128 ∨ off = 0x12C) (num data info2 info3 : Nat) :=
    (capture_writes _ (mcorePage pd mc) num 0 0 data info2 info3).reg hw (mcoreCmd_notMem_errIrq (pd := pd) (mc := mc) ho)
  rw [cmdEnd_eq]
  split
  · exact hended
  · exact coreEnded_congr hended (hreg (.inl rfl) _ _ _ _) (hreg (.inr (.inl rfl)) _ _ _ _) fun hi => cause_blockErr hw _ hi _ _ _ _

/-- A command that ends with another code than DONE leaves an error. -/
theorem err_cmdEnd (hs : s.regsWf) {code : Nat} (hcode : code ≠ 0) (cmd reason : Nat) :
    (s.cmdEnd pd mc cmd reason code).flag (mcorePage pd mc) Reg.BLK_STAT_ERR = true := by
  have hw := (setInt_records (s.cmdStatus pd mc code) (mcorePage pd mc) 3).wf ((cmdStatus_records s pd mc code).wf hs)
  rw [cmdEnd_eq, if_neg hcode]
  exact flag_capture _ _ _ _ _ _ _ hw

end

/-! What a memory access of a command leaves alone. -/

theorem core_congr {s t : State} (h : t.cores = s.cores) {pd : PD} {mc : MC} : t.core pd mc = s.core pd mc :=
  congrArg (fun l => mget (fun _ => ({} : CoreSt)) l (coreKey pd mc)) h

section
variable {s t : State} (h : MemRun s t)
include h

theorem MemRun.cores : t.cores = s.cores := by
  obtain ⟨m, tc, r, c, q, f, rfl⟩ := h.frame
  rfl

theorem MemRun.core (pd : PD) (mc : MC) : t.core pd mc = s.core pd mc := core_congr h.cores

theorem MemRun.ts : t.ts = s.ts := by
  obtain ⟨m, tc, r, c, q, f, rfl⟩ := h.frame
  rfl

end

theorem memRun_of_memRead {s t : State} {ctx a n code : Nat} {bs : List Byte} (h : s.memRead ctx a n = (code, bs, t)) : MemRun s t := by
  have hrun := memRead_memRun s ctx a n
  rwa [h] at hrun

theorem memRun_of_memWrite {s t : State} {ctx a code : Nat} {bs : List Byte} (h : s.memWrite ctx a bs = (code, t)) : MemRun s t := by
  have hrun := memWrite_memRun s ctx a bs
  rwa [h] at hrun

/-! The Turnstiles of a core (R264). -/

/-- One Turnstile set to a value and a flag. -/
def State.putPriv (s : State) (k : Nat) (x : Nat × Bool) : State :=
  (s.tsStore k (x.1 % 2 ^ 31) 0).setTsCell k { (s.tsStore k (x.1 % 2 ^ 31) 0).tsCell k with sticky := x.2 }

/-- t has the cores of s and holds x i in the core's first n Turnstiles. -/
structure PrivSet (pd : PD) (mc : MC) (x : Nat → Nat × Bool) (n : Nat) (s t : State) : Prop where
  cores : t.cores = s.cores
  wf : s.regsWf → t.regsWf
  rising : rising t.ts.cells = true
  cells : ∀ i, i < n → (t.tsCell (privKey pd mc i)).v = (x i).1 % 2 ^ 31 ∧ (t.tsCell (privKey pd mc i)).sticky = (x i).2

theorem rising_setTsCell {s : State} (h : rising s.ts.cells = true) (k : Nat) (c : TsCell) : rising (s.setTsCell k c).ts.cells = true :=
  rising_mput (d := fun _ => ({} : TsCell)) h k c

section
variable {s t : State} {pd : PD} {mc : MC} {x : Nat → Nat × Bool}

theorem PrivSet.put {n : Nat} (h : PrivSet pd mc x n s t) (hn : n < 64) :
    PrivSet pd mc x (n + 1) s (t.putPriv (privKey pd mc n) (x n)) := by
  obtain ⟨c, hv, hrec⟩ := tsStore_stores t (privKey pd mc n) ((x n).1 % 2 ^ 31) 0
  have hrising : Machine.rising (t.tsStore (privKey pd mc n) ((x n).1 % 2 ^ 31) 0).ts.cells = true := by
    rw [hrec.ts]
    exact rising_setTsCell h.rising _ _
  have hstored (k : Nat) : (t.tsStore (privKey pd mc n) ((x n).1 % 2 ^ 31) 0).tsCell k = if k = privKey pd mc n then c else t.tsCell k :=
    (hrec.tsCell k).trans (tsCell_setTsCell h.rising _ _ _)
  refine ⟨hrec.cores.trans h.cores, fun hs => hrec.wf (h.wf hs), rising_setTsCell hrising _ _, fun i hi => ?_⟩
  rw [State.putPriv, tsCell_setTsCell hrising]
  split
  · rename_i hk
    have hin : i = n := by
      have : i % 64 = n % 64 := by simpa [privKey] using hk
      omega
    subst hin
    rw [hstored, if_pos rfl]
    exact ⟨hv, rfl⟩
  · rename_i hk
    have hne : i ≠ n := fun he => hk (by rw [he])
    rw [hstored, if_neg hk]
    exact h.cells i (by omega)

theorem privSet_range (hs : rising s.ts.cells = true) {n : Nat} (hn : n ≤ 64) :
    PrivSet pd mc x n s ((List.range n).foldl (fun t i => t.putPriv (privKey pd mc i) (x i)) s) := by
  induction n with
  | zero => exact ⟨rfl, id, hs, fun i hi => absurd hi (Nat.not_lt_zero i)⟩
  | succ n ih =>
    rw [List.range_succ, List.foldl_append]
    exact (ih (by omega)).put (by omega)

theorem setPriv_sets (hs : rising s.ts.cells = true) : PrivSet pd mc x 64 s (s.setPriv pd mc x) := privSet_range hs (le_refl 64)

end

/-! The commands' completions (R155 to R157). -/

section
variable {s : State} {pd : PD} {mc : MC}

/-- The core back in a state of rest. -/
def CoreSt.back (c : CoreSt) (st : CoreStatus) : CoreSt := { c with status := st, cmdRun := 0 }

/-- The core with a program of n words from bytes. -/
def CoreSt.loaded (c : CoreSt) (bs : List Byte) : CoreSt :=
  { c with
    prog := mputs (fun _ => 0) [] 0 ((List.range c.cmdLen).map fun i => BitVec.ofNat 64 (imgNat bs (8 * i) 8)), progLen := c.cmdLen }

/-- The core with the context of an image. -/
def CoreSt.restored (c : CoreSt) (bs : List Byte) : CoreSt :=
  { c with x := imgCtx bs, nf := imgFlags bs, wldSeen0 := false, wldSeen1 := false, hist := {} }

theorem fetch_loaded (c : CoreSt) (bs : List Byte) {i : Nat} (hi : i < c.cmdLen) :
    (c.loaded bs).fetch i = BitVec.ofNat 64 (imgNat bs (8 * i) 8) := by
  have hread := mget_mputs (d := fun _ => (0 : DWord)) (m := []) rfl 0 i
    ((List.range c.cmdLen).map fun i => BitVec.ofNat 64 (imgNat bs (8 * i) 8))
  rw [dif_pos ⟨Nat.zero_le i, by simpa using hi⟩] at hread
  exact hread.trans (by simp)

theorem loadProgram_reads {bs : List Byte} {s1 : State}
    (hread : s.memRead (s.fld (mcorePage pd mc) Reg.MCORE_CTXID_CTXID) (s.core pd mc).cmdAddr (8 * (s.core pd mc).cmdLen) = (0, bs, s1)) :
    s.loadProgram pd mc .none = (0, s1.modCore pd mc fun c => c.loaded bs) := by
  simp only [State.loadProgram, hread, cmdCodeOf, ne_eq, not_true_eq_false, if_false, CoreSt.loaded]

theorem saveCtx_writes {s1 : State} (hwrite : s.memWrite (s.fld (mcorePage pd mc) Reg.MCORE_CTXID_CTXID) (s.core pd mc).cmdAddr
    (s.ctxImage pd mc (s.core pd mc).before) = (0, s1)) : s.saveCtx pd mc .none = (0, s1) := by
  unfold State.saveCtx
  extract_lets c ctx
  split
  rename_i c0 s2 heq
  obtain ⟨rfl, rfl⟩ := Prod.mk.inj (heq.symm.trans hwrite)
  exact if_pos rfl

theorem mcoreDone_load (hrun : (s.core pd mc).cmdRun = 1) {err : TierFail} {code : Nat} {u : State}
    (h : s.loadProgram pd mc err = (code, u)) : s.mcoreDone pd mc err =
    (u.modCore pd mc fun c => c.back (s.core pd mc).before).cmdEnd pd mc 1 0 code := by
  simp only [State.mcoreDone, hrun, h, CoreSt.back]

theorem mcoreDone_start (hrun : (s.core pd mc).cmdRun = 2) (err : TierFail) :
    s.mcoreDone pd mc err = (s.setCore pd mc { s.core pd mc with
      status := .armed, cmdRun := 0, nf := { (s.core pd mc).nf with trapRec := none }
      x := { (s.core pd mc).x with pc := BitVec.ofNat 14 (s.fld (mcorePage pd mc) Reg.MCORE_ENTRY_PC) } }).cmdEnd pd mc 2 0 0 := by
  simp only [State.mcoreDone, hrun]

theorem mcoreDone_save (hrun : (s.core pd mc).cmdRun = 3) {err : TierFail} {code : Nat} {u : State}
    (h : s.saveCtx pd mc err = (code, u)) : s.mcoreDone pd mc err =
    (u.modCore pd mc fun c => c.back (s.core pd mc).before).cmdEnd pd mc 3 0 code := by
  simp only [State.mcoreDone, hrun, h, CoreSt.back]

section
variable {bs : List Byte} {s1 : State}
  (hread : s.memRead (s.fld (mcorePage pd mc) Reg.MCORE_CTXID_CTXID) (s.core pd mc).cmdAddr ctxSize = (0, bs, s1))
include hread

theorem restoreCtx_good (hok : imgOk bs = true) : s.restoreCtx pd mc .none = ((0, 0),
    (s1.modCore pd mc fun c => c.restored bs).setPriv pd mc fun n =>
      (imgNat bs (0x400 + 4 * n) 4, bitOf (imgNat bs 0x500 8) n)) := by
  simp only [State.restoreCtx, hread, cmdCodeOf, hok, ne_eq, not_true_eq_false, if_false, Bool.not_true, Bool.false_eq_true,
    CoreSt.restored]

theorem restoreCtx_bad (hok : imgOk bs = false) : s.restoreCtx pd mc .none = ((0x0C, 0x30), s1) := by
  simp only [State.restoreCtx, hread, cmdCodeOf, hok, ne_eq, not_true_eq_false, if_false, Bool.not_false, if_true]

end

theorem mcoreDone_restore (hrun : (s.core pd mc).cmdRun = 4) {err : TierFail} {r : Nat × Nat} {u : State}
    (h : s.restoreCtx pd mc err = (r, u)) : s.mcoreDone pd mc err =
    (u.modCore pd mc fun c => c.back (if r.2 = 0 then .idle else (s.core pd mc).before)).cmdEnd pd mc 4 r.1 r.2 := by
  simp only [State.mcoreDone, hrun, h, CoreSt.back]

theorem mcoreDone_clear (hrun : (s.core pd mc).cmdRun = 5) (err : TierFail) : s.mcoreDone pd mc err =
    (((s.setCore pd mc (s.core pd mc).cleared).setPriv pd mc fun _ => (0, false)).tcEmpty pd mc).cmdEnd pd mc 5 0 0 := by
  simp only [State.mcoreDone, hrun]

theorem regsWf_tcEmpty (h : s.regsWf) (pd : PD) (mc : MC) : (s.tcEmpty pd mc).regsWf := h

theorem cores_tcEmpty (s : State) (pd : PD) (mc : MC) : (s.tcEmpty pd mc).cores = s.cores := rfl

theorem tsCell_tcEmpty (s : State) (pd : PD) (mc : MC) (k : Nat) : (s.tcEmpty pd mc).tsCell k = s.tsCell k := rfl

theorem mcoreCmdDone_next (err : TierFail) : exec (.mcoreCmdDone pd mc err) s = .next (s.mcoreDone pd mc err) := rfl

/-- A command's end is what it leaves of its core, ended. -/
theorem mcoreDone_completes {err : TierFail} {u : State} {c : CoreSt} {cmd reason code : Nat} {P : State → Prop}
    (hdone : s.mcoreDone pd mc err = u.cmdEnd pd mc cmd reason code) (hw : u.regsWf) (hcode : code < 256) (hcore : u.core pd mc = c)
    (hP : ∀ t, t.core pd mc = c → CoreEnded t pd mc code → Records u t → P t) : Completes (.mcoreCmdDone pd mc err) s P := by
  have hrec := cmdEnd_records u pd mc cmd reason code
  exact ⟨_, by rw [mcoreCmdDone_next, hdone], hP _ ((hrec.core pd mc).trans hcore) (coreEnded_cmdEnd pd mc hw hcode cmd reason) hrec⟩

section
variable (hc : Canon s)
include hc

theorem loadProgram_ends (hrun : (s.core pd mc).cmdRun = 1) {bs : List Byte} {s1 : State}
    (hread : s.memRead (s.fld (mcorePage pd mc) Reg.MCORE_CTXID_CTXID) (s.core pd mc).cmdAddr (8 * (s.core pd mc).cmdLen) = (0, bs, s1)) :
    Completes (.mcoreCmdDone pd mc .none) s fun t =>
      t.core pd mc = ((s.core pd mc).loaded bs).back (s.core pd mc).before ∧ CoreEnded t pd mc 0 := by
  have hmem := memRun_of_memRead hread
  have hset := ((CoreBecomes.refl (pd := pd) (mc := mc) (hmem.cores ▸ hc.cores)).modCore fun c => c.loaded bs).modCore
    fun c => c.back (s.core pd mc).before
  refine mcoreDone_completes (mcoreDone_load hrun (loadProgram_reads hread)) (hmem.wf hc.regs) (by decide) hset.core
    fun t ht hend _ => ⟨?_, hend⟩
  rw [ht, hmem.core]

theorem start_ends (hrun : (s.core pd mc).cmdRun = 2) (err : TierFail) : Completes (.mcoreCmdDone pd mc err) s fun t =>
    t.core pd mc = { s.core pd mc with
      status := .armed, cmdRun := 0, nf := { (s.core pd mc).nf with trapRec := none }
      x := { (s.core pd mc).x with pc := BitVec.ofNat 14 (s.fld (mcorePage pd mc) Reg.MCORE_ENTRY_PC) } } ∧
    CoreEnded t pd mc 0 ∧ OthersKept s t pd mc := by
  have hset := (CoreBecomes.refl (pd := pd) (mc := mc) hc.cores).setCore { s.core pd mc with
    status := .armed, cmdRun := 0, nf := { (s.core pd mc).nf with trapRec := none }
    x := { (s.core pd mc).x with pc := BitVec.ofNat 14 (s.fld (mcorePage pd mc) Reg.MCORE_ENTRY_PC) } }
  exact mcoreDone_completes (mcoreDone_start hrun err) hc.regs (by decide) hset.core
    fun t ht hend hrec => ⟨ht, hend, (hset.records hrec).kept⟩

theorem saveCtx_ends (hrun : (s.core pd mc).cmdRun = 3) {s1 : State}
    (hwrite : s.memWrite (s.fld (mcorePage pd mc) Reg.MCORE_CTXID_CTXID) (s.core pd mc).cmdAddr
      (s.ctxImage pd mc (s.core pd mc).before) = (0, s1)) :
    Completes (.mcoreCmdDone pd mc .none) s fun t =>
      t.memsys = s1.memsys ∧ t.core pd mc = (s.core pd mc).back (s.core pd mc).before ∧ CoreEnded t pd mc 0 := by
  have hmem := memRun_of_memWrite hwrite
  have hset := (CoreBecomes.refl (pd := pd) (mc := mc) (hmem.cores ▸ hc.cores)).modCore fun c => c.back (s.core pd mc).before
  refine mcoreDone_completes (mcoreDone_save hrun (saveCtx_writes hwrite)) (hmem.wf hc.regs) (by decide) hset.core
    fun t ht hend hrec => ⟨?_, ?_, hend⟩
  · obtain ⟨-, -, hmemsys, -⟩ := (hset.records hrec).kept
    exact hmemsys
  · rw [ht, hmem.core]

section
variable (hrun : (s.core pd mc).cmdRun = 4) {bs : List Byte} {s1 : State}
  (hread : s.memRead (s.fld (mcorePage pd mc) Reg.MCORE_CTXID_CTXID) (s.core pd mc).cmdAddr ctxSize = (0, bs, s1))
include hrun hread

theorem restoreCtx_ends (hok : imgOk bs = true) : Completes (.mcoreCmdDone pd mc .none) s fun t =>
    t.core pd mc = ((s.core pd mc).restored bs).back .idle ∧ CoreEnded t pd mc 0 ∧
    ∀ n, n < 64 → (t.tsCell (privKey pd mc n)).v = imgNat bs (0x400 + 4 * n) 4 % 2 ^ 31 := by
  have hmem := memRun_of_memRead hread
  have hset := (CoreBecomes.refl (pd := pd) (mc := mc) (hmem.cores ▸ hc.cores)).modCore fun c => c.restored bs
  have hpriv := setPriv_sets (pd := pd) (mc := mc) (x := fun n => (imgNat bs (0x400 + 4 * n) 4, bitOf (imgNat bs 0x500 8) n))
    (s := s1.modCore pd mc fun c => c.restored bs) (hmem.ts ▸ hc.cells)
  have hback := (CoreBecomes.refl (pd := pd) (mc := mc) (hpriv.cores ▸ hset.rising)).modCore fun c => c.back .idle
  refine mcoreDone_completes (mcoreDone_restore hrun (restoreCtx_good hread hok)) (hpriv.wf (hmem.wf hc.regs)) (by decide)
    hback.core fun t ht hend hrec => ⟨?_, hend, fun n hn => ?_⟩
  · rw [ht, core_congr hpriv.cores, hset.core, hmem.core]
  · rw [hrec.tsCell]
    exact (hpriv.cells n hn).1

theorem restoreCtx_refused (hok : imgOk bs = false) : Completes (.mcoreCmdDone pd mc .none) s fun t =>
    t.core pd mc = (s.core pd mc).back (s.core pd mc).before ∧ CoreEnded t pd mc 0x30 := by
  have hmem := memRun_of_memRead hread
  have hset := (CoreBecomes.refl (pd := pd) (mc := mc) (hmem.cores ▸ hc.cores)).modCore fun c => c.back (s.core pd mc).before
  refine mcoreDone_completes (mcoreDone_restore hrun (restoreCtx_bad hread hok)) (hmem.wf hc.regs) (by decide) hset.core
    fun t ht hend _ => ⟨?_, hend⟩
  rw [ht, hmem.core]

end

theorem clear_ends (hrun : (s.core pd mc).cmdRun = 5) (err : TierFail) : Completes (.mcoreCmdDone pd mc err) s fun t =>
    t.core pd mc = { seq := (s.core pd mc).seq } ∧ CoreEnded t pd mc 0 ∧
    ∀ n, n < 64 → (t.tsCell (privKey pd mc n)).v = 0 ∧ (t.tsCell (privKey pd mc n)).sticky = false := by
  have hset := (CoreBecomes.refl (pd := pd) (mc := mc) hc.cores).setCore (s.core pd mc).cleared
  have hpriv := setPriv_sets (pd := pd) (mc := mc) (x := fun _ => (0, false)) (s := s.setCore pd mc (s.core pd mc).cleared) hc.cells
  have hcore := ((core_congr (cores_tcEmpty _ pd mc)).trans (core_congr hpriv.cores)).trans hset.core
  refine mcoreDone_completes (mcoreDone_clear hrun err) (regsWf_tcEmpty (hpriv.wf hc.regs) pd mc) (by decide) hcore
    fun t ht hend hrec => ⟨ht, hend, fun n hn => ?_⟩
  rw [hrec.tsCell, tsCell_tcEmpty]
  exact hpriv.cells n hn

end

end

theorem completes_mono {cmd : Instr} {s : State} {P Q : State → Prop} (h : Completes cmd s P) (hPQ : ∀ t, P t → Q t) :
    Completes cmd s Q := by
  obtain ⟨t, ht, hp⟩ := h
  exact ⟨t, ht, hPQ t hp⟩

end Sys2Proof.Machine

open Sys2Proof Sys2Proof.Machine

/-- Settles O31, command by command. -/
theorem coreCommandsEnd : Obligations.CoreCommandsEnd := by
  intro s hc pd mc
  refine ⟨fun hrun bs s1 hread => ?_, fun err hrun => ?_, fun hrun s1 hwrite => ?_,
    fun hrun bs s1 hread => ⟨fun hok => ?_, fun hok => ?_⟩, fun err hrun => clear_ends hc hrun err⟩
  · refine completes_mono (loadProgram_ends hc hrun hread) fun t ⟨ht, hend⟩ => ?_
    rw [ht]
    exact ⟨fun i hi => fetch_loaded _ bs hi, rfl, rfl, rfl, hend⟩
  · refine completes_mono (start_ends hc hrun err) fun t ⟨ht, hend, hkept⟩ => ?_
    rw [ht]
    exact ⟨rfl, rfl, rfl, hend, hkept⟩
  · refine completes_mono (saveCtx_ends hc hrun hwrite) fun t ⟨hmem, ht, hend⟩ => ?_
    rw [ht]
    exact ⟨hmem, rfl, rfl, hend⟩
  · refine completes_mono (restoreCtx_ends hc hrun hread hok) fun t ⟨ht, hend, hcells⟩ => ?_
    rw [ht]
    exact ⟨rfl, rfl, rfl, hend, hcells⟩
  · refine completes_mono (restoreCtx_refused hc hrun hread hok) fun t ⟨ht, hend⟩ => ?_
    rw [ht]
    exact ⟨rfl, rfl, hend⟩

end

section
/-!
SUPPORT. Writes of MCORE_CTRL, MCORE_CMD and MCORE_CTXID (R153, R155, R173, R193).
-/
open Sys2Proof.Claims

namespace Sys2Proof.Machine

/-! Writes of a matrix core's page (R46, R54, R64). -/

/-- A write without protected fields and without a command in progress stores its fields and acts (R6, R7). -/
theorem regWrite_unprotected {s : State} {p : Page} {off n : Nat} {fs : List RegField} (hfs : regFields p.blk off false = fs)
    (hprot : fs.all (fun f => !f.prot) = true) (hwrites : fs.any (·.writable) = true) (who : Requester) (err : TierFail)
    (hheld : heldSc p.blk fs (s.liveValue who p off false) n = n) (hres : s.reservedWrite p off fs n = false) :
    s.regWrite who p off false n err = (true, (s.storeFields p off false fs n).regAct who p off (s.liveValue who p off false) n err) := by
  have hopen {f : RegField} (hf : f ∈ fs) : f.prot = false := by simpa using List.all_eq_true.mp hprot f hf
  have hnone : fs.any (·.prot) = false := List.any_eq_false.mpr fun f hf => by simp [hopen hf]
  have hkept (old : Nat) : (fs.filter fun (f : RegField) => f.prot && !s.unlockedFor p who && f.changes old n) = [] :=
    List.filter_eq_nil_iff.mpr fun f hf => by simp [hopen hf]
  have hany : (fs.any fun f => f.writable && !f.prot) = true := by
    obtain ⟨f, hf, hw⟩ := List.any_eq_true.mp hwrites
    exact List.any_eq_true.mpr ⟨f, hf, by simp [hw, hopen hf]⟩
  simp [State.regWrite, hfs, hheld, hres, hnone, hkept, hany, State.useUnlock]

section
variable {s : State} {who : Requester} {pd : PD} {mc : MC}

theorem mcOfPage_mcorePage (pd : PD) (mc : MC) : mcOfPage (mcorePage pd mc) = mc :=
  Fin.ext (Nat.mod_eq_of_lt mc.isLt)

/-- A register of the core that is no half of a pair is written where the write arrives. -/
theorem busWrite_mcore (hc : Canon s) (hacc : s.accessible (mcorePage pd mc) = true) {off : Nat}
    (hoff : off = 0x100 ∨ off = 0x124 ∨ off = 0x12C) (v : Word) : s.busWrite who (mcorePage pd mc) off v =
    ((s.arrived (mcorePage pd mc) who).regWrite who (mcorePage pd mc) off false v.toNat .none).2 := by
  have hpair : isLo .mcore off = false ∧ isHi .mcore off = false ∧ 0x100 ≤ off := by
    obtain rfl | rfl | rfl := hoff <;> decide
  obtain ⟨hlo, hhi, ho⟩ := hpair
  rw [busWrite_block (p := mcorePage pd mc) rfl (present_of_accessible hacc) ho rfl, State.blockWrite,
    accessible_arrived hc.regs hc.pages, hacc, if_neg (by exact Bool.false_ne_true), if_neg (by exact Bool.false_ne_true),
    if_neg (by exact hlo ▸ Bool.false_ne_true), if_neg (by exact hhi ▸ Bool.false_ne_true)]

/-- These registers read as they are stored. -/
theorem liveValue_mcore (s : State) (who : Requester) (pd : PD) (mc : MC) {off : Nat} (hoff : off = 0x100 ∨ off = 0x124 ∨ off = 0x12C) :
    s.liveValue who (mcorePage pd mc) off false = (s.reg (mcorePage pd mc) off).toNat := by
  obtain rfl | rfl | rfl := hoff <;> rfl

theorem takesWork_arrived (hc : Canon s) (p q : Page) : (s.arrived p who).takesWork q = s.takesWork q := by
  obtain ⟨l, hl⟩ := page_arrived hc.pages p q who
  rw [State.takesWork, State.takesWork, State.fenced, State.fenced, flag_arrived_of_off hc.regs p q (by decide) (by decide), hl]

theorem PagesOnly.coreBecomes {t : State} (h : PagesOnly s t) (hs : rising s.cores = true) :
    CoreBecomes pd mc s t (s.core pd mc) := by
  obtain ⟨r, q, rfl⟩ := h
  exact ⟨hs, rfl, ⟨fun _ _ _ => rfl, rfl, rfl, rfl, rfl, rfl, rfl⟩, rfl⟩

theorem PagesOnly.cores {t : State} (h : PagesOnly s t) : t.cores = s.cores := by
  obtain ⟨r, q, rfl⟩ := h
  rfl

/-! MCORE_CMD (R155). -/

theorem fields_mcoreCmd : regFields .mcore 0x124 false = [Reg.MCORE_CMD_CMD, Reg.MCORE_CMD_GO] := by decide

/-- The state in which a command written with GO is judged. -/
def State.commanded (s : State) (who : Requester) (pd : PD) (mc : MC) (n : Nat) : State :=
  (s.arrived (mcorePage pd mc) who).setFld (mcorePage pd mc) Reg.MCORE_CMD_CMD n

theorem goBits {n : Nat} (hn : n < 8) : bitsOf (n + 8) 0 3 = n ∧ bitOf (n + 8) 3 = true ∧ (BitVec.ofNat 32 (n + 8)).toNat = n + 8 := by
  interval_cases n <;> decide

/-- GO stands at 0 while no command runs, and a 1 written there is taken. -/
theorem heldSc_mcoreCmd (hidle : s.flag (mcorePage pd mc) Reg.MCORE_CMD_GO = false) (v : Nat) :
    heldSc .mcore [Reg.MCORE_CMD_CMD, Reg.MCORE_CMD_GO] (s.reg (mcorePage pd mc) 0x124).toNat v = v := by
  have hgo : ¬ Reg.MCORE_CMD_GO.get (s.reg (mcorePage pd mc) 0x124).toNat = 1 := fun h => by
    rw [State.flag, beq_eq_false_iff_ne] at hidle
    exact hidle h
  have hcmd : ¬ Reg.MCORE_CMD_CMD.acc = .sc := by decide
  rw [heldSc, if_neg (by decide), List.foldl_cons, List.foldl_cons, List.foldl_nil, if_neg fun h => hgo h.2, if_neg fun h => hcmd h.1]

theorem storeFields_mcoreCmd (s : State) (pd : PD) (mc : MC) {n : Nat} (hn : n < 8) :
    s.storeFields (mcorePage pd mc) 0x124 false [Reg.MCORE_CMD_CMD, Reg.MCORE_CMD_GO] (n + 8) =
      s.setFld (mcorePage pd mc) Reg.MCORE_CMD_CMD n := by
  have hget : Reg.MCORE_CMD_CMD.get (n + 8) = n := (goBits hn).1
  have hstored (m : Nat) : storedWord [Reg.MCORE_CMD_CMD, Reg.MCORE_CMD_GO] m (n + 8) =
      withBits m 0 3 (Reg.MCORE_CMD_CMD.get (n + 8)) := rfl
  rw [State.storeFields, if_neg Bool.false_ne_true, hstored, hget]
  rfl

theorem takesWork_setFld (h : s.regsWf) (p : Page) {f : RegField} (hf : 0x100 ≤ f.off ∧ f.off < 4096) (v : Nat) :
    (s.setFld p f v).takesWork p = s.takesWork p := by
  have hkey : regKey p 0x00C ≠ regKey p (f.off + f.stride * 0) := regKey_off_ne (by omega)
  have hfenced : (s.setFld p f v).flag p Reg.BLK_STAT_FENCED = s.flag p Reg.BLK_STAT_FENCED := flag_congr (reg_setFld_of_ne h hkey v)
  rw [State.takesWork, State.fenced, hfenced]
  rfl

/-- A command written with GO to an idle MCORE_CMD goes. -/
theorem mcoreCmd_goes (hc : Canon s) (hacc : s.accessible (mcorePage pd mc) = true) (hwork : s.takesWork (mcorePage pd mc) = true)
    (hidle : s.flag (mcorePage pd mc) Reg.MCORE_CMD_GO = false) {n : Nat} (hn : n < 6) :
    s.mcoreCmd who pd mc n = (s.commanded who pd mc n).mcoreGo pd mc n := by
  obtain ⟨hcmd, hgo, hword⟩ := goBits (n := n) (by omega)
  have hidle' : (s.arrived (mcorePage pd mc) who).flag (mcorePage pd mc) Reg.MCORE_CMD_GO = false :=
    (flag_arrived_of_off hc.regs _ _ (by decide) (by decide) who).trans hidle
  have hheld := heldSc_mcoreCmd hidle' (n + 8)
  rw [← liveValue_mcore _ who pd mc (.inr (.inl rfl))] at hheld
  have hres : (s.arrived (mcorePage pd mc) who).reservedWrite (mcorePage pd mc) 0x124 [Reg.MCORE_CMD_CMD, Reg.MCORE_CMD_GO] (n + 8) =
      false := by interval_cases n <;> rfl
  have hworks : (s.commanded who pd mc n).takesWork (mcorePage pd mc) = true :=
    ((takesWork_setFld (regsWf_arrived hc.regs _ _) _ (by decide) n).trans (takesWork_arrived hc _ _)).trans hwork
  have hact (u : State) (old : Nat) : u.regAct who (mcorePage pd mc) 0x124 old (n + 8) .none =
      if bitOf (n + 8) 3 then u.ifWorks (mcorePage pd mc) fun t => t.mcoreGo pd (mcOfPage (mcorePage pd mc)) (bitsOf (n + 8) 0 3)
      else u := rfl
  rw [State.mcoreCmd, busWrite_mcore hc hacc (.inr (.inl rfl)), hword,
    regWrite_unprotected fields_mcoreCmd (by decide) (by decide) who .none hheld hres, hact, if_pos hgo, hcmd, mcOfPage_mcorePage,
    storeFields_mcoreCmd _ _ _ (by omega), State.ifWorks]
  exact if_pos hworks

/-- A command written changes MCORE_CMD, the count of writes and the lock alone. -/
theorem commanded_pagesOnly (s : State) (who : Requester) (pd : PD) (mc : MC) (n : Nat) : PagesOnly s (s.commanded who pd mc n) := by
  unfold State.commanded
  rw [arrived_eq]
  exact ⟨_, _, rfl⟩

section
variable (hc : Canon s) (n : Nat)
include hc

theorem regsWf_commanded : (s.commanded who pd mc n).regsWf := regsWf_setFld (regsWf_arrived hc.regs _ _) _ _ _ 0

theorem reg_commanded {off : Nat} (ho : off < 4096) (hne : off ≠ 0x01C ∧ off ≠ 0x124) :
    (s.commanded who pd mc n).reg (mcorePage pd mc) off = s.reg (mcorePage pd mc) off := by
  obtain ⟨hsync, hcmd⟩ := hne
  exact (reg_setFld_of_ne (regsWf_arrived hc.regs _ _) (regKey_off_ne hcmd) n).trans
    (reg_arrived_of_off hc.regs (mcorePage pd mc) (mcorePage pd mc) ho hsync who)

theorem cmd_commanded {n : Nat} (hn : n < 6) : (s.commanded who pd mc n).fld (mcorePage pd mc) Reg.MCORE_CMD_CMD = n :=
  (fld_setFld_same (regsWf_arrived hc.regs _ _) _ _ (by decide) n 0).trans (Nat.mod_eq_of_lt (Nat.lt_trans hn (by decide)))

theorem len_commanded : (s.commanded who pd mc n).fld (mcorePage pd mc) Reg.MCORE_PROG_LEN_LEN =
    s.fld (mcorePage pd mc) Reg.MCORE_PROG_LEN_LEN := fld_congr (reg_commanded hc n (by decide) (by decide))

theorem progAddr_commanded : (s.commanded who pd mc n).reg64 (mcorePage pd mc) 0x110 = s.reg64 (mcorePage pd mc) 0x110 :=
  reg64_congr (reg_commanded hc n (by decide) (by decide)) (reg_commanded hc n (by decide) (by decide))

theorem ctxAddr_commanded : (s.commanded who pd mc n).reg64 (mcorePage pd mc) 0x11C = s.reg64 (mcorePage pd mc) 0x11C :=
  reg64_congr (reg_commanded hc n (by decide) (by decide)) (reg_commanded hc n (by decide) (by decide))

theorem commanded_coreBecomes : CoreBecomes pd mc s (s.commanded who pd mc n) (s.core pd mc) :=
  (commanded_pagesOnly s who pd mc n).coreBecomes hc.cores

end

/-- The core with a command running (R155). -/
def State.running (s : State) (pd : PD) (mc : MC) (n : Nat) : CoreSt :=
  { s.core pd mc with
    status := .cmdBusy, before := (s.core pd mc).status, cmdRun := n
    cmdAddr := if n = 1 then s.reg64 (mcorePage pd mc) 0x110 else s.reg64 (mcorePage pd mc) 0x11C
    cmdLen := s.fld (mcorePage pd mc) Reg.MCORE_PROG_LEN_LEN }

/-- A command begins. -/
def State.begin (s : State) (pd : PD) (mc : MC) (n : Nat) : State :=
  ((s.setFlag (mcorePage pd mc) Reg.MCORE_CMD_GO true).setFlag (mcorePage pd mc) Reg.MCORE_CMD_STATUS_VALID false).setCore pd mc
    (s.running pd mc n)

theorem reg_setCore (s : State) (pd : PD) (mc : MC) (c : CoreSt) (p : Page) (off : Nat) : (s.setCore pd mc c).reg p off = s.reg p off :=
  rfl

theorem go_begin (h : s.regsWf) (n : Nat) : (s.begin pd mc n).flag (mcorePage pd mc) Reg.MCORE_CMD_GO = true := by
  have hgo := regsWf_setFlag h (mcorePage pd mc) Reg.MCORE_CMD_GO true
  refine (flag_congr (s := s.setFlag (mcorePage pd mc) Reg.MCORE_CMD_GO true) ?_).trans (flag_setFlag_same h _ (by decide) (by decide) true)
  rw [State.begin, reg_setCore]
  exact reg_setFlag_of_ne hgo (regKey_off_ne (by decide)) false

theorem valid_begin (h : s.regsWf) (n : Nat) : (s.begin pd mc n).flag (mcorePage pd mc) Reg.MCORE_CMD_STATUS_VALID = false := by
  have hgo := regsWf_setFlag h (mcorePage pd mc) Reg.MCORE_CMD_GO true
  refine (flag_congr ?_).trans (flag_setFlag_same hgo (mcorePage pd mc) (f := Reg.MCORE_CMD_STATUS_VALID) (by decide) (by decide) false)
  rw [State.begin, reg_setCore]

theorem cmd_begin (h : s.regsWf) (n : Nat) :
    (s.begin pd mc n).fld (mcorePage pd mc) Reg.MCORE_CMD_CMD = s.fld (mcorePage pd mc) Reg.MCORE_CMD_CMD := by
  have hgo := regsWf_setFlag h (mcorePage pd mc) Reg.MCORE_CMD_GO true
  have hcmd : (s.setFlag (mcorePage pd mc) Reg.MCORE_CMD_GO true).fld (mcorePage pd mc) Reg.MCORE_CMD_CMD =
      s.fld (mcorePage pd mc) Reg.MCORE_CMD_CMD := fld_setFld_of_disjoint h (by decide) (.inr (by decide)) _
  refine (fld_congr ?_).trans hcmd
  rw [State.begin, reg_setCore]
  exact reg_setFlag_of_ne hgo (regKey_off_ne (by decide)) false

theorem CoreBecomes.begin {t : State} {c : CoreSt} (h : CoreBecomes pd mc s t c) (n : Nat) :
    CoreBecomes pd mc s (t.begin pd mc n) (t.running pd mc n) :=
  ((h.records (setFlag_records _ _ _ true 0)).records (setFlag_records _ _ _ false 0)).setCore _

theorem mcoreGo_none (s : State) (pd : PD) (mc : MC) : s.mcoreGo pd mc 0 = s.cmdEnd pd mc 0 0 0 := by
  rw [State.mcoreGo, if_pos rfl]

theorem mcoreGo_refused {n : Nat} (hn : n ≠ 0) (hno : cmdPermits n (s.core pd mc).status = false) :
    s.mcoreGo pd mc n = s.cmdEnd pd mc n 0x0B 0x30 := by
  simp [State.mcoreGo, hn, hno]

theorem mcoreGo_runs {n : Nat} (hn : n ≠ 0) (hok : cmdPermits n (s.core pd mc).status = true)
    (hlen : n = 1 → s.fld (mcorePage pd mc) Reg.MCORE_PROG_LEN_LEN ≠ 0) : s.mcoreGo pd mc n = s.begin pd mc n := by
  have hno : ¬(n = 1 ∧ s.fld (mcorePage pd mc) Reg.MCORE_PROG_LEN_LEN = 0) := fun h => hlen h.1 h.2
  rw [State.mcoreGo, if_neg hn, hok, if_neg (by decide), if_neg hno]
  rfl

theorem running_commanded (hc : Canon s) (n : Nat) : (s.commanded who pd mc n).running pd mc n = s.running pd mc n := by
  unfold State.running
  rw [len_commanded hc, progAddr_commanded hc, ctxAddr_commanded hc, (commanded_coreBecomes hc n).core]

theorem coreCommandRuns {cmd : Requester → PD → MC → Instr} {n : Nat} (hn : n ≠ 0 ∧ n < 6)
    (hexec : ∀ who pd mc s, exec (cmd who pd mc) s = .next (s.mcoreCmd who pd mc n)) : CoreCommandRuns cmd n := by
  obtain ⟨hpos, hlt⟩ := hn
  intro s hc who pd mc hacc hwork hidle
  have hgoes := mcoreCmd_goes (who := who) hc hacc hwork hidle hlt
  have hbase := commanded_coreBecomes (who := who) (pd := pd) (mc := mc) hc n
  have hw := regsWf_commanded (who := who) (pd := pd) (mc := mc) hc n
  refine ⟨fun hok hlen => ?_, fun hno => ?_⟩
  · rw [← hbase.core] at hok
    rw [← len_commanded (who := who) hc n] at hlen
    rw [mcoreGo_runs hpos hok hlen] at hgoes
    have hset := hbase.begin n
    rw [running_commanded hc] at hset
    refine ⟨_, (hexec who pd mc s).trans (congrArg Host.Outcome.next hgoes), hset.core, go_begin hw n, valid_begin hw n, ?_, hset.kept⟩
    exact (cmd_begin hw n).trans (cmd_commanded hc hlt)
  · rw [← hbase.core] at hno
    rw [mcoreGo_refused hpos hno] at hgoes
    have hset := hbase.records (cmdEnd_records (s.commanded who pd mc n) pd mc n 0x0B 0x30)
    exact ⟨_, (hexec who pd mc s).trans (congrArg Host.Outcome.next hgoes), coreEnded_cmdEnd pd mc hw (by decide) n 0x0B, hset.core,
      err_cmdEnd pd mc hw (by decide) n 0x0B⟩

theorem mcoreCmdNone_ends (hc : Canon s) (hacc : s.accessible (mcorePage pd mc) = true) (hwork : s.takesWork (mcorePage pd mc) = true)
    (hidle : s.flag (mcorePage pd mc) Reg.MCORE_CMD_GO = false) :
    Completes (.mcoreCmdNone who pd mc) s fun t => CoreEnded t pd mc 0 ∧ t.cores = s.cores := by
  have hgoes := mcoreCmd_goes (who := who) hc hacc hwork hidle (n := 0) (by decide)
  rw [mcoreGo_none] at hgoes
  have hexec : exec (.mcoreCmdNone who pd mc) s = .next (s.mcoreCmd who pd mc 0) := rfl
  refine ⟨_, hexec.trans (congrArg Host.Outcome.next hgoes), coreEnded_cmdEnd pd mc (regsWf_commanded hc 0) (by decide) 0 0, ?_⟩
  exact (cmdEnd_records _ pd mc 0 0 0).cores.trans (commanded_pagesOnly s who pd mc 0).cores

end

end Sys2Proof.Machine
end

section
/-!
SUPPORT. Writes of MCORE_CTRL and MCORE_CTXID (R64, R153, R173, R193).
-/
open Sys2Proof.Claims

namespace Sys2Proof.Machine

section
variable {s t : State} {who : Requester} {pd : PD} {mc : MC}

/-! MCORE_CTRL (R153, R193). -/

theorem fields_mcoreCtrl : regFields .mcore 0x100 false = [Reg.MCORE_CTRL_TRAP_NAN, Reg.MCORE_CTRL_HALT_REQ] := by decide

theorem bitOf_eq (n i : Nat) : bitOf n i = (bitsOf n i 1 == 1) := rfl

theorem bitOf_withBits_same (n i : Nat) (b : Bool) : bitOf (withBits n i 1 (b2n b)) i = b := by
  rw [bitOf_eq, bitsOf_withBits_same]
  cases b <;> rfl

/-- MCORE_CTRL with both bits written. -/
def State.ctrlStored (s : State) (pd : PD) (mc : MC) (v : Nat) : State :=
  s.storeFields (mcorePage pd mc) 0x100 false [Reg.MCORE_CTRL_TRAP_NAN, Reg.MCORE_CTRL_HALT_REQ] v

theorem flags_ctrlStored (h : s.regsWf) (v : Nat) :
    (s.ctrlStored pd mc v).flag (mcorePage pd mc) Reg.MCORE_CTRL_TRAP_NAN = bitOf v 0 ∧
      (s.ctrlStored pd mc v).flag (mcorePage pd mc) Reg.MCORE_CTRL_HALT_REQ = bitOf v 1 := by
  have hword : (s.ctrlStored pd mc v).reg (mcorePage pd mc) 0x100 = BitVec.ofNat 32
      (withBits (withBits (s.reg (mcorePage pd mc) 0x100).toNat 0 1 (bitsOf v 0 1)) 1 1 (bitsOf v 1 1)) := by
    rw [State.ctrlStored, State.storeFields, if_neg Bool.false_ne_true, reg_setReg h, if_pos rfl,
      storedWord_pair rfl rfl rfl rfl]
    rfl
  have hlt := withBits_lt (lo := 1) (w := 1) (m := 32) (withBits_lt (lo := 0) (w := 1) (m := 32)
    (s.reg (mcorePage pd mc) 0x100).isLt (by decide) (bitsOf v 0 1)) (by decide) (bitsOf v 1 1)
  have hval := congrArg BitVec.toNat hword
  rw [BitVec.toNat_ofNat, Nat.mod_eq_of_lt hlt] at hval
  have hbit (i : Nat) : bitsOf v i 1 % 2 ^ 1 = bitsOf v i 1 := Nat.mod_mod _ _
  constructor
  · change (bitsOf ((s.ctrlStored pd mc v).reg (mcorePage pd mc) 0x100).toNat 0 1 == 1) = _
    rw [hval, bitsOf_withBits_of_disjoint (by decide), bitsOf_withBits_same, hbit, bitOf_eq]
  · change (bitsOf ((s.ctrlStored pd mc v).reg (mcorePage pd mc) 0x100).toNat 1 1 == 1) = _
    rw [hval, bitsOf_withBits_same, hbit, bitOf_eq]

theorem ctrlStored_pagesOnly (s : State) (who : Requester) (pd : PD) (mc : MC) (v : Nat) :
    PagesOnly s ((s.arrived (mcorePage pd mc) who).ctrlStored pd mc v) := by
  rw [State.ctrlStored, State.storeFields, if_neg Bool.false_ne_true, arrived_eq]
  exact ⟨_, _, rfl⟩

theorem busWrite_mcoreCtrl (hc : Canon s) (hacc : s.accessible (mcorePage pd mc) = true) (v : Word) :
    s.busWrite who (mcorePage pd mc) 0x100 v = ((s.arrived (mcorePage pd mc) who).ctrlStored pd mc v.toNat).actMcoreCtrl pd mc
      (s.reg (mcorePage pd mc) 0x100).toNat v.toNat := by
  have hlive : (s.arrived (mcorePage pd mc) who).liveValue who (mcorePage pd mc) 0x100 false = (s.reg (mcorePage pd mc) 0x100).toNat :=
    (liveValue_mcore _ who pd mc (.inl rfl)).trans
      (congrArg BitVec.toNat (reg_arrived_of_off hc.regs (mcorePage pd mc) (mcorePage pd mc) (by decide) (by decide) who))
  have hact (u : State) (old n : Nat) : u.regAct who (mcorePage pd mc) 0x100 old n .none =
      u.actMcoreCtrl pd (mcOfPage (mcorePage pd mc)) old n := rfl
  rw [busWrite_mcore hc hacc (.inl rfl), regWrite_unprotected fields_mcoreCtrl (by decide) (by decide) who .none
    (heldSc_of_plain (by decide) _ _ _) rfl, hlive, hact, mcOfPage_mcorePage]
  rfl

/-- A core that HALT_REQ stops (R153). -/
def CoreSt.halts (c : CoreSt) : Bool := c.status == .running || c.status == .waitTs || c.status == .waitStep

/-- The core behind a write of MCORE_CTRL at a beat. -/
def CoreSt.controlled (c : CoreSt) (beat old v : Nat) : CoreSt :=
  { c with
    trapOn := if bitOf old 0 = bitOf v 0 then c.trapOn else (beat + 1, bitOf v 0) :: c.trapOn
    status := if bitOf v 1 && c.halts then .stoppedReq else c.status }

theorem CoreBecomes.actMcoreCtrl {c : CoreSt} (h : CoreBecomes pd mc s t c) (old v : Nat) :
    CoreBecomes pd mc s (t.actMcoreCtrl pd mc old v) (c.controlled s.sched.beat old v) := by
  have htrap : CoreBecomes pd mc s (if bitOf old 0 = bitOf v 0 then t
      else t.modCore pd mc fun c => { c with trapOn := (t.sched.beat + 1, bitOf v 0) :: c.trapOn })
      { c with trapOn := if bitOf old 0 = bitOf v 0 then c.trapOn else (s.sched.beat + 1, bitOf v 0) :: c.trapOn } := by
    split
    · exact h
    · exact h.atBeat h.beat fun d c => { c with trapOn := (d + 1, bitOf v 0) :: c.trapOn }
  unfold State.actMcoreCtrl CoreSt.controlled
  dsimp only
  rw [htrap.core]
  by_cases hstop : (bitOf v 1 && c.halts) = true
  · rw [if_pos hstop]
    exact if_pos hstop ▸ htrap.enterStopped .stoppedReq
  · rw [if_neg hstop]
    exact if_neg hstop ▸ htrap

theorem reg_enterStopped (h : t.regsWf) {p : Page} {off : Nat} (hk : regKey p off ∉ irqKeys) (st : CoreStatus) :
    (t.enterStopped pd mc st).reg p off = t.reg p off :=
  (setInt_raises ((t.dropWait pd mc).modCore pd mc fun c => { c with status := st }) (mcorePage pd mc) 2).toWritesOnly.reg h hk

theorem reg_actMcoreCtrl (h : t.regsWf) {p : Page} {off : Nat} (hk : regKey p off ∉ irqKeys) (old v : Nat) :
    (t.actMcoreCtrl pd mc old v).reg p off = t.reg p off := by
  unfold State.actMcoreCtrl
  dsimp only
  split
  · split
    · exact reg_enterStopped h hk _
    · rfl
  · split
    · exact reg_enterStopped (t := t.modCore pd mc _) h hk _
    · rfl

/-- What a write of MCORE_CTRL leaves of the register and of the core. -/
theorem mcoreCtrl_written (hc : Canon s) (hacc : s.accessible (mcorePage pd mc) = true) (v : Word) :
    CoreBecomes pd mc s (s.busWrite who (mcorePage pd mc) 0x100 v)
        ((s.core pd mc).controlled s.sched.beat (s.reg (mcorePage pd mc) 0x100).toNat v.toNat) ∧
      (s.busWrite who (mcorePage pd mc) 0x100 v).flag (mcorePage pd mc) Reg.MCORE_CTRL_TRAP_NAN = bitOf v.toNat 0 ∧
      (s.busWrite who (mcorePage pd mc) 0x100 v).flag (mcorePage pd mc) Reg.MCORE_CTRL_HALT_REQ = bitOf v.toNat 1 := by
  have hw : ((s.arrived (mcorePage pd mc) who).ctrlStored pd mc v.toNat).regsWf := regsWf_setReg (regsWf_arrived hc.regs _ _) _ _ _
  have hkey : regKey (mcorePage pd mc) 0x100 ∉ irqKeys := regKey_notMem_irqKeys (by decide) (by decide) fun hb => by cases hb
  obtain ⟨htrap, hhalt⟩ := flags_ctrlStored (pd := pd) (mc := mc) (regsWf_arrived hc.regs (mcorePage pd mc) who) v.toNat
  have hreg := reg_actMcoreCtrl (pd := pd) (mc := mc) hw hkey (s.reg (mcorePage pd mc) 0x100).toNat v.toNat
  rw [busWrite_mcoreCtrl hc hacc]
  exact ⟨((ctrlStored_pagesOnly s who pd mc v.toNat).coreBecomes hc.cores).actMcoreCtrl _ _, (flag_congr hreg).trans htrap,
    (flag_congr hreg).trans hhalt⟩

theorem toNat_withField (s : State) (p : Page) {f : RegField} (hf : f.lo + f.w ≤ 32) (v : Nat) :
    (s.withField p f v).toNat = withBits (s.reg p f.off).toNat f.lo f.w v := by
  rw [State.withField, BitVec.toNat_ofNat]
  exact Nat.mod_eq_of_lt (withBits_lt (BitVec.isLt _) hf v)

theorem haltReqWrite_completes (hc : Canon s) (hacc : s.accessible (mcorePage pd mc) = true) (on : Bool) :
    Completes (.haltReqWrite who pd mc on) s fun t =>
      t.flag (mcorePage pd mc) Reg.MCORE_CTRL_HALT_REQ = on ∧ (t.core pd mc).x = (s.core pd mc).x ∧
      (t.core pd mc).lq = (s.core pd mc).lq ∧ (t.core pd mc).sq = (s.core pd mc).sq ∧ (t.core pd mc).dq = (s.core pd mc).dq ∧
      (t.core pd mc).vq = (s.core pd mc).vq ∧ (t.core pd mc).mq = (s.core pd mc).mq ∧ OthersKept s t pd mc ∧
      (t.core pd mc).status = (if on = true ∧ ((s.core pd mc).status = .running ∨ (s.core pd mc).status = .waitTs ∨
        (s.core pd mc).status = .waitStep) then .stoppedReq else (s.core pd mc).status) := by
  obtain ⟨hset, -, hhalt⟩ := mcoreCtrl_written (who := who) hc hacc (s.withField (mcorePage pd mc) Reg.MCORE_CTRL_HALT_REQ (b2n on))
  have hbit : bitOf (s.withField (mcorePage pd mc) Reg.MCORE_CTRL_HALT_REQ (b2n on)).toNat 1 = on := by
    rw [toNat_withField s _ (by decide)]
    exact bitOf_withBits_same _ 1 on
  refine ⟨_, rfl, ?_⟩
  beta_reduce
  rw [hset.core]
  refine ⟨hhalt.trans hbit, rfl, rfl, rfl, rfl, rfl, rfl, hset.kept, ?_⟩
  simp [CoreSt.controlled, CoreSt.halts, hbit, or_assoc]

theorem trapNanWrite_completes (hc : Canon s) (hacc : s.accessible (mcorePage pd mc) = true) (on : Bool) :
    Completes (.trapNanWrite who pd mc on) s fun t =>
      t.flag (mcorePage pd mc) Reg.MCORE_CTRL_TRAP_NAN = on ∧ (t.core pd mc).x = (s.core pd mc).x ∧ OthersKept s t pd mc ∧
      (t.core pd mc).trapOn = (if s.flag (mcorePage pd mc) Reg.MCORE_CTRL_TRAP_NAN = on then (s.core pd mc).trapOn
        else (s.sched.beat + 1, on) :: (s.core pd mc).trapOn) := by
  obtain ⟨hset, htrap, -⟩ := mcoreCtrl_written (who := who) hc hacc (s.withField (mcorePage pd mc) Reg.MCORE_CTRL_TRAP_NAN (b2n on))
  have hbit : bitOf (s.withField (mcorePage pd mc) Reg.MCORE_CTRL_TRAP_NAN (b2n on)).toNat 0 = on := by
    rw [toNat_withField s _ (by decide)]
    exact bitOf_withBits_same _ 0 on
  have hold : bitOf (s.reg (mcorePage pd mc) 0x100).toNat 0 = s.flag (mcorePage pd mc) Reg.MCORE_CTRL_TRAP_NAN := rfl
  refine ⟨_, rfl, ?_⟩
  beta_reduce
  rw [hset.core]
  refine ⟨htrap.trans hbit, rfl, hset.kept, ?_⟩
  simp only [CoreSt.controlled, hbit, hold]

/-! MCORE_CTXID (R64, R173). -/

theorem fields_mcoreCtxid : regFields .mcore 0x12C false = [Reg.MCORE_CTXID_CTXID] := by decide

/-- A register stored as it stands. -/
def State.restored (s : State) (p : Page) (off : Nat) : State := s.setReg p off (BitVec.ofNat 32 (s.reg p off).toNat)

theorem reg_restored (h : s.regsWf) (p q : Page) (off o : Nat) : (s.restored p off).reg q o = s.reg q o := by
  rw [State.restored, reg_setReg h]
  split
  · rename_i hk
    rw [BitVec.ofNat_toNat, BitVec.setWidth_eq, State.reg, State.reg, hk]
  · rfl

/-- A write stores nothing of a field that the block sets itself. -/
theorem storeFields_mcoreCtxid (s : State) (pd : PD) (mc : MC) (v : Nat) :
    s.storeFields (mcorePage pd mc) 0x12C false [Reg.MCORE_CTXID_CTXID] v = s.restored (mcorePage pd mc) 0x12C := by
  rw [State.storeFields, if_neg Bool.false_ne_true]
  rfl

theorem toNat_half (ctx : Half) : (ctx.setWidth 32 : Word).toNat = ctx.toNat := by
  rw [BitVec.toNat_setWidth]
  exact Nat.mod_eq_of_lt (Nat.lt_trans ctx.isLt (by decide))

/-- The page's unlock is used up and the CTXID is pending. -/
theorem regWrite_mcoreCtxid_unlocked (hopen : s.unlockedFor (mcorePage pd mc) who = true) (ctx : Half) :
    (s.regWrite who (mcorePage pd mc) 0x12C false ctx.toNat .none).2 =
      (((s.useUnlock (mcorePage pd mc) who true).restored (mcorePage pd mc) 0x12C).modTc pd mc fun t =>
        { t with ctxPending := some ctx }).tcCtxNow pd mc := by
  have hheld (old v : Nat) : heldSc .mcore [Reg.MCORE_CTXID_CTXID] old v = v := heldSc_of_plain (by decide) _ _ _
  have hres : s.reservedWrite (mcorePage pd mc) 0x12C [Reg.MCORE_CTXID_CTXID] ctx.toNat = false := rfl
  have hact (u : State) (old n : Nat) : u.regAct who (mcorePage pd mc) 0x12C old n .none =
      (u.modTc pd (mcOfPage (mcorePage pd mc)) fun t => { t with ctxPending := some (BitVec.ofNat 16 n) }).tcCtxNow pd
        (mcOfPage (mcorePage pd mc)) := rfl
  have hblk : (mcorePage pd mc).blk = .mcore := rfl
  have hprot : [Reg.MCORE_CTXID_CTXID].any (·.prot) = true := by decide
  simp only [State.regWrite, hblk, fields_mcoreCtxid, hheld, hres, hopen, hprot, hact, mcOfPage_mcorePage, Bool.not_true,
    Bool.and_false, Bool.false_and, List.filter_false, List.isEmpty_nil, List.foldl_nil, if_true, if_false, Bool.false_eq_true,
    Bool.true_or, storeFields_mcoreCtxid, BitVec.ofNat_toNat, BitVec.setWidth_eq]

/-- The locked field keeps its value, with an error (R64). -/
theorem regWrite_mcoreCtxid_locked (hlock : s.unlockedFor (mcorePage pd mc) who = false) (ctx : Half)
    (hne : s.fld (mcorePage pd mc) Reg.MCORE_CTXID_CTXID ≠ ctx.toNat) :
    (s.regWrite who (mcorePage pd mc) 0x12C false ctx.toNat .none).2 =
      (s.headerError (mcorePage pd mc) 2 0x12C who (BitVec.ofNat 32 ctx.toNat)).restored (mcorePage pd mc) 0x12C := by
  have hheld (old v : Nat) : heldSc .mcore [Reg.MCORE_CTXID_CTXID] old v = v := heldSc_of_plain (by decide) _ _ _
  have hres : s.reservedWrite (mcorePage pd mc) 0x12C [Reg.MCORE_CTXID_CTXID] ctx.toNat = false := rfl
  have hblk : (mcorePage pd mc).blk = .mcore := rfl
  have hget : Reg.MCORE_CTXID_CTXID.get ctx.toNat = ctx.toNat := by
    change ctx.toNat / 2 ^ 0 % 2 ^ 16 = ctx.toNat
    rw [Nat.pow_zero, Nat.div_one]
    exact Nat.mod_eq_of_lt ctx.isLt
  have hchange : Reg.MCORE_CTXID_CTXID.changes (s.reg (mcorePage pd mc) 0x12C).toNat ctx.toNat = true :=
    bne_iff_ne.mpr fun h => hne (h.trans hget)
  have hprot : Reg.MCORE_CTXID_CTXID.prot = true := rfl
  have hwrite : Reg.MCORE_CTXID_CTXID.writable = true := rfl
  simp [State.regWrite, hblk, fields_mcoreCtxid, hheld, hres, hlock, State.useUnlock, hprot, hwrite,
    liveValue_mcore s who pd mc (.inr (.inr rfl)), hchange, storeFields_mcoreCtxid]

/-! A pending CTXID (R173). -/

theorem tc_setTc (h : rising s.tcs = true) (pd : PD) (mc : MC) (x : TCache) : (s.setTc pd mc x).tc pd mc = x := by
  rw [State.tc, State.setTc, mget_mput_rising h, if_pos rfl]

theorem tcCtxNow_empty {ctx : Half} (hp : (s.tc pd mc).ctxPending = some ctx) (hmb : (s.tc pd mc).mb = []) : s.tcCtxNow pd mc =
    (s.setTc pd mc { (s.tc pd mc).emptied with ctxPending := none }).setFld (mcorePage pd mc) Reg.MCORE_CTXID_CTXID ctx.toNat := by
  simp [State.tcCtxNow, hp, hmb]

theorem tcCtxNow_waits {ctx : Half} (hp : (s.tc pd mc).ctxPending = some ctx) (hmb : (s.tc pd mc).mb ≠ []) : s.tcCtxNow pd mc = s := by
  simp [State.tcCtxNow, hp, hmb]

/-- What a CTXID that takes effect leaves: the operand cache x, the field, all else. -/
theorem ctxid_takes (hw : s.regsWf) (hr : rising s.tcs = true) (x : TCache) (ctx : Half) {t : State}
    (ht : t = (s.setTc pd mc x).setFld (mcorePage pd mc) Reg.MCORE_CTXID_CTXID ctx.toNat) :
    t.fld (mcorePage pd mc) Reg.MCORE_CTXID_CTXID = ctx.toNat ∧ t.tc pd mc = x ∧ t.pages = s.pages ∧ t.cores = s.cores := by
  subst ht
  have hset : (s.setTc pd mc x).regsWf := hw
  exact ⟨(fld_setFld_same hset _ _ (by decide) _ 0).trans (Nat.mod_eq_of_lt ctx.isLt), tc_setTc hr pd mc x, rfl, rfl⟩

/-- The state in which an unlocked CTXID is pending. -/
def State.ctxidTaken (s : State) (who : Requester) (pd : PD) (mc : MC) (ctx : Half) : State :=
  ((s.ctrlArrived (mcorePage pd mc) who).restored (mcorePage pd mc) 0x12C).modTc pd mc fun t => { t with ctxPending := some ctx }

theorem ctxidTaken_frame (s : State) (who : Requester) (pd : PD) (mc : MC) (ctx : Half) : ∃ r q, s.ctxidTaken who pd mc ctx =
    { s with regs := r, pages := q, tcs := mput (fun _ => {}) s.tcs (coreKey pd mc) { s.tc pd mc with ctxPending := some ctx } } := by
  obtain ⟨q, h⟩ := useUnlock_frame (s.arrived (mcorePage pd mc) who) (mcorePage pd mc) who true
  rw [State.ctxidTaken, State.ctrlArrived, h, arrived_eq]
  exact ⟨_, _, rfl⟩

theorem cores_ctxidTaken (s : State) (who : Requester) (pd : PD) (mc : MC) (ctx : Half) : (s.ctxidTaken who pd mc ctx).cores = s.cores := by
  obtain ⟨r, q, h⟩ := ctxidTaken_frame s who pd mc ctx
  rw [h]

section
variable (hc : Canon s) (ctx : Half)
include hc

theorem regsWf_ctxidTaken : (s.ctxidTaken who pd mc ctx).regsWf := regsWf_setReg (regsWf_ctrlArrived hc _ _) _ _ _

theorem tc_ctxidTaken : (s.ctxidTaken who pd mc ctx).tc pd mc = { s.tc pd mc with ctxPending := some ctx } := by
  obtain ⟨r, q, h⟩ := ctxidTaken_frame s who pd mc ctx
  rw [h]
  exact tc_setTc hc.tcs pd mc _

theorem tcs_ctxidTaken : rising (s.ctxidTaken who pd mc ctx).tcs = true := by
  obtain ⟨r, q, h⟩ := ctxidTaken_frame s who pd mc ctx
  rw [h]
  exact rising_mput (d := fun _ => ({} : TCache)) hc.tcs _ _

theorem ctxid_ctxidTaken : (s.ctxidTaken who pd mc ctx).fld (mcorePage pd mc) Reg.MCORE_CTXID_CTXID =
    s.fld (mcorePage pd mc) Reg.MCORE_CTXID_CTXID := by
  obtain ⟨q, h⟩ := useUnlock_frame (s.arrived (mcorePage pd mc) who) (mcorePage pd mc) who true
  have hun : (s.ctrlArrived (mcorePage pd mc) who).reg (mcorePage pd mc) 0x12C =
      (s.arrived (mcorePage pd mc) who).reg (mcorePage pd mc) 0x12C := by
    rw [State.ctrlArrived, h]
    rfl
  exact fld_congr (((reg_restored (regsWf_ctrlArrived hc _ _) _ _ _ _).trans hun).trans
    (reg_arrived_of_off hc.regs (mcorePage pd mc) (mcorePage pd mc) (by decide) (by decide) who))

variable (hopen : (s.page (mcorePage pd mc)).lock = .unlocked who)
include hopen

theorem lock_ctxidTaken : ((s.ctxidTaken who pd mc ctx).page (mcorePage pd mc)).lock = .locked :=
  (ctrlArrived_unlocked hc (mcorePage pd mc) who hopen).2

variable (hacc : s.accessible (mcorePage pd mc) = true)
include hacc

theorem mcoreCtxidWrite_next : exec (.mcoreCtxidWrite who pd mc ctx) s = .next ((s.ctxidTaken who pd mc ctx).tcCtxNow pd mc) := by
  have hexec : exec (.mcoreCtxidWrite who pd mc ctx) s = .next (s.busWrite who (mcorePage pd mc) 0x12C (ctx.setWidth 32)) := rfl
  rw [hexec, busWrite_mcore hc hacc (.inr (.inr rfl)), toNat_half,
    regWrite_mcoreCtxid_unlocked (ctrlArrived_unlocked hc (mcorePage pd mc) who hopen).1]
  rfl

theorem mcoreCtxidWrite_now (hmb : (s.tc pd mc).mb = []) : Completes (.mcoreCtxidWrite who pd mc ctx) s fun t =>
    t.fld (mcorePage pd mc) Reg.MCORE_CTXID_CTXID = ctx.toNat ∧ (t.tc pd mc).lines = [] ∧ (t.tc pd mc).side = [] ∧
    (t.tc pd mc).xlate = [] ∧ (t.page (mcorePage pd mc)).lock = .locked ∧ t.cores = s.cores := by
  have htc := tc_ctxidTaken (who := who) (pd := pd) (mc := mc) hc ctx
  have hnow := mcoreCtxidWrite_next hc ctx hopen hacc
  rw [tcCtxNow_empty (ctx := ctx) (by rw [htc]) (by rw [htc]; exact hmb)] at hnow
  obtain ⟨hfld, hset, hpages, hcores⟩ := ctxid_takes (regsWf_ctxidTaken hc ctx) (tcs_ctxidTaken hc ctx) _ ctx rfl
  have hpage := congrArg (fun l => (mget (fun _ => ({} : PageSt)) l (pageKey (mcorePage pd mc))).lock) hpages
  exact ⟨_, hnow, hfld, congrArg TCache.lines hset, congrArg TCache.side hset, congrArg TCache.xlate hset,
    hpage.trans (lock_ctxidTaken hc ctx hopen), hcores.trans (cores_ctxidTaken s who pd mc ctx)⟩

theorem mcoreCtxidWrite_waits (hmb : (s.tc pd mc).mb ≠ []) : Completes (.mcoreCtxidWrite who pd mc ctx) s fun t =>
    t.fld (mcorePage pd mc) Reg.MCORE_CTXID_CTXID = s.fld (mcorePage pd mc) Reg.MCORE_CTXID_CTXID ∧
    (t.tc pd mc).ctxPending = some ctx ∧ t.cores = s.cores := by
  have htc := tc_ctxidTaken (who := who) (pd := pd) (mc := mc) hc ctx
  have hnow := mcoreCtxidWrite_next hc ctx hopen hacc
  rw [tcCtxNow_waits (ctx := ctx) (by rw [htc]) (by rw [htc]; exact hmb)] at hnow
  exact ⟨_, hnow, ctxid_ctxidTaken hc ctx, congrArg TCache.ctxPending htc, cores_ctxidTaken s who pd mc ctx⟩

end

theorem mcoreCtxidWrite_locked (hc : Canon s) (hacc : s.accessible (mcorePage pd mc) = true) (ctx : Half)
    (hlock : (s.page (mcorePage pd mc)).lock = .locked) (hne : s.fld (mcorePage pd mc) Reg.MCORE_CTXID_CTXID ≠ ctx.toNat) :
    Completes (.mcoreCtxidWrite who pd mc ctx) s fun t =>
      t.fld (mcorePage pd mc) Reg.MCORE_CTXID_CTXID = s.fld (mcorePage pd mc) Reg.MCORE_CTXID_CTXID ∧ t.tcs = s.tcs ∧
      t.flag (mcorePage pd mc) Reg.BLK_STAT_ERR = true := by
  have hw := regsWf_arrived hc.regs (mcorePage pd mc) who
  have hreg := reg_arrived_of_off hc.regs (mcorePage pd mc) (mcorePage pd mc) (off := 0x12C) (by decide) (by decide) who
  have hfld : (s.arrived (mcorePage pd mc) who).fld (mcorePage pd mc) Reg.MCORE_CTXID_CTXID =
      s.fld (mcorePage pd mc) Reg.MCORE_CTXID_CTXID := fld_congr hreg
  have hshut : (s.arrived (mcorePage pd mc) who).unlockedFor (mcorePage pd mc) who = false := by
    rw [State.unlockedFor, page_arrived_of_lock_ne (by rw [hlock]; exact Lock.noConfusion), hlock]
    rfl
  have hexec : exec (.mcoreCtxidWrite who pd mc ctx) s = .next (s.busWrite who (mcorePage pd mc) 0x12C (ctx.setWidth 32)) := rfl
  rw [busWrite_mcore hc hacc (.inr (.inr rfl)), toNat_half, regWrite_mcoreCtxid_locked hshut ctx (hfld ▸ hne)] at hexec
  obtain ⟨r, c, q, herr⟩ := headerError_frame (s := s.arrived (mcorePage pd mc) who) (mcorePage pd mc) 2 0x12C who
    (BitVec.ofNat 32 ctx.toNat)
  have hwErr : ((s.arrived (mcorePage pd mc) who).headerError (mcorePage pd mc) 2 0x12C who (BitVec.ofNat 32 ctx.toNat)).regsWf :=
    (capture_writes (s.arrived (mcorePage pd mc) who) (mcorePage pd mc) _ _ _ _ _ _).wf hw
  have hkept (o : Nat) := reg_restored hwErr (mcorePage pd mc) (mcorePage pd mc) 0x12C o
  refine ⟨_, hexec, ?_, ?_, ?_⟩
  · exact (fld_congr ((hkept 0x12C).trans (reg_headerError_of_notMem hw _ _ _ _ _ (mcoreCmd_notMem_errIrq (.inr (.inr rfl)))))).trans hfld
  · have htcs : (s.arrived (mcorePage pd mc) who).tcs = s.tcs := by rw [arrived_eq]
    exact (congrArg State.tcs herr).trans htcs
  · exact (flag_congr (hkept 0x00C)).trans (flag_headerError hw _ _ _ _ _)

end

end Sys2Proof.Machine

open Sys2Proof Sys2Proof.Machine

/-- Settles O30, register by register and command by command. -/
theorem coreRegistersCommandTheirCore : Obligations.CoreRegistersCommandTheirCore := by
  refine ⟨fun s hc who pd mc hacc => ⟨haltReqWrite_completes hc hacc, trapNanWrite_completes hc hacc, fun ctx hopen => ?_,
      fun ctx => mcoreCtxidWrite_locked hc hacc ctx, mcoreCmdNone_ends hc hacc⟩,
    coreCommandRuns (by decide) fun _ _ _ _ => rfl, coreCommandRuns (by decide) fun _ _ _ _ => rfl,
    coreCommandRuns (by decide) fun _ _ _ _ => rfl, coreCommandRuns (by decide) fun _ _ _ _ => rfl,
    coreCommandRuns (by decide) fun _ _ _ _ => rfl⟩
  exact ⟨mcoreCtxidWrite_now hc ctx hopen.2 hacc, mcoreCtxidWrite_waits hc ctx hopen.2 hacc⟩

end

section
/-!
SUPPORT. The vector queue's head: what its issue changes of its core, and the rows that VLD and VST move (R158, R160, R165).
-/
open Sys2Proof.Claims

namespace Sys2Proof.Machine

section
variable {pd : PD} {mc : MC} {s t : State} {c : CoreSt}

@[simp] theorem work_actAdd (s : State) (pd : PD) (ctx : Option Nat) (cls n : Nat) : (s.actAdd pd ctx cls n).work = s.work := by
  unfold State.actAdd
  split <;> rfl

@[simp] theorem tierS_actAdd (s : State) (pd : PD) (ctx : Option Nat) (cls n : Nat) : (s.actAdd pd ctx cls n).tierS = s.tierS := by
  unfold State.actAdd
  split <;> rfl

/-- The activity that a vector instruction counts (R579). -/
def State.vCounted (s : State) (pd : PD) (mc : MC) (op : QOp) : State :=
  match op with
  | .vmv _ _ ntok _ _ _ _ => s.actAdd pd (some (s.fld (mcorePage pd mc) Reg.MCORE_CTXID_CTXID)) 2 ((ntok + 1) * 65536)
  | .vop func _ _ _ _ _ _ =>
    s.actAdd pd (some (s.fld (mcorePage pd mc) Reg.MCORE_CTXID_CTXID)) 3 (if func = 9 ∨ func = 10 then 1 else 256)
  | _ => s

theorem work_vCounted (s : State) (pd : PD) (mc : MC) (op : QOp) : (s.vCounted pd mc op).work = s.work := by
  cases op with
  | vmv | vop => exact work_actAdd _ _ _ _ _
  | _ => rfl

theorem tierS_vCounted (s : State) (pd : PD) (mc : MC) (op : QOp) : (s.vCounted pd mc op).tierS = s.tierS := by
  cases op with
  | vmv | vop => exact tierS_actAdd _ _ _ _ _
  | _ => rfl

/-- A core whose vector queue has given up its head, with the beats i noted. -/
def CoreSt.vTaken (c : CoreSt) (now : Nat) (i : IssueHist) : CoreSt := { c.popQueue .vq now with hist := i }

/-- A vector issue counts its activity, takes the queue's head and notes its beats (R158, R159). -/
theorem vIssued_eq (s : State) (pd : PD) (mc : MC) (ent : QEnt) (e : Nat) : ∃ h, s.vIssued pd mc ent e =
    (s.vCounted pd mc ent.op).setCore pd mc (((s.vCounted pd mc ent.op).core pd mc).vTaken e h) :=
  ⟨_, rfl⟩

theorem OnlyCore.vIssued (h : OnlyCore pd mc s t c) (ent : QEnt) (e : Nat) :
    ∃ i, OnlyCore pd mc s (t.vIssued pd mc ent e) (c.vTaken e i) := by
  obtain ⟨i, hi⟩ := vIssued_eq t pd mc ent e
  have hcounted := h.of_work (work_vCounted t pd mc ent.op)
  rw [hi, hcounted.core]
  exact ⟨i, hcounted.setCore _⟩

theorem tierS_vIssued (s : State) (pd : PD) (mc : MC) (ent : QEnt) (e : Nat) : (s.vIssued pd mc ent e).tierS = s.tierS := by
  obtain ⟨i, hi⟩ := vIssued_eq s pd mc ent e
  rw [hi]
  exact tierS_vCounted s pd mc ent.op

/-- Nothing that a row of a store is written by is changed by the issue before it. -/
theorem vIssued_keepsDrain (hs : rising s.cores = true) (ent : QEnt) (e : Nat) : KeepsDrain pd mc s (s.vIssued pd mc ent e) := by
  obtain ⟨i, hi⟩ := (OnlyCore.refl (pd := pd) (mc := mc) hs).vIssued ent e
  exact ⟨fun _ => hi.rising, (congrArg CoreSt.x hi.core).trans rfl, (congrArg CoreSt.dq hi.core).trans rfl,
    (congrArg CoreSt.nf hi.core).trans rfl, congrArg TierS.slabs (tierS_vIssued s pd mc ent e), hi.mem⟩

/-! Rows of Tier S. -/

theorem rowBytes_congr (hmem : t.tierS.mem = s.tierS.mem) (td : BitVec 128) (r n : Nat) : t.rowBytes td r n = s.rowBytes td r n := by
  simp only [State.rowBytes, State.sRead, hmem]

theorem cores_sWrite (s : State) (a : Nat) (bs : List Byte) : (s.sWrite a bs).2.cores = s.cores := by
  unfold State.sWrite
  split
  · exact congrArg Prod.fst ((work_setInt _ _ _).trans (work_bump _ _ _ _ _))
  · rfl

theorem cores_drainRow (s : State) (td : BitVec 128) (i : Nat) (bs : List Byte) : (s.drainRow td i bs).2.cores = s.cores :=
  List.foldlRecOn _ _ (motive := fun p : Bool × State => p.2.cores = s.cores) rfl fun _ hp _ _ => (cores_sWrite _ _ _).trans hp

/-- A VLD's row in its register, poison met by its read told apart (R165, R282). -/
def State.loadRow (s : State) (pd : PD) (mc : MC) (e : QEnt) (v : Nat) (td : BitVec 128) (fmt now : Nat) : State :=
  (s.modCore pd mc fun c => { c with x := c.x.wrV v (widenRow fmt (s.rowBytes td 0 (tdWidth td))) }).poisonFault pd mc e
    (s.rowPoison td 1 (tdWidth td / 128)) fun _ => now + 24

/-- A VST's row in Tier S; a line that is not written stops the core when its beat comes (R165, R280). -/
def State.storeRow (s : State) (pd : PD) (mc : MC) (e : QEnt) (v : Nat) (td : BitVec 128) (fmt : Nat) (sat : Bool) (now : Nat) : State :=
  let r := s.drainRow td 0 (narrowRow fmt sat ((s.core pd mc).x.rdV v))
  if r.1 then r.2 else r.2.modCore pd mc fun c => { c with stopPend := some (c.stopPend.getD ⟨now + 24, e.pc, 0x0E⟩) }

theorem OnlyCore.loadRow (h : OnlyCore pd mc s t c) (e : QEnt) (v : Nat) (td : BitVec 128) (fmt now : Nat) :
    ∃ f, OnlyCore pd mc s (t.loadRow pd mc e v td fmt now)
      { c with x := c.x.wrV v (widenRow fmt (s.rowBytes td 0 (tdWidth td))), faultPend := f } := by
  unfold State.loadRow
  rw [rowBytes_congr h.mem]
  exact (h.modCore fun c => { c with x := c.x.wrV v (widenRow fmt (s.rowBytes td 0 (tdWidth td))) }).poisonFault e _ _

/-- t has s's cores but this one, which is c. -/
structure CoreIs (pd : PD) (mc : MC) (s t : State) (c : CoreSt) : Prop where
  rising : rising t.cores = true
  core : t.core pd mc = c
  others : ∀ pd' mc', pd' ≠ pd ∨ mc' ≠ mc → t.core pd' mc' = s.core pd' mc'

theorem OnlyCore.coreIs (h : OnlyCore pd mc s t c) : CoreIs pd mc s t c := ⟨h.rising, h.core, h.others⟩

theorem CoreIs.of_cores {u : State} (h : CoreIs pd mc s t c) (hu : u.cores = t.cores) : CoreIs pd mc s u c :=
  ⟨hu ▸ h.rising, (core_congr hu).trans h.core, fun pd' mc' hne => (core_congr hu).trans (h.others pd' mc' hne)⟩

theorem CoreIs.modCore (h : CoreIs pd mc s t c) (f : CoreSt → CoreSt) : CoreIs pd mc s (t.modCore pd mc f) (f c) where
  rising := rising_setCore h.rising pd mc _
  core := (core_setCore_same h.rising pd mc _).trans (congrArg f h.core)
  others pd' mc' hne := (core_setCore_of_ne h.rising hne _).trans (h.others pd' mc' hne)

theorem CoreIs.ctxIs (h : CoreIs pd mc s t c) : CtxIs s t pd mc c.x := ⟨congrArg CoreSt.x h.core, h.others⟩

theorem CoreIs.storeRow (h : CoreIs pd mc s t c) (e : QEnt) (v : Nat) (td : BitVec 128) (fmt : Nat) (sat : Bool) (now : Nat) :
    ∃ p, CoreIs pd mc s (t.storeRow pd mc e v td fmt sat now) { c with stopPend := p } := by
  have hrow := h.of_cores (cores_drainRow t td 0 (narrowRow fmt sat ((t.core pd mc).x.rdV v)))
  unfold State.storeRow
  dsimp only
  split
  · exact ⟨c.stopPend, hrow⟩
  · exact ⟨_, hrow.modCore _⟩

theorem storeRow_mem {m : List (Nat × Byte)} (h : DrainFrame pd mc s t m) (e : QEnt) (v : Nat) (td : BitVec 128) (fmt : Nat)
    (sat : Bool) (now : Nat) : (t.storeRow pd mc e v td fmt sat now).tierS.mem =
      storedRows s td [narrowRow fmt sat ((s.core pd mc).x.rdV v)] m := by
  have hrow := (drainRow_drainFrame h td 0 (narrowRow fmt sat ((t.core pd mc).x.rdV v))).mem
  rw [h.x] at hrow
  unfold State.storeRow
  dsimp only
  rw [h.x]
  split
  · exact hrow
  · exact hrow

/-! The vector queue's head (R158, R160, R165). -/

section
variable {e : QEnt} {op : QOp} {ld : Nat} (err : IssueErr)

/-- Vector work that is ready and keeps its rules issues on its die unless it uses the operand cache. -/
theorem vqIssue_local (hd : Heads s pd mc .vq e op ld) (hready : s.vqReady pd mc e s.sched.beat = true) (hgood : vqBad ld op = none)
    (hlocal : op.cached = false) : exec (.vqIssue pd mc err) s = .next (s.vqLocal pd mc ld e err) := by
  obtain ⟨hhead, rfl, hld⟩ := hd
  have hexec : exec (.vqIssue pd mc err) s = execVqIssue pd mc err s := rfl
  rw [hexec, execVqIssue, hhead, hld]
  simp only [hready, hgood, hlocal, Bool.not_true, Bool.false_eq_true, if_false]

theorem calendar_eq_free {runs : List CalRun} (hfree : s.calHolder runs = none) (go : State → State) :
    s.calendar pd mc runs go = go (s.calendar pd mc runs id) := by
  unfold State.calendar
  rw [hfree]
  rfl

variable (hs : rising s.cores = true)
include hs

/-- VOP (R160): its lanes. -/
theorem vqLocal_vop {fn vd va vb vc : Nat} {bf16 bcast : Bool} (hop : e.op = .vop fn vd va vb vc bf16 bcast) :
    (s.vqLocal pd mc ld e err).tierS = s.tierS ∧ ∃ i, OnlyCore pd mc s (s.vqLocal pd mc ld e err)
      { (s.core pd mc).vTaken s.sched.beat i with
        x := (s.core pd mc).x.wrV vd
          (vopLanes fn bf16 bcast ((s.core pd mc).x.rdV va) ((s.core pd mc).x.rdV vb) ((s.core pd mc).x.rdV vc)) } := by
  have hlocal : s.vqLocal pd mc ld e err = (s.vIssued pd mc e s.sched.beat).modCore pd mc fun c =>
      { c with x := c.x.wrV vd (vopLanes fn bf16 bcast (c.x.rdV va) (c.x.rdV vb) (c.x.rdV vc)) } := by
    unfold State.vqLocal
    rw [hop]
  obtain ⟨i, hi⟩ := (OnlyCore.refl hs).vIssued e s.sched.beat
  rw [hlocal]
  exact ⟨tierS_vIssued s pd mc e s.sched.beat, i, hi.modCore _⟩

/-- VLD from Tier S (R165): its row, widened. -/
theorem vqLocal_vld {v : Nat} {td : BitVec 128} {a : DWord} {fmt : Nat} (hop : e.op = .vld v false td a fmt)
    (hfree : s.calHolder [tdRun ld td 1 (tdWidth td / 128) (s.absB (s.sched.beat + 14)) 1 false (s.lcNo pd mc)] = none) :
    ∃ i n b f, OnlyCore pd mc s (s.vqLocal pd mc ld e err) { (s.core pd mc).vTaken s.sched.beat i with
      x := (s.core pd mc).x.wrV v (widenRow fmt (s.rowBytes td 0 (tdWidth td))), heldRun := n, heldBy := b, faultPend := f } := by
  have hlocal : s.vqLocal pd mc ld e err = s.calendar pd mc
      [tdRun ld td 1 (tdWidth td / 128) (s.absB (s.sched.beat + 14)) 1 false (s.lcNo pd mc)]
      fun u => ((u.issueErr pd mc err).vIssued pd mc e s.sched.beat).loadRow pd mc e v td fmt s.sched.beat := by
    unfold State.vqLocal
    rw [hop]
    rfl
  obtain ⟨u, n, b, hgo, hu⟩ := calendar_free_onlyCore (pd := pd) (mc := mc) hs hfree
    fun u => ((u.issueErr pd mc err).vIssued pd mc e s.sched.beat).loadRow pd mc e v td fmt s.sched.beat
  obtain ⟨i, hi⟩ := (hu.of_work (work_issueErr u pd mc err)).vIssued e s.sched.beat
  obtain ⟨f, hf⟩ := hi.loadRow e v td fmt s.sched.beat
  rw [hlocal, hgo]
  exact ⟨i, n, b, f, hf⟩

/-- VST to Tier S (R165): its register's row, narrowed. -/
theorem vqLocal_vst {v : Nat} {td : BitVec 128} {a : DWord} {fmt : Nat} {sat : Bool} (hop : e.op = .vst v false td a fmt sat)
    (hfree : s.calHolder [tdRun ld td 1 (tdWidth td / 128) (s.absB (s.sched.beat + 24)) 1 true (s.lcNo pd mc)] = none) :
    ∃ i n b p, CoreIs pd mc s (s.vqLocal pd mc ld e err)
        { (s.core pd mc).vTaken s.sched.beat i with heldRun := n, heldBy := b, stopPend := p } ∧
      (s.vqLocal pd mc ld e err).tierS.mem = storedRows s td [narrowRow fmt sat ((s.core pd mc).x.rdV v)] s.tierS.mem := by
  have hlocal : s.vqLocal pd mc ld e err = s.calendar pd mc
      [tdRun ld td 1 (tdWidth td / 128) (s.absB (s.sched.beat + 24)) 1 true (s.lcNo pd mc)]
      fun u => ((u.issueErr pd mc err).vIssued pd mc e s.sched.beat).storeRow pd mc e v td fmt sat s.sched.beat := by
    unfold State.vqLocal
    rw [hop]
    rfl
  obtain ⟨u, n, b, hgo, hu⟩ := calendar_free_onlyCore (pd := pd) (mc := mc) hs hfree id
  obtain ⟨w, hkeep, hw⟩ := calendar_free (pd := pd) (mc := mc) hs hfree id
  obtain rfl : w = u := hw.symm.trans hgo
  obtain ⟨i, hi⟩ := (hu.of_work (work_issueErr w pd mc err)).vIssued e s.sched.beat
  have hkeeps := (hkeep.trans (issueErr_keepsDrain w err)).trans
    (vIssued_keepsDrain (hu.of_work (work_issueErr w pd mc err)).rising e s.sched.beat)
  obtain ⟨p, hp⟩ := hi.coreIs.storeRow e v td fmt sat s.sched.beat
  rw [hlocal, calendar_eq_free hfree, hgo]
  exact ⟨i, n, b, p, hp, storeRow_mem hkeeps e v td fmt sat s.sched.beat⟩

end

/-! The mover queue's head (R330). -/

/-- The MVR that the mover queue's head e becomes when it issues. -/
def State.mvrOf (s : State) (pd : PD) (mc : MC) (e : QEnt) (addr : DWord) (cpl : Bool) (cts : Nat) : Mvr :=
  { pd := pd, mc := mc, pc := e.pc, e := s.clock.beats.toNat, sbeat := s.sched.beat - (s.core pd mc).stall
    room := s.sched.len + (s.core pd mc).stall - s.sched.beat, addr := addr.toNat, cpl := cpl, cts := cts
    ctx := s.fld (mcorePage pd mc) Reg.MCORE_CTXID_CTXID }

/-- A core whose mover queue has given up its head. -/
def CoreSt.mTaken (c : CoreSt) (now : Nat) : CoreSt :=
  { c.popQueue .mq now with mqWait := none, hist := { (c.popQueue .mq now).hist with mqNext := now + 1 } }

/-- A core whose mover queue's head waits for a slot. -/
def CoreSt.mWaits (c : CoreSt) (now : Nat) : CoreSt :=
  { c with stall := c.stall + 1, mqWait := some (c.mqWait.getD 0 + 1), hist := { c.hist with holdBeat := some now } }

theorem slot_setMvr {s : State} (h : rising s.mv.movers = true) (pd : PD) (i k : Nat) (v : Mvr) :
    ((s.setMvr pd i k (some v)).mover pd i).slot k = some v := by
  have hmover : (s.setMvr pd i k (some v)).mover pd i =
      { s.mover pd i with mvr := mput (fun _ => none) (s.mover pd i).mvr k (some v) } :=
    (mget_mput_rising h _ _ _).trans (if_pos rfl)
  rw [hmover, MoverSt.slot, mput, if_neg (Option.some_ne_none v), mget_minsert, if_pos rfl]

section
variable {e : QEnt} {i : Nat} {addr : DWord} {cpl : Bool} {cts : Nat} (hhead : s.headAt pd mc .mq = some e)
  (hop : e.op = .mvr i addr cpl cts) (hnext : (s.core pd mc).hist.mqNext ≤ s.sched.beat)
include hhead hop hnext

theorem mqIssue_takes {k : Nat} (hwait : (s.core pd mc).mqWait = none) (hwork : s.takesWork (mvPage pd i) = true)
    (hslot : (s.mover pd i).freeMvr = some k) : exec (.mqIssue pd mc) s = .next ((s.setCore pd mc
      ((s.core pd mc).mTaken s.sched.beat)).setMvr pd i k (some (s.mvrOf pd mc e addr cpl cts))) := by
  have hexec : exec (.mqIssue pd mc) s = execMqIssue pd mc s := rfl
  rw [hexec, execMqIssue, hhead]
  simp only [hop, if_neg (not_lt.mpr hnext), hwork, hslot, hwait, if_true]
  rfl

theorem mqIssue_stalls (hslot : (s.mover pd i).freeMvr = none) (hbeat : (s.core pd mc).hist.holdBeat ≠ some s.sched.beat) :
    exec (.mqIssue pd mc) s = .next (s.setCore pd mc ((s.core pd mc).mWaits s.sched.beat)) := by
  have hexec : exec (.mqIssue pd mc) s = execMqIssue pd mc s := rfl
  rw [hexec, execMqIssue, hhead]
  simp only [hop, if_neg (not_lt.mpr hnext), hslot, ite_self, if_neg hbeat]
  rfl

end

end

end Sys2Proof.Machine

open Sys2Proof Sys2Proof.Machine

/-- Settles O27, by the work at the head of the queue. -/
theorem vectorAndMoverWorkIssues : Obligations.VectorAndMoverWorkIssues := by
  intro s hc pd mc
  refine ⟨fun e ld fn vd va vb vc bf16 bcast err hd hready => ?_, fun e ld v t a fmt err hd hready hgood hfree => ?_,
    fun e ld v t a fmt sat err hd hready hgood hfree => ?_,
    fun e i addr cpl cts k hhead hop hnext hwait hwork hslot => ?_, fun e i addr cpl cts hhead hop hnext hslot hbeat => ?_⟩
  · have ⟨_, hop, _⟩ := hd
    obtain ⟨htier, i, hi⟩ := vqLocal_vop (ld := ld) (e := e) err hc.cores hop
    exact ⟨_, vqIssue_local err hd hready rfl rfl, congrArg CoreSt.vq hi.core, htier, hi.ctxIs⟩
  · have ⟨_, hop, _⟩ := hd
    obtain ⟨i, n, b, f, hi⟩ := vqLocal_vld (ld := ld) (e := e) err hc.cores hop hfree
    exact ⟨_, vqIssue_local err hd hready hgood rfl, congrArg CoreSt.vq hi.core, hi.mem, hi.ctxIs⟩
  · have ⟨_, hop, _⟩ := hd
    obtain ⟨i, n, b, p, hi, hmem⟩ := vqLocal_vst (ld := ld) (e := e) err hc.cores hop hfree
    exact ⟨_, vqIssue_local err hd hready hgood rfl, congrArg CoreSt.vq hi.core, hi.ctxIs, hmem⟩
  · have hset := (OnlyCore.refl (pd := pd) (mc := mc) hc.cores).setCore ((s.core pd mc).mTaken s.sched.beat)
    exact ⟨_, mqIssue_takes hhead hop hnext hwait hwork hslot, congrArg CoreSt.mq hset.core, hset.ctxIs, _,
      slot_setMvr hc.movers pd i k _, rfl, rfl, rfl, rfl, rfl, rfl, rfl⟩
  · have hset := (OnlyCore.refl (pd := pd) (mc := mc) hc.cores).setCore ((s.core pd mc).mWaits s.sched.beat)
    exact ⟨_, mqIssue_stalls hhead hop hnext hslot hbeat, congrArg CoreSt.stall hset.core, (congrArg CoreSt.mq hset.core).trans rfl, rfl⟩

end

section
/-!
SUPPORT. The operand caches through the work of others: what leaves them alone, and what a snoop takes from them (R177, R179,
R474 to R482).
-/
namespace Sys2Proof.Machine

/-! What leaves every operand cache as it is. -/

theorem LogWrites.tcs {K : Set Nat} {s t : State} (h : LogWrites K s t) : t.tcs = s.tcs := by
  obtain ⟨q, r, c, f, rfl⟩ := h.frame
  rfl

section
variable (s : State)

@[simp] theorem tcs_setFld (p : Page) (f : RegField) (v i : Nat) : (s.setFld p f v i).tcs = s.tcs := rfl

@[simp] theorem tcs_report (p : Page) (num data : Nat) (dev : Bool) (beat : Option Nat) :
    (s.report p num data dev beat).tcs = s.tcs := rfl

@[simp] theorem tcs_reportOpen (p : Page) (num : Nat) : (s.reportOpen p num).tcs = s.tcs := rfl

@[simp] theorem tcs_bump (p : Page) (f : RegField) (n i : Nat) : (s.bump p f n i).tcs = s.tcs :=
  (bump_writes s p f n i).logWrites.tcs

@[simp] theorem tcs_setInt (p : Page) (i : Nat) : (s.setInt p i).tcs = s.tcs := (setInt_writes s p i).logWrites.tcs

@[simp] theorem tcs_blockErr (p : Page) (num data info2 info3 : Nat) : (s.blockErr p num data info2 info3).tcs = s.tcs :=
  (capture_writes s p _ _ _ _ _ _).logWrites.tcs

@[simp] theorem tcs_setDram (d : Dram) : (s.setDram d).tcs = s.tcs := rfl

@[simp] theorem tcs_setPlace (p : PlaceSt) : (s.setPlace p).tcs = s.tcs := rfl

@[simp] theorem tcs_setHome (h : HomeSt) : (s.setHome h).tcs = s.tcs := rfl

@[simp] theorem tcs_setEntry (f : Nat) (e : PEntry) : (s.setEntry f e).tcs = s.tcs := rfl

@[simp] theorem tcs_setEngine (k : Nat) (g : Option Engine) : (s.setEngine k g).tcs = s.tcs := rfl

@[simp] theorem tcs_setDirSet (line : Nat) (d : DirSet) : (s.setDirSet line d).tcs = s.tcs := rfl

@[simp] theorem tcs_dirCount (line : Nat) (up : Bool) : (s.dirCount line up).tcs = s.tcs := rfl

@[simp] theorem tcs_setL2 (h line : Nat) (c : Option CLine) : (s.setL2 h line c).tcs = s.tcs := rfl

@[simp] theorem tcs_setRp (p line : Nat) (c : Option CLine) : (s.setRp p line c).tcs = s.tcs := rfl

@[simp] theorem tcs_setL3 (line : Nat) (c : Option L3Line) : (s.setL3 line c).tcs = s.tcs := rfl

@[simp] theorem tcs_setHart (h : Nat) (v : HartSt) : (s.setHart h v).tcs = s.tcs := rfl

@[simp] theorem tcs_arrayWrite (line : Nat) (bs : List Byte) (poison : Bool) : (s.arrayWrite line bs poison).tcs = s.tcs := rfl

@[simp] theorem tcs_zeroLines (line n : Nat) : (s.zeroLines line n).tcs = s.tcs := rfl

/-! DRAM lines and the agents (R293 to R302, R343, R346 to R349). -/

@[simp] theorem tcs_setWcb (loc : Nat) (l : List WcbEnt) : (s.setWcb loc l).tcs = s.tcs := by
  simp [State.setWcb, State.occView, apply_ite State.tcs]

@[simp] theorem tcs_rmwLine (line mask : Nat) (bs : List Byte) : (s.rmwLine line mask bs .none).tcs = s.tcs := by
  simp [State.rmwLine, decodeLine_none, apply_ite State.tcs]

@[simp] theorem tcs_retireLine (line : Nat) : (s.retireLine line .none).tcs = s.tcs := by
  unfold State.retireLine
  split <;> simp

@[simp] theorem tcs_writeLine (line mask : Nat) (bs : List Byte) : (s.writeLine line mask bs .none).tcs = s.tcs := by
  unfold State.writeLine
  dsimp only
  split
  · rfl
  split
  · simp
  split
  · simp
  split
  · simp [apply_ite State.tcs]
  · split <;> simp
    split <;> simp

@[simp] theorem tcs_countRefusal (f code : Nat) : (s.countRefusal f code).tcs = s.tcs := by
  simp [State.countRefusal, apply_ite State.tcs]

@[simp] theorem tcs_countAccess (f : Nat) : (s.countAccess f).tcs = s.tcs := by
  simp [State.countAccess, State.promote, apply_ite State.tcs]

@[simp] theorem tcs_tierErr (f line : Nat) (timeout : Bool) : (s.tierErr f line timeout).tcs = s.tcs := by
  simp [State.tierErr, apply_ite State.tcs]

@[simp] theorem tcs_bufWrite (f line mask : Nat) (bs : List Byte) : (s.bufWrite f line mask bs).tcs = s.tcs := by
  unfold State.bufWrite
  split <;> simp

@[simp] theorem tcs_agentRead (ctx line : Nat) : (s.agentRead ctx line).2.2.tcs = s.tcs := by
  unfold State.agentRead
  dsimp only
  split
  · simp
  split
  · simp
  split
  · split <;> simp
  · rw [readLine_none]
    split
    · simp
    split <;> simp

@[simp] theorem tcs_zeroFill (f k : Nat) : (s.zeroFill f k).tcs = s.tcs := by
  unfold State.zeroFill
  dsimp only
  split
  · simp [apply_ite State.tcs]
  · rfl

@[simp] theorem tcs_agentWrite (ctx line mask : Nat) (bs : List Byte) (back : Bool) :
    (s.agentWrite ctx line mask bs back).2.tcs = s.tcs := by
  unfold State.agentWrite
  dsimp only
  split
  · simp
  · split <;> simp [apply_ite State.tcs]

@[simp] theorem tcs_lineToAgent (ctx line mask : Nat) (bs : List Byte) (back : Bool) :
    (s.lineToAgent ctx line mask bs back).2.tcs = s.tcs := tcs_agentWrite s _ _ _ _ _

/-! Homes (R472, R473, R481). -/

@[simp] theorem tcs_dirErase (line : Nat) : (s.dirErase line).tcs = s.tcs := by
  unfold State.dirErase
  dsimp only
  split <;> simp

@[simp] theorem tcs_resvLost (h line : Nat) : (s.resvLost h line).tcs = s.tcs := by
  simp [State.resvLost, apply_ite State.tcs]

@[simp] theorem tcs_asyncFail (h addr code kind : Nat) : (s.asyncFail h addr code kind).tcs = s.tcs := by
  simp [State.asyncFail, State.hartCapture]

@[simp] theorem tcs_cbDrain (p : CbEnt → Bool) : (s.cbDrain p).tcs = s.tcs := by
  refine List.foldlRecOn _ _ (motive := fun t : State => t.tcs = s.tcs) rfl fun t ht e _ => ?_
  dsimp only
  split <;> split <;> simp [ht, apply_ite State.tcs]

@[simp] theorem tcs_acceptWb (w : WbEnt) : (s.acceptWb w).tcs = s.tcs := by
  unfold State.acceptWb
  dsimp only
  split <;> simp [apply_ite State.tcs]

@[simp] theorem tcs_grantCheck (t : Txn) : (s.grantCheck t).2.tcs = s.tcs := by
  unfold State.grantCheck
  dsimp only
  split
  · split <;> simp
  · rfl

@[simp] theorem tcs_takeAnswer (t : Txn) (p : Part) (a : SnpAns) : (s.takeAnswer t p a).2.tcs = s.tcs := by
  cases a with
  | data | clean | notPresent => simp [State.takeAnswer, apply_ite State.tcs]
  | wbInFlight | evictingClean =>
    unfold State.takeAnswer
    dsimp only
    split <;> simp

@[simp] theorem tcs_txnData (t : Txn) : (s.txnData t).2.2.tcs = s.tcs := by
  unfold State.txnData State.homeData
  split
  · rfl
  split
  · simp [apply_ite Prod.snd]
  · simp

end

/-! What a snoop takes. -/

/-- A way of a line's set, given up where it holds the line. -/
def dropWay (line : Nat) (m : List (Nat × Option TcLine)) (w : Nat) : List (Nat × Option TcLine) :=
  if (mget (fun _ => none) m (line % 512 * 16 + w)).any (fun l => l.tag == line / 512) then
    mput (fun _ => none) m (line % 512 * 16 + w) none else m

/-- The ways of a cache with every copy of a line dropped (R179). -/
def waysWithout (m : List (Nat × Option TcLine)) (line : Nat) : List (Nat × Option TcLine) := (List.range 16).foldl (dropWay line) m

/-- A cache that loses a line: out of its ways and its side buffer; a fill on its way is not installed (R179). -/
def TCache.without (t : TCache) (line : Nat) : TCache :=
  { t with
    lines := waysWithout t.lines line
    side := t.side.filter fun l => l.tag != line
    fills := t.fills.map fun f => if f.line == line then { f with dropInst := true } else f }

theorem tcInval_eq (s : State) (key line : Nat) : s.tcInval key line =
    { s with tcs := mput (fun _ => {}) s.tcs key ((mget (fun _ => {}) s.tcs key).without line) } := by
  unfold State.tcInval TCache.without waysWithout dropWay
  rfl

/-- Operand caches that others' work may have taken lines from, and no merging buffer's entry. -/
structure TcRun (s t : State) : Prop where
  rising : rising s.tcs = true → rising t.tcs = true
  mb : Machine.rising s.tcs = true → ∀ pd mc, (t.tc pd mc).mb = (s.tc pd mc).mb

section
variable {s t u : State}

theorem tc_congr (h : t.tcs = s.tcs) (pd : PD) (mc : MC) : t.tc pd mc = s.tc pd mc :=
  congrArg (fun l => mget (fun _ => ({} : TCache)) l (coreKey pd mc)) h

theorem TcRun.of_tcs (h : t.tcs = s.tcs) : TcRun s t := ⟨fun hs => h ▸ hs, fun _ pd mc => congrArg TCache.mb (tc_congr h pd mc)⟩

theorem TcRun.refl (s : State) : TcRun s s := .of_tcs rfl

theorem TcRun.trans (h : TcRun s t) (h' : TcRun t u) : TcRun s u :=
  ⟨fun hs => h'.rising (h.rising hs), fun hs pd mc => (h'.mb (h.rising hs) pd mc).trans (h.mb hs pd mc)⟩

/-- Work behind others' work that leaves the caches alone. -/
theorem TcRun.then_tcs (h : TcRun s t) (hu : u.tcs = t.tcs) : TcRun s u := h.trans (.of_tcs hu)

theorem TcRun.ite_read {c : Prop} [Decidable c] {x y : Nat × List Byte × State} (h : TcRun s x.2.2) (h' : TcRun s y.2.2) :
    TcRun s (if c then x else y).2.2 := by
  split
  · exact h
  · exact h'

theorem TcRun.foldl_snd {α β : Type} {f : β × State → α → β × State} (h : ∀ x a, TcRun x.2 (f x a).2) (l : List α)
    (x : β × State) : TcRun x.2 (l.foldl f x).2 :=
  List.foldlRecOn l f (motive := fun y => TcRun x.2 y.2) (.refl x.2) fun y hy a _ => hy.trans (h y a)

variable (s)

theorem tcInval_tcRun (key line : Nat) : TcRun s (s.tcInval key line) where
  rising hs := by
    rw [tcInval_eq]
    dsimp only
    exact rising_mput (d := fun _ => ({} : TCache)) hs key _
  mb hs pd mc := by
    rw [tcInval_eq, State.tc]
    dsimp only
    rw [mget_mput_rising hs]
    split
    · rename_i hkey
      rw [State.tc, hkey, TCache.without]
    · rfl

theorem snoopHolder_tcRun (p : Part) (line : Nat) (k : Snoop) : TcRun s (s.snoopHolder p line k).2 := by
  unfold State.snoopHolder
  split
  · exact .refl s
  cases p with
  | l2 h =>
    dsimp only
    split
    · exact .of_tcs (tcs_cbDrain s _)
    split
    · exact .refl s
    cases k with
    | share => exact .of_tcs rfl
    | inval => exact .of_tcs (tcs_resvLost _ _ _)
    | cur => exact .refl s
  | rport n =>
    dsimp only
    split
    · exact .refl s
    · exact .of_tcs (by simp [apply_ite State.tcs])
  | tc key =>
    dsimp only
    split
    · exact tcInval_tcRun s _ _
    · exact .refl s

theorem invalAll_tcRun (e : DirEnt) : TcRun s (s.invalAll e) := by
  refine List.foldlRecOn _ _ (motive := TcRun s) (.refl s) fun t ht p _ => ?_
  refine (ht.trans (snoopHolder_tcRun t p e.line .inval)).then_tcs ?_
  dsimp only
  split
  · rfl
  · split <;> simp
  · split <;> simp
  · rfl

theorem dirPut_tcRun (e : DirEnt) : TcRun s (s.dirPut e) := by
  unfold State.dirPut
  dsimp only
  split
  · exact .of_tcs (tcs_dirErase s _)
  split
  · exact .of_tcs rfl
  split
  · rename_i v _
    exact (invalAll_tcRun s v).then_tcs (by simp)
  · exact .of_tcs (by simp)

theorem giveM_tcRun (t : Txn) (data : List Byte) : TcRun s (s.giveM t data) := by
  have hline : ((match t.who with
      | some (.l2 h) => s.setL2 h t.line (some { st := .m, data := data, ctx := t.ctx })
      | some (.rport n) => s.setRp n t.line (some { st := .m, data := data, ctx := t.ctx })
      | _ => s).setL3 t.line none).tcs = s.tcs := by
    rw [tcs_setL3]
    split <;> simp
  unfold State.giveM
  dsimp only
  split
  · exact (TcRun.of_tcs hline).trans (dirPut_tcRun _ _)
  · exact .of_tcs hline

theorem homeServe_tcRun (t : Txn) : TcRun s (s.homeServe t).2.2 := by
  have hput {u : State} (hu : u.tcs = s.tcs) (e : DirEnt) : TcRun s (u.dirPut e) := (TcRun.of_tcs hu).trans (dirPut_tcRun u e)
  have hdata := tcs_txnData s t
  unfold State.homeServe
  dsimp only
  split
  case h_1 =>
    have hline (h : Nat) (c : CLine) : (((if ((s.txnData t).2.2.l3Line t.line).isNone && t.got.isNone then
        (s.txnData t).2.2.setL3 t.line (some { data := (s.txnData t).2.1, dirty := false, ctx := t.ctx })
      else (s.txnData t).2.2)).setL2 h t.line (some c)).tcs = s.tcs := by simp [apply_ite State.tcs]
    refine (hput hdata _).ite_read (.ite_read ?_ ?_) <;> dsimp only <;> exact hput (hline _ _) _
  case h_2 =>
    split
    · exact .of_tcs (by simp)
    · exact (TcRun.of_tcs hdata).trans (giveM_tcRun _ _ _)
  case h_3 =>
    split
    · split
      · exact giveM_tcRun s _ _
      · exact .refl s
    · exact .refl s
  case h_4 => exact giveM_tcRun s _ _
  case h_5 => exact (hput hdata _).ite_read (hput hdata _)
  case h_6 => exact hput hdata _
  case h_7 =>
    have hwrite (e : DirEnt) := (dirPut_tcRun s e).then_tcs (tcs_lineToAgent _ t.ctx t.line t.mask t.data false)
    refine (hwrite _).ite_read ?_
    cases State.l3Line (State.lineToAgent _ t.ctx t.line t.mask t.data false).2 t.line with
    | none => exact hwrite _
    | some l => exact ((hwrite _).then_tcs (tcs_setL3 _ _ _)).ite_read ((hwrite _).then_tcs (tcs_setL3 _ _ _))

theorem runTxn_tcRun (t : Txn) : TcRun s (s.runTxn t).2.2 := by
  have hgrant : TcRun s (s.grantCheck t).2 := .of_tcs (tcs_grantCheck s t)
  unfold State.runTxn
  dsimp only
  split
  · exact hgrant
  · refine (hgrant.trans ?_).trans (homeServe_tcRun _ _)
    exact TcRun.foldl_snd (fun x p => (snoopHolder_tcRun x.2 p _ _).then_tcs (tcs_takeAnswer _ _ _ _)) _ (_, _)

theorem cohWrite_tcRun (ctx line mask : Nat) (bs : List Byte) (origin : Option Nat) :
    TcRun s (s.cohWrite ctx line mask bs origin).2 := by
  unfold State.cohWrite
  exact runTxn_tcRun s _

theorem tcFill_tcRun (pd : PD) (mc : MC) (line : Nat) : TcRun s (s.tcFill pd mc line).2.2 := by
  unfold State.tcFill
  dsimp only
  split
  · exact runTxn_tcRun s _
  · exact (runTxn_tcRun s _).trans (runTxn_tcRun _ _)

end
end Sys2Proof.Machine
end

section
/-!
SUPPORT. The events of an operand cache: a fill arrives, a home invalidates, a merging-buffer entry is given up, error counts are
halved (R173, R175, R177, R179, R180).
-/
open Sys2Proof.Claims

namespace Sys2Proof.Machine

/-! What the core's side of an access leaves alone. -/

section
variable (s : State) (pd : PD) (mc : MC)

@[simp] theorem tcs_setCore (c : CoreSt) : (s.setCore pd mc c).tcs = s.tcs := rfl

@[simp] theorem tcs_modCore (f : CoreSt → CoreSt) : (s.modCore pd mc f).tcs = s.tcs := rfl

@[simp] theorem tcs_enterStopped (st : CoreStatus) : (s.enterStopped pd mc st).tcs = s.tcs := by
  rw [State.enterStopped, tcs_setInt]
  rfl

@[simp] theorem tcs_stepFail (lc pc code : Nat) : (s.stepFail lc pc code).tcs = s.tcs := by
  simp [State.stepFail, apply_ite State.tcs]

@[simp] theorem tcs_tcFail (pc a code : Nat) : (s.tcFail pd mc pc a code).tcs = s.tcs := by
  simp [State.tcFail, apply_ite State.tcs]

@[simp] theorem tcs_noteWrite (ctx a n : Nat) : (s.noteWrite ctx a n).tcs = s.tcs := by
  simp [State.noteWrite, apply_ite State.tcs]

@[simp] theorem tcs_tierFails (a : Nat) (err : TierFail) : (s.tierFails a err).2.tcs = s.tcs := by
  cases err <;> simp [State.tierFails]

@[simp] theorem tcs_deviate (p : Page) (num : Nat) (cat : DevCat) (kind beats pc lc aux : Nat) :
    (s.deviate p num cat kind beats pc lc aux).tcs = s.tcs := by
  simp [State.deviate, apply_ite State.tcs]

@[simp] theorem tcs_tcFinish : (s.tcFinish pd mc).tcs = s.tcs := by
  refine List.foldlRecOn _ _ (motive := fun t : State => t.tcs = s.tcs) rfl fun t ht a _ => ?_
  simp [ht, apply_ite State.tcs]

@[simp] theorem tcs_tcDeliver (line : Nat) (bs : List Byte) : (s.tcDeliver pd mc line bs).tcs = s.tcs := by
  rw [State.tcDeliver, tcs_tcFinish, tcs_setCore]

end

/-! A cache's lines. -/

theorem enabledFrom_lt {dis w : Nat} (hw : w < 16) : enabledFrom dis w < 16 := by
  unfold enabledFrom
  cases h : ((List.range 16).map fun i => (w + i) % 16).find? fun i => !bitOf dis i with
  | none => exact hw
  | some i =>
    obtain ⟨j, -, rfl⟩ := List.mem_map.mp (List.mem_of_find?_eq_some h)
    exact Nat.mod_lt _ (by decide)

/-- A line put into a way of its set is found. -/
theorem find_put (t : TCache) {w : Nat} (hw : w < 16) (line : Nat) (bs : List Byte) :
    ((t.put (line % 512 * 16 + w) (some { tag := line / 512, bytes := bs })).find line).isSome = true := by
  refine List.find?_isSome.mpr ⟨w, List.mem_range.mpr hw, ?_⟩
  rw [TCache.at, TCache.put, mput, if_neg (Option.some_ne_none _), mget_minsert, if_pos rfl]
  simp

section
variable {s : State} {pd : PD} {mc : MC}

theorem rising_setTc (h : rising s.tcs = true) (pd : PD) (mc : MC) (x : TCache) : rising (s.setTc pd mc x).tcs = true :=
  rising_mput (d := fun _ => ({} : TCache)) h _ x

/-- Out of BYPASS a line enters a way of its set (R175). -/
theorem tcInstall_puts (hb : s.tcBypass pd mc = false) (line : Nat) (bs : List Byte) : ∃ w, w < 16 ∧
    (s.tcInstall pd mc line bs).tcs =
      (s.setTc pd mc ((s.tc pd mc).put (line % 512 * 16 + w) (some { tag := line / 512, bytes := bs }))).tcs := by
  unfold State.tcInstall
  rw [hb, if_neg Bool.false_ne_true]
  dsimp only
  split
  · rename_i w hw
    exact ⟨w, List.mem_range.mp (List.mem_of_find?_eq_some hw), rfl⟩
  · exact ⟨_, enabledFrom_lt (Nat.mod_lt _ (by decide)), rfl⟩

theorem tcInstall_bypass (hb : s.tcBypass pd mc = true) (line : Nat) (bs : List Byte) : s.tcInstall pd mc line bs = s := by
  rw [State.tcInstall, hb, if_pos rfl]

/-- An installed line changes no fill. -/
theorem fills_tcInstall (hs : rising s.tcs = true) (line : Nat) (bs : List Byte) :
    ((s.tcInstall pd mc line bs).tc pd mc).fills = (s.tc pd mc).fills := by
  cases hb : s.tcBypass pd mc with
  | true => rw [tcInstall_bypass hb]
  | false =>
    obtain ⟨w, -, hw⟩ := tcInstall_puts hb line bs
    rw [tc_congr hw, tc_setTc hs]
    rfl

/-- A prefetched line changes no fill. -/
theorem fills_sidePut (hs : rising s.tcs = true) (line : Nat) (bs : List Byte) :
    ((s.sidePut pd mc line bs).tc pd mc).fills = (s.tc pd mc).fills := by
  unfold State.sidePut
  dsimp only
  split
  · rw [tc_setTc hs]
  · rw [tc_congr (tcs_bump _ _ _ _ _), tc_setTc hs]

end

/-! A trap's end (R192). -/

/-- The core that a trap stops. -/
def CoreSt.trapped (c : CoreSt) (r : NanRow) : CoreSt :=
  { c.discard with nanRows := [], stopPend := none, nf := { c.nf with trapRec := some r.rec_ } }

theorem trapStopDone_stops {s : State} {pd : PD} {mc : MC} (hs : rising s.cores = true) {r : NanRow}
    (hrow : (s.core pd mc).trapRow = some r) (hbeat : r.d + 6 < s.sched.beat) (hdone : (s.core pd mc).hist.allDone < s.sched.beat)
    (hacc : (s.core pd mc).tcAcc = []) (hgoes : (s.core pd mc).status.issues = true) :
    Completes (.trapStopDone pd mc) s fun u =>
      CoreBecomes pd mc s u { (s.core pd mc).trapped r with status := .stoppedTrap } := by
  have hexec : exec (.trapStopDone pd mc) s = execTrapStopDone pd mc s := rfl
  have hdue : r.d + 6 < s.sched.beat ∧ (s.core pd mc).hist.allDone < s.sched.beat ∧ (s.core pd mc).tcAcc.isEmpty = true ∧
      (s.core pd mc).status.issues = true := ⟨hbeat, hdone, by rw [hacc]; rfl, hgoes⟩
  simp only [execTrapStopDone, hrow, if_pos hdue] at hexec
  exact ⟨_, hexec, (((CoreBecomes.refl hs).setCore ((s.core pd mc).trapped r)).enterStopped .stoppedTrap).records
    (report_records _ _ _ _ _ _)⟩

/-! A fill arrives (R175, R176). -/

/-- No fill of the cache is for the line. -/
def TCache.asksNot (t : TCache) (line : Nat) : Prop := ∀ g, g ∈ t.fills → g.line ≠ line

/-- The fill of a line is taken off its cache's fills. -/
def State.fillTaken (s : State) (pd : PD) (mc : MC) (line : Nat) : State :=
  s.modTc pd mc fun t => { t with fills := t.fills.filter (·.line != line) }

section
variable {s t : State} {pd : PD} {mc : MC} {line : Nat}

theorem tc_fillTaken (hs : rising s.tcs = true) :
    (s.fillTaken pd mc line).tc pd mc = { s.tc pd mc with fills := (s.tc pd mc).fills.filter (·.line != line) } := tc_setTc hs pd mc _

theorem asksNot_fillTaken (hs : rising s.tcs = true) : ((s.fillTaken pd mc line).tc pd mc).asksNot line := by
  intro g hg
  rw [tc_fillTaken hs] at hg
  simpa using (List.mem_filter.mp hg).2

theorem asksNot_of_fills (h : ((s.tc pd mc)).asksNot line) (hf : (t.tc pd mc).fills = (s.tc pd mc).fills) :
    (t.tc pd mc).asksNot line := by
  intro g hg
  exact h g (hf ▸ hg)

theorem asksNot_of_tcs (h : ((s.tc pd mc)).asksNot line) (ht : t.tcs = s.tcs) : (t.tc pd mc).asksNot line :=
  asksNot_of_fills h (congrArg TCache.fills (tc_congr ht pd mc))

variable (pd mc line) in
/-- The access to a line's home with what its tier makes of it: the code, and the state behind it. -/
def State.fillRead (s : State) (err : TierFail) : Nat × State :=
  if (s.tcFill pd mc line).1 = 0 then (s.tcFill pd mc line).2.2.tierFails (line * 128) err
  else ((s.tcFill pd mc line).1, (s.tcFill pd mc line).2.2)

/-- A fill's line comes in a state: a failed demand stops its core at pc; else the line is installed, unless an invalidation
crossed it, and serves the accesses that wait for it (R175, R176, R179). -/
def State.fillServed (s : State) (pd : PD) (mc : MC) (line : Nat) (f : TcFill) (pc code : Nat) (bs : List Byte) : State :=
  let u := s.fillTaken pd mc line
  let fresh := ((s.tc pd mc).fills.find? (·.line == line)).any fun g => !g.dropInst
  if code ≠ 0 then if f.demand then u.tcFail pd mc pc (line * 128) code else u
  else if f.demand then
    (if fresh then u.tcInstall pd mc line bs else u).tcDeliver pd mc line ((u.tc pd mc).forward line bs)
  else if fresh && !u.tcBypass pd mc then u.sidePut pd mc line bs else u

theorem tcFillArrive_next {line : BitVec 45} {f : TcFill} (err : TierFail) (hopen : s.fenced (tcachePage pd mc) = false)
    (hslot : (s.tc pd mc).inSlot line.toNat = some f) : exec (.tcFillArrive pd mc line err) s =
      .next ((s.fillRead pd mc line.toNat err).2.fillServed pd mc line.toNat f (s.core pd mc).x.pc.toNat
        (s.fillRead pd mc line.toNat err).1 (s.tcFill pd mc line.toNat).2.1) := by
  have hexec : exec (.tcFillArrive pd mc line err) s = execTcFillArrive pd mc line err s := rfl
  rw [hexec, execTcFillArrive, hopen, if_neg Bool.false_ne_true]
  dsimp only
  rw [hslot]
  simp only [State.fillServed, apply_ite Host.Outcome.next]
  rfl

theorem rising_fillRead (hs : rising s.tcs = true) (line : Nat) (err : TierFail) :
    rising (s.fillRead pd mc line err).2.tcs = true := by
  have hrun := (tcFill_tcRun s pd mc line).rising hs
  unfold State.fillRead
  split
  · rwa [tcs_tierFails]
  · exact hrun

/-- Whatever a fill brings, its line is asked for no more. -/
theorem asksNot_fillServed (hs : rising s.tcs = true) (f : TcFill) (pc code : Nat) (bs : List Byte) :
    ((s.fillServed pd mc line f pc code bs).tc pd mc).asksNot line := by
  have hnot := asksNot_fillTaken (pd := pd) (mc := mc) (line := line) hs
  have hrising : rising (s.fillTaken pd mc line).tcs = true := rising_setTc hs pd mc _
  unfold State.fillServed
  dsimp only
  split
  · split
    · exact asksNot_of_tcs hnot (tcs_tcFail _ _ _ _ _ _)
    · exact hnot
  split
  · refine asksNot_of_tcs ?_ (tcs_tcDeliver _ _ _ _ _)
    split
    · exact asksNot_of_fills hnot (fills_tcInstall hrising _ _)
    · exact hnot
  · split
    · exact asksNot_of_fills hnot (fills_sidePut hrising _ _)
    · exact hnot

/-- A demanded line that no invalidation crossed is in the cache, out of BYPASS. -/
theorem find_fillServed (hs : rising s.tcs = true) {f g : TcFill} (hdemand : f.demand = true) (hbypass : s.tcBypass pd mc = false)
    (hfound : (s.tc pd mc).fills.find? (·.line == line) = some g) (hfresh : g.dropInst = false) (pc : Nat) (bs : List Byte) :
    (((s.fillServed pd mc line f pc 0 bs).tc pd mc).find line).isSome = true := by
  have htaken : (s.fillTaken pd mc line).tcBypass pd mc = false := by
    rw [State.tcBypass, tc_fillTaken hs]
    exact hbypass
  obtain ⟨w, hw, hput⟩ := tcInstall_puts htaken line bs
  have hserved : (s.fillServed pd mc line f pc 0 bs).tcs = ((s.fillTaken pd mc line).tcInstall pd mc line bs).tcs := by
    simp [State.fillServed, hdemand, hfound, hfresh]
  have hrising : rising (s.fillTaken pd mc line).tcs = true := rising_setTc hs pd mc _
  rw [tc_congr (hserved.trans hput), tc_setTc hrising]
  exact find_put _ hw line bs

end

/-! A home invalidates (R179). -/

section
variable {s : State} {pd : PD} {mc : MC}

theorem dropWay_spec {m : List (Nat × Option TcLine)} (hm : rising m = true) (line w : Nat) : rising (dropWay line m w) = true ∧
    ((mget (fun _ => none) (dropWay line m w) (line % 512 * 16 + w)).any fun l => l.tag == line / 512) = false ∧
    ∀ v, v ≠ w → mget (fun _ => none) (dropWay line m w) (line % 512 * 16 + v) = mget (fun _ => none) m (line % 512 * 16 + v) := by
  unfold dropWay
  split
  · refine ⟨rising_mput (d := fun _ => none) hm _ _, ?_, fun v hv => ?_⟩
    · rw [mget_mput_rising hm, if_pos rfl]
      rfl
    · rw [mget_mput_rising hm, if_neg (by omega)]
  · rename_i hno
    exact ⟨hm, Bool.eq_false_iff.mpr hno, fun _ _ => rfl⟩

/-- The first n ways, each given up where it holds the line, hold it no more. -/
theorem dropWays_spec {m : List (Nat × Option TcLine)} (hm : rising m = true) (line n : Nat) :
    rising ((List.range n).foldl (dropWay line) m) = true ∧ ∀ w, w < n →
      ((mget (fun _ => none) ((List.range n).foldl (dropWay line) m) (line % 512 * 16 + w)).any fun l => l.tag == line / 512) = false := by
  induction n with
  | zero => exact ⟨hm, fun w hw => absurd hw (Nat.not_lt_zero w)⟩
  | succ n ih =>
    obtain ⟨hrising, hfree⟩ := ih
    obtain ⟨hrising', hlast, hothers⟩ := dropWay_spec hrising line n
    rw [List.range_succ, List.foldl_append, List.foldl_cons, List.foldl_nil]
    refine ⟨hrising', fun w hw => ?_⟩
    obtain rfl | hne := eq_or_ne w n
    · exact hlast
    · rw [hothers w hne]
      exact hfree w (by omega)

theorem lines_without (t : TCache) (line : Nat) : (t.without line).lines = waysWithout t.lines line := by rw [TCache.without]

theorem find_without {t : TCache} (ht : rising t.lines = true) (line : Nat) : (t.without line).find line = none := by
  obtain ⟨-, hfree⟩ := dropWays_spec ht line 16
  unfold TCache.find TCache.at
  rw [lines_without, List.find?_eq_none]
  intro w hw
  rw [Bool.not_eq_true]
  exact hfree w (List.mem_range.mp hw)

theorem mb_without (t : TCache) (line : Nat) : (t.without line).mb = t.mb := by rw [TCache.without]

theorem side_without {t : TCache} {line : Nat} {l : TcLine} (hl : l ∈ (t.without line).side) : l.tag ≠ line := by
  have hl' : l ∈ t.side.filter fun l => l.tag != line := hl
  simpa using (List.mem_filter.mp hl').2

theorem fills_without {t : TCache} {line : Nat} {g : TcFill} (hg : g ∈ (t.without line).fills) (hline : g.line = line) :
    g.dropInst = true := by
  obtain ⟨f, -, rfl⟩ := List.mem_map.mp hg
  split at hline
  · rename_i hf
    rw [if_pos hf]
  · rename_i hf
    exact absurd hline (by simpa using hf)

theorem tcInval_frame (s : State) (key line : Nat) : s.tcInval key line = { s with tcs := (s.tcInval key line).tcs } := by
  rw [tcInval_eq]

theorem tc_tcInval (hs : rising s.tcs = true) (line : Nat) : (s.tcInval (coreKey pd mc) line).tc pd mc = (s.tc pd mc).without line := by
  rw [tcInval_eq]
  exact tc_setTc hs pd mc ((s.tc pd mc).without line)

end

/-! A merging-buffer entry's write (R177). -/

/-- The bytes of an entry in half h of its line, as a mask. -/
def MbEnt.mask (e : MbEnt) (h : Nat) : Nat :=
  (List.range 64).foldl (fun m i => if e.bytes.any (fun b => b.1 == 64 * h + i) then m + 2 ^ i else m) 0

/-- Half h of an entry's line is written at its home, where it holds bytes. -/
def State.mbHalf (s : State) (pd : PD) (mc : MC) (e : MbEnt) (ctx h : Nat) : Nat × State :=
  if e.mask h = 0 then (0, s)
  else s.cohWrite ctx (e.line * 2 + h) (e.mask h) (mgets (fun _ => 0) e.bytes (64 * h) 64) (some (coreKey pd mc))

/-- An entry leaves its merging buffer. -/
def State.mbTaken (s : State) (pd : PD) (mc : MC) (e : MbEnt) : State :=
  s.modTc pd mc fun t => { t with mb := t.mb.filter fun x => x.line != e.line }

/-- An entry's write is performed at its home: noted where it succeeds, and a stop of the core where it fails (R177, R181). -/
def State.mbWritten (s : State) (pd : PD) (mc : MC) (e : MbEnt) : State :=
  let ctx := s.fld (mcorePage pd mc) Reg.MCORE_CTXID_CTXID
  let x := (s.mbTaken pd mc e).mbHalf pd mc e ctx 0
  let y := x.2.mbHalf pd mc e ctx 1
  let code := if x.1 ≠ 0 then x.1 else y.1
  let noted := if code = 0 then e.bytes.foldl (fun t b => t.noteWrite ctx (e.line * 128 + b.1) 1) y.2 else y.2
  if code = 0 then noted else noted.tcFail pd mc (s.core pd mc).x.pc.toNat (e.line * 128) code

section
variable {s : State} {pd : PD} {mc : MC}

theorem mbHalf_tcRun (s : State) (pd : PD) (mc : MC) (e : MbEnt) (ctx h : Nat) : TcRun s (s.mbHalf pd mc e ctx h).2 := by
  unfold State.mbHalf
  split
  · exact .refl s
  · exact cohWrite_tcRun s _ _ _ _ _

theorem mbIssue_eq (s : State) (pd : PD) (mc : MC) (e : MbEnt) : s.mbIssue pd mc e = (s.mbWritten pd mc e).tcCtxNow pd mc := rfl

theorem mbWritten_tcRun (s : State) (pd : PD) (mc : MC) (e : MbEnt) : TcRun (s.mbTaken pd mc e) (s.mbWritten pd mc e) := by
  have hhalves (ctx : Nat) := (mbHalf_tcRun (s.mbTaken pd mc e) pd mc e ctx 0).trans (mbHalf_tcRun _ pd mc e ctx 1)
  have hnoted (u : State) (ctx : Nat) : (e.bytes.foldl (fun t b => t.noteWrite ctx (e.line * 128 + b.1) 1) u).tcs = u.tcs :=
    List.foldlRecOn _ _ (motive := fun t : State => t.tcs = u.tcs) rfl fun t ht b _ => (tcs_noteWrite _ _ _ _).trans ht
  refine (hhalves (s.fld (mcorePage pd mc) Reg.MCORE_CTXID_CTXID)).then_tcs ?_
  simp [State.mbWritten, hnoted, apply_ite State.tcs]

theorem mb_tcCtxNow (hs : rising s.tcs = true) : ((s.tcCtxNow pd mc).tc pd mc).mb = (s.tc pd mc).mb := by
  unfold State.tcCtxNow
  dsimp only
  split
  · split
    · rw [tc_congr (tcs_setFld _ _ _ _ _), tc_setTc hs]
      rfl
    · rfl
  · rfl

end

/-! The time-out of a merging-buffer entry (R177). -/

section
variable {s : State} {pd : PD} {mc : MC} {line : BitVec 45} {e : MbEnt} (hopen : s.fenced (tcachePage pd mc) = false)
  (hfound : (s.tc pd mc).mb.find? (·.line == line.toNat) = some e)
include hopen hfound

theorem mbAgeTimeout_eq : exec (.mbAgeTimeout pd mc line) s =
    if e.last + 64 ≤ s.sched.beat then .next (s.mbIssue pd mc e) else .next s := by
  have hexec : exec (.mbAgeTimeout pd mc line) s = execMbAgeTimeout pd mc line s := rfl
  rw [hexec, execMbAgeTimeout, hopen, if_neg Bool.false_ne_true, hfound]

omit hopen in
/-- The line that times out is in its merging buffer no more. -/
theorem mb_mbIssue (hs : rising s.tcs = true) {g : MbEnt} (hg : g ∈ ((s.mbIssue pd mc e).tc pd mc).mb) : g.line ≠ line.toNat := by
  have hrun := mbWritten_tcRun s pd mc e
  have htaken : rising (s.mbTaken pd mc e).tcs = true := rising_setTc hs pd mc _
  have hmb : ((s.mbTaken pd mc e).tc pd mc).mb = (s.tc pd mc).mb.filter fun x => x.line != e.line :=
    congrArg TCache.mb (tc_setTc hs pd mc _)
  have hline : e.line = line.toNat := by simpa using List.find?_some hfound
  rw [mbIssue_eq, mb_tcCtxNow (hrun.rising htaken), hrun.mb htaken, hmb, hline] at hg
  simpa using (List.mem_filter.mp hg).2

end

/-! The ways' error counts (R180, R182). -/

section
variable {s t : State} {p : Page}

/-- t is s but for the first n ways' counts, which are f of what they were. -/
structure CountsAre (p : Page) (f : Nat → Nat → Nat) (n : Nat) (s t : State) : Prop where
  frame : ∃ r, t = { s with regs := r }
  wf : t.regsWf
  counts : ∀ w, w < n → t.fld p Reg.TCACHE_WAY_ERR_COUNT w = f w (s.fld p Reg.TCACHE_WAY_ERR_COUNT w)
  regs : ∀ q off, (∀ w, w < n → regKey q off ≠ regKey p (0x140 + 4 * w)) → t.reg q off = s.reg q off

/-- A step that sets way w's count to f of it, or leaves a count that f leaves. -/
def SetsCount (p : Page) (f : Nat → Nat → Nat) (g : State → Nat → State) : Prop :=
  ∀ t w, (∃ v, g t w = t.setFld p Reg.TCACHE_WAY_ERR_COUNT v w ∧ v % 2 ^ 16 = f w (t.fld p Reg.TCACHE_WAY_ERR_COUNT w)) ∨
    (g t w = t ∧ f w (t.fld p Reg.TCACHE_WAY_ERR_COUNT w) = t.fld p Reg.TCACHE_WAY_ERR_COUNT w)

/-- The half of a count fits its field. -/
theorem halvesCount (p : Page) : SetsCount p (fun _ n => n / 2)
    fun t w => t.setFld p Reg.TCACHE_WAY_ERR_COUNT (t.fld p Reg.TCACHE_WAY_ERR_COUNT w / 2) w := fun t w => by
  refine .inl ⟨_, rfl, Nat.mod_eq_of_lt ?_⟩
  exact (Nat.div_le_self _ _).trans_lt (fld_lt t p Reg.TCACHE_WAY_ERR_COUNT w)

theorem countsAre_foldl (hs : s.regsWf) {f : Nat → Nat → Nat} {g : State → Nat → State} (hg : SetsCount p f g) {n : Nat}
    (hn : n ≤ 16) : CountsAre p f n s ((List.range n).foldl g s) := by
  induction n with
  | zero => exact ⟨⟨_, rfl⟩, hs, fun w hw => absurd hw (Nat.not_lt_zero w), fun _ _ _ => rfl⟩
  | succ n ih =>
    have ih := ih (by omega)
    rw [List.range_succ, List.foldl_append, List.foldl_cons, List.foldl_nil]
    obtain ⟨r, hr⟩ := ih.frame
    have hkey {v w : Nat} (hne : v ≠ w) : regKey p (0x140 + 4 * v) ≠ regKey p (0x140 + 4 * w) := regKey_off_ne (by omega)
    have hsame : ((List.range n).foldl g s).fld p Reg.TCACHE_WAY_ERR_COUNT n = s.fld p Reg.TCACHE_WAY_ERR_COUNT n :=
      fld_congr (ih.regs _ _ fun w hw => hkey (by omega))
    obtain ⟨v, hset, hv⟩ | ⟨hkeep, hv⟩ := hg ((List.range n).foldl g s) n
    · rw [hset]
      refine ⟨⟨_, by rw [hr]; rfl⟩, regsWf_setFld ih.wf _ _ _ _, fun w hw => ?_, fun q off hoff => ?_⟩
      · obtain rfl | hne := eq_or_ne w n
        · rw [fld_setFld_same ih.wf _ _ (by decide), ← hsame]
          exact hv
        · rw [fld_setFld_of_disjoint ih.wf (by decide) (.inl (hkey hne))]
          exact ih.counts w (by omega)
      · rw [reg_setFld_of_ne ih.wf (hoff n (by omega))]
        exact ih.regs q off fun w hw => hoff w (by omega)
    · rw [hkeep]
      refine ⟨⟨r, hr⟩, ih.wf, fun w hw => ?_, fun q off hoff => ih.regs q off fun w hw => hoff w (by omega)⟩
      obtain rfl | hne := eq_or_ne w n
      · rw [← hsame, hv]
      · exact ih.counts w (by omega)

end

end Sys2Proof.Machine

open Sys2Proof Sys2Proof.Machine

/-- Settles O28, event by event. -/
theorem trapsAndOperandCacheEvents : Obligations.TrapsAndOperandCacheEvents := by
  intro s hc pd mc hlines
  refine ⟨fun r hrow hbeat hdone hacc hgoes => ?_, fun line f err hopen hslot => ?_,
    fun line f bs s1 hread hopen hslot hdemand hbypass hfound hfresh _ => ?_, fun line => ?_,
    fun line e hopen hfound => ⟨fun hdue => ?_, fun hearly => ?_⟩, ?_⟩
  · refine completes_mono (trapStopDone_stops hc.cores hrow hbeat hdone hacc hgoes) fun u hu => ?_
    obtain ⟨hothers, -⟩ := hu.kept
    refine ⟨congrArg CoreSt.status hu.core, congrArg (fun c => c.nf.trapRec) hu.core, ?_,
      (congrArg CoreSt.x hu.core).trans rfl, hothers⟩
    rw [hu.core]
    exact congrArg List.isEmpty hacc
  · exact ⟨_, tcFillArrive_next err hopen hslot, asksNot_fillServed (rising_fillRead hc.tcs _ _) _ _ _ _⟩
  · have hnext := tcFillArrive_next .none hopen hslot
    have hrising := rising_fillRead (pd := pd) (mc := mc) hc.tcs line.toNat .none
    have hs1 : s.fillRead pd mc line.toNat .none = (0, s1) := by
      rw [State.fillRead, hread]
      rfl
    rw [hs1] at hnext hrising
    exact ⟨_, hnext, find_fillServed hrising hdemand hbypass hfound hfresh _ _⟩
  · have htc := tc_tcInval (pd := pd) (mc := mc) hc.tcs line.toNat
    have hexec : exec (.tcSnoopInval pd mc line) s = .next (s.tcInval (coreKey pd mc) line.toNat) := rfl
    refine ⟨_, hexec, ?_⟩
    beta_reduce
    rw [htc]
    exact ⟨find_without hlines _, fun l hl => side_without hl, fun g hg hline => fills_without hg hline, mb_without _ _,
      tcInval_frame _ _ _⟩
  · exact ⟨_, (mbAgeTimeout_eq hopen hfound).trans (if_pos hdue), fun g hg => mb_mbIssue hfound hc.tcs hg⟩
  · exact (mbAgeTimeout_eq hopen hfound).trans (if_neg (Nat.not_le.mpr hearly))
  · have hcounts := countsAre_foldl hc.regs (halvesCount (tcachePage pd mc)) (le_refl 16)
    obtain ⟨r, hr⟩ := hcounts.frame
    exact ⟨_, rfl, hcounts.counts, fun q off hoff => hcounts.regs q off hoff, by rw [hr]⟩

end

section
/-!
SUPPORT. A 32-bit write to a register of a block's own, open or unlocked for its requester (R46, R54, R64).
-/
open Sys2Proof.Claims

namespace Sys2Proof.Machine

/-! Commands that change registers and the states of pages alone. -/

section
variable {s t : State}

theorem PagesOnly.setReg (h : PagesOnly s t) (p : Page) (off : Nat) (v : Word) : PagesOnly s (t.setReg p off v) := by
  obtain ⟨r, q, rfl⟩ := h
  exact ⟨_, _, rfl⟩

theorem PagesOnly.setFld (h : PagesOnly s t) (p : Page) (f : RegField) (v i : Nat) : PagesOnly s (t.setFld p f v i) := h.setReg _ _ _

theorem PagesOnly.restored (h : PagesOnly s t) (p : Page) (off : Nat) : PagesOnly s (t.restored p off) := h.setReg _ _ _

theorem PagesOnly.ts (h : PagesOnly s t) : t.ts = s.ts := by
  obtain ⟨r, q, rfl⟩ := h
  rfl

theorem PagesOnly.trans {u : State} (h : PagesOnly s t) (h' : PagesOnly t u) : PagesOnly s u := by
  obtain ⟨r, q, rfl⟩ := h
  obtain ⟨r', q', rfl⟩ := h'
  exact ⟨_, _, rfl⟩

theorem arrived_pagesOnly (s : State) (p : Page) (who : Requester) : PagesOnly s (s.arrived p who) := ⟨_, _, arrived_eq s p who⟩

theorem ctrlArrived_pagesOnly (s : State) (p : Page) (who : Requester) : PagesOnly s (s.ctrlArrived p who) := by
  obtain ⟨q, h⟩ := useUnlock_frame (s.arrived p who) p who true
  exact (arrived_pagesOnly s p who).trans ⟨_, q, h⟩

end

theorem regs_ctrlArrived (s : State) (p : Page) (who : Requester) : (s.ctrlArrived p who).regs = (s.arrived p who).regs := by
  obtain ⟨q, h⟩ := useUnlock_frame (s.arrived p who) p who true
  rw [State.ctrlArrived, h]

theorem reg_ctrlArrived {s : State} (h : s.regsWf) (p q : Page) {off : Nat} (ho : off < 4096) (hne : off ≠ 0x01C) (who : Requester) :
    (s.ctrlArrived p who).reg q off = s.reg q off := by
  rw [State.reg, regs_ctrlArrived]
  exact reg_arrived_of_off h p q ho hne who

/-! Registers of a block's own. -/

/-- A register of a page that takes writes, whole in 32 bits, with the fields fs. -/
structure OwnRegister (p : Page) (off : Nat) (fs : List RegField) : Prop where
  norm : normPage p = p
  written : readOnlyPage p.blk = false
  above : 0x100 ≤ off
  single : isLo p.blk off = false ∧ isHi p.blk off = false
  taken : ∀ u : State, u.discards p off = false
  fields : regFields p.blk off false = fs

section
variable {s : State} {p : Page} {off : Nat} {fs : List RegField} {who : Requester}

/-- The class of the page decides. -/
theorem ownRegister_of {b : Blk} (hb : p.blk = b) (hn : normPage p = p) (hd : ∀ u : State, u.discards p off = false) (ho : 0x100 ≤ off)
    (h : readOnlyPage b = false ∧ (isLo b off = false ∧ isHi b off = false) ∧ regFields b off false = fs) : OwnRegister p off fs := by
  subst hb
  obtain ⟨hro, hpair, hfs⟩ := h
  exact ⟨hn, hro, ho, hpair, hd, hfs⟩

/-- A write to an open page's register is made where it arrives. -/
theorem OwnRegister.busWrite (h : OwnRegister p off fs) (hc : Canon s) (hacc : s.accessible p = true) (v : Word) :
    s.busWrite who p off v = ((s.arrived p who).regWrite who p off false v.toNat .none).2 := by
  obtain ⟨hlo, hhi⟩ := h.single
  simp only [busWrite_block h.norm (present_of_accessible hacc) h.above h.written, State.blockWrite,
    accessible_arrived hc.regs hc.pages, hacc, h.written, h.taken, hlo, hhi, Bool.not_true, Bool.or_self, Bool.false_eq_true, if_false]

/-- Fields without protection are stored, and the register acts. -/
theorem OwnRegister.busWrite_open (h : OwnRegister p off fs) (hc : Canon s) (hacc : s.accessible p = true) {v : Word}
    (hprot : fs.all (fun f => !f.prot) = true) (hwrites : fs.any (·.writable) = true)
    (hheld : heldSc p.blk fs ((s.arrived p who).liveValue who p off false) v.toNat = v.toNat)
    (hres : (s.arrived p who).reservedWrite p off fs v.toNat = false) :
    s.busWrite who p off v = ((s.arrived p who).storeFields p off false fs v.toNat).regAct who p off
      ((s.arrived p who).liveValue who p off false) v.toNat .none := by
  rw [h.busWrite hc hacc, regWrite_unprotected h.fields hprot hwrites who .none hheld hres]

/-- Fields that are protected are stored for the requester that has the page unlocked; the unlock is used up. -/
theorem OwnRegister.busWrite_unlocked (h : OwnRegister p off fs) (hc : Canon s) (hun : UnlockedFor s p who) {v : Word}
    (hprot : fs.any (·.prot) = true) (hplain : ∀ f ∈ fs, f.acc ≠ .sc)
    (hres : (s.arrived p who).reservedWrite p off fs v.toNat = false) :
    s.busWrite who p off v = ((s.ctrlArrived p who).storeFields p off false fs v.toNat).regAct who p off
      ((s.arrived p who).liveValue who p off false) v.toNat .none := by
  obtain ⟨hacc, hl⟩ := hun
  obtain ⟨hopen, -⟩ := ctrlArrived_unlocked hc p who hl
  rw [h.busWrite hc hacc]
  simp only [State.regWrite, h.fields, heldSc_of_plain hplain, hres, hopen, hprot, Bool.not_true, Bool.and_false, Bool.false_and,
    List.filter_false, List.isEmpty_nil, List.foldl_nil, if_true, if_false, Bool.false_eq_true, Bool.true_or]
  rfl

/-- A reserved value is refused whole, with an error (R9). -/
theorem OwnRegister.busWrite_reserved (h : OwnRegister p off fs) (hc : Canon s) (hacc : s.accessible p = true) {v : Word}
    (hplain : ∀ f ∈ fs, f.acc ≠ .sc) (hres : (s.arrived p who).reservedWrite p off fs v.toNat = true) :
    s.busWrite who p off v = (s.arrived p who).headerError p 1 off who (BitVec.ofNat 32 v.toNat) := by
  rw [h.busWrite hc hacc]
  simp only [State.regWrite, h.fields, heldSc_of_plain hplain, hres, if_true, Bool.false_eq_true, if_false]

/-- Command bits that stand at 0 take a 1 (R7). -/
theorem heldSc_of_clear {old : Nat} (h : ∀ f ∈ fs, f.acc = .sc → f.get old ≠ 1) (b : Blk) (v : Nat) : heldSc b fs old v = v := by
  unfold heldSc
  split
  · rfl
  · induction fs with
    | nil => rfl
    | cons f fs ih =>
      rw [List.foldl_cons, if_neg fun hs => h f List.mem_cons_self hs.1 hs.2]
      exact ih fun g hg => h g (List.mem_cons_of_mem f hg)

theorem storedWord_own (hown : ∀ f ∈ fs, (f.own || !f.writable) = true) (n v : Nat) : storedWord fs n v = n := by
  induction fs with
  | nil => rfl
  | cons f fs ih =>
    have hf := hown f List.mem_cons_self
    rw [storedWord, List.foldl_cons, if_pos hf]
    exact ih fun g hg => hown g (List.mem_cons_of_mem f hg)

/-- A register of fields that the block sets itself stores nothing. -/
theorem storeFields_own (hown : ∀ f ∈ fs, (f.own || !f.writable) = true) (s : State) (p : Page) (off v : Nat) :
    s.storeFields p off false fs v = s.restored p off := by
  rw [State.storeFields, if_neg Bool.false_ne_true, storedWord_own hown, State.restored]

end

end Sys2Proof.Machine
end

section
/-!
SUPPORT. The operand cache's registers and NF_STAT (R175, R180, R182, R189).
-/
open Sys2Proof.Claims

namespace Sys2Proof.Machine

section
variable {s t u : State} {who : Requester} {pd : PD} {mc : MC}

theorem mcOfPage_tcachePage (pd : PD) (mc : MC) : mcOfPage (tcachePage pd mc) = mc := mcOfPage_mcorePage pd mc

theorem tc_setTc_of_ne (h : rising s.tcs = true) {pd' : PD} {mc' : MC} (hne : pd' ≠ pd ∨ mc' ≠ mc) (x : TCache) :
    (s.setTc pd mc x).tc pd' mc' = s.tc pd' mc' := by
  have hkey : coreKey pd' mc' ≠ coreKey pd mc := fun h => by
    obtain ⟨rfl, rfl⟩ := coreKey_inj.mp h
    exact hne.elim (fun h => h rfl) fun h => h rfl
  rw [State.tc, State.setTc, mget_mput_rising h, if_neg hkey, State.tc]

/-- A command changes registers, the states of pages and one operand cache, from what it was by f. -/
structure CacheChanged (pd : PD) (mc : MC) (f : TCache → TCache) (s t : State) : Prop where
  frame : t = { s with tcs := t.tcs, regs := t.regs, pages := t.pages }
  tc : t.tc pd mc = f (s.tc pd mc)
  others : ∀ pd' mc', pd' ≠ pd ∨ mc' ≠ mc → t.tc pd' mc' = s.tc pd' mc'

theorem PagesOnly.cacheKept (h : PagesOnly s t) : CacheChanged pd mc id s t := by
  obtain ⟨r, q, rfl⟩ := h
  exact ⟨rfl, rfl, fun _ _ _ => rfl⟩

theorem PagesOnly.cacheChanged (h : PagesOnly s t) (hs : rising s.tcs = true) (f : TCache → TCache) :
    CacheChanged pd mc f s (t.modTc pd mc f) := by
  obtain ⟨r, q, rfl⟩ := h
  exact ⟨rfl, tc_setTc (s := { s with regs := r, pages := q }) hs pd mc _,
    fun _ _ hne => tc_setTc_of_ne (s := { s with regs := r, pages := q }) hs hne _⟩

/-! TCACHE_INV and TCACHE_LFSR. -/

theorem ownRegister_inv (pd : PD) (mc : MC) : OwnRegister (tcachePage pd mc) 0x10C [Reg.TCACHE_INV_INV_ALL] :=
  ownRegister_of (b := .tcache) rfl rfl (fun _ => rfl) (by decide) (by decide)

theorem ownRegister_lfsr (pd : PD) (mc : MC) : OwnRegister (tcachePage pd mc) 0x108 [Reg.TCACHE_LFSR_STATE] :=
  ownRegister_of (b := .tcache) rfl rfl (fun _ => rfl) (by decide) (by decide)

theorem ownRegister_wayReen (pd : PD) (mc : MC) : OwnRegister (tcachePage pd mc) 0x110 [Reg.TCACHE_WAY_REEN_WAYS] :=
  ownRegister_of (b := .tcache) rfl rfl (fun _ => rfl) (by decide) (by decide)

theorem get_of_flag {f : RegField} {p : Page} (h : s.flag p f = false) : f.get (s.reg p f.off).toNat ≠ 1 := by
  rw [State.flag, beq_eq_false_iff_ne] at h
  exact h

theorem busWrite_invAll (hc : Canon s) (hacc : s.accessible (tcachePage pd mc) = true)
    (hidle : s.flag (tcachePage pd mc) Reg.TCACHE_INV_INV_ALL = false) : s.busWrite who (tcachePage pd mc) 0x10C 1 =
      ((s.arrived (tcachePage pd mc) who).restored (tcachePage pd mc) 0x10C).modTc pd mc fun t => { t with lines := [], side := [] } := by
  have hidle' := (flag_arrived_of_off hc.regs (tcachePage pd mc) (tcachePage pd mc) (f := Reg.TCACHE_INV_INV_ALL) (by decide) (by decide)
    who).trans hidle
  have hact (u : State) (old : Nat) : u.regAct who (tcachePage pd mc) 0x10C old (1 : Word).toNat .none =
      u.modTc pd (mcOfPage (tcachePage pd mc)) fun t => { t with lines := [], side := [] } := rfl
  have hclear : ∀ f ∈ [Reg.TCACHE_INV_INV_ALL], f.acc = .sc →
      f.get ((s.arrived (tcachePage pd mc) who).reg (tcachePage pd mc) 0x10C).toNat ≠ 1 := fun f hf _ => by
    rw [List.mem_singleton.mp hf]
    exact get_of_flag hidle'
  rw [(ownRegister_inv pd mc).busWrite_open hc hacc (by decide) (by decide) (heldSc_of_clear hclear _ _) rfl, hact,
    storeFields_own (by decide), mcOfPage_tcachePage]

theorem tcInvAll_completes (hc : Canon s) (hacc : s.accessible (tcachePage pd mc) = true)
    (hidle : s.flag (tcachePage pd mc) Reg.TCACHE_INV_INV_ALL = false) : Completes (.tcInvAll who pd mc) s fun t =>
      (t.tc pd mc).lines = [] ∧ (t.tc pd mc).side = [] ∧ (t.tc pd mc).mb = (s.tc pd mc).mb ∧ (t.tc pd mc).xlate = (s.tc pd mc).xlate ∧
      (∀ pd' mc', pd' ≠ pd ∨ mc' ≠ mc → t.tc pd' mc' = s.tc pd' mc') ∧ t = { s with tcs := t.tcs, regs := t.regs, pages := t.pages } := by
  have hset := ((arrived_pagesOnly s (tcachePage pd mc) who).restored (tcachePage pd mc) 0x10C).cacheChanged (pd := pd) (mc := mc) hc.tcs
    fun t => { t with lines := [], side := [] }
  rw [← busWrite_invAll hc hacc hidle] at hset
  exact ⟨_, rfl, by rw [hset.tc], by rw [hset.tc], by rw [hset.tc], by rw [hset.tc], hset.others, hset.frame⟩

theorem tcLfsrWrite_completes (hc : Canon s) (v : Half) (hacc : s.accessible (tcachePage pd mc) = true) :
    Completes (.tcLfsrWrite who pd mc v) s fun t =>
      t.fld (tcachePage pd mc) Reg.TCACHE_LFSR_STATE = (if v = 0 then 0xACE1 else v.toNat) ∧
      t = { s with regs := t.regs, pages := t.pages } := by
  have hpages := (arrived_pagesOnly s (tcachePage pd mc) who).restored (tcachePage pd mc) 0x108
  have hw : ((s.arrived (tcachePage pd mc) who).restored (tcachePage pd mc) 0x108).regsWf :=
    regsWf_setReg (regsWf_arrived hc.regs _ _) _ _ _
  have hact (u : State) (old n : Nat) : u.regAct who (tcachePage pd mc) 0x108 old n .none =
      u.setFld (tcachePage pd mc) Reg.TCACHE_LFSR_STATE (if n % 2 ^ 16 = 0 then 0xACE1 else n % 2 ^ 16) := rfl
  have hmod : v.toNat % 2 ^ 16 = v.toNat := Nat.mod_eq_of_lt v.isLt
  have hzero : v = 0 ↔ v.toNat = 0 := by
    rw [← BitVec.toNat_inj]
    rfl
  refine ⟨_, congrArg Host.Outcome.next ((ownRegister_lfsr pd mc).busWrite_open hc hacc (by decide) (by decide)
    (heldSc_of_plain (by decide) _ _ _) rfl), ?_⟩
  rw [hact, storeFields_own (by decide), toNat_half, hmod]
  refine ⟨?_, (hpages.setFld _ _ _ _).eq⟩
  rw [fld_setFld_same hw _ _ (by decide)]
  simp only [hzero]
  split
  · rfl
  · exact hmod

/-! TCACHE_WAY_REEN (R180). -/

/-- A way that WAY_REEN names has its count cleared. -/
theorem clearsCount (p : Page) (ways : Nat) : SetsCount p (fun w n => if bitOf ways w then 0 else n)
    fun t w => if bitOf ways w then t.setFld p Reg.TCACHE_WAY_ERR_COUNT 0 w else t := fun t w => by
  by_cases h : bitOf ways w = true
  · exact .inl ⟨0, if_pos h, (if_pos h).symm⟩
  · exact .inr ⟨if_neg h, if_neg h⟩

/-- The disabled ways without those enabled again. -/
def State.waysEnabled (s : State) (p : Page) (ways : Nat) : State :=
  s.setFld p Reg.TCACHE_STAT_WAY_DIS (s.fld p Reg.TCACHE_STAT_WAY_DIS &&& (0xFFFF - ways))

/-- The counts of the ways enabled again are cleared. -/
def State.countsCleared (s : State) (p : Page) (ways : Nat) : State :=
  (List.range 16).foldl (fun (t : State) i => if bitOf ways i then t.setFld p Reg.TCACHE_WAY_ERR_COUNT 0 i else t) s

theorem actWayReen_eq (s : State) (p : Page) (v : Nat) : s.actWayReen p v =
    if v % 2 ^ 16 = 0 then (s.waysEnabled p (v % 2 ^ 16)).countsCleared p (v % 2 ^ 16)
    else ((s.waysEnabled p (v % 2 ^ 16)).countsCleared p (v % 2 ^ 16)).modTc p.pd (mcOfPage p) fun t => { t with lastWay := false } := by
  rw [State.actWayReen, State.countsCleared, State.waysEnabled]

theorem countsCleared_counts (h : s.regsWf) (p : Page) (ways : Nat) :
    CountsAre p (fun w n => if bitOf ways w then 0 else n) 16 s (s.countsCleared p ways) := by
  rw [State.countsCleared]
  exact countsAre_foldl h (clearsCount p ways) (le_refl 16)

theorem bitOf_testBit (n i : Nat) : bitOf n i = n.testBit i := by
  rw [Nat.testBit_eq_decide_div_mod_eq]
  rfl

/-- The bits of a disabled-ways word without some of them. -/
theorem bitOf_andNot {x ways i : Nat} (hways : ways < 2 ^ 16) (hi : i < 16) :
    bitOf (x &&& (0xFFFF - ways)) i = (bitOf x i && !bitOf ways i) := by
  have hnot : (0xFFFF - ways).testBit i = !ways.testBit i := by
    rw [show 0xFFFF - ways = 2 ^ 16 - (ways + 1) by omega, Nat.testBit_two_pow_sub_succ hways]
    simp [hi]
  rw [bitOf_testBit, bitOf_testBit, bitOf_testBit, Nat.testBit_and, hnot]

/-- What WAY_REEN changes of the registers. -/
def State.waysReenabled (s : State) (p : Page) (ways : Nat) : State := (s.waysEnabled p ways).countsCleared p ways

theorem waysReenabled_frame (h : s.regsWf) (p : Page) (ways : Nat) : ∃ r, s.waysReenabled p ways = { s with regs := r } := by
  obtain ⟨r, hr⟩ := (countsCleared_counts (regsWf_setFld h p _ _ _ : (s.waysEnabled p ways).regsWf) p ways).frame
  exact ⟨r, hr⟩

theorem wayDis_waysReenabled (h : s.regsWf) (p : Page) {ways : Nat} (hways : ways < 2 ^ 16) {w : Nat} (hw : w < 16) :
    bitOf ((s.waysReenabled p ways).fld p Reg.TCACHE_STAT_WAY_DIS) w =
      (bitOf (s.fld p Reg.TCACHE_STAT_WAY_DIS) w && !bitOf ways w) := by
  have hset : (s.waysEnabled p ways).regsWf := regsWf_setFld h p _ _ _
  have hkept : (s.waysReenabled p ways).fld p Reg.TCACHE_STAT_WAY_DIS = (s.waysEnabled p ways).fld p Reg.TCACHE_STAT_WAY_DIS :=
    fld_congr ((countsCleared_counts hset p ways).regs p _ fun w _ => regKey_off_ne (by
      change 0x104 + 4 * 0 ≠ 0x140 + 4 * w
      omega))
  have hfit : s.fld p Reg.TCACHE_STAT_WAY_DIS &&& (0xFFFF - ways) < 2 ^ 16 :=
    Nat.and_le_left.trans_lt (fld_lt s p Reg.TCACHE_STAT_WAY_DIS 0)
  rw [hkept, State.waysEnabled, fld_setFld_same h _ _ (by decide), ← bitOf_andNot hways hw]
  exact congrArg (bitOf · w) (Nat.mod_eq_of_lt hfit)

theorem errCount_waysReenabled (h : s.regsWf) (p : Page) (ways : Nat) {w : Nat} (hw : w < 16) :
    (s.waysReenabled p ways).fld p Reg.TCACHE_WAY_ERR_COUNT w =
      if bitOf ways w then 0 else s.fld p Reg.TCACHE_WAY_ERR_COUNT w := by
  have hset : (s.waysEnabled p ways).regsWf := regsWf_setFld h p _ _ _
  have hkept : (s.waysEnabled p ways).fld p Reg.TCACHE_WAY_ERR_COUNT w = s.fld p Reg.TCACHE_WAY_ERR_COUNT w :=
    fld_setFld_of_disjoint (f := Reg.TCACHE_STAT_WAY_DIS) h (by decide) (.inl (regKey_off_ne (p := p) (by
      change 0x140 + 4 * w ≠ 0x104 + 4 * 0
      omega))) _
  rw [← hkept]
  exact (countsCleared_counts hset p ways).counts w hw

/-- The state in which a 32-bit write of fields that the block sets itself acts, for the requester that has the page unlocked. -/
def State.unlockedAt (s : State) (p : Page) (who : Requester) (off : Nat) : State := (s.ctrlArrived p who).restored p off

theorem unlockedAt_pagesOnly (s : State) (p : Page) (who : Requester) (off : Nat) : PagesOnly s (s.unlockedAt p who off) :=
  (ctrlArrived_pagesOnly s p who).restored p off

theorem regsWf_unlockedAt (hc : Canon s) (p : Page) (who : Requester) (off : Nat) : (s.unlockedAt p who off).regsWf :=
  regsWf_setReg (regsWf_ctrlArrived hc p who) p off _

theorem reg_unlockedAt (hc : Canon s) (p : Page) (who : Requester) (off : Nat) (q : Page) {o : Nat} (ho : o < 4096) (hne : o ≠ 0x01C) :
    (s.unlockedAt p who off).reg q o = s.reg q o :=
  (reg_restored (regsWf_ctrlArrived hc p who) p q off o).trans (reg_ctrlArrived hc.regs p q ho hne who)

theorem locked_unlockedAt (hc : Canon s) {p : Page} (hl : (s.page p).lock = .unlocked who) (off : Nat) :
    ((s.unlockedAt p who off).page p).lock = .locked := (ctrlArrived_unlocked hc p who hl).2

theorem busWrite_wayReen (hc : Canon s) (hun : UnlockedFor s (tcachePage pd mc) who) (ways : Half) :
    s.busWrite who (tcachePage pd mc) 0x110 (ways.setWidth 32) =
      if ways.toNat = 0 then (s.unlockedAt (tcachePage pd mc) who 0x110).waysReenabled (tcachePage pd mc) ways.toNat
      else ((s.unlockedAt (tcachePage pd mc) who 0x110).waysReenabled (tcachePage pd mc) ways.toNat).modTc pd mc
        fun t => { t with lastWay := false } := by
  have hact (u : State) (old n : Nat) : u.regAct who (tcachePage pd mc) 0x110 old n .none = u.actWayReen (tcachePage pd mc) n := rfl
  have hmod : ways.toNat % 2 ^ 16 = ways.toNat := Nat.mod_eq_of_lt ways.isLt
  rw [(ownRegister_wayReen pd mc).busWrite_unlocked hc hun (by decide) (by decide) rfl, hact, actWayReen_eq,
    storeFields_own (by decide), toNat_half, hmod, mcOfPage_tcachePage]
  rfl

theorem tcWayReen_completes (hc : Canon s) (ways : Half) (hun : UnlockedFor s (tcachePage pd mc) who) :
    Completes (.tcWayReen who pd mc ways) s fun t =>
      (∀ w, w < 16 → bitOf (t.fld (tcachePage pd mc) Reg.TCACHE_STAT_WAY_DIS) w =
        (bitOf (s.fld (tcachePage pd mc) Reg.TCACHE_STAT_WAY_DIS) w && !ways.getLsbD w)) ∧
      (∀ w, w < 16 → t.fld (tcachePage pd mc) Reg.TCACHE_WAY_ERR_COUNT w =
        if ways.getLsbD w then 0 else s.fld (tcachePage pd mc) Reg.TCACHE_WAY_ERR_COUNT w) ∧
      (ways ≠ 0 → (t.tc pd mc).lastWay = false) ∧ (t.page (tcachePage pd mc)).lock = .locked ∧
      t = { s with tcs := t.tcs, regs := t.regs, pages := t.pages } := by
  have ⟨_, hl⟩ := hun
  have hw := regsWf_unlockedAt (who := who) hc (tcachePage pd mc) 0x110
  obtain ⟨r, hr⟩ := waysReenabled_frame hw (tcachePage pd mc) ways.toNat
  have hall := (unlockedAt_pagesOnly s (tcachePage pd mc) who 0x110).trans ⟨_, _, hr⟩
  have hreg {o : Nat} := reg_unlockedAt (who := who) hc (tcachePage pd mc) 0x110 (tcachePage pd mc) (o := o)
  have hbit (w : Nat) : ways.getLsbD w = bitOf ways.toNat w := (bitOf_testBit _ _).symm
  have hdis (w : Nat) (hi : w < 16) := wayDis_waysReenabled hw (tcachePage pd mc) ways.isLt hi
  have hcount (w : Nat) (hi : w < 16) := errCount_waysReenabled hw (tcachePage pd mc) ways.toNat hi
  have hold : (s.unlockedAt (tcachePage pd mc) who 0x110).fld (tcachePage pd mc) Reg.TCACHE_STAT_WAY_DIS =
      s.fld (tcachePage pd mc) Reg.TCACHE_STAT_WAY_DIS := fld_congr (hreg (by decide) (by decide))
  have holdCount {w : Nat} (hi : w < 16) : (s.unlockedAt (tcachePage pd mc) who 0x110).fld (tcachePage pd mc) Reg.TCACHE_WAY_ERR_COUNT w =
      s.fld (tcachePage pd mc) Reg.TCACHE_WAY_ERR_COUNT w := by
    have ho : Reg.TCACHE_WAY_ERR_COUNT.off + Reg.TCACHE_WAY_ERR_COUNT.stride * w = 0x140 + 4 * w := rfl
    exact fld_congr (hreg (by omega) (by omega))
  have hlock : (((s.unlockedAt (tcachePage pd mc) who 0x110).waysReenabled (tcachePage pd mc) ways.toNat).page (tcachePage pd mc)).lock =
      .locked := by
    rw [hr]
    exact locked_unlockedAt hc hl 0x110
  rw [hold] at hdis
  refine ⟨_, congrArg Host.Outcome.next (busWrite_wayReen hc hun ways), ?_⟩
  simp only [hbit]
  split
  case isTrue hzero =>
    exact ⟨hdis, fun w hi => (hcount w hi).trans (by rw [holdCount hi]),
      fun hne => absurd (BitVec.eq_of_toNat_eq hzero) hne, hlock, (hall.cacheKept (pd := pd) (mc := mc)).frame⟩
  case isFalse =>
    have hset := hall.cacheChanged (pd := pd) (mc := mc) hc.tcs fun t => { t with lastWay := false }
    exact ⟨hdis, fun w hi => (hcount w hi).trans (by rw [holdCount hi]), fun _ => congrArg TCache.lastWay hset.tc, hlock, hset.frame⟩

/-! NF_STAT (R189). -/

theorem ownRegister_nfStat (pd : PD) (mc : MC) : OwnRegister (mcorePage pd mc) 0x200 [Reg.NF_STAT_LAST_NAN, Reg.NF_STAT_LAST_INF,
    Reg.NF_STAT_LAST_VALID, Reg.NF_STAT_STICKY_NAN, Reg.NF_STAT_STICKY_INF, Reg.NF_STAT_FIRST_VALID, Reg.NF_STAT_TRAP_VALID] :=
  ownRegister_of (b := .mcore) rfl rfl (fun _ => rfl) (by decide) (by decide)

/-- FIRST_VALID written 1 drops the first-flag record and leaves the sticky bits. -/
theorem nfFirstValidClear_completes (hc : Canon s) (hacc : s.accessible (mcorePage pd mc) = true) :
    Completes (.nfFirstValidClear who pd mc) s fun t =>
      t.core pd mc = { s.core pd mc with nf := { (s.core pd mc).nf with firstRec := none } } ∧ OthersKept s t pd mc := by
  have hset := ((((arrived_pagesOnly s (mcorePage pd mc) who).restored (mcorePage pd mc) 0x200).coreBecomes (pd := pd) (mc := mc)
    hc.cores).modCore fun c => { c with nf := { c.nf with
      stickyNan := c.nf.stickyNan && !bitOf 0x400 8
      stickyInf := c.nf.stickyInf && !bitOf 0x400 9
      firstRec := if bitOf 0x400 10 then none else c.nf.firstRec } })
  have hact (u : State) (old : Nat) : u.regAct who (mcorePage pd mc) 0x200 old (0x400 : Word).toNat .none =
      u.actNfStat pd (mcOfPage (mcorePage pd mc)) 0x400 := rfl
  have hwrite : s.busWrite who (mcorePage pd mc) 0x200 0x400 =
      ((s.arrived (mcorePage pd mc) who).restored (mcorePage pd mc) 0x200).actNfStat pd mc 0x400 := by
    rw [(ownRegister_nfStat pd mc).busWrite_open hc hacc (by decide) (by decide) (heldSc_of_plain (by decide) _ _ _) rfl, hact,
      storeFields_own (by decide), mcOfPage_mcorePage]
  have h8 : bitOf 0x400 8 = false := by decide
  have h9 : bitOf 0x400 9 = false := by decide
  have h10 : bitOf 0x400 10 = true := by decide
  refine ⟨_, congrArg Host.Outcome.next hwrite, ?_⟩
  rw [State.actNfStat]
  refine ⟨hset.core.trans ?_, hset.kept⟩
  simp only [h8, h9, h10, Bool.not_false, Bool.and_true, if_true]

end

end Sys2Proof.Machine
end

section
/-!
SUPPORT. A Turnstile that takes an operation or a value of the Turnstile page (R252, R257 to R261, R266).
-/
open Sys2Proof.Claims

namespace Sys2Proof.Machine

/-- t has c in the Turnstile k, the others of s, and differs from s else by what Records names. -/
structure CellBecomes (k : Nat) (s t : State) (c : TsCell) : Prop where
  rises : rising t.ts.cells = true
  cell : t.tsCell k = c
  others : ∀ j, j ≠ k → t.tsCell j = s.tsCell j
  kept : ∃ m, Records { s with ts := { s.ts with cells := m } } t

section
variable {k : Nat} {s t u : State} {c : TsCell}

theorem CellBecomes.refl (hs : rising s.ts.cells = true) (k : Nat) : CellBecomes k s s (s.tsCell k) :=
  ⟨hs, rfl, fun _ _ => rfl, ⟨s.ts.cells, .refl s⟩⟩

theorem CellBecomes.records (h : CellBecomes k s t c) (hr : Records t u) : CellBecomes k s u c := by
  obtain ⟨m, hm⟩ := h.kept
  exact ⟨hr.ts ▸ h.rises, (hr.tsCell k).trans h.cell, fun j hj => (hr.tsCell j).trans (h.others j hj), ⟨m, hm.trans hr⟩⟩

theorem CellBecomes.setTsCell (h : CellBecomes k s t c) (d : TsCell) : CellBecomes k s (t.setTsCell k d) d := by
  refine ⟨rising_setTsCell h.rises k d, by rw [tsCell_setTsCell h.rises, if_pos rfl],
    fun j hj => by rw [tsCell_setTsCell h.rises, if_neg hj, h.others j hj], ?_⟩
  obtain ⟨m, ⟨r, p, q, f, tr, e, rfl⟩, hwf⟩ := h.kept
  exact ⟨mput (fun _ => {}) m k d, ⟨r, p, q, f, tr, e, rfl⟩, hwf⟩

theorem CellBecomes.cores (h : CellBecomes k s t c) : t.cores = s.cores := by
  obtain ⟨m, hm⟩ := h.kept
  exact hm.cores

theorem CellBecomes.pages (h : CellBecomes k s t c) : t.pages = s.pages := by
  obtain ⟨m, ⟨r, p, q, f, tr, e, rfl⟩, -⟩ := h.kept
  rfl

/-- The waits and the operations on their way are as before. -/
theorem CellBecomes.lists (h : CellBecomes k s t c) : t.ts.waits = s.ts.waits ∧ t.ts.ops = s.ts.ops ∧ t.ts.remote = s.ts.remote := by
  obtain ⟨m, ⟨r, p, q, f, tr, e, rfl⟩, -⟩ := h.kept
  exact ⟨rfl, rfl, rfl⟩

/-- The cell that a store leaves: the value and its tag, with those of the step before it. -/
def TsCell.stored (c : TsCell) (step v tag : Nat) : TsCell :=
  let c1 := if c.step = step then c else { c with step := step, base := c.v, hist := [], adds := [] }
  { c1 with v := v, tag := tag, hist := (v, tag) :: c1.hist }

/-- The cell with its flag set, with an add noted, and with a page's write noted. -/
def TsCell.flagged (c : TsCell) : TsCell := { c with sticky := true }
def TsCell.added (c : TsCell) (beat n : Nat) : TsCell := { c with adds := (beat, n) :: c.adds }
def TsCell.poked (c : TsCell) (beat : Nat) : TsCell := { c with poke := some beat }

theorem CellBecomes.tsStore (h : CellBecomes k s t c) (v tag : Nat) :
    CellBecomes k s (t.tsStore k v tag) (c.stored t.sched.step.toNat v tag) := by
  have hset := h.setTsCell (c.stored t.sched.step.toNat v tag)
  rw [← h.cell] at hset ⊢
  exact hset.records ((Records.refl _).ite (traceTs_records _ k v))

theorem CellBecomes.tsMisuse (h : CellBecomes k s t c) (kind v lc src : Nat) :
    ∃ d : TsCell, d.v = c.v ∧ CellBecomes k s (t.tsMisuse k kind v lc src) d := by
  have hv : (t.tsCell k).v = c.v := congrArg TsCell.v h.cell
  unfold State.tsMisuse
  dsimp only
  split
  · exact ⟨c, rfl, h.records (bump_records t _ _ 1 0)⟩
  · exact ⟨(t.tsCell k).flagged, hv,
      (h.setTsCell (t.tsCell k).flagged).records ((report_records _ _ _ _ _ _).trans (setInt_records (State.report _ _ _ _ _ _) _ 1))⟩

/-- An operation that takes effect leaves the sum or the difference, saturated (R252, R258). -/
theorem CellBecomes.tsApply (h : CellBecomes k s t c) (sub : Bool) (n tag lc src : Nat) :
    ∃ d : TsCell, d.v = (if sub then c.v - n else min (c.v + n) tsMax) ∧ CellBecomes k s (t.tsApply k sub n tag lc src) d := by
  have hv : (t.tsCell k).v = c.v := congrArg TsCell.v h.cell
  unfold State.tsApply
  rw [hv]
  cases sub with
  | true =>
    have hset := h.tsStore (c.v - n) tag
    simp only [if_true]
    split
    · exact hset.tsMisuse 1 _ _ _
    · exact ⟨_, rfl, hset⟩
  | false =>
    have hset := h.tsStore (min (c.v + n) tsMax) tag
    simp only [Bool.false_eq_true, if_false]
    have hadds := hset.setTsCell (((t.tsStore k (min (c.v + n) tsMax) tag).tsCell k).added t.clock.beats.toNat n)
    have hval : ((t.tsStore k (min (c.v + n) tsMax) tag).tsCell k).v = min (c.v + n) tsMax := congrArg TsCell.v hset.cell
    split
    · obtain ⟨d, hd, hbec⟩ := hadds.tsMisuse 0 c.v lc src
      exact ⟨d, hd.trans hval, hbec⟩
    · exact ⟨((t.tsStore k (min (c.v + n) tsMax) tag).tsCell k).added t.clock.beats.toNat n, hval, hadds⟩

theorem debugTouch_records (s : State) (pd : PD) : Records s (s.debugTouch pd) := by
  unfold State.debugTouch
  split
  · exact setFlag_records _ _ _ _ 0
  · exact .refl s

theorem tsPoke_eq (s : State) (k v : Nat) : s.tsPoke k v =
    ((s.tsStore k (v % 2 ^ 31) 0).setTsCell k
      (((s.tsStore k (v % 2 ^ 31) 0).tsCell k).poked s.clock.beats.toNat)).debugTouch (keyPd k) := by
  rw [State.tsPoke]
  rfl

/-- A value written through a page stands with tag 0 (R261). -/
theorem CellBecomes.tsPoke (h : CellBecomes k s t c) (v : Nat) :
    ∃ d : TsCell, d.v = v % 2 ^ 31 ∧ d.tag = 0 ∧ CellBecomes k s (t.tsPoke k v) d := by
  have hset := h.tsStore (v % 2 ^ 31) 0
  have hpoke := hset.setTsCell (((t.tsStore k (v % 2 ^ 31) 0).tsCell k).poked t.clock.beats.toNat)
  rw [tsPoke_eq]
  have htouched := hpoke.records (debugTouch_records _ (keyPd k))
  exact ⟨((t.tsStore k (v % 2 ^ 31) 0).tsCell k).poked t.clock.beats.toNat,
    congrArg (fun x : TsCell => x.v) hset.cell, congrArg (fun x : TsCell => x.tag) hset.cell, htouched⟩

end

/-! A remote post (R254). -/

section
variable {s : State} {pd : PD} {o : TsOp}

/-- The Turnstiles with one operation on its way, or none. -/
def State.opsSet (s : State) (l : List TsOp) : State := { s with ts := { s.ts with remote := [], ops := l } }

theorem tsRemotePost_arrives (hone : s.ts.remote = [o]) (hkey : keyPd o.key = pd) (hidle : s.ts.ops = []) :
    exec (.tsRemotePost pd) s = .next ((s.opsSet []).tsAt o) := by
  have hexec : exec (.tsRemotePost pd) s = execTsRemotePost pd s := rfl
  simp [hexec, execTsRemotePost, hone, hkey, hidle, State.opsSet]

theorem tsAt_waits (hfuture : s.clock.beats.toNat < o.y) : (s.opsSet []).tsAt o = s.opsSet [o] :=
  if_neg (Nat.not_le.mpr hfuture)

/-- An operation whose beat has come is applied, alone. -/
theorem tsAt_applies (hdue : o.y ≤ s.clock.beats.toNat) :
    (s.opsSet []).tsAt o = (s.opsSet []).tsApply o.key o.sub o.k o.sbeat o.lc o.src := by
  have hlate : ¬ s.clock.beats.toNat < o.y := Nat.not_lt.mpr hdue
  have hat : (s.opsSet []).tsAt o = (s.opsSet [o]).tsDue s.clock.beats.toNat := if_pos hdue
  rw [hat, State.tsDue]
  simp [State.opsSet, hdue, hlate, sortOps, insOp]

theorem tsRemotePost_completes (hc : Canon s) (hone : s.ts.remote = [o]) (hkey : keyPd o.key = pd) (hidle : s.ts.ops = [])
    (hdue : o.y ≤ s.clock.beats.toNat) : Completes (.tsRemotePost pd) s fun t =>
      t.ts.remote = [] ∧ t.ts.ops = [] ∧ (∀ k, k ≠ o.key → t.tsCell k = s.tsCell k) ∧
      (t.tsCell o.key).v = if o.sub then (s.tsCell o.key).v - o.k else min ((s.tsCell o.key).v + o.k) tsMax := by
  obtain ⟨d, hd, hset⟩ := (CellBecomes.refl (s := s.opsSet []) hc.cells o.key).tsApply o.sub o.k o.sbeat o.lc o.src
  obtain ⟨-, hops, hremote⟩ := hset.lists
  refine ⟨_, tsRemotePost_arrives hone hkey hidle, ?_⟩
  rw [tsAt_applies hdue]
  exact ⟨hremote, hops, hset.others, (congrArg (fun x : TsCell => x.v) hset.cell).trans hd⟩

end

/-! TS_VALUE and TS_SEL (R261, R266). -/

/-- Registers of a block's own are none of those that errors and interrupts write. -/
theorem blockReg_notMem_errIrq {p : Page} {off : Nat} (ho : 0x100 ≤ off ∧ off < 4096) (hp : p.blk ≠ .cpucl) :
    regKey p off ∉ errKeys p ∪ irqKeys := by
  rintro (⟨o, hmem, heq⟩ | h)
  · have hlow : o < 0x100 := by
      simp only [List.mem_cons, List.not_mem_nil, or_false] at hmem
      omega
    exact regKey_off_ne (p := p) (by omega) heq
  · exact regKey_notMem_irqKeys (by omega) (by omega) (fun hb => absurd hb hp) h

section
variable {s t : State} {who : Requester} {pd : PD}

theorem ownRegister_tsValue (pd : PD) : OwnRegister (diePage .tstile pd) 0x104 [Reg.TS_VALUE_VALUE] :=
  ownRegister_of (b := .tstile) rfl rfl (fun _ => rfl) (by decide) (by decide)

theorem ownRegister_tsSel (pd : PD) :
    OwnRegister (diePage .tstile pd) 0x100 [Reg.TS_SEL_INDEX, Reg.TS_SEL_POOL, Reg.TS_SEL_SLOT] :=
  ownRegister_of (b := .tstile) rfl rfl (fun _ => rfl) (by decide) (by decide)

theorem PagesOnly.selKey (h : PagesOnly s t) (sel : Nat) : t.selKey pd sel = s.selKey pd sel := by
  obtain ⟨r, q, rfl⟩ := h
  rfl

theorem busWrite_tsValue (hc : Canon s) (hun : UnlockedFor s (diePage .tstile pd) who) (v : Word) :
    s.busWrite who (diePage .tstile pd) 0x104 v = (s.unlockedAt (diePage .tstile pd) who 0x104).tsPoke
      (s.selKey pd (s.reg (diePage .tstile pd) 0x100).toNat) (v.toNat % 2 ^ 31) := by
  have hact (u : State) (old n : Nat) : u.regAct who (diePage .tstile pd) 0x104 old n .none =
      u.tsPoke (u.selKey pd (u.reg (diePage .tstile pd) 0x100).toNat) (n % 2 ^ 31) := rfl
  rw [(ownRegister_tsValue pd).busWrite_unlocked hc hun (by decide) (by decide) rfl, hact, storeFields_own (by decide),
    ← State.unlockedAt, (unlockedAt_pagesOnly s _ who _).selKey, reg_unlockedAt hc _ who _ _ (by decide) (by decide)]

theorem tsValueWrite_completes (hc : Canon s) (v : Word) (hun : UnlockedFor s (diePage .tstile pd) who) :
    Completes (.tsValueWrite who pd v) s fun t =>
      (t.tsCell (s.selKey pd (s.reg (diePage .tstile pd) 0x100).toNat)).v = v.toNat % 2 ^ 31 ∧
      (t.tsCell (s.selKey pd (s.reg (diePage .tstile pd) 0x100).toNat)).tag = 0 ∧
      (∀ k, k ≠ s.selKey pd (s.reg (diePage .tstile pd) 0x100).toNat → t.tsCell k = s.tsCell k) ∧
      (t.page (diePage .tstile pd)).lock = .locked ∧ t.cores = s.cores ∧ t.ts.waits = s.ts.waits := by
  have ⟨_, hl⟩ := hun
  have hpages := unlockedAt_pagesOnly s (diePage .tstile pd) who 0x104
  have hrises : rising (s.unlockedAt (diePage .tstile pd) who 0x104).ts.cells = true := hpages.ts ▸ hc.cells
  obtain ⟨d, hv, htag, hset⟩ :=
    (CellBecomes.refl hrises (s.selKey pd (s.reg (diePage .tstile pd) 0x100).toNat)).tsPoke (v.toNat % 2 ^ 31)
  obtain ⟨hwaits, -⟩ := hset.lists
  refine ⟨_, congrArg Host.Outcome.next (busWrite_tsValue hc hun v), ?_⟩
  beta_reduce
  rw [hset.cell, hv, htag, Nat.mod_mod, State.page, hset.pages, hset.cores, hwaits, hpages.cores, hpages.ts]
  refine ⟨rfl, rfl, fun k hk => (hset.others k hk).trans ?_, locked_unlockedAt hc hl 0x104, rfl, rfl⟩
  rw [State.tsCell, hpages.ts, State.tsCell]

/-- The three fields of TS_SEL lie side by side from bit 0. -/
theorem storedWord_tsSel (n v : Nat) : storedWord [Reg.TS_SEL_INDEX, Reg.TS_SEL_POOL, Reg.TS_SEL_SLOT] n v % 2 ^ 18 = v % 2 ^ 18 := by
  have hword : storedWord [Reg.TS_SEL_INDEX, Reg.TS_SEL_POOL, Reg.TS_SEL_SLOT] n v =
      withBits (withBits (withBits n 0 12 (bitsOf v 0 12)) 12 1 (bitsOf v 12 1)) 13 5 (bitsOf v 13 5) := rfl
  rw [hword]
  refine Nat.eq_of_testBit_eq fun i => ?_
  rw [Nat.testBit_mod_two_pow, Nat.testBit_mod_two_pow, testBit_withBits, testBit_withBits, testBit_withBits, testBit_bitsOf,
    testBit_bitsOf, testBit_bitsOf]
  by_cases hi : i < 18
  · interval_cases i <;> simp
  · simp [hi]

theorem storedWord_tsSel_lt {n v : Nat} (hn : n < 2 ^ 32) :
    storedWord [Reg.TS_SEL_INDEX, Reg.TS_SEL_POOL, Reg.TS_SEL_SLOT] n v < 2 ^ 32 :=
  withBits_lt (withBits_lt (withBits_lt hn (by decide) _) (by decide) _) (by decide) _

theorem reserved_tsSel (s : State) (pd : PD) (v : Nat) :
    s.reservedWrite (diePage .tstile pd) 0x100 [Reg.TS_SEL_INDEX, Reg.TS_SEL_POOL, Reg.TS_SEL_SLOT] v = selReserved v := rfl

theorem tsSelWrite_selects (hc : Canon s) {v : Word} (hacc : s.accessible (diePage .tstile pd) = true)
    (hres : selReserved v.toNat = false) :
    Completes (.tsSelWrite who pd v) s fun t =>
      (t.reg (diePage .tstile pd) 0x100).toNat % 2 ^ 18 = v.toNat % 2 ^ 18 ∧ t = { s with regs := t.regs, pages := t.pages } := by
  have hw := regsWf_arrived hc.regs (diePage .tstile pd) who
  have hact (u : State) (old n : Nat) : u.regAct who (diePage .tstile pd) 0x100 old n .none = u := rfl
  refine ⟨_, congrArg Host.Outcome.next ((ownRegister_tsSel pd).busWrite_open hc hacc (by decide) (by decide)
    (heldSc_of_plain (by decide) _ _ _) ((reserved_tsSel _ pd _).trans hres)), ?_⟩
  rw [hact, State.storeFields, if_neg Bool.false_ne_true]
  refine ⟨?_, ((arrived_pagesOnly s _ who).setReg _ _ _).eq⟩
  rw [reg_setReg hw, if_pos rfl, BitVec.toNat_ofNat, Nat.mod_eq_of_lt (storedWord_tsSel_lt (BitVec.isLt _)), storedWord_tsSel]

/-- The selection keeps its value, with an error (R9, R266). -/
theorem tsSelWrite_refused (hc : Canon s) {v : Word} (hacc : s.accessible (diePage .tstile pd) = true)
    (hres : selReserved v.toNat = true) :
    Completes (.tsSelWrite who pd v) s fun t =>
      t.reg (diePage .tstile pd) 0x100 = s.reg (diePage .tstile pd) 0x100 ∧ t.flag (diePage .tstile pd) Reg.BLK_STAT_ERR = true ∧
      t.ts = s.ts := by
  have hw := regsWf_arrived hc.regs (diePage .tstile pd) who
  refine ⟨_, congrArg Host.Outcome.next ((ownRegister_tsSel pd).busWrite_reserved hc hacc (by decide)
    ((reserved_tsSel _ pd _).trans hres)), ?_, flag_headerError hw _ _ _ _ _, ?_⟩
  · exact (reg_headerError_of_notMem hw _ _ _ _ _ (blockReg_notMem_errIrq (by decide) Blk.noConfusion)).trans
      (reg_arrived_of_off hc.regs _ _ (by decide) (by decide) who)
  · obtain ⟨r, c, q, h⟩ := headerError_frame (s := s.arrived (diePage .tstile pd) who) (diePage .tstile pd) 1 0x100 who
      (BitVec.ofNat 32 v.toNat)
    rw [h]
    exact (arrived_pagesOnly s _ who).ts

end

end Sys2Proof.Machine
end

section
/-!
SUPPORT. The end of a command of a register page; the die pool and its commands (R54, R251, R264, R265).
-/
open Sys2Proof.Claims

namespace Sys2Proof.Machine

/-! A command's end. -/

/-- The registers of a command once it has ended with a code, and the page's interrupt. -/
def State.ended (s : State) (p : Page) (go code valid : RegField) (n : Nat) : State :=
  (((s.setFlag p go false).setFld p code n).setFlag p valid true).setInt p 3

/-- GO stands in a command register of a block's own, CODE and VALID in its status register. -/
structure CmdFields (go code valid : RegField) : Prop where
  own : (0x100 ≤ go.off ∧ go.off < 4096) ∧ 0x100 ≤ code.off ∧ code.off < 4096
  apart : go.off ≠ code.off ∧ valid.off = code.off ∧ code.lo + code.w ≤ valid.lo
  fits : (go.lo + go.w ≤ 32 ∧ 0 < go.w) ∧ code.lo + code.w ≤ 32 ∧ valid.lo + valid.w ≤ 32 ∧ 0 < valid.w

section
variable {s : State} {p : Page} {go code valid : RegField}

theorem ended_records (s : State) (p : Page) (go code valid : RegField) (n : Nat) : Records s (s.ended p go code valid n) := by
  have hcode (u : State) : Records u (u.setFld p code n) := ⟨⟨_, _, _, _, _, _, rfl⟩, fun h => regsWf_setFld h _ _ _ 0⟩
  exact (((setFlag_records s p go false 0).trans (hcode _)).trans (setFlag_records _ p valid true 0)).trans (setInt_records _ p 3)

theorem ended_status (hf : CmdFields go code valid) (hp : p.blk ≠ .cpucl) (hs : s.regsWf) {n : Nat} (hn : n < 2 ^ code.w) :
    Ended (s.ended p go code valid n) p go code valid 3 n := by
  obtain ⟨⟨hgo, hcode⟩, ⟨hne, hoff, hbits⟩, ⟨hgw, hgpos⟩, hcw, hvw, hvpos⟩ := hf
  have h1 := regsWf_setFlag hs p go false
  have h2 := regsWf_setFld h1 p code n 0
  have h3 := regsWf_setFlag h2 p valid true
  have hreg {off : Nat} (ho : 0x100 ≤ off ∧ off < 4096) :=
    (setInt_raises (((s.setFlag p go false).setFld p code n).setFlag p valid true) p 3).toWritesOnly.reg h3
      fun h => blockReg_notMem_errIrq ho hp (Or.inr h)
  have hkey : regKey p (go.off + go.stride * 0) ≠ regKey p (code.off + code.stride * 0) := regKey_off_ne hne
  have hkey' : regKey p (go.off + go.stride * 0) ≠ regKey p (valid.off + valid.stride * 0) := regKey_off_ne (hoff ▸ hne)
  refine ⟨?_, ?_, ?_, cause_setInt h3 p (by decide)⟩
  · refine (flag_congr (i := 0) (hreg hgo)).trans ((flag_congr (s := s.setFlag p go false) ?_).trans
      (flag_setFlag_same hs p hgw hgpos false))
    exact (reg_setFld_of_ne h2 hkey' _).trans (reg_setFld_of_ne h1 hkey _)
  · rw [State.ended, fld_congr (i := 0) (hreg hcode), State.setFlag, fld_setFld_of_disjoint h2 hvw (.inr (by omega)),
      fld_setFld_same h1 p code hcw]
    exact Nat.mod_eq_of_lt hn
  · exact (flag_congr (i := 0) (hreg (hoff ▸ hcode))).trans (flag_setFlag_same h2 p hvw hvpos true)

end

/-! A pool's command ends (R265). -/

section
variable {s t : State} {who : Requester} {pd : PD}

theorem cmdFields_pool : CmdFields Reg.TS_CMD_GO Reg.TS_CMD_STATUS_CODE Reg.TS_CMD_STATUS_VALID :=
  ⟨by decide, by decide, by decide⟩

theorem tstileEnd_eq (s : State) (pd : PD) (code : Nat) : s.tstileEnd pd code =
    s.ended (diePage .tstile pd) Reg.TS_CMD_GO Reg.TS_CMD_STATUS_CODE Reg.TS_CMD_STATUS_VALID code := rfl

theorem tstileEnd_records (s : State) (pd : PD) (code : Nat) : Records s (s.tstileEnd pd code) := by
  rw [tstileEnd_eq]
  exact ended_records s _ _ _ _ code

theorem poolEnded_tstileEnd (hs : s.regsWf) {code : Nat} (hcode : code < 256) : PoolEnded (s.tstileEnd pd code) pd code := by
  rw [tstileEnd_eq]
  exact ended_status cmdFields_pool Blk.noConfusion hs hcode

/-! A pool's command goes (R265). -/

theorem ownRegister_tsCmd (pd : PD) : OwnRegister (diePage .tstile pd) 0x120 [Reg.TS_CMD_CMD, Reg.TS_CMD_GO] :=
  ownRegister_of (b := .tstile) rfl rfl (fun _ => rfl) (by decide) (by decide)

/-- The state in which a command written with GO is judged. -/
def State.poolCommanded (s : State) (who : Requester) (pd : PD) (n : Nat) : State :=
  (s.arrived (diePage .tstile pd) who).setFld (diePage .tstile pd) Reg.TS_CMD_CMD n

theorem poolCommanded_pagesOnly (s : State) (who : Requester) (pd : PD) (n : Nat) : PagesOnly s (s.poolCommanded who pd n) :=
  (arrived_pagesOnly s _ who).setFld _ _ _ _

theorem regsWf_poolCommanded (hc : Canon s) (n : Nat) : (s.poolCommanded who pd n).regsWf :=
  regsWf_setFld (regsWf_arrived hc.regs _ _) _ _ _ 0

theorem go_poolCommanded (hc : Canon s) (hidle : s.flag (diePage .tstile pd) Reg.TS_CMD_GO = false) (n : Nat) :
    (s.poolCommanded who pd n).flag (diePage .tstile pd) Reg.TS_CMD_GO = false := by
  have hcmd := fld_setFld_of_disjoint (regsWf_arrived hc.regs (diePage .tstile pd) who) (p := diePage .tstile pd)
    (q := diePage .tstile pd) (f := Reg.TS_CMD_CMD) (g := Reg.TS_CMD_GO) (i := 0) (j := 0) (by decide) (.inr (by decide)) n
  have hgo := flag_arrived_of_off hc.regs (diePage .tstile pd) (diePage .tstile pd) (f := Reg.TS_CMD_GO) (by decide) (by decide) who
  rw [State.flag, State.poolCommanded, hcmd, ← State.flag, hgo, hidle]

theorem rests_poolCommanded (s : State) (who : Requester) (pd : PD) (n : Nat) :
    (s.poolCommanded who pd n).tstileRests = s.tstileRests := by
  obtain ⟨r, q, h⟩ := poolCommanded_pagesOnly s who pd n
  rw [h]
  rfl

theorem poolGoBits {n : Nat} (hn : n < 4) : bitsOf (n + 4) 0 2 = n ∧ bitOf (n + 4) 2 = true ∧ (BitVec.ofNat 32 (n + 4)).toNat = n + 4 := by
  interval_cases n <;> decide

theorem storeFields_tsCmd (s : State) (pd : PD) {n : Nat} (hn : n < 4) :
    s.storeFields (diePage .tstile pd) 0x120 false [Reg.TS_CMD_CMD, Reg.TS_CMD_GO] (n + 4) =
      s.setFld (diePage .tstile pd) Reg.TS_CMD_CMD n := by
  have hget : Reg.TS_CMD_CMD.get (n + 4) = n := (poolGoBits hn).1
  have hstored (m : Nat) : storedWord [Reg.TS_CMD_CMD, Reg.TS_CMD_GO] m (n + 4) = withBits m 0 2 (Reg.TS_CMD_CMD.get (n + 4)) := rfl
  rw [State.storeFields, if_neg Bool.false_ne_true, hstored, hget]
  rfl

section
variable (hc : Canon s) (hacc : s.accessible (diePage .tstile pd) = true) (hwork : s.takesWork (diePage .tstile pd) = true)
  (hidle : s.flag (diePage .tstile pd) Reg.TS_CMD_GO = false)
include hc hacc hwork hidle

/-- A command written with GO to an idle TS_CMD goes. -/
theorem tstileCmd_goes {n : Nat} (hn : n < 4) : s.tstileCmd who pd n = (s.poolCommanded who pd n).tstileGo pd n := by
  obtain ⟨hcmd, hgo, hword⟩ := poolGoBits hn
  have hidle' := (flag_arrived_of_off hc.regs (diePage .tstile pd) (diePage .tstile pd) (f := Reg.TS_CMD_GO) (by decide) (by decide)
    who).trans hidle
  have hclear : ∀ f ∈ [Reg.TS_CMD_CMD, Reg.TS_CMD_GO], f.acc = .sc →
      f.get ((s.arrived (diePage .tstile pd) who).reg (diePage .tstile pd) 0x120).toNat ≠ 1 := fun f hf hacc => by
    obtain rfl | rfl := List.mem_pair.mp hf
    · cases hacc
    · exact get_of_flag hidle'
  have hworks : (s.poolCommanded who pd n).takesWork (diePage .tstile pd) = true :=
    ((takesWork_setFld (regsWf_arrived hc.regs _ _) _ (by decide) n).trans (takesWork_arrived hc _ _)).trans hwork
  have hact (u : State) (old : Nat) : u.regAct who (diePage .tstile pd) 0x120 old (n + 4) .none =
      if bitOf (n + 4) 2 then u.ifWorks (diePage .tstile pd) fun t => t.tstileGo pd (bitsOf (n + 4) 0 2) else u := rfl
  have hres : (s.arrived (diePage .tstile pd) who).reservedWrite (diePage .tstile pd) 0x120 [Reg.TS_CMD_CMD, Reg.TS_CMD_GO] (n + 4) =
      false := by interval_cases n <;> rfl
  rw [State.tstileCmd, (ownRegister_tsCmd pd).busWrite_open hc hacc (by decide) (by decide)
    (heldSc_of_clear hclear _ _) (by rw [hword]; exact hres), hword, hact, if_pos hgo, hcmd, storeFields_tsCmd _ _ hn, State.ifWorks]
  exact if_pos hworks

end

/-- A command that does not run ends at once. -/
theorem tstileGo_ends {n code : Nat} (hidle : s.flag (diePage .tstile pd) Reg.TS_CMD_GO = false)
    (h : s.tstileRests = false ∧ code = 0x30 ∨ s.tstileRests = true ∧ n = 0 ∧ code = 0) :
    s.tstileGo pd n = (s.setFlag (diePage .tstile pd) Reg.TS_CMD_STATUS_VALID false).tstileEnd pd code := by
  obtain ⟨hrest, rfl⟩ | ⟨hrest, rfl, rfl⟩ := h <;> simp [State.tstileGo, hidle, hrest]

/-- A command begins. -/
def State.poolBegun (s : State) (pd : PD) (n : Nat) : State :=
  { s with ts := { s.ts with run := mput (fun _ => 0) s.ts.run pd.val n } }

theorem tstileGo_begins {n : Nat} (hidle : s.flag (diePage .tstile pd) Reg.TS_CMD_GO = false) (hrest : s.tstileRests = true) (hn : n ≠ 0) :
    s.tstileGo pd n = ((s.setFlag (diePage .tstile pd) Reg.TS_CMD_STATUS_VALID false).poolBegun pd n).setFlag (diePage .tstile pd)
      Reg.TS_CMD_GO true := by
  simp only [State.tstileGo, hidle, hrest, hn, Bool.not_true, Bool.false_eq_true, if_false]
  rfl

section
variable (hc : Canon s) (hacc : s.accessible (diePage .tstile pd) = true) (hwork : s.takesWork (diePage .tstile pd) = true)
  (hidle : s.flag (diePage .tstile pd) Reg.TS_CMD_GO = false)
include hc hacc hwork hidle

/-- NONE and a command in another state than those of R265 change nothing of the Turnstiles. -/
theorem tstileCmd_ends {n code : Nat} (hn : n < 4) (hcode : code < 256)
    (h : s.tstileRests = false ∧ code = 0x30 ∨ s.tstileRests = true ∧ n = 0 ∧ code = 0) :
    PoolEnded (s.tstileCmd who pd n) pd code ∧ (s.tstileCmd who pd n).ts = s.ts := by
  rw [← rests_poolCommanded s who pd n] at h
  rw [tstileCmd_goes hc hacc hwork hidle hn, tstileGo_ends (go_poolCommanded hc hidle n) h]
  refine ⟨poolEnded_tstileEnd (regsWf_setFlag (regsWf_poolCommanded hc n) _ _ _) hcode, ?_⟩
  exact (tstileEnd_records _ pd code).ts.trans (poolCommanded_pagesOnly s who pd n).ts

theorem tstileCmd_begins {n : Nat} (hn : n < 4) (hpos : n ≠ 0) (hrest : s.tstileRests = true) :
    (s.tstileCmd who pd n).flag (diePage .tstile pd) Reg.TS_CMD_GO = true ∧
      (s.tstileCmd who pd n).flag (diePage .tstile pd) Reg.TS_CMD_STATUS_VALID = false ∧
      mget (fun _ => 0) (s.tstileCmd who pd n).ts.run pd.val = n ∧ (s.tstileCmd who pd n).ts.cells = s.ts.cells := by
  have hw := regsWf_poolCommanded (who := who) (pd := pd) hc n
  have hw1 : ((s.poolCommanded who pd n).setFlag (diePage .tstile pd) Reg.TS_CMD_STATUS_VALID false).regsWf := regsWf_setFlag hw _ _ _
  have hw2 : (((s.poolCommanded who pd n).setFlag (diePage .tstile pd) Reg.TS_CMD_STATUS_VALID false).poolBegun pd n).regsWf := hw1
  rw [← rests_poolCommanded s who pd n] at hrest
  rw [tstileCmd_goes hc hacc hwork hidle hn, tstileGo_begins (go_poolCommanded hc hidle n) hrest hpos]
  refine ⟨flag_setFlag_same hw2 _ (by decide) (by decide) true, ?_, ?_, ?_⟩
  · refine (flag_congr (reg_setFlag_of_ne hw2 (regKey_off_ne (by decide)) true)).trans ?_
    exact flag_setFlag_same hw _ (by decide) (by decide) false
  · refine Eq.trans (b := mget (fun _ => 0) (mput (fun _ => 0) (s.poolCommanded who pd n).ts.run pd.val n) pd.val) rfl ?_
    rw [mput, if_neg hpos, mget_minsert, if_pos rfl]
  · exact (congrArg Tiles.cells (poolCommanded_pagesOnly s who pd n).ts :)

end

end

/-! Maps without the entries of some keys. -/

section
variable {α : Type} {d : Nat → α} {keep : Nat → Bool}

theorem rising_filter {m : List (Nat × α)} {lo : Nat} (hm : risingFrom lo m = true) :
    risingFrom lo (m.filter fun c => keep c.1) = true := by
  induction m generalizing lo with
  | nil => rfl
  | cons p m ih =>
    obtain ⟨j, v⟩ := p
    simp only [risingFrom, Bool.and_eq_true, decide_eq_true_eq] at hm
    obtain ⟨hj, hm⟩ := hm
    rw [List.filter_cons]
    split
    · simp [risingFrom, hj, ih hm]
    · exact risingFrom_mono (by omega) (ih hm)

theorem mget_filter {m : List (Nat × α)} {lo : Nat} (hm : risingFrom lo m = true) (k : Nat) :
    mget d (m.filter fun c => keep c.1) k = if keep k then mget d m k else d k := by
  induction m generalizing lo with
  | nil => simp [mget]
  | cons p m ih =>
    obtain ⟨j, v⟩ := p
    simp only [risingFrom, Bool.and_eq_true, decide_eq_true_eq] at hm
    obtain ⟨hj, hm⟩ := hm
    rw [List.filter_cons]
    have hlow (h : k < j) : mget d m k = d k := mget_of_lt_rising hm (by omega)
    obtain rfl | hne := eq_or_ne k j
    · cases hk : keep k
      · simp [ih hm, hk]
      · simp [mget]
    · cases hk : keep j
      · by_cases hlt : k < j
        · simp [ih hm, mget, hne, hlt, hlow hlt]
        · simp [ih hm, mget, hne, hlt]
      · by_cases hlt : k < j
        · simp [mget, hne, hlt]
        · simp [ih hm, mget, hne, hlt]

end

/-! The die pool (R251, R264, R265). -/

section
variable {s t : State} {pd : PD}

theorem keyPd_poolKey (pd : PD) (i : Nat) : keyPd (poolKey pd i) = pd := by
  have hlt : poolKey pd i < 229376 := of_decide_eq_true (keyIsPool_poolKey pd i)
  have hdiv : poolKey pd i / 4096 = pd.val := by
    unfold poolKey
    omega
  rw [keyPd, if_pos hlt, hdiv]
  exact Fin.ext (Nat.mod_eq_of_lt pd.isLt)

theorem poolKey_inj {i j : Nat} (hi : i < 4096) (hj : j < 4096) : poolKey pd i = poolKey pd j ↔ i = j := by
  unfold poolKey
  omega

theorem rising_poolClear (hs : rising s.ts.cells = true) (pd : PD) : rising (s.poolClear pd).ts.cells = true :=
  rising_filter (keep := fun k => !(keyIsPool k && keyPd k == pd)) hs

theorem tsCell_poolClear (hs : rising s.ts.cells = true) (pd : PD) (k : Nat) :
    (s.poolClear pd).tsCell k = if !(keyIsPool k && keyPd k == pd) then s.tsCell k else {} :=
  mget_filter (keep := fun k => !(keyIsPool k && keyPd k == pd)) hs k

/-- CLEAR empties the pool's Turnstiles, and no other. -/
theorem poolClear_clears (hs : rising s.ts.cells = true) (pd : PD) : (∀ i, (s.poolClear pd).tsCell (poolKey pd i) = {}) ∧
    ∀ k, ¬(keyIsPool k = true ∧ keyPd k = pd) → (s.poolClear pd).tsCell k = s.tsCell k := by
  refine ⟨fun i => ?_, fun k hk => ?_⟩
  · simp [tsCell_poolClear hs, keyIsPool_poolKey, keyPd_poolKey]
  · rw [tsCell_poolClear hs, if_pos]
    rw [Bool.not_eq_true', Bool.and_eq_false_iff, beq_eq_false_iff_ne, ← Bool.not_eq_true]
    exact not_and_or.mp hk

/-- One Turnstile of the pool as its image gives it. -/
def poolCell (value : Nat → Nat) (sticky : Nat → Bool) (i : Nat) : TsCell := { v := value i, base := value i, sticky := sticky i }

/-- t is s but for its Turnstiles; the pool's first n are x. -/
structure PoolSet (pd : PD) (x : Nat → TsCell) (n : Nat) (s t : State) : Prop where
  frame : ∃ m, t = { s with ts := { s.ts with cells := m } }
  rises : rising t.ts.cells = true
  cells : ∀ i, i < n → t.tsCell (poolKey pd i) = x i

theorem poolSet_foldl (hs : rising s.ts.cells = true) (x : Nat → TsCell) {n : Nat} (hn : n ≤ 4096) :
    PoolSet pd x n s ((List.range n).foldl (fun t i => t.setTsCell (poolKey pd i) (x i)) s) := by
  induction n with
  | zero => exact ⟨⟨_, rfl⟩, hs, fun i hi => absurd hi (Nat.not_lt_zero i)⟩
  | succ n ih =>
    have ih := ih (by omega)
    rw [List.range_succ, List.foldl_append, List.foldl_cons, List.foldl_nil]
    obtain ⟨m, hm⟩ := ih.frame
    refine ⟨⟨_, by rw [hm]; rfl⟩, rising_setTsCell ih.rises _ _, fun i hi => ?_⟩
    rw [tsCell_setTsCell ih.rises]
    split
    case isTrue hk => rw [(poolKey_inj (by omega) (by omega)).mp hk]
    case isFalse hk => exact ih.cells i (lt_of_le_of_ne (by omega) fun h => hk (h ▸ rfl))

theorem poolLoad_sets (hs : rising s.ts.cells = true) (pd : PD) (value : Nat → Nat) (sticky : Nat → Bool) :
    PoolSet pd (poolCell value sticky) 4096 (s.poolClear pd) (s.poolLoad pd value sticky) :=
  poolSet_foldl (rising_poolClear hs pd) _ (le_refl 4096)

/-! A command of the pool completes (R265). -/

theorem tstileCmdDone_ends (hopen : s.fenced (diePage .tstile pd) = false) (hgo : s.flag (diePage .tstile pd) Reg.TS_CMD_GO = true)
    {cmd code : Nat} {u : State} (hcmd : mget (fun _ => 0) s.ts.run pd.val = cmd) (hrun : s.tstileRun pd cmd .none = (code, u)) :
    exec (.tstileCmdDone pd .none) s = .next (u.tstileEnd pd code) := by
  have hexec : exec (.tstileCmdDone pd .none) s = execTstileCmdDone pd .none s := rfl
  simp only [hexec, execTstileCmdDone, hopen, hgo, hcmd, hrun, Bool.false_eq_true, if_false, if_true]

theorem tstileRun_save {s1 : State} (hmem : s.memWrite (s.fld (diePage .tstile pd) Reg.TS_CTXID_CTXID)
    (s.reg64 (diePage .tstile pd) 0x118 % 2 ^ 52) (s.poolImage pd) = (0, s1)) : s.tstileRun pd 1 .none = (0, s1) := by
  delta State.tstileRun
  extract_lets p ctx a
  change s.memWrite ctx a _ = _ at hmem
  rw [hmem]
  rfl

theorem tstileRun_restore {bs : List Byte} {s1 : State} (hmem : s.memRead (s.fld (diePage .tstile pd) Reg.TS_CTXID_CTXID)
    (s.reg64 (diePage .tstile pd) 0x118 % 2 ^ 52) 16960 = (0, bs, s1)) (hok : poolImageOk bs = true) :
    s.tstileRun pd 2 .none = (0, s1.poolLoad pd (fun i => leNat ((bs.drop (0x40 + 4 * i)).take 4))
      fun i => bitOf (leNat ((bs.drop (0x4040 + i / 8)).take 1)) (i % 8)) := by
  have hgo : (!poolImageOk bs) = false := by rw [hok]; rfl
  delta State.tstileRun
  extract_lets p ctx a
  change s.memRead ctx a _ = _ at hmem
  rw [hmem]
  refine (if_neg (by decide)).trans ?_
  rw [hgo]
  rfl

section
variable (hc : Canon s) (hopen : s.fenced (diePage .tstile pd) = false) (hgo : s.flag (diePage .tstile pd) Reg.TS_CMD_GO = true)
include hc hopen hgo

theorem poolSave_completes (hcmd : mget (fun _ => 0) s.ts.run pd.val = 1) {s1 : State}
    (hmem : s.memWrite (s.fld (diePage .tstile pd) Reg.TS_CTXID_CTXID) (s.reg64 (diePage .tstile pd) 0x118 % 2 ^ 52) (s.poolImage pd) =
      (0, s1)) : Completes (.tstileCmdDone pd .none) s fun t =>
        t.memsys = s1.memsys ∧ t.ts.cells = s.ts.cells ∧ PoolEnded t pd 0 := by
  have hkept := memRun_of_memWrite hmem
  have hrec := tstileEnd_records s1 pd 0
  refine ⟨_, tstileCmdDone_ends hopen hgo hcmd (tstileRun_save hmem), ?_, ?_, poolEnded_tstileEnd (hkept.wf hc.regs) (by decide)⟩
  · obtain ⟨r, c, q, f, tr, e, h⟩ := hrec.frame
    rw [h]
  · exact congrArg Tiles.cells (hrec.ts.trans hkept.ts)

theorem poolRestore_completes (hcmd : mget (fun _ => 0) s.ts.run pd.val = 2) {bs : List Byte} {s1 : State}
    (hmem : s.memRead (s.fld (diePage .tstile pd) Reg.TS_CTXID_CTXID) (s.reg64 (diePage .tstile pd) 0x118 % 2 ^ 52) 16960 = (0, bs, s1))
    (hok : poolImageOk bs = true) : Completes (.tstileCmdDone pd .none) s fun t =>
        (∀ i, i < 4096 → (t.tsCell (poolKey pd i)).v = leNat ((bs.drop (0x40 + 4 * i)).take 4)) ∧ PoolEnded t pd 0 := by
  have hkept := memRun_of_memRead hmem
  have hrises : rising s1.ts.cells = true := hkept.ts ▸ hc.cells
  have hset := poolLoad_sets hrises pd (fun i => leNat ((bs.drop (0x40 + 4 * i)).take 4))
    fun i => bitOf (leNat ((bs.drop (0x4040 + i / 8)).take 1)) (i % 8)
  refine ⟨_, tstileCmdDone_ends hopen hgo hcmd (tstileRun_restore hmem hok), fun i hi => ?_, poolEnded_tstileEnd ?_ (by decide)⟩
  · rw [(tstileEnd_records _ pd 0).tsCell, hset.cells i hi, poolCell]
  · obtain ⟨m, hm⟩ := hset.frame
    rw [hm]
    exact hkept.wf hc.regs

theorem poolClear_completes (hcmd : mget (fun _ => 0) s.ts.run pd.val = 3) : Completes (.tstileCmdDone pd .none) s fun t =>
    (∀ i, t.tsCell (poolKey pd i) = {}) ∧ (∀ k, ¬(keyIsPool k = true ∧ keyPd k = pd) → t.tsCell k = s.tsCell k) ∧ PoolEnded t pd 0 := by
  have hrun : s.tstileRun pd 3 .none = (0, s.poolClear pd) := rfl
  have hw : (s.poolClear pd).regsWf := hc.regs
  obtain ⟨hclear, hothers⟩ := poolClear_clears hc.cells pd
  have hrec := tstileEnd_records (s.poolClear pd) pd 0
  refine ⟨_, tstileCmdDone_ends hopen hgo hcmd hrun, fun i => ?_, fun k hk => ?_, poolEnded_tstileEnd hw (by decide)⟩
  · rw [hrec.tsCell, hclear]
  · rw [hrec.tsCell, hothers k hk]

end

end

end Sys2Proof.Machine
end

section
open Sys2Proof Sys2Proof.Machine

/-- Settles O32: each register's action in the state that its write reaches, and the ends of the pool's commands. -/
theorem cacheAndTurnstileRegistersAct : Obligations.CacheAndTurnstileRegistersAct := by
  unfold Obligations.CacheAndTurnstileRegistersAct
  refine ⟨fun s hc who pd mc => ?_, fun s hc who pd => ?_⟩
  · exact ⟨tcInvAll_completes hc, tcWayReen_completes hc, tcLfsrWrite_completes hc, nfFirstValidClear_completes hc⟩
  · refine ⟨fun o hone hkey hidle => ⟨fun hfuture => ?_, tsRemotePost_completes hc hone hkey hidle⟩, tsValueWrite_completes hc,
      fun v hacc => ⟨tsSelWrite_selects hc hacc, tsSelWrite_refused hc hacc⟩,
      fun hacc hwork hidle => ⟨fun hrest => ?_, fun hrest => ?_, fun hrest n c hmem => ?_⟩,
      fun hopen hgo => ⟨fun hcmd s1 hmem => poolSave_completes hc hopen hgo hcmd hmem,
        fun hcmd bs s1 hmem hok => poolRestore_completes hc hopen hgo hcmd hmem hok, poolClear_completes hc hopen hgo⟩⟩
    · rw [tsRemotePost_arrives hone hkey hidle, tsAt_waits hfuture]
      rfl
    · exact ⟨_, rfl, tstileCmd_ends hc hacc hwork hidle (by decide) (by decide) (.inr ⟨hrest, rfl, rfl⟩)⟩
    · exact ⟨_, rfl, tstileCmd_ends hc hacc hwork hidle (n := 3) (by decide) (by decide) (.inl ⟨hrest, rfl⟩)⟩
    · have hbegins (m : Nat) (hm : m < 4) (hpos : m ≠ 0) := tstileCmd_begins (who := who) hc hacc hwork hidle hm hpos hrest
      simp only [List.mem_cons, Prod.mk.injEq, List.not_mem_nil, or_false] at hmem
      obtain ⟨rfl, rfl⟩ | ⟨rfl, rfl⟩ | ⟨rfl, rfl⟩ := hmem
      · exact ⟨_, rfl, hbegins 1 (by decide) (by decide)⟩
      · exact ⟨_, rfl, hbegins 2 (by decide) (by decide)⟩
      · exact ⟨_, rfl, hbegins 3 (by decide) (by decide)⟩
end

section
/-!
SUPPORT. What the schedule reads and other units leave alone: its own state, the cores, the ports, the die map, the clock and a
few registers (R140, R227, R250, R501 to R504).
-/
namespace Sys2Proof.Machine

/-- The registers that the schedule reads, by type code and offset: MCORE_CTRL, the port registers of state, shape, coordinates
and partition, and BLK_STAT, SCHED_PART and SCHED_RATIO of the lead controller. -/
def stageReg (code off : Nat) : Bool :=
  match code with
  | 3 => off == 0x100
  | 16 => off == 0x104 || off == 0x110 || off == 0x114 || off == 0x118
  | 17 => off == 0x00C || off == 0x114 || off == 0x13C
  | _ => false

def stageKeys : Set Nat := {k | stageReg (k / 0x1000000) (k % 4096) = true}

theorem regKey_stage {p : Page} {off : Nat} (ho : off < 4096) : regKey p off ∈ stageKeys ↔ stageReg (blkCode p.blk) off = true := by
  rw [stageKeys, Set.mem_ofPred_eq, regKey_div ho, regKey_mod ho]

theorem irqKeys_offstage {k : Nat} (hk : k ∈ irqKeys) : k ∉ stageKeys := by
  rintro (h : stageReg _ _ = true)
  obtain hint | ⟨hcl, -⟩ := hk
  · rw [hint] at h
    revert h
    unfold stageReg
    split <;> decide
  · rw [show k / 0x1000000 = 15 from hcl] at h
    exact Bool.false_ne_true h

/-- t has the die map and the clock of s, and its registers with keys in K. -/
structure Backstage (K : Set Nat) (s t : State) : Prop where
  dies : t.dies = s.dies
  clock : t.clock = s.clock
  wf : s.regsWf → t.regsWf
  regs : s.regsWf → ∀ k ∈ K, mget regReset t.regs k = mget regReset s.regs k

namespace Backstage
variable {K : Set Nat} {s t u : State}

theorem refl (s : State) : Backstage K s s := ⟨rfl, rfl, id, fun _ _ _ => rfl⟩

theorem trans (h : Backstage K s t) (h' : Backstage K t u) : Backstage K s u where
  dies := h'.dies.trans h.dies
  clock := h'.clock.trans h.clock
  wf := h'.wf ∘ h.wf
  regs hs k hk := (h'.regs (h.wf hs) k hk).trans (h.regs hs k hk)

theorem mono {K' : Set Nat} (h : Backstage K s t) (hK : K' ⊆ K) : Backstage K' s t :=
  ⟨h.dies, h.clock, h.wf, fun hs k hk => h.regs hs k (hK hk)⟩

theorem ite {c : Prop} [Decidable c] (h : Backstage K s t) (h' : Backstage K s u) : Backstage K s (if c then t else u) := by
  split
  · exact h
  · exact h'

theorem foldl {α : Type} {f : State → α → State} (h : ∀ u a, Backstage K u (f u a)) (l : List α) (s : State) :
    Backstage K s (l.foldl f s) := by
  induction l generalizing s with
  | nil => exact .refl s
  | cons a l ih => exact (h s a).trans (ih _)

/-- A change of parts that are neither registers nor the die map nor the clock. -/
theorem same (hregs : t.regs = s.regs) (hdies : t.dies = s.dies) (hclock : t.clock = s.clock) : Backstage K s t where
  dies := hdies
  clock := hclock
  wf h := by rwa [State.regsWf, hregs]
  regs _ _ _ := by rw [hregs]

theorem reg (h : Backstage K s t) (hs : s.regsWf) {p : Page} {off : Nat} (hk : regKey p off ∈ K) : t.reg p off = s.reg p off :=
  h.regs hs _ hk

end Backstage

theorem LogWrites.backstage {W K : Set Nat} {s t : State} (h : LogWrites W s t) (hK : ∀ k ∈ W, k ∉ K) : Backstage K s t where
  dies := by
    obtain ⟨q, r, c, f, rfl⟩ := h.frame
    rfl
  clock := by
    obtain ⟨q, r, c, f, rfl⟩ := h.frame
    rfl
  wf := h.wf
  regs hs k hk := h.regs hs k fun hw => hK k hw hk

/-- The parts of a state that the schedule reads. -/
def State.staged (s : State) := (s.regs, s.dies, s.clock, s.sched, s.cores, s.jal)

/-- t differs from s in nothing that the schedule reads. -/
structure Offstage (s t : State) : Prop extends Backstage stageKeys s t where
  sched : t.sched = s.sched
  cores : t.cores = s.cores
  jal : t.jal = s.jal

namespace Offstage
variable {s t u : State}

theorem refl (s : State) : Offstage s s := ⟨.refl s, rfl, rfl, rfl⟩

theorem trans (h : Offstage s t) (h' : Offstage t u) : Offstage s u :=
  ⟨h.toBackstage.trans h'.toBackstage, h'.sched.trans h.sched, h'.cores.trans h.cores, h'.jal.trans h.jal⟩

theorem ite {c : Prop} [Decidable c] (h : Offstage s t) (h' : Offstage s u) : Offstage s (if c then t else u) := by
  split
  · exact h
  · exact h'

/-- The state beside a code and bytes. -/
theorem ite_read {c : Prop} [Decidable c] {x y : Nat × List Byte × State} (h : Offstage s x.2.2) (h' : Offstage s y.2.2) :
    Offstage s (if c then x else y).2.2 := by
  split
  · exact h
  · exact h'

theorem foldl {α : Type} {f : State → α → State} (h : ∀ u a, Offstage u (f u a)) (l : List α) (s : State) :
    Offstage s (l.foldl f s) := by
  induction l generalizing s with
  | nil => exact .refl s
  | cons a l ih => exact (h s a).trans (ih _)

theorem foldl_snd {α β : Type} {f : β × State → α → β × State} (h : ∀ x a, Offstage x.2 (f x a).2) (l : List α) (x : β × State) :
    Offstage x.2 (l.foldl f x).2 := by
  induction l generalizing x with
  | nil => exact .refl x.2
  | cons a l ih => exact (h x a).trans (ih _)

/-- A change of parts that the schedule does not read. -/
theorem same (h : t.staged = s.staged) : Offstage s t := by
  simp only [State.staged, Prod.mk.injEq] at h
  obtain ⟨hregs, hdies, hclock, hsched, hcores, hjal⟩ := h
  exact ⟨.same hregs hdies hclock, hsched, hcores, hjal⟩

end Offstage

theorem LogWrites.offstage {W : Set Nat} {s t : State} (h : LogWrites W s t) (hK : ∀ k ∈ W, k ∉ stageKeys) : Offstage s t where
  toBackstage := h.backstage hK
  sched := by
    obtain ⟨q, r, c, f, rfl⟩ := h.frame
    rfl
  cores := by
    obtain ⟨q, r, c, f, rfl⟩ := h.frame
    rfl
  jal := by
    obtain ⟨q, r, c, f, rfl⟩ := h.frame
    rfl

section
variable (s : State)

/-- A register that the schedule does not read. -/
abbrev offReg (p : Page) (off : Nat) : Bool := decide (off < 4096) && !stageReg (blkCode p.blk) off

theorem setReg_offstage {p : Page} {off : Nat} (v : Word) (h : offReg p off = true) : Offstage s (s.setReg p off v) := by
  obtain ⟨ho, hn⟩ : off < 4096 ∧ stageReg (blkCode p.blk) off = false := by simpa [offReg] using h
  refine (WritesOnly.setReg (K := {regKey p off}) s rfl v).logWrites.offstage fun k hk => ?_
  rw [Set.mem_singleton_iff.mp hk, regKey_stage ho, hn]
  exact Bool.false_ne_true

theorem setFld_offstage {p : Page} {f : RegField} {i : Nat} (v : Nat) (h : offReg p (f.off + f.stride * i) = true) :
    Offstage s (s.setFld p f v i) := setReg_offstage s _ h

theorem setReg64_offstage {p : Page} {lo : Nat} (v : Nat) (h : offReg p lo = true) (h' : offReg p (lo + 4) = true) :
    Offstage s (s.setReg64 p lo v) := (setReg_offstage s _ h).trans (setReg_offstage _ _ h')

theorem setInt_offstage (p : Page) (i : Nat) : Offstage s (s.setInt p i) :=
  (setInt_raises s p i).toWritesOnly.logWrites.offstage fun _ => irqKeys_offstage

theorem bump_offstage {p : Page} {f : RegField} (n i : Nat) (h : offReg p (f.off + f.stride * i) = true) :
    Offstage s (s.bump p f n i) := by
  have hset := setFld_offstage s (min (s.fld p f i + n) (2 ^ f.w - 1)) h
  unfold State.bump
  dsimp only
  split
  · split
    · exact hset.trans (setInt_offstage _ _ _)
    · exact hset
  · exact hset

theorem report_offstage (p : Page) (num data : Nat) (dev : Bool) (beat : Option Nat) : Offstage s (s.report p num data dev beat) := .same rfl

theorem reportOpen_offstage (p : Page) (num : Nat) : Offstage s (s.reportOpen p num) := .same rfl

/-- An error that is not the schedule's own. -/
theorem capture_offstage {p : Page} (code off source data info2 info3 : Nat) (h : (blkCode p.blk == 17) = false) :
    Offstage s (s.capture p code off source data info2 info3) := by
  refine (capture_writes s p code off source data info2 info3).logWrites.offstage fun k hk => ?_
  obtain ⟨o, hmem, rfl⟩ | hirq := hk
  · have ho : o < 4096 ∧ o < 0x100 := by
      simp only [List.mem_cons, List.not_mem_nil, or_false] at hmem
      omega
    rw [regKey_stage ho.1]
    unfold stageReg
    split
    · simp; omega
    · simp; omega
    · rename_i h17; simp [h17] at h
    · exact Bool.false_ne_true
  · exact irqKeys_offstage hirq

end

end Sys2Proof.Machine
end

section
/-!
SUPPORT. What an access to tiered memory leaves alone of what the schedule reads (R293 to R302, R338 to R349, R469 to R482):
`MemRun` names no registers, and the schedule reads some.
-/
namespace Sys2Proof.Machine

section
variable (s : State)

theorem setMemsys_offstage (m : MemSt) : Offstage s { s with memsys := m } := .same rfl

/-! DRAM lines without an error of the array (R343, R346 to R349). -/

theorem offReg_ctlPage (loc : Nat) {off : Nat} (ho : off < 4096) : offReg (s.ctlPage loc) off = true := by
  unfold State.ctlPage
  split
  · simpa [offReg] using ⟨ho, rfl⟩
  · simpa [offReg] using ⟨ho, rfl⟩

theorem setWcb_offstage (loc : Nat) (l : List WcbEnt) : Offstage s (s.setWcb loc l) :=
  (setMemsys_offstage s _).trans
    ((setFld_offstage _ _ (offReg_ctlPage _ _ (by decide))).ite (setFld_offstage _ _ (offReg_ctlPage _ _ (by decide))))

theorem arrayWrite_offstage (line : Nat) (bs : List Byte) (poison : Bool) : Offstage s (s.arrayWrite line bs poison) := .same rfl

theorem rmwLine_offstage (line mask : Nat) (bs : List Byte) : Offstage s (s.rmwLine line mask bs .none) := by
  have hwrite := arrayWrite_offstage s line
  unfold State.rmwLine
  dsimp only
  rw [decodeLine_none]
  refine (hwrite _ _).ite (Offstage.ite (Offstage.ite ?_ ?_) (hwrite _ _)) <;>
    exact ((hwrite _ _).trans (bump_offstage _ _ _ (offReg_ctlPage _ _ (by decide)))).trans (report_offstage _ _ _ _ _ _)

theorem retireLine_offstage (line : Nat) : Offstage s (s.retireLine line .none) := by
  unfold State.retireLine
  split
  · exact .refl s
  · exact (rmwLine_offstage s _ _ _).trans (setWcb_offstage _ _ _)

/-- Room is made in a write-combining buffer: its oldest entry retires. -/
theorem wcbRoom_offstage (l : List WcbEnt) (cap : Nat) : Offstage s (if l.length < cap then s else
    match l.head? with
    | some o => s.retireLine o.line .none
    | none => s) := by
  refine (Offstage.refl s).ite ?_
  split
  · exact retireLine_offstage s _
  · exact .refl s

theorem writeLine_offstage (line mask : Nat) (bs : List Byte) : Offstage s (s.writeLine line mask bs .none) := by
  unfold State.writeLine
  dsimp only
  refine (Offstage.refl s).ite (((arrayWrite_offstage s _ _ _).trans (setWcb_offstage _ _ _)).ite ((rmwLine_offstage s _ _ _).ite ?_))
  split
  · exact ((setWcb_offstage s _ _).trans (retireLine_offstage _ _)).ite (setWcb_offstage s _ _)
  · exact (wcbRoom_offstage s _ _).trans (setWcb_offstage _ _ _)

/-! Requests at an agent (R293 to R305). -/

theorem countRefusal_offstage (f code : Nat) : Offstage s (s.countRefusal f code) :=
  (((setInt_offstage s _ _).ite (.refl s)).trans (bump_offstage _ _ _ (by rfl))).ite ((bump_offstage s _ _ (by rfl)).ite (bump_offstage s _ _ (by rfl)))

theorem countAccess_offstage (f : Nat) : Offstage s (s.countAccess f) := by
  have hcount (e : PEntry) : Offstage s (s.setEntry f e) := .same rfl
  have hpromote (u : State) : Offstage u (u.promote f) :=
    (((setMemsys_offstage u _).trans (setFld_offstage _ _ (by rfl))).ite (bump_offstage u _ _ (by rfl))).ite (.refl u)
  exact ((hcount _).trans (hpromote _)).ite (hcount _)

theorem setEngine_offstage (k : Nat) (g : Option Engine) : Offstage s (s.setEngine k g) :=
  (setMemsys_offstage s _).trans (setFld_offstage _ _ (by rfl))

theorem bufWrite_offstage (f line mask : Nat) (bs : List Byte) : Offstage s (s.bufWrite f line mask bs) := by
  unfold State.bufWrite
  split
  · exact setEngine_offstage s _ _
  · exact .refl s

theorem tierErr_offstage (f line : Nat) (timeout : Bool) : Offstage s (s.tierErr f line timeout) :=
  (((bump_offstage s _ _ (by rfl)).trans (reportOpen_offstage _ _ _)).ite
    ((bump_offstage s _ _ (by rfl)).trans (report_offstage _ _ _ _ _ _))).trans (setInt_offstage _ _ _)

theorem agentRead_offstage (ctx line : Nat) : Offstage s (s.agentRead ctx line).2.2 := by
  have hcount := countAccess_offstage s (frameOfLine line)
  unfold State.agentRead
  dsimp only
  split
  · exact countRefusal_offstage s _ _
  split
  · exact hcount.trans (bump_offstage _ _ _ (by rfl))
  split
  · split
    · exact hcount.trans (tierErr_offstage _ _ _ _)
    · exact hcount
  split
  · exact hcount.trans (tierErr_offstage _ _ _ _)
  rw [readLine_none]
  split
  · exact hcount.trans (tierErr_offstage _ _ _ _)
  · exact hcount

theorem zeroFill_offstage (f k : Nat) : Offstage s (s.zeroFill f k) := by
  unfold State.zeroFill
  dsimp only
  split
  · refine Offstage.trans ((Offstage.refl s).ite ?_) (setMemsys_offstage _ _)
    exact .same rfl
  · exact .refl s

theorem agentWrite_offstage (ctx line mask : Nat) (bs : List Byte) (back : Bool) :
    Offstage s (s.agentWrite ctx line mask bs back).2 := by
  have hfill (c : Prop) [Decidable c] := (countAccess_offstage s (frameOfLine line)).trans
    ((zeroFill_offstage _ (frameOfLine line) (chunkOfLine line)).ite (c := c) (.refl _))
  unfold State.agentWrite
  dsimp only
  split
  · exact countRefusal_offstage s _ _
  split
  · exact (hfill _).trans (bufWrite_offstage _ _ _ _ _)
  · exact (hfill _).trans ((Offstage.refl _).ite (writeLine_offstage _ _ _ _))

/-! The directory and the copies (R472, R473, R475, R481). -/

theorem setHome_offstage (h : HomeSt) : Offstage s (s.setHome h) := .same rfl

theorem dirErase_offstage (line : Nat) : Offstage s (s.dirErase line) := by
  unfold State.dirErase
  dsimp only
  split
  · exact (setHome_offstage s _).trans (setFld_offstage _ _ (by rfl))
  · exact .refl s

theorem tcInval_offstage (key line : Nat) : Offstage s (s.tcInval key line) := by
  have hput (l : List (Nat × TCache)) : Offstage s { s with tcs := l } := .same rfl
  exact hput _

theorem asyncFail_offstage (h addr code kind : Nat) : Offstage s (s.asyncFail h addr code kind) :=
  (((bump_offstage s _ _ (by rfl)).trans (capture_offstage _ _ _ _ _ _ _ (by rfl))).trans (reportOpen_offstage _ _ _)).trans (setInt_offstage _ _ _)

theorem cbDrain_offstage (p : CbEnt → Bool) : Offstage s (s.cbDrain p) := by
  refine Offstage.foldl (fun u e => ?_) _ s
  have hdrop : Offstage u (u.setHome { u.homeSt with cb := u.homeSt.cb.filter fun x => !(x.hart == e.hart && x.line == e.line) }) :=
    setHome_offstage u _
  dsimp only
  refine Offstage.trans (t := (State.lineToAgent _ e.ctx e.line e.mask _ true).2)
    (Offstage.trans (hdrop.trans ?_) (agentWrite_offstage _ _ _ _ _ _)) ((Offstage.refl _).ite (asyncFail_offstage _ _ _ _ _))
  split
  · exact (dirErase_offstage _ _).ite (.refl _)
  · exact .refl _

theorem resvLost_offstage (h line : Nat) : Offstage s (s.resvLost h line) := Offstage.ite (.same (by rfl)) (.refl s)

theorem snoopHolder_offstage (p : Part) (line : Nat) (k : Snoop) : Offstage s (s.snoopHolder p line k).2 := by
  unfold State.snoopHolder
  split
  · exact .refl s
  cases p with
  | l2 h =>
    dsimp only
    split
    · exact cbDrain_offstage s _
    split
    · exact .refl s
    cases k with
    | share => exact .same rfl
    | inval => exact (setHome_offstage s _).trans (resvLost_offstage _ _ _)
    | cur => exact .refl s
  | rport n =>
    dsimp only
    split
    · exact .refl s
    · exact (Offstage.refl s).ite (.same (by rfl))
  | tc key => exact (tcInval_offstage s _ _).ite (.refl s)

theorem acceptWb_offstage (w : WbEnt) : Offstage s (s.acceptWb w) := by
  have hput : Offstage s (let s1 := s.setHome { s.homeSt with wb := s.homeSt.wb.map fun x =>
      if x.who == w.who && x.line == w.line then { x with accepted := true } else x }
      if w.dirty then s1.setL3 w.line (some { data := w.data, dirty := true, ctx := w.ctx }) else s1) := by
    refine Offstage.ite ?_ ?_ <;> exact .same rfl
  have hdir (u : State) (i : Nat) (l : DirSet) : Offstage u (u.setDirSet i l) := .same rfl
  unfold State.acceptWb
  dsimp only
  split
  · exact ((hput.trans (dirErase_offstage _ _)).ite (hput.trans (hdir _ _ _))).ite hput
  · exact hput

/-- A write-back on its way is accepted, where there is one. -/
theorem acceptFound_offstage (p : WbEnt → Bool) : Offstage s (match s.homeSt.wb.find? p with
    | some w => s.acceptWb w
    | none => s) := by
  split
  · exact acceptWb_offstage s _
  · exact .refl s

theorem invalAll_offstage (e : DirEnt) : Offstage s (s.invalAll e) := by
  refine Offstage.foldl (fun u p => ?_) _ s
  have hsnoop := snoopHolder_offstage u p e.line .inval
  dsimp only
  split
  · exact hsnoop.trans (.same (by rfl))
  · exact hsnoop.trans (acceptFound_offstage _ _)
  · exact hsnoop.trans (acceptFound_offstage _ _)
  · exact hsnoop

theorem dirPut_offstage (e : DirEnt) : Offstage s (s.dirPut e) := by
  unfold State.dirPut
  dsimp only
  refine (dirErase_offstage s _).ite ?_
  split
  · exact .same rfl
  · refine Offstage.trans (Offstage.trans ?_ (setHome_offstage _ _)) (setFld_offstage _ _ (by rfl))
    split
    · exact ((invalAll_offstage s _).trans (bump_offstage _ _ _ (by rfl))).trans (dirErase_offstage _ _)
    · exact .refl s

/-! Transactions (R474 to R482). -/

theorem grantCheck_offstage (t : Txn) : Offstage s (s.grantCheck t).2 := by
  unfold State.grantCheck
  dsimp only
  split
  · split
    · exact .refl s
    · exact (countRefusal_offstage s _ _).trans (bump_offstage _ _ _ (by rfl))
  · exact .refl s

theorem takeAnswer_offstage (t : Txn) (p : Part) (a : SnpAns) : Offstage s (s.takeAnswer t p a).2 := by
  cases a with
  | data d c => exact Offstage.ite (.same (by rfl)) (.refl s)
  | clean | notPresent => exact .refl s
  | wbInFlight | evictingClean => exact (acceptFound_offstage s _).trans (bump_offstage _ _ _ (by rfl))

theorem txnData_offstage (t : Txn) : Offstage s (s.txnData t).2.2 := by
  unfold State.txnData State.homeData
  split
  · exact .refl s
  split
  · split <;> exact .refl s
  · exact agentRead_offstage s _ _

theorem giveM_offstage (t : Txn) (data : List Byte) : Offstage s (s.giveM t data) := by
  unfold State.giveM
  dsimp only
  cases t.who with
  | none => exact .same rfl
  | some p =>
    cases p <;> exact Offstage.trans (.same (by rfl)) (dirPut_offstage _ _)

theorem homeServe_offstage (t : Txn) : Offstage s (s.homeServe t).2.2 := by
  have hdata := txnData_offstage s t
  unfold State.homeServe
  dsimp only
  split
  case h_1 =>
    refine (hdata.trans (dirPut_offstage _ _)).ite_read (.ite_read ?_ ?_) <;> dsimp only <;>
      exact Offstage.trans (Offstage.trans (Offstage.ite (hdata.trans (.same (by rfl))) hdata) (setHome_offstage _ _)) (dirPut_offstage _ _)
  case h_2 =>
    split
    · exact hdata.trans (dirErase_offstage _ _)
    · exact hdata.trans (giveM_offstage _ _ _)
  case h_3 =>
    split
    · split
      · exact giveM_offstage s _ _
      · exact .refl s
    · exact .refl s
  case h_4 => exact giveM_offstage s _ _
  case h_5 => exact (hdata.trans (dirPut_offstage _ _)).ite_read (hdata.trans (dirPut_offstage _ _))
  case h_6 => exact hdata.trans (dirPut_offstage _ _)
  case h_7 =>
    have hwrite (e : DirEnt) : Offstage s ((s.dirPut e).lineToAgent t.ctx t.line t.mask t.data false).2 :=
      (dirPut_offstage s e).trans (agentWrite_offstage _ _ _ _ _ _)
    refine (hwrite _).ite_read ?_
    cases State.l3Line (State.lineToAgent _ t.ctx t.line t.mask t.data false).2 t.line with
    | none => exact hwrite _
    | some l => exact ((hwrite _).trans (.same (by rfl))).ite_read ((hwrite _).trans (.same (by rfl)))

theorem runTxn_offstage (t : Txn) : Offstage s (s.runTxn t).2.2 := by
  have hgrant := grantCheck_offstage s t
  unfold State.runTxn
  dsimp only
  split
  · exact hgrant
  · refine Offstage.trans (hgrant.trans ?_) (homeServe_offstage _ _)
    exact Offstage.foldl_snd (fun x p => (snoopHolder_offstage x.2 p _ _).trans (takeAnswer_offstage _ _ _ _)) _ (_, _)

/-! Byte ranges. -/

theorem readLines_offstage (ctx line n : Nat) : Offstage s (s.readLines ctx line n).2.2 := by
  induction n generalizing s line with
  | zero => exact .refl s
  | succ n ih =>
    have hread : Offstage s (s.cohRead ctx line).2.2 := runTxn_offstage s _
    unfold State.readLines
    dsimp only
    split
    · exact hread
    · exact hread.trans (ih _ _)

theorem memRead_offstage (ctx a n : Nat) : Offstage s (s.memRead ctx a n).2.2 := by
  unfold State.memRead
  split
  · exact .refl s
  split
  · exact .refl s
  · exact readLines_offstage s _ _ _

theorem writeLines_offstage (ctx a n : Nat) (bs : List Byte) : Offstage s (s.writeLines ctx a n bs).2 := by
  induction n generalizing s a bs with
  | zero => exact .refl s
  | succ n ih =>
    cases bs with
    | nil => exact .refl s
    | cons b bs =>
      have hwrite (mask : Nat) (d : List Byte) : Offstage s (s.cohWrite ctx (a / 64) mask d).2 := by
        unfold State.cohWrite
        exact runTxn_offstage s _
      unfold State.writeLines
      dsimp only
      split
      · exact hwrite _ _
      · exact (hwrite _ _).trans (ih _ _ _)

theorem memWrite_offstage (ctx a : Nat) (bs : List Byte) : Offstage s (s.memWrite ctx a bs).2 := by
  unfold State.memWrite
  split
  · exact .refl s
  split
  · exact .refl s
  · exact writeLines_offstage s _ _ _ _

theorem sweepFrames_offstage (p : Nat → Bool) : Offstage s (s.sweepFrames p) := (setHome_offstage s _).trans (cbDrain_offstage _ _)

end

theorem offstage_of_memRead {s t : State} {ctx a n code : Nat} {bs : List Byte} (h : s.memRead ctx a n = (code, bs, t)) :
    Offstage s t := by
  have hrun := memRead_offstage s ctx a n
  rwa [h] at hrun

/-! Requests at a home (R474 to R478). -/

section
variable (s : State)

theorem acceptWaiting_offstage (line : Nat) (p : Part → Bool) : Offstage s (s.acceptWaiting line p) :=
  Offstage.foldl acceptWb_offstage _ s

theorem serveTxn_offstage (t : Txn) : Offstage s (s.serveTxn t).2 := by
  have hserve := homeServe_offstage s t
  unfold State.serveTxn
  dsimp only
  split
  · exact (hserve.trans (.same (by rfl))).trans (setHome_offstage _ _)
  · exact (hserve.trans (.same (by rfl))).trans (setHome_offstage _ _)

theorem startTxn_offstage (t : Txn) : Offstage s (s.startTxn t).2 := by
  have hgrant := grantCheck_offstage s t
  unfold State.startTxn
  dsimp only
  split
  · exact ((setHome_offstage s _).trans (bump_offstage _ _ _ (by rfl))).trans (setFld_offstage _ _ (by rfl))
  split
  · exact hgrant.trans (.same (by rfl))
  split
  · exact hgrant.trans (serveTxn_offstage _ _)
  · exact (hgrant.trans (setHome_offstage _ _)).trans (acceptWaiting_offstage _ _ _)

theorem nextTxn_offstage (line n : Nat) : Offstage s (s.nextTxn line n) := by
  induction n generalizing s with
  | zero => exact .refl s
  | succ n ih =>
    unfold State.nextTxn
    split
    · exact .refl s
    · have hstart (t : Txn) (h : HomeSt) : Offstage s ((s.setHome h).startTxn t).2 := (setHome_offstage s _).trans (startTxn_offstage _ _)
      dsimp only
      split
      · exact hstart _ _
      · exact (hstart _ _).trans (ih _)

/-- A request whose directory entry is read without an error. -/
theorem homeArrive_offstage (t : Txn) : Offstage s (s.homeArrive t .none) := by
  have hstart := startTxn_offstage s t
  unfold State.homeArrive State.dirError
  dsimp only
  split
  · exact .same rfl
  split
  · exact hstart
  · exact (hstart.trans (acceptWaiting_offstage _ _ _)).trans (nextTxn_offstage _ _ _)

theorem releaseSweep_offstage : Offstage s s.releaseSweep :=
  (setHome_offstage s _).trans (Offstage.foldl (fun u x => (homeArrive_offstage u x).trans (setFld_offstage _ _ (by rfl))) _ _)

end

end Sys2Proof.Machine
end

section
/-!
SUPPORT. What translation, Carousel, frozen ranges, Turnstiles and completions leave alone of what the schedule reads (R251 to
R260, R307 to R309, R324 to R334, R396 to R401, R434 to R437).
-/
namespace Sys2Proof.Machine

/-! Translation (R396 to R401). -/

section
variable (s : State)

theorem readPte_offstage (a : Nat) : Offstage s (s.readPte a).2.2 := memRead_offstage s 0 a 8

theorem gWalk_offstage (accept : Nat → Bool) (need : XNeed) (gpa n tbl : Nat) : Offstage s (s.gWalk accept need gpa n tbl).2 := by
  induction n generalizing s tbl with
  | zero => exact .refl s
  | succ n ih =>
    have hpte (a : Nat) : Offstage s (s.readPte a).2.2 := readPte_offstage s a
    unfold State.gWalk
    dsimp only
    generalize tbl + (if n = 4 then bitsOf gpa 48 11 else bitsOf gpa (12 + 9 * n) 9) * 8 = a
    split
    · exact hpte _
    · split
      · exact hpte _
      · exact (hpte _).trans (ih _ _)
      · exact hpte _

theorem gPhys_offstage (x : XCtx) (accept : Nat → Bool) (need : XNeed) (gpa : Nat) : Offstage s (s.gPhys x accept need gpa).2 := by
  unfold State.gPhys
  split
  · exact .refl s
  split
  · exact .refl s
  · exact gWalk_offstage s _ _ _ _ _

theorem fWalk_offstage (x : XCtx) (accept : Nat → Bool) (need : XNeed) (va n tbl : Nat) :
    Offstage s (s.fWalk x accept need va n tbl).2 := by
  induction n generalizing s tbl with
  | zero => exact .refl s
  | succ n ih =>
    have hphys := gPhys_offstage s x (fun _ => true) .read (tbl + bitsOf va (12 + 9 * n) 9 * 8)
    unfold State.fWalk
    split
    case h_1 heq => rwa [heq] at hphys
    case h_2 u heq =>
      rw [heq] at hphys
      have hpte (a : Nat) : Offstage s (u.readPte a).2.2 := hphys.trans (readPte_offstage u a)
      dsimp only
      split
      · exact hpte _
      · split
        · exact hpte _
        · exact (hpte _).trans (ih _ _)
        · exact hpte _

theorem readCtx_offstage (ctx : Nat) : Offstage s (s.readCtx ctx).2 := by
  unfold State.readCtx
  split
  · exact .refl s
  split
  · exact .refl s
  · have hread := memRead_offstage s 0 (s.reg64 s.xlPage 0x104 + 32 * ctx) 32
    generalize s.memRead 0 (s.reg64 s.xlPage 0x104 + 32 * ctx) 32 = m at hread
    obtain ⟨code, bs, u⟩ := m
    dsimp only
    split
    · exact hread
    split
    · exact hread
    · exact hread

theorem translate_offstage (pd : PD) (c : XClass) (ctx va : Nat) (need : XNeed) : Offstage s (s.translate pd c ctx va need).2 := by
  have hctx := readCtx_offstage s ctx
  unfold State.translate
  split
  case h_1 heq => rwa [heq] at hctx
  case h_2 x u heq =>
    rw [heq] at hctx
    have hcount : Offstage s (if x.fs || x.gs then u.bump64 (diePage .xlate pd) 0x144 else u) :=
      hctx.trans ((setReg64_offstage u _ (by rfl) (by rfl)).ite (.refl u))
    generalize (if x.fs || x.gs then u.bump64 (diePage .xlate pd) 0x144 else u) = v at hcount
    dsimp only
    generalize (if bitOf va 56 then 127 else 0) = sign
    have hfirst : Offstage s (if !x.fs then (Except.ok (va, true, true, 64), v)
        else if va / 2 ^ 57 ≠ sign then (.error { cause := 2, stage := 0 }, v)
        else v.fWalk x (xAccepts c) need va 5 (x.fsRoot * 4096) : Except XFail (Nat × Bool × Bool × Nat) × State).2 := by
      split
      · exact hcount
      split
      · exact hcount
      · exact hcount.trans (fWalk_offstage v _ _ _ _ _ _)
    split
    case h_1 h3 => rwa [h3] at hfirst
    case h_2 gpa r w sz u3 h3 =>
      rw [h3] at hfirst
      have hphys := hfirst.trans (gPhys_offstage u3 x (xAccepts c) need gpa)
      split
      case h_1 h4 => rwa [h4] at hphys
      case h_2 h4 =>
        rw [h4] at hphys
        split
        · exact hphys
        · exact hphys

theorem spanPages_offstage (pd : PD) (c : XClass) (ctx : Nat) (need : XNeed) (vs : List Nat) (l : List Region) :
    Offstage s (s.spanPages pd c ctx need vs l).2 := by
  induction vs generalizing s l with
  | nil => exact .refl s
  | cons vf vs ih =>
    have hpage := translate_offstage s pd c ctx (vf * 2 ^ 21) need
    unfold State.spanPages
    split
    case h_1 heq => rwa [heq] at hpage
    case h_2 heq =>
      rw [heq] at hpage
      exact hpage.trans (ih _ _)

theorem hintFrames_offstage (pd : PD) (r : LayerRec) : Offstage s (s.hintFrames pd r).2 := by
  have hspan := spanPages_offstage s pd .carousel (s.carCtx pd) (if r.span.write then .write else .read) (spanFrames r.span) []
  have hspans : Offstage s (s.translateSpans pd .carousel (s.carCtx pd) [r.span]).2 := by
    unfold State.translateSpans
    simp only [List.foldl_cons, List.foldl_nil]
    rcases hx : s.spanPages pd .carousel (s.carCtx pd) (if r.span.write then .write else .read) (spanFrames r.span) [] with ⟨e | l, t⟩
    · rwa [hx] at hspan
    · rw [hx] at hspan
      dsimp only
      split
      · exact hspan
      · exact hspan
  unfold State.hintFrames
  dsimp only
  split
  · exact hspans
  · exact hspans

/-! Carousel (R307, R324 to R327, R334). -/

theorem setSlab_offstage (ld k : Nat) (v : SlabState) : Offstage s (s.setSlab ld k v) := .same rfl

theorem setSlabs_offstage (ld : Nat) (ks : List Nat) (v : SlabState) : Offstage s (s.setSlabs ld ks v) :=
  Offstage.foldl (fun u k => setSlab_offstage u ld k v) ks s

theorem slabsUndefined_offstage (ld : Nat) (ks : List Nat) : Offstage s (s.slabsUndefined ld ks) := by
  have hput (u : State) (n : Nat) (m : List (Nat × Byte)) :
      Offstage u { u with freeCtr := n, tierS := { u.tierS with mem := m } } := .same rfl
  exact Offstage.foldl (fun u k => hput u _ _) ks s

theorem setCar_offstage (pd : PD) (c : CarSt) : Offstage s (s.setCar pd c) := .same rfl

theorem modCar_offstage (pd : PD) (f : CarSt → CarSt) : Offstage s (s.modCar pd f) := .same rfl

theorem hintDemote_offstage (f : Nat) : Offstage s (s.hinted f fun u => u.hintDemote f) := by
  have hbump := bump_offstage s (p := s.agentPage f) (f := Reg.PLACE_HINT_RCVD_COUNT) 1 0 (by rfl)
  exact (hbump.trans (.same (by rfl))).ite hbump

theorem carDemote_offstage (pd : PD) (r : LayerRec) : Offstage s (s.carDemote pd r) := by
  have hframes := hintFrames_offstage s pd r
  unfold State.carDemote
  split
  · split
    case h_1 heq =>
      rw [heq] at hframes
      exact hframes.trans (bump_offstage _ _ _ (by rfl))
    case h_2 heq =>
      rw [heq] at hframes
      exact hframes.trans (Offstage.foldl (fun u f => (hintDemote_offstage u f).trans (bump_offstage _ _ _ (by rfl))) _ _)
  · exact .refl s

/-- The DEMOTE hints of a layer's record, where there is one. -/
theorem carDemote_layer_offstage (pd : PD) (o : Option LayerRec) : Offstage s (match o with
    | some r => s.carDemote pd r
    | none => s) := by
  split
  · exact carDemote_offstage s pd _
  · exact .refl s

theorem carCancel_offstage (pd : PD) (job n : Nat) : Offstage s (s.carCancel pd job n) := by
  unfold State.carCancel
  dsimp only
  split
  · exact (modCar_offstage s pd _).trans (bump_offstage _ _ _ (by rfl))
  split
  · exact .refl s
  · exact (((slabsUndefined_offstage s _ _).trans (setSlabs_offstage _ _ _ _)).trans (modCar_offstage _ pd _)).trans (bump_offstage _ _ _ (by rfl))

theorem carEnd_offstage (pd : PD) : Offstage s (s.carEnd pd) := by
  unfold State.carEnd
  extract_lets ld u pool
  have hdemote : Offstage s u := Offstage.foldl (fun u _ => carDemote_layer_offstage u pd _) _ s
  exact (hdemote.trans (setSlabs_offstage u ld pool .free)).trans (setCar_offstage _ pd _)

theorem carCommit_offstage (pd : PD) (job : Nat) : Offstage s (s.carCommit pd job) := by
  have hsites (l : List Nat) : Offstage s (l.foldl (fun t n => (t.siteRecs pd job n).foldl (fun u x => u.carCancel pd job x.1) t) s) :=
    Offstage.foldl (fun u _ => Offstage.foldl (fun v (x : Nat × LayerRec) => carCancel_offstage v pd job x.1) _ u) l s
  unfold State.carCommit
  refine ((hsites _).trans (Offstage.foldl (fun u o => ?_) _ _)).trans (modCar_offstage _ pd _)
  exact ((setSlabs_offstage u _ _ _).trans (modCar_offstage _ pd _)).trans (carDemote_layer_offstage _ pd _)

/-! Frozen ranges (R226, R308, R309). -/

theorem placeFrames_frozen_offstage {cmd : Nat} (hcmd : cmd = 3 ∨ cmd = 4) (f n : Nat) :
    Offstage s (s.placeFrames cmd 0 0 f n).2.2 := by
  have hframe (u : State) (g : Nat) : Offstage u (u.placeFrame cmd 0 0 g).2 := by
    obtain rfl | rfl := hcmd
    · exact .same rfl
    · exact .same rfl
  induction n generalizing s f with
  | zero => exact .refl s
  | succ n ih =>
    unfold State.placeFrames
    dsimp only
    split
    · exact hframe s f
    · exact (hframe s f).trans (ih _ _)

theorem placeRun_frozen_offstage {cmd : Nat} (hcmd : cmd = 3 ∨ cmd = 4) (base n : Nat) : Offstage s (s.placeRun cmd 0 0 base n).2.2 := by
  unfold State.placeRun
  split
  · exact .refl s
  split
  · exact .refl s
  split
  · exact .refl s
  · exact ((sweepFrames_offstage s _).ite (.refl s)).trans (placeFrames_frozen_offstage _ hcmd _ _)

theorem freezeImage_offstage (img : Image) (on : Bool) : Offstage s (s.freezeImage img on) :=
  Offstage.foldl (fun u _ => placeRun_frozen_offstage u (by cases on <;> simp) _ _) _ s

theorem thaw_offstage (was : SchedState) : Offstage s (s.thaw was) := by
  unfold State.thaw
  split
  · exact (Offstage.refl s).ite (freezeImage_offstage s _ _)
  · exact .refl s

/-! Turnstiles (R251 to R260). -/

theorem traceRec_offstage (pd : PD) (w : Nat) : Offstage s (s.traceRec pd w) := by
  have hend (l : List (Nat × TraceSt)) (c : Prop) [Decidable c] :
      Offstage s (if c then ({ s with traces := l } : State).setInt (diePage .dbg pd) 2 else { s with traces := l }) :=
    (Offstage.trans (.same (by rfl)) (setInt_offstage _ _ _)).ite (.same (by rfl))
  exact (Offstage.refl s).ite ((bump_offstage s 1 0 (by rfl)).ite ((Offstage.refl s).ite (hend _ _)))

theorem setTsCell_offstage (k : Nat) (c : TsCell) : Offstage s (s.setTsCell k c) := .same rfl

theorem tsStore_offstage (k v tag : Nat) : Offstage s (s.tsStore k v tag) :=
  (setTsCell_offstage s k _).ite ((setTsCell_offstage s k _).trans ((traceRec_offstage _ _ _).ite (.refl _)))

theorem tsMisuse_offstage (k kind v lc src : Nat) : Offstage s (s.tsMisuse k kind v lc src) :=
  (bump_offstage s 1 0 (by rfl)).ite (((setTsCell_offstage s k _).trans (report_offstage _ _ _ _ _ _)).trans (setInt_offstage _ _ _))

theorem tsApply_offstage (k : Nat) (sub : Bool) (n tag lc src : Nat) : Offstage s (s.tsApply k sub n tag lc src) := by
  have hstore (v : Nat) : Offstage s (s.tsStore k v tag) := tsStore_offstage s k v tag
  unfold State.tsApply
  dsimp only
  cases sub with
  | true => exact ((hstore _).trans (tsMisuse_offstage _ _ _ _ _ _)).ite (hstore _)
  | false =>
    have hadd := fun v c => (hstore v).trans (setTsCell_offstage (s.tsStore k v tag) k c)
    exact ((hadd _ _).trans (tsMisuse_offstage _ _ _ _ _ _)).ite (hadd _ _)

theorem setPriv_offstage (pd : PD) (mc : MC) (f : Nat → Nat × Bool) : Offstage s (s.setPriv pd mc f) :=
  Offstage.foldl (fun u _ => (tsStore_offstage u _ _ _).trans (setTsCell_offstage _ _ _)) _ s

/-! Completions (R427, R434 to R437). -/

theorem setRing_offstage (r : Nat) (v : RingSt) : Offstage s (s.setRing r v) := .same rfl

theorem setCpl_offstage (r : Nat) : Offstage s (s.setCpl r) := (setRing_offstage s r _).trans (setInt_offstage _ _ _)

theorem noteEnd_offstage (r seq code : Nat) (detail : List Byte) : Offstage s (s.noteEnd r seq code detail) := .same rfl

/-- The queue's tail and phase behind a record (R434). -/
theorem cqTail_offstage (r n b : Nat) :
    Offstage s ((s.setFld (ringPage r) Reg.CMDQ_CQ_TAIL_SLOT n).setFld (ringPage r) Reg.CMDQ_STAT_CQ_PHASE b) :=
  (setFld_offstage s n (by rfl)).trans (setFld_offstage _ b (by rfl))

theorem postRec_offstage (r : Nat) (q : Req) (type status : Nat) (detail : List Byte) : Offstage s (s.postRec r q type status detail) := by
  unfold State.postRec
  refine (Offstage.refl s).ite ?_
  extract_lets p n g a phase w0
  have hbody := memWrite_offstage s 0 (a + 8) (leBytes q.user 8 ++ padTo 48 detail)
  obtain ⟨x, hx⟩ : ∃ x, s.memWrite 0 (a + 8) (leBytes q.user 8 ++ padTo 48 detail) = x := ⟨_, rfl⟩
  obtain ⟨bs, hbs⟩ : ∃ bs, leBytes w0 8 = bs := ⟨_, rfl⟩
  rw [hx] at hbody ⊢
  rw [hbs]
  obtain ⟨_, u⟩ := x
  have hword := hbody.trans (memWrite_offstage u 0 a bs)
  have htail (g : RingSt) (n k : Nat) := (hword.trans (setRing_offstage _ r g)).trans (cqTail_offstage _ r n k)
  exact ((htail _ _ _).trans (setCpl_offstage _ r)).ite (htail _ _ _)

theorem postFinal_offstage (r : Nat) (q : Req) : Offstage s (s.postFinal r q) := by
  unfold State.postFinal
  split
  · exact (Offstage.refl s).ite (((postRec_offstage s _ _ _ _ _).trans (setRing_offstage _ _ _)).trans (setFld_offstage _ _ (by rfl)))
  · exact .refl s

theorem postAll_offstage : Offstage s s.postAll :=
  Offstage.foldl (fun u r => Offstage.foldl (fun v q => postFinal_offstage v r q) _ u) _ s

theorem postProgress_offstage (j : Job) (code : Nat) : Offstage s (s.postProgress j code) := by
  unfold State.postProgress
  split
  · exact (postRec_offstage s _ _ _ _ _).ite (bump_offstage s 1 0 (by rfl))
  · exact .refl s

theorem postCommit_offstage (progress : Option (Job × Nat)) : Offstage s (s.postCommit progress) := by
  refine Offstage.foldl (fun u r => Offstage.foldl (fun v q => ?_) _ u) _ s
  split
  · exact ((postProgress_offstage v _ _).ite (.refl v)).trans (postFinal_offstage _ _ _)
  · exact postFinal_offstage v r q

theorem openTsops_offstage : Offstage s s.openTsops := by
  refine Offstage.foldl (fun u x => ?_) _ s
  dsimp only
  split
  · exact (tsApply_offstage u _ _ _ _ _ _).trans (noteEnd_offstage _ _ _ _ _)
  · exact noteEnd_offstage u _ _ _ _

end

end Sys2Proof.Machine
end

section
/-!
SUPPORT. What changes the schedule's own state alone, the partition's shape, and the end of a job (R231, R232, R427, R501 to R504).
-/
open Sys2Proof.Claims

namespace Sys2Proof.Machine

/-! The schedule's own state. -/

/-- t differs from s in nothing that the schedule reads but its own state. -/
structure SchedOnly (s t : State) : Prop extends Backstage stageKeys s t where
  cores : t.cores = s.cores
  jal : t.jal = s.jal

namespace SchedOnly
variable {s t u : State}

theorem trans (h : SchedOnly s t) (h' : SchedOnly t u) : SchedOnly s u :=
  ⟨h.toBackstage.trans h'.toBackstage, h'.cores.trans h.cores, h'.jal.trans h.jal⟩

theorem ite {c : Prop} [Decidable c] (h : SchedOnly s t) (h' : SchedOnly s u) : SchedOnly s (if c then t else u) := by
  split
  · exact h
  · exact h'

end SchedOnly

section
variable {s t u : State}

theorem Offstage.schedOnly (h : Offstage s t) : SchedOnly s t := ⟨h.toBackstage, h.cores, h.jal⟩

/-- A change of the schedule's state beside changes that it does not read. -/
theorem Offstage.setSched (h : Offstage s t) (f : Sched → Sched) : Offstage (s.setSched f) (t.setSched f) where
  dies := h.dies
  clock := h.clock
  wf := h.wf
  regs := h.regs
  sched := congrArg f h.sched
  cores := h.cores
  jal := h.jal

variable (s)

theorem setSched_schedOnly (f : Sched → Sched) : SchedOnly s (s.setSched f) := ⟨.same rfl rfl rfl, rfl, rfl⟩

/-- The job's ratio applies directly at its end (R566). -/
theorem planDone_schedOnly : SchedOnly s s.planDone ∧ ∃ ratio, s.planDone.sched =
    { s.sched with ratioCur := ratio, ratioNext := none, ratioDue := none } := by
  have hflag : Offstage s (s.setFlag rmPage Reg.RM_STAT_PLAN_OVER false) := setFld_offstage s (b2n false) (by rfl)
  have hfloor (u : State) (c : Sched) (p : PowerSt) : SchedOnly u { u with power := p, sched := c } := ⟨.same rfl rfl rfl, rfl, rfl⟩
  unfold State.planDone
  extract_lets u
  exact ⟨hflag.schedOnly.trans (hfloor u _ _), u.fld u.leadPage Reg.SCHED_RATIO_REQ, rfl⟩

/-- A deviation is recorded and counted, and marks the step in progress (R246, R247). -/
theorem deviate_marks (p : Page) (num : Nat) (cat : DevCat) (kind beats pc lc aux : Nat) :
    ∃ u, Offstage s u ∧ (s.deviate p num cat kind beats pc lc aux = u ∨
      ∃ n, s.deviate p num cat kind beats pc lc aux = u.setSched fun c => { c with cats := n, deviated := true }) := by
  have hrec (data : Nat) : Offstage s ((s.report p num data true).bump s.leadPage cat.counter) :=
    (report_offstage s p num data true none).trans (bump_offstage _ _ _ (by cases cat <;> rfl))
  unfold State.deviate
  dsimp only
  split
  · exact ⟨_, hrec _, .inl rfl⟩
  · exact ⟨_, (hrec _).ite ((hrec _).trans (setInt_offstage _ _ _)), .inr ⟨_, rfl⟩⟩

theorem deviate_schedOnly (p : Page) (num : Nat) (cat : DevCat) (kind beats pc lc aux : Nat) :
    SchedOnly s (s.deviate p num cat kind beats pc lc aux) := by
  obtain ⟨u, hu, heq | ⟨n, heq⟩⟩ := deviate_marks s p num cat kind beats pc lc aux
  · exact heq ▸ hu.schedOnly
  · exact heq ▸ hu.schedOnly.trans (setSched_schedOnly u _)

/-- A deviation marks the step's categories, and nothing else of the schedule's state. -/
theorem deviate_sched (p : Page) (num : Nat) (cat : DevCat) (kind beats pc lc aux : Nat) :
    ∃ cats dev, (s.deviate p num cat kind beats pc lc aux).sched = { s.sched with cats := cats, deviated := dev } := by
  obtain ⟨u, hu, heq | ⟨n, heq⟩⟩ := deviate_marks s p num cat kind beats pc lc aux
  · exact ⟨_, _, heq ▸ hu.sched⟩
  · exact ⟨n, true, by rw [heq, ← hu.sched]; rfl⟩

end

/-! The end of a job (R232, R427, R431). -/

/-- The schedule's state at a job's end, with the power ratio in force (R566). -/
def Sched.closed (c : Sched) (ratio : Nat) : Sched :=
  { c with
    state := .ended, stepErr := none, inputCur := [], inputNext := [], startOwn := none, startKids := [], startAt := none, openAt := none
    recoveryOwn := none, recoveryKids := [], children := [], wrote := [], ratioCur := ratio, ratioNext := none, ratioDue := none }

/-- t is s with its job ended, but for what the schedule does not read. -/
structure Closes (s t : State) : Prop extends SchedOnly s t where
  sched : ∃ ratio, t.sched = s.sched.closed ratio

section
variable {s t u : State}

theorem Closes.offstage (h : Closes s t) (h' : Offstage t u) : Closes s u :=
  ⟨h.toSchedOnly.trans h'.schedOnly, h'.sched ▸ h.sched⟩

theorem Closes.state (h : Closes s t) : t.sched.state = .ended := by
  obtain ⟨r, hr⟩ := h.sched
  rw [hr]
  rfl

theorem Closes.startOwn (h : Closes s t) : t.sched.startOwn = none := by
  obtain ⟨r, hr⟩ := h.sched
  rw [hr]
  rfl

theorem Closes.step (h : Closes s t) : t.sched.step = s.sched.step := by
  obtain ⟨r, hr⟩ := h.sched
  rw [hr]
  rfl

/-- The current request's end is noted, where there is one. -/
theorem noteCur_offstage (s : State) (code : Nat) (detail : Job → List Byte) : Offstage s (match s.jobs.cur with
    | some j => s.noteEnd j.ring j.seq code (detail j)
    | none => s) := by
  split
  · exact noteEnd_offstage s _ _ _ _
  · exact .refl s

theorem closeJob_closes (s : State) (code reason : Nat) : Closes s (s.closeJob code reason) := by
  have hcars : Offstage s (s.usedDies.foldl (fun t pd => t.carEnd pd) s) := Offstage.foldl carEnd_offstage _ s
  unfold State.closeJob
  extract_lets s1 s2 s3 s4 s5
  have h2 : Offstage (s.setSched fun c => { c.closed c.ratioCur with ratioNext := c.ratioNext, ratioDue := c.ratioDue }) s2 :=
    ((hcars.setSched _).trans (releaseSweep_offstage _)).trans (thaw_offstage _ _)
  have h3 : Offstage (s.setSched _) s3 := h2.trans (noteCur_offstage s2 code _)
  have h4 : Offstage (s.setSched _) s4 := h3.trans (Offstage.foldl (fun u _ => noteEnd_offstage u _ _ _ _) _ s3)
  have h5 : Offstage (s.setSched _) s5 := h4.trans (Offstage.foldl (fun u _ => noteEnd_offstage u _ _ _ _) _ s4)
  clear_value s5
  have hjobs (j : JobSt) : Offstage s5 (({ s5 with jobs := j } : State).setInt s5.leadPage 3) :=
    Offstage.trans (.same (by rfl)) (setInt_offstage _ _ _)
  have hend := h5.trans (hjobs { s5.jobs with cur := none, rerun := none })
  obtain ⟨hplan, r, hr⟩ := planDone_schedOnly (({ s5 with jobs := { s5.jobs with cur := none, rerun := none } } : State).setInt s5.leadPage 3)
  exact ⟨((setSched_schedOnly s _).trans hend.schedOnly).trans hplan, r, hr.trans (by rw [hend.sched]; rfl)⟩

theorem endJob_closes (s : State) (code reason : Nat) : Closes s (s.endJob code reason) :=
  (closeJob_closes s code reason).offstage (postAll_offstage _)

end

/-! The partition's shape (R250, R501 to R504). -/

def jpKeys : Set Nat := {k | stageReg (k / 0x1000000) (k % 4096) = true ∧ k / 0x1000000 = 16}

theorem jpKeys_subset : jpKeys ⊆ stageKeys := fun _ h => h.1

section
variable {K : Set Nat} {s t : State}

theorem Backstage.fullDies (h : Backstage K s t) : t.fullDies = s.fullDies := by
  rw [State.fullDies, State.fullDies, show t.isFull = s.isFull from funext fun pd => by rw [State.isFull, State.isFull, State.role, State.role, h.dies]]

theorem Backstage.leadPd (h : Backstage K s t) : t.leadPd = s.leadPd := by
  rw [State.leadPd, State.leadPd, State.pdOfLd, State.pdOfLd, h.fullDies]

theorem Backstage.leadPage (h : Backstage K s t) : t.leadPage = s.leadPage := by rw [State.leadPage, State.leadPage, h.leadPd]

variable (hs : s.regsWf)
include hs

/-- A field of the lead controller that the schedule reads. -/
theorem Backstage.leadFld (h : Backstage stageKeys s t) {f : RegField}
    (hf : f.off + f.stride * 0 < 4096 ∧ stageReg 17 (f.off + f.stride * 0) = true) : t.fld t.leadPage f = s.fld s.leadPage f := by
  rw [h.leadPage]
  exact fld_congr (h.reg hs ((regKey_stage hf.1).mpr hf.2))

theorem Backstage.deviceNo (h : Backstage stageKeys s t) : t.deviceNo = s.deviceNo := h.leadFld hs (by decide)

theorem Backstage.haltReq (h : Backstage stageKeys s t) (pd : PD) (mc : MC) :
    t.flag (mcorePage pd mc) Reg.MCORE_CTRL_HALT_REQ = s.flag (mcorePage pd mc) Reg.MCORE_CTRL_HALT_REQ :=
  flag_congr (h.reg hs ((regKey_stage (by decide)).mpr rfl))

variable (h : Backstage jpKeys s t)
include h

theorem Backstage.jpReg (n : Nat) {off : Nat} (ho : off < 4096 ∧ stageReg 16 off = true) :
    t.reg (jpPage n) off = s.reg (jpPage n) off :=
  h.reg hs ⟨(regKey_stage (p := jpPage n) ho.1).mpr ho.2, regKey_div ho.1⟩

theorem Backstage.jpState : t.jpState = s.jpState := funext fun n => fld_congr (h.jpReg hs n (by decide))

theorem Backstage.extent : t.extent = s.extent := funext fun d => by
  unfold State.extent
  split
  · exact congrArg (· + 1) (fld_congr (h.jpReg hs 0 (by decide)))
  split
  · exact congrArg (· + 1) (fld_congr (h.jpReg hs 0 (by decide)))
  · exact congrArg (· + 1) (fld_congr (h.jpReg hs 0 (by decide)))

theorem Backstage.coord : t.coord = s.coord := funext fun d => by
  unfold State.coord
  split
  · exact fld_congr (h.jpReg hs 0 (by decide))
  split
  · exact fld_congr (h.jpReg hs 0 (by decide))
  · exact fld_congr (h.jpReg hs 0 (by decide))

theorem Backstage.portUsed : t.portUsed = s.portUsed := funext fun n => by
  unfold State.portUsed
  rw [h.extent hs]
  split
  · rfl
  split
  · exact flag_congr (h.jpReg hs 0 (by decide))
  · exact flag_congr (h.jpReg hs 0 (by decide))

theorem Backstage.childPorts : t.childPorts = s.childPorts := by
  have hport : t.childPort = s.childPort := funext fun n => by unfold State.childPort; rw [h.extent hs, h.coord hs]
  rw [State.childPorts, State.childPorts, hport]

theorem Backstage.isRoot : t.isRoot = s.isRoot := by
  unfold State.isRoot State.parentPort State.treeDim
  rw [h.extent hs, h.coord hs]

theorem Backstage.devices : t.devices = s.devices := by rw [State.devices, State.devices, h.extent hs]

theorem Backstage.portsAsleep : t.portsAsleep = s.portsAsleep := by
  rw [State.portsAsleep, State.portsAsleep, State.usedPorts, State.usedPorts, h.portUsed hs, h.jpState hs]

theorem Backstage.alone (ha : Alone s) : Alone t := by
  obtain ⟨hroot, hkids, hdev⟩ := ha
  exact ⟨(h.isRoot hs).trans hroot, (h.childPorts hs).trans hkids, (h.devices hs).trans hdev⟩

theorem Backstage.startTime : Claims.startTime t = Claims.startTime s := by
  rw [Claims.startTime, Claims.startTime, State.diameter, State.diameter, h.extent hs, h.clock]

end

/-! Tokens (R504, R507). -/

section
variable {s : State} {port : JPort} {hdr : TokHdr}

theorem tokenOk_of_accepted (h : Accepted s port hdr) : s.tokenOk port.val hdr = (true, s) := by
  obtain ⟨hport, hpart⟩ := h
  unfold State.tokenOk
  rw [if_neg (by omega), if_neg (not_not.mpr hpart)]

theorem sendToks_eq (s : State) (ns : List Nat) (t : Tok) :
    s.sendToks ns t = { s with jal := { s.jal with out := sentOn s ns t } } := by
  have hfold (u : State) : ns.foldl (fun u n => u.sendTok n t) u =
      { u with jal := { u.jal with out := u.jal.out ++ ns.map fun n => (n, t) } } := by
    induction ns generalizing u with
    | nil => simp
    | cons n ns ih =>
      rw [List.foldl_cons, ih]
      simp [State.sendTok]
  exact hfold s

/-- A flooded token's first copy is noted and goes on (R507). -/
theorem floodIn_first {t : Tok} (h : s.jal.seen.contains (tokKey t) = false) (n : Nat) : s.floodIn n t =
    (true, { s with jal := { s.jal with
      seen := tokKey t :: s.jal.seen, out := sentOn s (s.activePorts.filter (· != n)) (forwarded t.hdr t.body) } }) := by
  unfold State.floodIn
  rw [h, if_neg Bool.false_ne_true]
  exact congrArg (Prod.mk true) (sendToks_eq _ _ _)

end

end Sys2Proof.Machine
end

section
/-!
SUPPORT. Cores one by one, and the start of a job (R140, R153, R155, R228, R229, R508).
-/
open Sys2Proof.Claims

namespace Sys2Proof.Machine

/-! One core. -/

/-- t differs from s in at most one core of what the schedule reads. -/
structure OneCore (pd : PD) (mc : MC) (s t : State) : Prop extends Backstage stageKeys s t where
  sched : t.sched = s.sched
  jal : t.jal = s.jal
  rising : rising s.cores = true → rising t.cores = true
  others : Machine.rising s.cores = true → ∀ pd' mc', pd' ≠ pd ∨ mc' ≠ mc → t.core pd' mc' = s.core pd' mc'

section
variable {pd : PD} {mc : MC} {s t u : State}

theorem OneCore.trans (h : OneCore pd mc s t) (h' : OneCore pd mc t u) : OneCore pd mc s u where
  toBackstage := h.toBackstage.trans h'.toBackstage
  sched := h'.sched.trans h.sched
  jal := h'.jal.trans h.jal
  rising := h'.rising ∘ h.rising
  others hs pd' mc' hne := (h'.others (h.rising hs) pd' mc' hne).trans (h.others hs pd' mc' hne)

theorem Offstage.oneCore (h : Offstage s t) (pd : PD) (mc : MC) : OneCore pd mc s t where
  toBackstage := h.toBackstage
  sched := h.sched
  jal := h.jal
  rising hs := h.cores ▸ hs
  others _ _ _ _ := core_congr h.cores

theorem OneCore.ite {c : Prop} [Decidable c] (h : OneCore pd mc s t) (h' : OneCore pd mc s u) :
    OneCore pd mc s (if c then t else u) := by
  split
  · exact h
  · exact h'

variable (pd mc s)

theorem setCore_oneCore (c : CoreSt) : OneCore pd mc s (s.setCore pd mc c) where
  toBackstage := .same rfl rfl rfl
  sched := rfl
  jal := rfl
  rising hs := rising_setCore hs pd mc c
  others hs _ _ hne := core_setCore_of_ne hs hne c

theorem enterStopped_oneCore (st : CoreStatus) : OneCore pd mc s (s.enterStopped pd mc st) :=
  ((Offstage.same rfl : Offstage s (s.dropWait pd mc)).oneCore pd mc |>.trans (setCore_oneCore pd mc _ _)).trans
    ((setInt_offstage _ _ _).oneCore pd mc)

theorem cmdEnd_offstage (cmd reason code : Nat) : Offstage s (s.cmdEnd pd mc cmd reason code) := by
  have hstatus : Offstage s ((s.cmdStatus pd mc code).setInt (mcorePage pd mc) 3) :=
    (((setFld_offstage s _ (by rfl)).trans (setFld_offstage _ _ (by rfl))).trans (setFld_offstage _ _ (by rfl))).trans (setInt_offstage _ _ _)
  rw [cmdEnd_eq]
  exact hstatus.ite ((hstatus.trans (capture_offstage _ _ _ _ _ _ _ (by rfl))).trans (report_offstage _ _ _ _ _ _))

theorem tcEmpty_offstage : Offstage s (s.tcEmpty pd mc) := .same rfl

/-- A program that loads comes to the core; a failed read leaves it undefined (R155). -/
theorem loadProgram_oneCore : OneCore pd mc s (s.loadProgram pd mc .none).2 := by
  have hread := memRead_offstage s (s.fld (mcorePage pd mc) Reg.MCORE_CTXID_CTXID) (s.core pd mc).cmdAddr (8 * (s.core pd mc).cmdLen)
  unfold State.loadProgram
  obtain ⟨x, hx⟩ : ∃ x, s.memRead (s.fld (mcorePage pd mc) Reg.MCORE_CTXID_CTXID) (s.core pd mc).cmdAddr
    (8 * (s.core pd mc).cmdLen) = x := ⟨_, rfl⟩
  rw [hx] at hread
  simp only [hx]
  obtain ⟨code, bs, u⟩ := x
  have hfree : Offstage s { u with freeCtr := u.freeCtr + 1 } := hread.trans (.same (by rfl))
  dsimp only
  split
  · exact (hfree.oneCore pd mc).trans (setCore_oneCore pd mc _ _)
  · exact (hread.oneCore pd mc).trans (setCore_oneCore pd mc _ _)

/-- The state in which a core's program is loaded (R155, R228). -/
theorem loadCore_reads (img : Image) (p : TileProg) :
    ∃ u, OneCore pd mc s u ∧ s.loadCore img p pd mc =
      if (u.loadProgram pd mc .none).1 ≠ 0 then u.loadProgram pd mc .none
      else (0, ((u.loadProgram pd mc .none).2.modCore pd mc fun c =>
        { c with status := .armed, x := { c.x with pc := BitVec.ofNat 14 p.entry } }).cmdEnd pd mc 2 0 0) := by
  have hstop (c : Prop) [Decidable c] : OneCore pd mc s (if c then s else s.enterStopped pd mc .stoppedReq) :=
    ((Offstage.refl s).oneCore pd mc).ite (enterStopped_oneCore pd mc s _)
  have hregs (v : State) (a : Nat) : Offstage v (((v.setReg64 (mcorePage pd mc) 0x110 a).setFld (mcorePage pd mc)
      Reg.MCORE_PROG_LEN_LEN p.len).setFld (mcorePage pd mc) Reg.MCORE_ENTRY_PC p.entry) :=
    ((setReg64_offstage v a (by rfl) (by rfl)).trans (setFld_offstage _ _ (by rfl))).trans (setFld_offstage _ _ (by rfl))
  have hclear (v : State) : OneCore pd mc v (((v.setCore pd mc (v.core pd mc).cleared).setPriv pd mc fun _ => (0, false)).tcEmpty pd mc) :=
    (setCore_oneCore pd mc v _).trans (((setPriv_offstage _ pd mc _).trans (tcEmpty_offstage pd mc _)).oneCore pd mc)
  unfold State.loadCore
  extract_lets q st s1 s2 a s3
  have h3 : OneCore pd mc s s3 := ((hstop _).trans (hclear s1)).trans ((hregs s2 a).oneCore pd mc)
  refine ⟨s3.modCore pd mc fun c => { c with cmdAddr := a, cmdLen := p.len }, h3.trans (setCore_oneCore pd mc s3 _), ?_⟩
  generalize State.loadProgram _ pd mc .none = x
  rfl

theorem loadCore_oneCore (img : Image) (p : TileProg) : OneCore pd mc s (s.loadCore img p pd mc).2 := by
  obtain ⟨u, hu, heq⟩ := loadCore_reads pd mc s img p
  rw [heq]
  split
  · exact hu.trans (loadProgram_oneCore pd mc u)
  · have hset (c : CoreSt) := (hu.trans (loadProgram_oneCore pd mc u)).trans (setCore_oneCore pd mc _ c)
    exact (hset _).trans ((cmdEnd_offstage pd mc _ 2 0 0).oneCore pd mc)

variable {pd mc s}

theorem loadCore_armed (hs : rising s.cores = true) {img : Image} {p : TileProg} (h0 : (s.loadCore img p pd mc).1 = 0) :
    ((s.loadCore img p pd mc).2.core pd mc).status = .armed := by
  obtain ⟨u, hu, heq⟩ := loadCore_reads pd mc s img p
  rw [heq] at h0 ⊢
  split at h0
  next hcode => exact absurd h0 hcode
  next hcode =>
    have hv := (hu.trans (loadProgram_oneCore pd mc u)).rising hs
    rw [if_neg hcode]
    generalize (u.loadProgram pd mc .none).2 = v at hv
    dsimp only
    rw [core_congr (cmdEnd_offstage pd mc _ 2 0 0).cores, State.modCore, core_setCore_same hv]

end

/-! Barker's work after a load (R228). -/

/-- t differs from s in the cores alone of what the schedule reads; those of l are ARMED. -/
structure CoresArmed (l : List (TileProg × PD × MC)) (s t : State) : Prop extends Backstage stageKeys s t where
  sched : t.sched = s.sched
  jal : t.jal = s.jal
  rising : rising s.cores = true → rising t.cores = true
  armed : Machine.rising s.cores = true → ∀ p ∈ l, (t.core p.2.1 p.2.2).status = .armed

/-- The load of the next core, unless one failed (R228). -/
def loadNext (img : Image) (acc : Nat × State) (p : TileProg × PD × MC) : Nat × State :=
  if acc.1 ≠ 0 then acc else acc.2.loadCore img p.1 p.2.1 p.2.2

theorem CoresArmed.loadCore {done : List (TileProg × PD × MC)} {s u : State} (h : CoresArmed done s u) {img : Image}
    {p : TileProg × PD × MC} (h0 : (u.loadCore img p.1 p.2.1 p.2.2).1 = 0) :
    CoresArmed (done ++ [p]) s (u.loadCore img p.1 p.2.1 p.2.2).2 := by
  have hone := loadCore_oneCore p.2.1 p.2.2 u img p.1
  refine ⟨h.toBackstage.trans hone.toBackstage, hone.sched.trans h.sched, hone.jal.trans h.jal, hone.rising ∘ h.rising,
    fun hs q hq => ?_⟩
  have hp := loadCore_armed (h.rising hs) h0
  by_cases heq : q.2.1 = p.2.1 ∧ q.2.2 = p.2.2
  · rw [heq.1, heq.2, hp]
  · rw [hone.others (h.rising hs) q.2.1 q.2.2 (not_and_or.mp heq)]
    obtain hq | rfl : q ∈ done ∨ q = p := by simpa using hq
    · exact h.armed hs q hq
    · exact absurd ⟨rfl, rfl⟩ heq

/-- Where every load ends with code 0, every core is ARMED. -/
theorem coresArmed_foldl {img : Image} (l : List (TileProg × PD × MC)) {done : List (TileProg × PD × MC)} {s : State} {x : Nat × State}
    (h : x.1 = 0 → CoresArmed done s x.2) (h0 : (l.foldl (loadNext img) x).1 = 0) :
    CoresArmed (done ++ l) s (l.foldl (loadNext img) x).2 := by
  induction l generalizing done x with
  | nil => simpa using h h0
  | cons p l ih =>
    rw [List.foldl_cons] at h0 ⊢
    rw [List.append_cons]
    refine ih (fun hx => ?_) h0
    unfold loadNext at hx ⊢
    split at hx
    next hfail => exact absurd hx hfail
    next hgood =>
      rw [if_neg hgood]
      exact (h (not_not.mp hgood)).loadCore hx

theorem CoresArmed.offstage {l : List (TileProg × PD × MC)} {s t u : State} (h : CoresArmed l s t) (h' : Offstage t u) :
    CoresArmed l s u where
  toBackstage := h.toBackstage.trans h'.toBackstage
  sched := h'.sched.trans h.sched
  jal := h'.jal.trans h.jal
  rising hs := h'.cores ▸ h.rising hs
  armed hs p hp := (congrArg CoreSt.status (core_congr h'.cores)).trans (h.armed hs p hp)

section
variable (s : State)

theorem initTurnstiles_offstage (img : Image) : Offstage s (s.initTurnstiles img) := by
  unfold State.initTurnstiles
  refine Offstage.trans (t := { s with ts := _ }) (.same (by rfl)) (Offstage.foldl (fun u r => ?_) _ _)
  dsimp only
  split
  · exact setTsCell_offstage u _ _
  · exact .refl u

theorem poolMask_offstage (pd : PD) (mask : Nat) : Offstage s (s.poolMask pd mask) :=
  (setReg64_offstage s _ (by rfl) (by rfl)).trans (Offstage.foldl (fun u _ => setSlab_offstage u _ _ _) _ _)

theorem giveLayers_offstage (img : Image) : Offstage s (s.giveLayers img) :=
  Offstage.foldl (fun u _ => (poolMask_offstage u _ _).trans (setCar_offstage _ _ _)) _ s

end

/-! ARM and the start exchange of a partition of one device (R229, R508, R567). -/

/-- t differs from s in nothing that the start exchange reads. -/
structure Planned (s t : State) : Prop extends Backstage jpKeys s t where
  sched : t.sched = s.sched
  cores : t.cores = s.cores
  jal : t.jal = s.jal

section
variable {s t u : State}

theorem Offstage.planned (h : Offstage s t) : Planned s t := ⟨h.toBackstage.mono jpKeys_subset, h.sched, h.cores, h.jal⟩

theorem Planned.trans (h : Planned s t) (h' : Planned t u) : Planned s u :=
  ⟨h.toBackstage.trans h'.toBackstage, h'.sched.trans h.sched, h'.cores.trans h.cores, h'.jal.trans h.jal⟩

variable (s)

theorem setRatioReq_planned (v : Nat) : Planned s (s.setFld s.leadPage Reg.SCHED_RATIO_REQ v) where
  toBackstage := (WritesOnly.setReg (K := {regKey s.leadPage 0x13C}) s rfl _).logWrites.backstage fun k hk hj => by
    rw [Set.mem_singleton_iff.mp hk] at hj
    exact absurd (show 17 = 16 from (regKey_div (p := s.leadPage) (off := 0x13C) (by decide)).symm.trans hj.2) (by decide)
  sched := rfl
  cores := rfl
  jal := rfl

theorem ratioRequest_planned (new reason : Nat) : Planned s (s.ratioRequest new reason) := by
  have hreason : Offstage s (s.setFld rmPage Reg.RM_STAT_REASON reason) := setFld_offstage s _ (by rfl)
  unfold State.ratioRequest
  extract_lets old u
  split
  · exact hreason.planned
  · have hreq := hreason.trans (setFld_offstage u new (p := rmPage) (f := Reg.RM_STAT_REQ) (i := 0) (by rfl))
    have hlead := hreq.leadPage
    rw [← hlead]
    exact (hreq.planned.trans (setRatioReq_planned _ new)).trans
      ((report_offstage _ rmPage 2 _ false none).trans (setInt_offstage _ _ _)).planned

theorem setPower_offstage (p : PowerSt) : Offstage s { s with power := p } := .same rfl

theorem planCheck_planned (img : Image) : Planned s (s.planCheck img) := by
  unfold State.planCheck
  split
  · exact (Offstage.refl s).planned
  · extract_lets fit s1 power s2
    have h1 : Offstage s s1 := (setFld_offstage s (p := rmPage) (f := Reg.RM_STAT_PLAN_OVER) (i := 0) _ (by rfl)).trans
      (report_offstage _ rmPage 3 _ false none)
    have h2 : Offstage s s2 := h1.trans (setPower_offstage s1 _)
    split
    · exact h2.planned.trans (ratioRequest_planned s2 _ _)
    · exact h2.planned

variable {s}

/-- The schedule's state once ARM has taken the device's own values (R229). -/
def Sched.armedWith (c : Sched) (img : Image) : Sched :=
  { c with state := .armed, startOwn := some ⟨img.buildId, img.jobSteps, img.descCrc, img.hdrCrc, 1⟩, startAt := none }

/-- ARM on a loaded image, no port being on its way into or out of low power: the device's own values are there to be sent
(R229, R499). -/
theorem schedArm_arms (hs : s.regsWf) {img : Image} (himg : s.sched.image = some img) (hst : s.sched.state = .loaded)
    (hports : s.portsAsleep = false) : Planned (s.setSched (·.armedWith img)) s.schedArm := by
  have hplan := planCheck_planned (s.setSched (·.armedWith img)) img
  have hcars (v : State) (l : List PD) : Offstage v (l.foldl (fun t pd => t.modCar pd fun c => { c with armAt := t.clock.beats.toNat }) v) :=
    Offstage.foldl (fun u pd => modCar_offstage u pd _) l v
  have hwake {v : State} (hv : v.portsAsleep = false) :
      (List.range 8).foldl (fun t n => if t.portUsed n && t.jpState n == 7 then t.setJpState n 8 else t) v = v := by
    refine List.foldlRecOn (motive := fun t => t = v) _ _ rfl fun t ht n hn => ?_
    rw [ht, if_neg]
    intro hn7
    obtain ⟨hused, h7⟩ : v.portUsed n = true ∧ v.jpState n = 7 := by simpa using hn7
    have hawake := List.any_eq_false.mp hv n (List.mem_filter.mpr ⟨hn, hused⟩)
    simp [h7] at hawake
  unfold State.schedArm
  rw [himg]
  dsimp only
  rw [if_neg (not_not.mpr hst)]
  have harm := hplan.trans (hcars _ (s.setSched (·.armedWith img)).usedDies).planned
  exact (hwake ((Backstage.portsAsleep (s := s.setSched (·.armedWith img)) hs harm.toBackstage).trans hports)).symm ▸ harm

/-- The root of the tree answers once all its children's values are there and agree (R229, R508). -/
theorem startTry_root {own : StartVals} (hown : s.sched.startOwn = some own) (hports : s.portsAsleep = false) (hroot : s.isRoot = true)
    (hkids : ∀ n ∈ s.childPorts, ∃ k ∈ s.sched.startKids, k.1 = n)
    (hsame : ∀ k ∈ s.sched.startKids, k.2.buildId = own.buildId ∧ k.2.jobSteps = own.jobSteps ∧ k.2.descCrc = own.descCrc)
    (hall : s.sched.startKids.foldl (fun n k => n + k.2.contrib) own.contrib = s.devices) :
    s.startTry = { s with
      sched := { s.sched with startOwn := none, startKids := [], startAt := some (startTime s) }
      jal := { s.jal with
        out := sentOn s s.childPorts ⟨s.tokHdr s.sched.step.toNat, .startRelease 0 (BitVec.ofNat 64 (startTime s))⟩ } } := by
  have hkids' : (s.childPorts.all fun n => s.sched.startKids.any fun k => k.1 == n) = true := by simpa using hkids
  have hsame' : (s.sched.startKids.all fun k =>
      k.2.buildId == own.buildId && k.2.jobSteps == own.jobSteps && k.2.descCrc == own.descCrc) = true := by
    simpa [and_assoc] using hsame
  unfold State.startTry
  rw [hown]
  dsimp only
  rw [hports, hkids', if_neg (by simp), if_pos hroot, if_neg (not_not.mpr hall), if_pos hsame', State.sendDown, sendToks_eq]
  rfl

end

end Sys2Proof.Machine
end

section
/-!
SUPPORT. SCHED_CTRL, and the load of an image (R227, R250).
-/
open Sys2Proof.Claims

namespace Sys2Proof.Machine

/-! A map put together with what it gives (canonical maps are equal where they read equal). -/

section
variable {α : Type} [DecidableEq α] {d : Nat → α}

theorem merase_of_default {m : List (Nat × α)} {lo : Nat} (hm : mwfFrom d lo m = true) {k : Nat} (h : mget d m k = d k) :
    merase m k = m := by
  induction m generalizing lo with
  | nil => rfl
  | cons p m ih =>
    obtain ⟨j, v⟩ := p
    simp only [mwfFrom, Bool.and_eq_true, decide_eq_true_eq] at hm
    obtain ⟨⟨-, hv⟩, hm⟩ := hm
    simp only [mget] at h
    simp only [merase]
    split
    next hkj =>
      subst hkj
      exact absurd (by simpa using h) hv
    next hkj =>
      rw [if_neg hkj] at h
      split
      · rfl
      next hlt =>
        rw [if_neg hlt] at h
        rw [ih hm h]

omit [DecidableEq α] in
theorem minsert_mget {m : List (Nat × α)} {k : Nat} (h : mget d m k ≠ d k) : minsert m k (mget d m k) = m := by
  induction m with
  | nil => exact absurd rfl h
  | cons p m ih =>
    obtain ⟨j, v⟩ := p
    simp only [mget, minsert] at h ⊢
    split
    next hkj => rw [hkj]
    next hkj =>
      rw [if_neg hkj] at h
      split
      next hlt => exact absurd (if_pos hlt) h
      next hlt =>
        rw [if_neg hlt] at h
        rw [ih h]

/-- A write of what a key reads changes nothing. -/
theorem mput_mget {m : List (Nat × α)} (hm : mwf d m = true) (k : Nat) : mput d m k (mget d m k) = m := by
  unfold mput
  split
  next h => exact merase_of_default hm h
  next h => exact minsert_mget h

end

/-- A register written as it reads. -/
theorem restored_self {s : State} (h : s.regsWf) (p : Page) (off : Nat) : s.restored p off = s := by
  rw [State.restored, BitVec.ofNat_toNat, BitVec.setWidth_eq, State.setReg, State.reg, mput_mget h]

/-! A write of SCHED_CTRL at the lead controller (R250). -/

theorem arrived_offstage (s : State) (p : Page) (who : Requester) (hp : stageReg (blkCode p.blk) 0x01C = false) :
    Offstage s (s.arrived p who) := by
  have hcount : Offstage s (s.countWrite p) := setFld_offstage s _ (by simpa [offReg] using ⟨by decide, hp⟩)
  unfold State.arrived State.disarm
  exact (hcount.trans (.same (by rfl))).ite hcount

section
variable {s : State} {who : Requester}

theorem schedCtrl_held {u : State} (hst : u.sched.state ≠ .armed) (who : Requester) (v : Nat) :
    heldSc .sched [Reg.SCHED_CTRL_LOAD, Reg.SCHED_CTRL_ARM] (u.liveValue who u.leadPage 0x100 false) v = v := by
  have hlive : u.liveValue who u.leadPage 0x100 false = 0 := by
    change b2n (u.sched.state == .armed) * 2 + 0 = 0
    rw [beq_eq_false_iff_ne.mpr hst]
    rfl
  rw [hlive]
  exact heldSc_of_clear (by decide) _ _

theorem discards_schedCtrl (u : State) : u.discards u.leadPage 0x100 = false := by
  simp [State.discards, State.leadPage, diePage]

/-- SCHED_CTRL of the lead controller acts in the state in which the write arrives. -/
theorem busWrite_schedCtrl (hc : Canon s) (hacc : s.accessible s.leadPage = true) (hst : s.sched.state ≠ .armed) (v : Word)
    (err : TierFail) : s.busWrite who s.leadPage 0x100 v err =
      (counted s s.leadPage who).actSched s.leadPage 0x100 v.toNat err := by
  have harr := arrived_offstage s s.leadPage who rfl
  have hlead : (s.arrived s.leadPage who).leadPage = s.leadPage := harr.leadPage
  have hdisc : (s.arrived s.leadPage who).discards s.leadPage 0x100 = false := by
    have hown := discards_schedCtrl (s.arrived s.leadPage who)
    rwa [hlead] at hown
  have hro : readOnlyPage s.leadPage.blk = false := rfl
  have hlo : isLo s.leadPage.blk 0x100 = false := (by decide : isLo .sched 0x100 = false)
  have hhi : isHi s.leadPage.blk 0x100 = false := (by decide : isHi .sched 0x100 = false)
  have hwf : (s.arrived s.leadPage who).regsWf := regsWf_arrived hc.regs _ _
  have hheld := schedCtrl_held (u := s.arrived s.leadPage who) (harr.sched ▸ hst) who v.toNat
  rw [hlead] at hheld
  have hfs : regFields s.leadPage.blk 0x100 false = [Reg.SCHED_CTRL_LOAD, Reg.SCHED_CTRL_ARM] := by
    change regFields .sched 0x100 false = _
    decide
  have hwrite := regWrite_unprotected hfs (by decide) (by decide) who err hheld
    (show (s.arrived s.leadPage who).reservedWrite s.leadPage 0x100 [Reg.SCHED_CTRL_LOAD, Reg.SCHED_CTRL_ARM] v.toNat = false from rfl)
  rw [storeFields_own (by decide), restored_self hwf] at hwrite
  simp only [busWrite_block (p := s.leadPage) rfl (present_of_accessible hacc) (show 0x100 ≤ 0x100 by decide) hro, State.blockWrite,
    accessible_arrived hc.regs hc.pages, hacc, hdisc, hro, hlo, hhi, hwrite, Bool.not_true, Bool.or_self, Bool.false_eq_true, if_false]
  rfl

end

/-! The load of an image (R227). -/

section
variable {s : State}

/-- A failed load ends the job. -/
theorem loadFail_closes (s : State) (code reason off : Nat) :
    ∃ u : State, s.loadFail code reason off = u.endJob code reason ∧ u.leadPage = s.leadPage ∧ (s.regsWf → u.regsWf ∧
      (reason ≠ 0 → u.flag u.leadPage Reg.BLK_STAT_ERR = true)) := by
  have hcap := (capture_writes s s.leadPage (blkCode s.leadPage.blk * 256 + 4) 0 0 0 off reason).logWrites.backstage (K := ∅)
    (by simp)
  unfold State.loadFail
  extract_lets s1
  have hlead : s1.leadPage = s.leadPage := by
    unfold s1
    split
    · rfl
    · exact hcap.leadPage
  have hs1 (hs : s.regsWf) : s1.regsWf := by
    unfold s1
    split
    · exact hs
    · exact hcap.wf hs
  have herr (hs : s.regsWf) (hr : reason ≠ 0) : s1.flag s.leadPage Reg.BLK_STAT_ERR = true := by
    unfold s1
    rw [if_neg hr]
    exact flag_capture s.leadPage _ _ _ _ _ _ hs
  clear_value s1
  have hint := setInt_offstage s1 s.leadPage 5
  have hpage := hint.leadPage.trans hlead
  refine ⟨_, rfl, hpage, fun hs => ⟨hint.wf (hs1 hs), fun hr => ?_⟩⟩
  rw [State.flag, hint.leadFld (hs1 hs) (by decide), hlead]
  exact herr hs hr

theorem loadFail_ended (s : State) (code reason off : Nat) :
    (s.loadFail code reason off).sched.state = .ended ∧ (s.loadFail code reason off).sched.startOwn = none := by
  obtain ⟨u, heq, -⟩ := loadFail_closes s code reason off
  rw [heq]
  exact ⟨(endJob_closes u code reason).state, (endJob_closes u code reason).startOwn⟩

/-- A failed check is captured at the lead controller. -/
theorem loadFail_err (hs : s.regsWf) {reason : Nat} (hr : reason ≠ 0) (code off : Nat) :
    (s.loadFail code reason off).flag s.leadPage Reg.BLK_STAT_ERR = true := by
  obtain ⟨u, heq, hlead, hu⟩ := loadFail_closes s code reason off
  obtain ⟨hwf, herr⟩ := hu hs
  have hend := endJob_closes u code reason
  rw [heq, ← hlead, ← hend.leadPage, State.flag, hend.leadFld hwf (by decide)]
  exact herr hr

/-- The reasons of the header's checks are those of R249: none is 0. -/
theorem headerCheck_reason {hdr : List Byte} {r o : Nat} (h : headerCheck hdr = some (r, o)) : r ≠ 0 := by
  obtain ⟨c, hc, hbad⟩ := List.exists_of_findSome?_eq_some h
  have hneed {ok : Bool} {reason off : Nat} (hr : reason ≠ 0) (hn : need ok reason off = some (r, o)) : r ≠ 0 := by
    unfold need at hn
    split at hn
    · contradiction
    · simp only [Option.some.injEq, Prod.mk.injEq] at hn
      omega
  simp only [List.mem_cons, List.not_mem_nil, or_false] at hc
  obtain rfl | rfl | rfl | rfl | rfl | rfl | rfl | rfl := hc <;> exact hneed (by decide) hbad

theorem startTry_idle (h : s.sched.startOwn = none) : s.startTry = s := by
  unfold State.startTry
  rw [h]

/-- The schedule's state once a load has succeeded (R250). -/
def Sched.loadedWith (c : Sched) (img : Image) : Sched :=
  { c with
    state := .loaded, image := some img, jstep := 0, len := 0, cwin := img.cwin, beat := 0, stepErr := none, own := none, children := []
    release := none, committed := false, trapRec := none, attempt := 1, isReplay := false, noContinue := none, cats := 0, deviated := false }

theorem loadDone_offstage (s : State) (img : Image) : Offstage (s.setSched (·.loadedWith img)) (s.loadDone img) := by
  have htouch (v : State) (l : List PD) : Offstage v (l.foldl (fun t pd => t.setFlag (diePage .sched pd) Reg.SCHED_STAT_DEBUG_TOUCHED false) v) :=
    Offstage.foldl (fun u _ => setFld_offstage u _ (by rfl)) l v
  exact (htouch _ (s.setSched (·.loadedWith img)).fullDies).trans (setInt_offstage _ _ _)

section
variable {err : TierFail} (hst : s.sched.state = .idle ∨ s.sched.state = .loaded ∨ s.sched.state = .ended)
include hst

theorem load_permitted : (!(s.sched.state == .idle || s.sched.state == .loaded || s.sched.state == .ended)) = false := by
  obtain h | h | h := hst <;> rw [h] <;> rfl

theorem schedLoad_readError {c : Nat} {hdr : List Byte} {s1 : State} (hread : s.memRead s.jobCtx s.imgAddr 0x100 = (c, hdr, s1))
    (h0 : c ≠ 0) : s.schedLoad err = s1.loadFail c 0 0 := by
  unfold State.schedLoad
  rw [load_permitted hst, if_neg Bool.false_ne_true]
  extract_lets a ctx
  have hread' : s.memRead ctx a 0x100 = (c, hdr, s1) := hread
  rw [hread']
  exact if_pos h0

theorem schedLoad_header {hdr : List Byte} {s1 : State} (hread : s.memRead s.jobCtx s.imgAddr 0x100 = (0, hdr, s1)) {r o : Nat}
    (hbad : headerCheck hdr = some (r, o)) : s.schedLoad err = s1.loadFail 0x30 r o := by
  unfold State.schedLoad
  rw [load_permitted hst, if_neg Bool.false_ne_true]
  extract_lets a ctx
  have hread' : s.memRead ctx a 0x100 = (0, hdr, s1) := hread
  rw [hread']
  refine (if_neg (not_not.mpr rfl)).trans ?_
  rw [hbad]

theorem schedLoad_loads {hdr bs : List Byte} {s1 s2 : State} (hread : s.memRead s.jobCtx s.imgAddr 0x100 = (0, hdr, s1))
    (hhdr : headerCheck hdr = none) (hbody : s1.memRead s.jobCtx s.imgAddr (imgNat hdr 8 8) = (0, bs, s2))
    (hok : bodyCheck s2.loadCtx bs = none) (hnames : s2.namesLost (parseImage s.imgAddr bs) = false) :
    s.schedLoad .none = s2.loadDone (parseImage s.imgAddr bs) := by
  unfold State.schedLoad
  rw [load_permitted hst, if_neg Bool.false_ne_true]
  extract_lets a ctx
  have hread' : s.memRead ctx a 0x100 = (0, hdr, s1) := hread
  have hbody' : s1.memRead ctx a (imgNat hdr 8 8) = (0, bs, s2) := hbody
  rw [hread']
  refine (if_neg (not_not.mpr rfl)).trans ?_
  rw [hbody', hhdr]
  refine (if_neg (not_not.mpr rfl)).trans ?_
  rw [hok]
  exact if_neg (by rw [hnames]; exact Bool.false_ne_true)

end

end

end Sys2Proof.Machine
end

section
/-!
SUPPORT. Beat 0 of a step (R140, R153, R155, R207, R229, R243, R244, R327, R532).
-/
open Sys2Proof.Claims

namespace Sys2Proof.Machine

/-! The cores at beat 0. -/

/-- The state in which a core stands once a step has opened (R140, R155). -/
def openedStatus (s : State) (pd : PD) (mc : MC) : CoreStatus :=
  if (s.core pd mc).status = .armed ∨ (s.core pd mc).status = .waitStep then
    (if s.flag (mcorePage pd mc) Reg.MCORE_CTRL_HALT_REQ then .stoppedReq else .running)
  else (s.core pd mc).status

theorem openedStatus_congr {s t : State} (hs : s.regsWf) (h : Backstage stageKeys s t) {pd : PD} {mc : MC}
    (hcore : t.core pd mc = s.core pd mc) : openedStatus t pd mc = openedStatus s pd mc := by
  rw [openedStatus, openedStatus, hcore, h.haltReq hs]

/-- t differs from s in the cores alone of what the schedule reads and owns. -/
structure CoresOnly (s t : State) : Prop extends Backstage stageKeys s t where
  sched : t.sched = s.sched
  rising : rising s.cores = true → rising t.cores = true

section
variable {s t u : State} {pd : PD} {mc : MC}

theorem CoresOnly.refl (s : State) : CoresOnly s s := ⟨.refl s, rfl, id⟩

theorem CoresOnly.trans (h : CoresOnly s t) (h' : CoresOnly t u) : CoresOnly s u :=
  ⟨h.toBackstage.trans h'.toBackstage, h'.sched.trans h.sched, h'.rising ∘ h.rising⟩

theorem OneCore.coresOnly (h : OneCore pd mc s t) : CoresOnly s t := ⟨h.toBackstage, h.sched, h.rising⟩

theorem openCore_oneCore (s : State) (pd : PD) (mc : MC) : OneCore pd mc s (s.openCore pd mc) := by
  have hset (c : CoreSt) := setCore_oneCore pd mc s c
  exact (((hset _).trans (enterStopped_oneCore pd mc _ _)).ite (hset _)).ite (hset _)

theorem status_openCore (hs : rising s.cores = true) : ((s.openCore pd mc).core pd mc).status = openedStatus s pd mc := by
  have hset (c : CoreSt) : (s.setCore pd mc c).core pd mc = c := core_setCore_same hs pd mc c
  have hstop (c : CoreSt) : (((s.setCore pd mc c).enterStopped pd mc .stoppedReq).core pd mc).status = .stoppedReq := by
    have hbecomes : CoreBecomes pd mc _ _ _ := (CoreBecomes.refl (pd := pd) (mc := mc) (rising_setCore hs pd mc c)).enterStopped .stoppedReq
    rw [hbecomes.core]
  unfold State.openCore openedStatus
  extract_lets c trap d s1
  split
  · split
    · exact hstop _
    · exact congrArg CoreSt.status (hset _)
  · exact (congrArg CoreSt.status (hset _)).trans rfl

/-- Cores that open one after the other, each once. -/
theorem openCores (hs : s.regsWf) (hcores : rising s.cores = true) {l : List (PD × MC)} (hl : l.Nodup) :
    CoresOnly s (l.foldl (fun t c => t.openCore c.1 c.2) s) ∧
    ∀ pd mc, ((l.foldl (fun t c => t.openCore c.1 c.2) s).core pd mc).status =
      if (pd, mc) ∈ l then openedStatus s pd mc else (s.core pd mc).status := by
  induction l generalizing s with
  | nil => exact ⟨.refl s, fun _ _ => rfl⟩
  | cons p l ih =>
    obtain ⟨hp, hl⟩ := List.nodup_cons.mp hl
    have hone := openCore_oneCore s p.1 p.2
    obtain ⟨hrest, hstatus⟩ := ih (hone.wf hs) (hone.rising hcores) hl
    refine ⟨hone.coresOnly.trans hrest, fun pd mc => ?_⟩
    rw [List.foldl_cons, hstatus]
    by_cases hpm : (pd, mc) = p
    · subst hpm
      rw [if_neg hp, if_pos List.mem_cons_self, status_openCore hcores]
    · have hcore := hone.others hcores pd mc (not_and_or.mp fun h => hpm (Prod.ext h.1 h.2))
      rw [openedStatus_congr hs hone.toBackstage hcore, hcore]
      simp only [List.mem_cons, hpm, false_or]

theorem allCores_eq : allCores = (List.finRange 56).product (List.finRange 17) := rfl

theorem nodup_allCores : allCores.Nodup := by
  rw [allCores_eq]
  exact (List.nodup_finRange 56).product (List.nodup_finRange 17)

theorem mem_allCores (pd : PD) (mc : MC) : (pd, mc) ∈ allCores := by
  rw [allCores_eq]
  exact List.mem_product.mpr ⟨List.mem_finRange pd, List.mem_finRange mc⟩

theorem openAllCores (hs : s.regsWf) (hcores : Machine.rising s.cores = true) :
    CoresOnly s (allCores.foldl (fun t c => t.openCore c.1 c.2) s) ∧
    CoresOpened s (allCores.foldl (fun t c => t.openCore c.1 c.2) s) := by
  obtain ⟨honly, hstatus⟩ := openCores hs hcores nodup_allCores
  exact ⟨honly, fun pd mc => (hstatus pd mc).trans (if_pos (mem_allCores pd mc))⟩

end

/-! What comes before the cores (R207, R243, R244, R255, R533). -/

/-- The schedule's state at beat 0 of a step that does not run again. -/
def Sched.opened (c : Sched) (len attempt : Nat) (inputs : List FrameRange) : Sched :=
  { c with
    state := .running, beat := 0, len := len, cats := 0, deviated := false, attempt := attempt, isReplay := false
    stepErr := none, own := none, children := [], release := none, committed := false, trapRec := none
    inputCur := inputs, inputNext := [], recoveryOwn := none, recoveryKids := [], holdCause := none
    captureEnd := 0, startAt := none, openAt := none, resumed := false }

section
variable (s : State)

/-- A ratio that is due takes effect. -/
theorem openRatio_schedOnly : SchedOnly s s.openRatio ∧ ∃ cats dev, s.openRatio.sched =
    { s.sched with ratioCur := s.sched.ratioDue.getD s.sched.ratioCur, ratioDue := none, cats := cats, deviated := dev } := by
  unfold State.openRatio
  split
  next hdue =>
    refine ⟨(Offstage.refl s).schedOnly, s.sched.cats, s.sched.deviated, ?_⟩
    rw [hdue]
    exact congrArg (fun due : Option Nat => { s.sched with ratioDue := due }) hdue
  next r hdue =>
    extract_lets old s1
    have hset : SchedOnly s s1 := setSched_schedOnly s _
    rw [hdue]
    split
    · exact ⟨hset, _, _, rfl⟩
    · obtain ⟨cats, dev, hdev⟩ := deviate_sched s1 s.leadPage 1 .throttle 1 0 0 0x3FF (r + old * 4)
      have hint := setInt_offstage (s1.deviate s.leadPage 1 .throttle 1 0 0 0x3FF (r + old * 4)) s.leadPage 4
      exact ⟨(hset.trans (deviate_schedOnly s1 _ _ _ _ _ _ _ _)).trans hint.schedOnly, cats, dev, hint.sched.trans hdev⟩

theorem openTsopsSnap_offstage : Offstage s s.openTsops.snapTurnstiles := (openTsops_offstage s).trans (.same (by rfl))

/-- Failed stagings that are due mark the step (R327). -/
theorem carOpens (l : List PD) : ∃ e, l.foldl (fun t pd => t.carOpen pd) s = { s with sched := { s.sched with stepErr := e } } := by
  have hone (u : State) (pd : PD) : ∃ e, u.carOpen pd = { u with sched := { u.sched with stepErr := e } } := by
    unfold State.carOpen State.stepFail
    split
    · split
      · exact ⟨u.sched.stepErr, rfl⟩
      · exact ⟨_, rfl⟩
    · exact ⟨u.sched.stepErr, rfl⟩
  induction l generalizing s with
  | nil => exact ⟨s.sched.stepErr, rfl⟩
  | cons pd l ih =>
    obtain ⟨e, he⟩ := hone s pd
    obtain ⟨e', he'⟩ := ih (s.carOpen pd)
    exact ⟨e', by rw [List.foldl_cons, he', he]⟩

variable {s}

/-- Beat 0 of a step that does not run again. -/
theorem openStep_opens (hs : s.regsWf) (hcores : rising s.cores = true) (attempt : Nat) :
    CoresOpened s (s.openStep attempt false false) ∧ ∃ cats dev e, (s.openStep attempt false false).sched =
      { s.sched.opened (stepLen s) attempt (s.inputsAt s.sched.jstep.toNat) with
        ratioCur := s.sched.ratioDue.getD s.sched.ratioCur, ratioDue := none, cats := cats, deviated := dev, stepErr := e } := by
  unfold State.openStep
  extract_lets len s1 s2 tierS s3 s4 s5 s6
  have h1 : Backstage stageKeys s s1 ∧ s1.cores = s.cores ∧
      s1.sched = s.sched.opened (stepLen s) attempt (s.inputsAt s.sched.jstep.toNat) := ⟨.same rfl rfl rfl, rfl, rfl⟩
  clear_value s1
  have hswept := releaseSweep_offstage s1
  have h3 : Backstage stageKeys s1 s3 ∧ s3.cores = s1.cores ∧ s3.sched = s1.sched :=
    ⟨hswept.toBackstage.trans (.same rfl rfl rfl), hswept.cores, hswept.sched⟩
  clear_value s3
  have h4 : Offstage s3.openRatio s4 := openTsopsSnap_offstage s3.openRatio
  clear_value s4
  obtain ⟨hratio, cats, dev, hsched⟩ := openRatio_schedOnly s3
  obtain ⟨hback1, hcores1, hsched1⟩ := h1
  obtain ⟨hback3, hcores3, hsched3⟩ := h3
  have hback : Backstage stageKeys s s4 := ((hback1.trans hback3).trans hratio.toBackstage).trans h4.toBackstage
  have hcore : s4.cores = s.cores := h4.cores.trans (hratio.cores.trans (hcores3.trans hcores1))
  have hs6 : s6 = s5 := if_neg Bool.false_ne_true
  obtain ⟨v, hv, honly, hopen⟩ : ∃ v, s5 = v ∧ CoresOnly s4 v ∧ CoresOpened s4 v := ⟨s5, rfl, openAllCores (hback.wf hs) (hcore ▸ hcores)⟩
  obtain ⟨e, he⟩ := carOpens v v.usedDies
  rw [hs6, hv, he]
  refine ⟨fun pd mc => ?_, cats, dev, e, ?_⟩
  · have hstatus : openedStatus s4 pd mc = openedStatus s pd mc := openedStatus_congr hs hback (core_congr hcore)
    exact (hopen pd mc).trans hstatus
  · have hkept : v.sched = s3.openRatio.sched := honly.sched.trans h4.sched
    dsimp only
    rw [hkept, hsched, hsched3, hsched1]
    rfl

theorem captureArmed_offstage (s : State) : Offstage s s.captureArmed :=
  Offstage.foldl (fun u _ => Offstage.ite (.same (by rfl)) (.refl u)) _ s

end

end Sys2Proof.Machine
end

section
/-!
SUPPORT. The clauses of the load and the start of a job, and those of its first step (R227 to R229, R236, R250, R508).
-/
open Sys2Proof.Claims

namespace Sys2Proof.Machine

section
variable {s : State} {who : Requester}

/-! SCHED_CTRL.LOAD and SCHED_CTRL.ARM. -/

theorem counted_offstage (s : State) (who : Requester) : Offstage s (counted s s.leadPage who) := arrived_offstage s s.leadPage who rfl

theorem load_completes (hc : Canon s) (hacc : s.accessible s.leadPage = true) (hwork : s.takesWork s.leadPage = true)
    (hst : s.sched.state ≠ .armed) (err : TierFail) :
    Completes (.schedLoad who s.leadPd err) s fun t => t = ((counted s s.leadPage who).schedLoad err).startTry := by
  have hworks : (counted s s.leadPage who).takesWork s.leadPage = true := (takesWork_arrived hc _ _).trans hwork
  refine ⟨_, rfl, (busWrite_schedCtrl hc hacc hst 1 err).trans ?_⟩
  exact if_pos hworks

theorem arm_completes (hc : Canon s) (hacc : s.accessible s.leadPage = true) (hwork : s.takesWork s.leadPage = true)
    (hst : s.sched.state ≠ .armed) :
    Completes (.schedArm who s.leadPd) s fun t => t = (counted s s.leadPage who).schedArm.startTry := by
  have hworks : (counted s s.leadPage who).takesWork s.leadPage = true := (takesWork_arrived hc _ _).trans hwork
  refine ⟨_, rfl, (busWrite_schedCtrl hc hacc hst 2 .none).trans ?_⟩
  exact if_pos hworks

/-- The image that a load has taken (R227, R250). -/
theorem loadDone_loaded {s1 s2 : State} (hown : s.sched.startOwn = none) (h1 : Offstage s s1) (h2 : Offstage s1 s2) (img : Image) :
    (s2.loadDone img).startTry = s2.loadDone img ∧ (s2.loadDone img).sched = s.sched.loadedWith img ∧
      (s2.loadDone img).cores = s.cores := by
  have hread := h1.trans h2
  have hdone := loadDone_offstage s2 img
  have hsched : (s2.loadDone img).sched = s.sched.loadedWith img := hdone.sched.trans (congrArg (·.loadedWith img) hread.sched)
  refine ⟨startTry_idle ?_, hsched, hdone.cores.trans hread.cores⟩
  rw [hsched]
  exact hown

/-! The start exchange (R229, R508). -/

/-- A device that is the whole partition starts at once. -/
theorem startTry_alone {own : StartVals} (hown : s.sched.startOwn = some own) (hkids : s.sched.startKids = [])
    (hports : s.portsAsleep = false) (ha : Alone s) (hone : own.contrib = 1) : s.startTry =
      { s with sched := { s.sched with startOwn := none, startKids := [], startAt := some (startTime s) } } := by
  obtain ⟨hroot, hnone, hdev⟩ := ha
  rw [startTry_root hown hports hroot (by simp [hnone]) (by simp [hkids]) (by rw [hkids, hdev]; exact hone), hnone]
  simp [sentOn]

/-- ARM on a device that is the whole partition. -/
theorem arm_starts {u : State} (hu : u.regsWf) {img : Image} (himg : u.sched.image = some img) (hst : u.sched.state = .loaded)
    (hkids : u.sched.startKids = []) (hports : u.portsAsleep = false) (ha : Alone u) :
    u.schedArm.startTry.sched.state = .armed ∧ u.schedArm.startTry.sched.startAt = some (startTime u) ∧
      u.schedArm.startTry.sched.image = some img ∧ u.schedArm.startTry.cores = u.cores := by
  have harm := schedArm_arms hu himg hst hports
  have hwf : (u.setSched (·.armedWith img)).regsWf := hu
  have hports' : u.schedArm.portsAsleep = false := (harm.portsAsleep hwf).trans hports
  have hown : u.schedArm.sched.startOwn = some ⟨img.buildId, img.jobSteps, img.descCrc, img.hdrCrc, 1⟩ := congrArg Sched.startOwn harm.sched
  have hkids' : u.schedArm.sched.startKids = [] := (congrArg Sched.startKids harm.sched).trans hkids
  rw [startTry_alone hown hkids' hports' (harm.alone hwf ha) rfl]
  dsimp only
  rw [harm.startTime hwf, harm.sched, harm.cores]
  exact ⟨rfl, rfl, himg, rfl⟩

/-- Barker's work after a load whose programs were all read (R228). -/
theorem afterLoad_arms {img : Image} (himg : s.sched.image = some img) (hst : s.sched.state = .loaded)
    (hread : (s.progCores.foldl (loadNext img) (0, s)).1 = 0) :
    ∃ u, CoresArmed s.progCores s u ∧ s.afterLoad = u.schedArm := by
  have hloads := coresArmed_foldl (done := []) (s := s) s.progCores (x := (0, s))
    (fun _ => ⟨.refl s, rfl, rfl, id, fun _ p hp => absurd hp List.not_mem_nil⟩) hread
  rw [List.nil_append] at hloads
  have hwork (v : State) : Offstage v (((v.initTurnstiles img).giveLayers img).freezeImage img true) :=
    ((initTurnstiles_offstage v img).trans (giveLayers_offstage _ img)).trans (freezeImage_offstage _ img true)
  refine ⟨_, hloads.offstage (hwork _), ?_⟩
  unfold State.afterLoad
  rw [himg]
  dsimp only
  rw [if_neg (not_not.mpr hst)]
  exact if_neg (not_not.mpr hread)

theorem imageLoad_completes (hc : Canon s) {img : Image} (himg : s.sched.image = some img) (hst : s.sched.state = .loaded)
    (hkids : s.sched.startKids = []) (hports : s.portsAsleep = false) (ha : Alone s)
    (hread : (s.progCores.foldl (loadNext img) (0, s)).1 = 0) : Completes .imageLoadDone s fun t =>
      t.sched.state = .armed ∧ t.sched.startAt = some (startTime s) ∧ ∀ p, p ∈ s.progCores → (t.core p.2.1 p.2.2).status = .armed := by
  obtain ⟨u, hu, heq⟩ := afterLoad_arms himg hst hread
  have hjp := hu.toBackstage.mono jpKeys_subset
  obtain ⟨hstate, hat, -, hcores⟩ := arm_starts (hu.wf hc.regs) (hu.sched ▸ himg) (hu.sched ▸ hst) (hu.sched ▸ hkids)
    ((hjp.portsAsleep hc.regs).trans hports) (hjp.alone hc.regs ha)
  refine ⟨u.schedArm.startTry, congrArg (fun t : State => Host.Outcome.next t.startTry) heq, hstate, ?_, fun p hp => ?_⟩
  · rw [hat, hjp.startTime hc.regs]
  · rw [core_congr hcores]
    exact hu.armed hc.cores p hp

/-- The schedule's state once a child's values have come in (R508). -/
def Sched.startKid (c : Sched) (n : Nat) (b : StartBody) : Sched :=
  { c with
    startKids := (n, ⟨b.buildId.toNat, b.jobSteps.toNat, b.descCrc.toNat, b.hdrCrc.toNat, b.contrib.toNat⟩) ::
      c.startKids.filter (·.1 != n) }

/-- A child's values come in; the exchange goes on where they were the last. -/
theorem startGather_comes {port : JPort} {hdr : TokHdr} (hacc : Accepted s port hdr) (hchild : s.childPort port.val = true) (b : StartBody) :
    exec (.startGather port hdr b) s = .next (s.setSched (·.startKid port.val b)).startTry := by
  change execStartGather port hdr b s = _
  rw [execStartGather, tokenOk_of_accepted hacc]
  dsimp only
  rw [hchild, if_neg (by decide)]
  rfl

/-- The root of a tree of one child answers once its values agree with its own. -/
theorem startTry_gathered {o : StartVals} {n : Nat} {b : StartBody} (hown : s.sched.startOwn = some o) (hkids : s.sched.startKids = [])
    (hone : s.childPorts = [n]) (hroot : s.isRoot = true) (hports : s.portsAsleep = false)
    (hsame : b.buildId.toNat = o.buildId ∧ b.jobSteps.toNat = o.jobSteps ∧ b.descCrc.toNat = o.descCrc)
    (hall : o.contrib + b.contrib.toNat = s.devices) : (s.setSched (·.startKid n b)).startTry =
      { s with
        sched := { s.sched.startKid n b with startOwn := none, startKids := [], startAt := some (startTime s) }
        jal := { s.jal with
          out := sentOn s [n] ⟨s.tokHdr s.sched.step.toNat, .startRelease 0 (BitVec.ofNat 64 (startTime s))⟩ } } := by
  have hkid : (s.setSched (·.startKid n b)).sched.startKids =
      [(n, ⟨b.buildId.toNat, b.jobSteps.toNat, b.descCrc.toNat, b.hdrCrc.toNat, b.contrib.toNat⟩)] := by
    simp [State.setSched, Sched.startKid, hkids]
  have hports' : (s.setSched (·.startKid n b)).childPorts = [n] := hone
  rw [startTry_root (s := s.setSched (·.startKid n b)) hown hports hroot (by simp [hports', hkid]) (by simp [hkid, hsame])
    (by rw [hkid]; exact hall), hports']
  rfl

/-- A release from the parent goes on to the children. -/
theorem startRelease_sends {port : JPort} {hdr : TokHdr} (hacc : Accepted s port hdr) (hparent : s.parentPort = some port.val)
    (result : Byte) (t0 : DWord) : exec (.startRelease port hdr result t0) s =
      let u : State := { s with jal := { s.jal with out := sentOn s s.childPorts (forwarded hdr (.startRelease result t0)) } }
      if result = 0 then .next (u.setSched fun c => { c with startAt := some t0.toNat })
      else if result = 5 then .next ((u.schedError 5 0 0 0x30).endJob 0x30 5)
      else .next u := by
  change execStartRelease port hdr result t0 s = _
  rw [execStartRelease, tokenOk_of_accepted hacc]
  dsimp only
  rw [hparent, if_neg (by simp), sendToks_eq]
  rfl

/-! The first step (R229, R508). -/

/-- The schedule's state with a job's first ratio in force (R243). -/
def Sched.firstRatio (c : Sched) (r : Nat) : Sched := { c with ratioCur := r, ratioNext := none, ratioDue := none }

theorem firstOpen_opens (hc : Canon s) {t0 : Nat} {img : Image} (hat : s.sched.startAt = some t0) (hnow : t0 ≤ s.clock.time.toNat)
    (hst : s.sched.state = .armed) (himg : s.sched.image = some img) : Completes .firstStepOpen s fun t =>
      t.sched.state = .running ∧ t.sched.beat = 0 ∧ t.sched.len = stepLen s ∧ t.sched.step = s.sched.step ∧
      t.sched.jstep = s.sched.jstep ∧ t.sched.ratioCur = img.ratioInit ∧ t.sched.attempt = 1 ∧ CoresOpened s t := by
  have hcap := captureArmed_offstage s
  have hopens : s.firstOpen = (s.captureArmed.setSched (·.firstRatio img.ratioInit)).openStep 1 false false := by
    unfold State.firstOpen
    rw [hat]
    dsimp only
    rw [if_neg (by omega), if_pos hst, himg]
    rfl
  have hset := hcap.schedOnly.trans (setSched_schedOnly s.captureArmed (·.firstRatio img.ratioInit))
  obtain ⟨hopened, cats, dev, e, hsched⟩ := openStep_opens (hset.wf hc.regs) (hset.cores ▸ hc.cores) 1
  have hstep : s.captureArmed.sched.step = s.sched.step := congrArg Sched.step hcap.sched
  have hjstep : s.captureArmed.sched.jstep = s.sched.jstep := congrArg Sched.jstep hcap.sched
  have hlen : stepLen (s.captureArmed.setSched (·.firstRatio img.ratioInit)) = stepLen s := by
    simp only [stepLen, State.setSched, Sched.firstRatio, hcap.sched]
  refine ⟨_, congrArg Host.Outcome.next hopens, ?_⟩
  beta_reduce
  rw [hsched, hlen]
  refine ⟨rfl, rfl, rfl, hstep, hjstep, rfl, rfl, fun pd mc => ?_⟩
  have hstatus := openedStatus_congr hc.regs hset.toBackstage (core_congr hset.cores (pd := pd) (mc := mc))
  exact (hopened pd mc).trans hstatus

end

end Sys2Proof.Machine

open Sys2Proof Sys2Proof.Machine Sys2Proof.Claims

/-- Settles O34, command by command: LOAD, ARM and Barker's work, the start exchange, and the first step. -/
theorem jobsLoadStartAndOpen : Obligations.JobsLoadStartAndOpen := by
  intro s hc
  refine ⟨fun who err hacc hwork _ _ hown hst u hu => ?_, fun img himg hst hkids hports ha => ⟨fun who hacc hwork _ _ => ?_, fun hread => ?_⟩,
    fun port hdr b hacc hchild => ⟨fun hown => ?_, fun o hown hkids hone hroot hports hid hsteps hcrc hall => ?_⟩,
    fun port hdr t0 hacc hparent => ⟨?_, ?_⟩, fun hat => ?_, fun t0 hat hnow => ?_, fun t0 img hat hnow hst himg => firstOpen_opens hc hat hnow hst himg⟩
  · have hoff : Offstage s u := hu ▸ counted_offstage s who
    have hst' : u.sched.state = .idle ∨ u.sched.state = .loaded ∨ u.sched.state = .ended := hoff.sched ▸ hst
    have hload := load_completes (who := who) hc hacc hwork (by rintro h; simp [h] at hst) err
    rw [← hu] at hload
    refine ⟨fun c hdr s1 hread h0 => completes_mono hload ?_, fun hdr s1 hread hbad => completes_mono hload ?_,
      fun hdr s1 hread hhdr bs s2 hbody herr hok hnames => completes_mono hload ?_⟩
    · rintro t rfl
      obtain ⟨hended, hidle⟩ := loadFail_ended s1 c 0 0
      rw [schedLoad_readError hst' hread h0, startTry_idle hidle]
      exact hended
    · rintro t rfl
      obtain ⟨⟨r, o⟩, hro⟩ := Option.ne_none_iff_exists'.mp hbad
      obtain ⟨hended, hidle⟩ := loadFail_ended s1 0x30 r o
      have hpage := hoff.trans (offstage_of_memRead hread)
      rw [schedLoad_header hst' hread hro, startTry_idle hidle, ← hpage.leadPage]
      exact ⟨hended, loadFail_err (hpage.wf hc.regs) (headerCheck_reason hro) _ _⟩
    · rintro t rfl
      subst herr
      obtain ⟨hidle, hsched, hcores⟩ := loadDone_loaded (s := u) (hoff.sched ▸ hown) (offstage_of_memRead hread) (offstage_of_memRead hbody)
        (parseImage u.imgAddr bs)
      rw [schedLoad_loads hst' hread hhdr hbody hok hnames, hidle, hsched, hcores, hoff.sched, hoff.cores]
      exact ⟨rfl, rfl, rfl, rfl, rfl⟩
  · refine completes_mono (arm_completes hc hacc hwork (by rw [hst]; decide)) ?_
    rintro t rfl
    have hoff := counted_offstage s who
    have hjp := hoff.toBackstage.mono jpKeys_subset
    obtain ⟨hstate, hat, himage, hcores⟩ := arm_starts (hoff.wf hc.regs) (hoff.sched ▸ himg) (hoff.sched ▸ hst) (hoff.sched ▸ hkids)
      ((hjp.portsAsleep hc.regs).trans hports) (hjp.alone hc.regs ha)
    exact ⟨hstate, hat.trans (by rw [hjp.startTime hc.regs]), himage, hcores.trans hoff.cores⟩
  · exact imageLoad_completes hc himg hst hkids hports ha hread
  · refine ⟨_, startGather_comes hacc hchild b, ?_⟩
    exact startTry_idle hown
  · refine ⟨_, startGather_comes hacc hchild b, ?_⟩
    rw [startTry_gathered hown hkids hone hroot hports ⟨hid, hsteps, hcrc⟩ hall]
    exact ⟨rfl, rfl, rfl, rfl, rfl⟩
  · exact ⟨_, startRelease_sends hacc hparent 0 t0, rfl, rfl, rfl⟩
  · refine ⟨_, startRelease_sends hacc hparent 5 t0, ?_⟩
    exact (endJob_closes _ _ _).state
  · change execFirstStepOpen s = _
    rw [execFirstStepOpen, State.firstOpen, hat]
  · change execFirstStepOpen s = _
    rw [execFirstStepOpen, State.firstOpen, hat]
    exact congrArg _ (if_pos hnow)

end

section
/-!
SUPPORT. What a write to tiered memory and a protection sweep leave of the homes and the L2 copies (R293, R346 to R349, R457, R475,
R478).
-/
namespace Sys2Proof.Machine

theorem LogWrites.memsys {K : Set Nat} {s t : State} (h : LogWrites K s t) : t.memsys = s.memsys := by
  obtain ⟨q, r, c, f, rfl⟩ := h.frame
  rfl

section
variable (s : State)

/-! Registers and events. -/

@[simp] theorem memsys_setFld (p : Page) (f : RegField) (v i : Nat) : (s.setFld p f v i).memsys = s.memsys := rfl

@[simp] theorem memsys_report (p : Page) (num data : Nat) (dev : Bool) (beat : Option Nat) :
    (s.report p num data dev beat).memsys = s.memsys := rfl

@[simp] theorem memsys_reportOpen (p : Page) (num : Nat) : (s.reportOpen p num).memsys = s.memsys := rfl

@[simp] theorem memsys_bump (p : Page) (f : RegField) (n i : Nat) : (s.bump p f n i).memsys = s.memsys :=
  (bump_writes s p f n i).logWrites.memsys

@[simp] theorem memsys_setInt (p : Page) (i : Nat) : (s.setInt p i).memsys = s.memsys := (setInt_writes s p i).logWrites.memsys

@[simp] theorem memsys_asyncFail (h addr code kind : Nat) : (s.asyncFail h addr code kind).memsys = s.memsys := by
  have hcap (u : State) : (u.hartCapture h addr code kind).memsys = u.memsys := (capture_writes u _ _ _ _ _ _ _).logWrites.memsys
  simp [State.asyncFail, hcap]

@[simp] theorem home_setDram (d : Dram) : (s.setDram d).memsys.home = s.memsys.home := rfl

@[simp] theorem home_setPlace (p : PlaceSt) : (s.setPlace p).memsys.home = s.memsys.home := rfl

@[simp] theorem home_setEntry (f : Nat) (e : PEntry) : (s.setEntry f e).memsys.home = s.memsys.home := rfl

/-! DRAM lines and the agents (R293, R298, R346, R347, R349). -/

@[simp] theorem home_setWcb (loc : Nat) (l : List WcbEnt) : (s.setWcb loc l).memsys.home = s.memsys.home := by
  simp [State.setWcb, State.occView, apply_ite State.memsys]

@[simp] theorem home_arrayWrite (line : Nat) (bs : List Byte) (poison : Bool) : (s.arrayWrite line bs poison).memsys.home = s.memsys.home := rfl

@[simp] theorem home_rmwLine (line mask : Nat) (bs : List Byte) : (s.rmwLine line mask bs .none).memsys.home = s.memsys.home := by
  simp [State.rmwLine, decodeLine_none, apply_ite fun t : State => t.memsys.home]

@[simp] theorem home_retireLine (line : Nat) : (s.retireLine line .none).memsys.home = s.memsys.home := by
  unfold State.retireLine
  split <;> simp

@[simp] theorem home_writeLine (line mask : Nat) (bs : List Byte) : (s.writeLine line mask bs .none).memsys.home = s.memsys.home := by
  have hroom (l : List WcbEnt) (cap : Nat) : (if l.length < cap then s else
      match l.head? with
      | some o => s.retireLine o.line .none
      | none => s).memsys.home = s.memsys.home := by
    split
    · rfl
    split
    · exact home_retireLine s _
    · rfl
  unfold State.writeLine
  dsimp only
  split
  case isTrue => rfl
  case isFalse =>
    split
    · exact home_setWcb _ _ _
    split
    · exact home_rmwLine s _ _ _
    split
    · simp [apply_ite fun t : State => t.memsys.home]
    · exact (home_setWcb _ _ _).trans (hroom _ _)

@[simp] theorem home_countRefusal (f code : Nat) : (s.countRefusal f code).memsys.home = s.memsys.home := by
  simp [State.countRefusal, apply_ite State.memsys]

@[simp] theorem home_countAccess (f : Nat) : (s.countAccess f).memsys.home = s.memsys.home := by
  simp [State.countAccess, State.promote, apply_ite fun t : State => t.memsys.home]

@[simp] theorem home_bufWrite (f line mask : Nat) (bs : List Byte) : (s.bufWrite f line mask bs).memsys.home = s.memsys.home := by
  unfold State.bufWrite
  split
  · rfl
  · rfl

@[simp] theorem home_zeroFill (f k : Nat) : (s.zeroFill f k).memsys.home = s.memsys.home := by
  unfold State.zeroFill
  dsimp only
  split
  · simp [State.zeroLines, apply_ite fun t : State => t.memsys.home]
  · rfl

@[simp] theorem home_agentWrite (ctx line mask : Nat) (bs : List Byte) (back : Bool) :
    (s.agentWrite ctx line mask bs back).2.memsys.home = s.memsys.home := by
  have hfill (c : Prop) [Decidable c] (f k : Nat) : (if c then (s.countAccess f).zeroFill f k else s.countAccess f).memsys.home =
      s.memsys.home := by
    simp [apply_ite fun t : State => t.memsys.home]
  unfold State.agentWrite
  dsimp only
  split
  · exact home_countRefusal s _ _
  split
  · exact (home_bufWrite _ _ _ _ _).trans (hfill _ _ _)
  · rw [apply_ite fun t : State => t.memsys.home, home_writeLine, ite_self, hfill]

/-! The L2 copies (R457, R475, R478). -/

/-- The L2 copies, and whether a protection sweep runs. -/
def State.swept (s : State) : List (Nat × Option CLine) × Bool := (s.homeSt.l2, s.homeSt.sweep)

theorem swept_congr {s t : State} (h : t.memsys.home = s.memsys.home) : t.swept = s.swept := by rw [State.swept, State.swept, State.homeSt, h]

theorem swept_dirErase (line : Nat) : (s.dirErase line).swept = s.swept := by
  unfold State.dirErase
  dsimp only
  split
  · rfl
  · rfl

/-- Combining entries drain to memory, not to the copies. -/
theorem swept_cbDrain (p : CbEnt → Bool) : (s.cbDrain p).swept = s.swept := by
  refine foldl_keeps (g := State.swept) (fun u e => ?_) _ s
  obtain ⟨v, hv, hdrop⟩ : ∃ v, u.setHome { u.homeSt with cb := u.homeSt.cb.filter fun x => !(x.hart == e.hart && x.line == e.line) } = v ∧
      v.swept = u.swept := ⟨_, rfl, rfl⟩
  dsimp only
  rw [hv]
  have herase : (match v.dirGet e.line with
      | some d => if d.st = DState.owned ∧ d.owner = e.hart then v.dirErase e.line else v
      | none => v).swept = v.swept := by
    split
    · rw [apply_ite State.swept, swept_dirErase, ite_self]
    · rfl
  have hwrite (w : State) : (w.lineToAgent e.ctx e.line e.mask (mgets (fun _ => 0) e.bytes 0 64) true).2.swept = w.swept :=
    swept_congr (home_agentWrite w _ _ _ _ _)
  rw [apply_ite State.swept, swept_congr (congrArg MemSt.home (memsys_asyncFail _ _ _ _ _)), ite_self, hwrite]
  exact herase.trans hdrop

/-- A copy that has given up write permission (R478). -/
def CLine.shared (c : CLine) : CLine := { c with st := match c.st with | .m => .o | .e => .s | y => y }

theorem shared_readOnly (c : CLine) : c.shared.st ≠ .m ∧ c.shared.st ≠ .e := by
  unfold CLine.shared
  cases c.st <;> simp

/-- An entry of a map changed by its key. -/
theorem mget_mapKey {α : Type} {d : Nat → α} {f : Nat → α → α} (hd : ∀ k, f k (d k) = d k) (m : List (Nat × α)) (k : Nat) :
    mget d (m.map fun x => (x.1, f x.1 x.2)) k = f k (mget d m k) := by
  induction m with
  | nil => exact (hd k).symm
  | cons x m ih =>
    obtain ⟨j, v⟩ := x
    simp only [List.map_cons, mget, ih]
    split
    · next h => rw [h]
    · split
      · exact (hd k).symm
      · rfl

/-- An L2 copy once the frames that p names are swept. -/
def sweptCopy (p : Nat → Bool) (k : Nat) (c : Option CLine) : Option CLine :=
  if p (frameOf64 (k % 2 ^ 46)) then c.map CLine.shared else c

theorem swept_sweepFrames (p : Nat → Bool) :
    (s.sweepFrames p).swept = (s.homeSt.l2.map fun x => (x.1, sweptCopy p x.1 x.2), s.homeSt.sweep) := by
  refine (swept_cbDrain _ _).trans (Prod.ext (List.map_congr_left fun x _ => ?_) rfl)
  dsimp only
  unfold sweptCopy
  split
  · rfl
  · rfl

/-- Every copy of a swept frame has given up write permission. -/
theorem l2Line_sweepFrames {p : Nat → Bool} {line : Nat} (hline : line < 2 ^ 46) (hp : p (frameOf64 line) = true) {h : Nat} {c : CLine}
    (hc : (s.sweepFrames p).l2Line h line = some c) : c.st ≠ .m ∧ c.st ≠ .e := by
  have hkey : lineKey h line % 2 ^ 46 = line := by
    unfold lineKey
    omega
  have hl2 : (s.sweepFrames p).homeSt.l2 = s.homeSt.l2.map fun x => (x.1, sweptCopy p x.1 x.2) :=
    congrArg Prod.fst (swept_sweepFrames s p)
  rw [State.l2Line, hl2, mget_mapKey (fun k => by unfold sweptCopy; split <;> rfl), sweptCopy, hkey, if_pos hp, Option.map_eq_some_iff] at hc
  obtain ⟨x, -, rfl⟩ := hc
  exact shared_readOnly x

end

end Sys2Proof.Machine
end

section
/-!
SUPPORT. The gather report of a step, its commit, and holds (R195, R210, R230, R231, R246, R247, R507, R515, R531, R535).
-/
open Sys2Proof.Claims

namespace Sys2Proof.Machine

/-! The device's own report. -/

/-- SCHED_RATIO of the schedule controllers. -/
def ratioKeys : Set Nat := {k | k / 0x1000000 = 17 ∧ k % 4096 = 0x13C}

theorem ratioKeys_subset : ratioKeys ⊆ stageKeys := by
  rintro k ⟨hcode, hoff⟩
  rw [stageKeys, Set.mem_ofPred_eq, hcode, hoff]
  rfl

/-- t differs from s in marks of the running step, and in what its gather report does not read. -/
structure Marks (s t : State) : Prop extends Backstage ratioKeys s t where
  sched : ∃ cats dev e, t.sched = { s.sched with cats := cats, deviated := dev, stepErr := e }

section
variable {s t u : State}

theorem Marks.trans (h : Marks s t) (h' : Marks t u) : Marks s u where
  toBackstage := h.toBackstage.trans h'.toBackstage
  sched := by
    obtain ⟨cats, dev, e, heq⟩ := h.sched
    obtain ⟨cats', dev', e', heq'⟩ := h'.sched
    exact ⟨cats', dev', e', by rw [heq', heq]⟩

theorem Marks.same (h : Backstage ratioKeys s t) (hsched : t.sched = s.sched) : Marks s t :=
  ⟨h, s.sched.cats, s.sched.deviated, s.sched.stepErr, hsched⟩

theorem Offstage.marks (h : Offstage s t) : Marks s t := .same (h.toBackstage.mono ratioKeys_subset) h.sched

theorem Marks.ite {c : Prop} [Decidable c] (h : Marks s t) (h' : Marks s u) : Marks s (if c then t else u) := by
  split
  · exact h
  · exact h'

theorem Marks.foldl {α : Type} {f : State → α → State} (h : ∀ u a, Marks u (f u a)) (l : List α) (s : State) : Marks s (l.foldl f s) := by
  induction l generalizing s with
  | nil => exact (Offstage.refl s).marks
  | cons a l ih => exact (h s a).trans (ih _)

theorem Marks.ratioReq (h : Marks s t) (hs : s.regsWf) :
    t.fld t.leadPage Reg.SCHED_RATIO_REQ = s.fld s.leadPage Reg.SCHED_RATIO_REQ := by
  rw [h.leadPage]
  exact fld_congr (h.reg hs ⟨regKey_div (by decide), regKey_mod (by decide)⟩)

variable (s)

theorem capture_ratioKeys (p : Page) (code off source data info2 info3 : Nat) :
    Backstage ratioKeys s (s.capture p code off source data info2 info3) := by
  refine (capture_writes s p code off source data info2 info3).logWrites.backstage fun k hk => ?_
  obtain ⟨o, hmem, rfl⟩ | hirq := hk
  · have ho : o < 4096 ∧ o ≠ 0x13C := by
      simp only [List.mem_cons, List.not_mem_nil, or_false] at hmem
      omega
    exact fun h => ho.2 ((regKey_mod ho.1).symm.trans h.2)
  · exact fun h => irqKeys_offstage hirq (ratioKeys_subset h)

theorem blockErr_report_marks (p q : Page) (num data info2 info3 num' data' : Nat) :
    Marks s ((s.blockErr p num data info2 info3).report q num' data') := by
  have hcap : Backstage ratioKeys s (s.blockErr p num data info2 info3) := capture_ratioKeys s p _ _ _ _ _ _
  exact .same (hcap.trans (.same rfl rfl rfl)) ((report_sched _ _ _ _ _ _).trans (sched_blockErr s p num data info2 info3))

theorem schedError_marks (reason lc pc code : Nat) : Marks s (s.schedError reason lc pc code) := by
  have herr := blockErr_report_marks s s.leadPage s.leadPage 4 0 (lc + pc * 2 ^ 16) reason 4 (reason + lc * 2 ^ 8 + pc * 2 ^ 18)
  refine herr.ite (herr.trans ?_)
  exact ⟨.same rfl rfl rfl, _, _, _, rfl⟩

theorem deviate_marked (p : Page) (num : Nat) (cat : DevCat) (kind beats pc lc aux : Nat) :
    Marks s (s.deviate p num cat kind beats pc lc aux) := by
  obtain ⟨cats, dev, heq⟩ := deviate_sched s p num cat kind beats pc lc aux
  exact ⟨(deviate_schedOnly s p num cat kind beats pc lc aux).toBackstage.mono ratioKeys_subset, cats, dev, _, heq⟩

theorem OneCore.marks {pd : PD} {mc : MC} (h : OneCore pd mc s t) : Marks s t := .same (h.toBackstage.mono ratioKeys_subset) h.sched

theorem coreStop_marks (pd : PD) (mc : MC) (pc reason : Nat) : Marks s (s.coreStop pd mc pc reason) := by
  have hstop (c : CoreSt) := ((setCore_oneCore pd mc s c).trans (enterStopped_oneCore pd mc _ .stoppedError)).marks
  exact ((hstop _).trans (blockErr_report_marks _ _ _ _ _ _ _ _ _)).trans (schedError_marks _ _ _ _ _)

/-- The cores' check at their declared end marks the step at most (R140, R195). -/
theorem declaredEnd_marks (trapped : Bool) : Marks s (s.declaredEnd trapped) := by
  refine Marks.foldl (fun u p => ?_) _ s
  have hidle := (Offstage.refl u).marks
  exact hidle.ite (((enterStopped_oneCore _ _ u _).marks).ite (hidle.ite (coreStop_marks u _ _ _ _)))

/-- Gated runs are recorded as deviations (R560). -/
theorem recordRuns_marks : Marks s s.recordRuns := by
  refine Marks.foldl (fun u x => ?_) _ s
  have hagent (v : State) (pd : PD) (a : AgentSt) : Marks v (v.setAgent pd a) := (setPower_offstage v _).marks
  unfold State.recordRun
  dsimp only
  split
  · exact (Offstage.refl u).marks
  · exact ((Offstage.refl u).marks.ite (deviate_marked u _ _ _ _ _ _ _ _)).trans (hagent _ _ _)

end

/-! Reports up the tree, and the release (R230, R231, R505). -/

section
variable (s : State)

@[simp] theorem flood_sched (step : Nat) (b : TokBody) : (s.flood step b).sched = s.sched := by
  rw [State.flood, sendToks_sched]

/-- A release is taken, with the record of the earliest trap where that is this device's. -/
theorem takeRelease_sched (r : Report) : ∃ rec_, (s.takeRelease r).sched = { s.sched with release := some r, trapRec := rec_ } := by
  unfold State.takeRelease
  dsimp only
  split
  · split
    · exact ⟨_, flood_sched _ _ _⟩
    · exact ⟨s.sched.trapRec, rfl⟩
  · exact ⟨s.sched.trapRec, rfl⟩

theorem takeRelease_untrapped (h : s.firstTrap = none) (r : Report) :
    s.takeRelease r = { s with sched := { s.sched with release := some r } } := by
  unfold State.takeRelease
  rw [h]
  dsimp only
  split
  next h' => cases h'
  next => rfl

@[simp] theorem sendUp_sched (step : Nat) (b : TokBody) : (s.sendUp step b).sched = s.sched := by
  unfold State.sendUp
  split
  · rfl
  · rfl

/-- The exchange goes on with the tree's reports alone. -/
theorem gatherTry_sched : ∃ kids rel rec_, s.gatherTry.sched = { s.sched with children := kids, release := rel, trapRec := rec_ } := by
  have hidle : ∃ kids rel rec_, s.sched = { s.sched with children := kids, release := rel, trapRec := rec_ } := ⟨_, _, _, rfl⟩
  unfold State.gatherTry
  split
  · exact hidle
  dsimp only
  split
  · exact hidle
  split
  · split
    · exact hidle
    · obtain ⟨rec_, hrel⟩ := takeRelease_sched (s.sendDown s.sched.step.toNat (.release _)) _
      exact ⟨_, _, rec_, hrel.trans (by rw [State.sendDown, sendToks_sched])⟩
  · exact ⟨[], s.sched.release, s.sched.trapRec, sendUp_sched _ _ _⟩

/-- The schedule's state once the device has gathered (R230). -/
def Sched.gathered (c : Sched) (r : Report) (m : Nat) : Sched := { c with own := some r, state := .commit, sd := m }

variable {s}

theorem gatherTry_idle (h : s.sched.own = none) : s.gatherTry = s := by rw [State.gatherTry, h]

theorem recoveryTry_idle (h : s.sched.recoveryOwn = none) : s.recoveryTry = s := by rw [State.recoveryTry, h]

/-- A running step that has reached its stretch gathers. -/
theorem gatherReport_gathers (hs : s.regsWf) (hruns : s.schedRuns = true) (hst : s.sched.state ≠ .commit) (hown : s.sched.own = none)
    (hpast : (s.sched.stepErr.any (·.reason == 0x0C)) = false) (htrap : s.trapPending = false) (hcap : s.capturesDone = true)
    (hports : ∀ n, n < 8 → (s.portDone n).isSome = true) (hbeat : s.sched.len + stretchOf s ≤ s.sched.beat) :
    ∃ u r, Marks s u ∧ r.m = stretchOf s ∧ r.contrib = 1 ∧ r.ratio = s.fld s.leadPage Reg.SCHED_RATIO_REQ ∧
      s.gatherReport = (u.setSched (·.gathered r (stretchOf s))).gatherTry := by
  have hdue : s.sched.len + s.maxStall ≤ s.sched.beat := by
    unfold stretchOf at hbeat
    omega
  have hdone : ((List.range 8).map s.portDone).any (·.isNone) = false := by
    rw [List.any_map, List.any_eq_false]
    intro n hn
    simpa using Option.isSome_iff_ne_none.mp (hports n (List.mem_range.mp hn))
  have hopen : (!s.schedRuns || s.sched.state == .commit || s.sched.own.isSome || decide (s.sched.beat < s.sched.len + s.maxStall)) = false := by
    simp [hruns, hst, hown, hdue]
  unfold State.gatherReport
  extract_lets sd due past ports late jal m s0 s1 s2 trap r
  have hlate : late = s.sched.captureEnd := if_neg (by simp [past, hpast])
  have hm : m = stretchOf s := by
    have hjal : jal = ports.foldl (fun m p => max m (p.getD 0)) 0 := if_neg (by simp [past, hpast])
    unfold m stretchOf
    rw [hlate, hjal]
  have h1 : Marks s s1 := (recordRuns_marks s).trans ((deviate_marked s0 _ _ _ _ _ _ _ _).ite (Offstage.refl s0).marks)
  have h2 : Marks s s2 := h1.trans (declaredEnd_marks s1 _)
  refine ⟨s2, r, h2, hm, rfl, h2.ratioReq hs, ?_⟩
  rw [if_neg (ne_true_of_eq_false hopen), if_neg (by simp [past, hpast, htrap, hcap, ports, hdone]),
    if_neg (by rw [hm]; exact not_lt.mpr hbeat), hm]
  rfl

end

/-! The commit (R231, R233, R243). -/

/-- What the step boundary counts and marks: the step, the job step, the commit and the slip. -/
def Sched.mark (c : Sched) : DWord × DWord × Bool × Nat := (c.step, c.jstep, c.committed, c.slip)

section
variable {s t u : State}

theorem Closes.mark (h : Closes s t) : t.sched.mark = s.sched.mark := by
  obtain ⟨r, hr⟩ := h.sched
  rw [hr]
  rfl

theorem closed_mark (s : State) (code reason : Nat) (p : Option (Job × Nat)) :
    ((s.closeJob code reason).postCommit p).sched.mark = s.sched.mark :=
  ((closeJob_closes s code reason).offstage (postCommit_offstage _ p)).mark

theorem posted_mark (s : State) (p : Option (Job × Nat)) : (s.postCommit p).sched.mark = s.sched.mark :=
  congrArg Sched.mark (postCommit_offstage s p).sched

theorem deviate_mark (s : State) (p : Page) (num : Nat) (cat : DevCat) (kind beats pc lc aux : Nat) :
    (s.deviate p num cat kind beats pc lc aux).sched.mark = s.sched.mark := by
  obtain ⟨cats, dev, h⟩ := deviate_sched s p num cat kind beats pc lc aux
  rw [h]
  rfl

/-- A commit counts the step and marks it, whatever becomes of the job. -/
theorem commitStep_mark (s : State) (m cats : Nat) (flushed : Bool) :
    (s.commitStep m cats flushed).sched.mark = (s.sched.step + 1, s.sched.jstep + 1, true, m) := by
  unfold State.commitStep
  extract_lets dev job ratio s1 s2 s3 s4
  have h1 : s1.sched.mark = (s.sched.step + 1, s.sched.jstep + 1, true, m) := rfl
  have h2 : s2.sched.mark = s1.sched.mark := by
    unfold s2
    split
    · rfl
    · exact deviate_mark _ _ _ _ _ _ _ _ _
  have h3 : s3.sched.mark = s2.sched.mark :=
    congrArg Sched.mark ((setInt_offstage s2 s.leadPage 1).trans (Offstage.foldl (fun u pd => carCommit_offstage u pd job) _ _)).sched
  have h4 : s4.sched.mark = s3.sched.mark := by
    unfold s4
    split
    · rfl
    · rfl
  rw [← h1, ← h2, ← h3, ← h4]
  clear_value s4
  split
  · split
    · exact closed_mark _ _ _ _
    · exact posted_mark _ _
  · extract_lets j s5 due prog
    have h5 : s5.sched.mark = s4.sched.mark := rfl
    clear_value s5
    rw [← h5]
    split
    · exact closed_mark _ _ _ _
    split
    · exact closed_mark _ _ _ _
    · exact posted_mark _ _

end

/-! Holds (R507, R535). -/

section
variable (s : State)

theorem setJp_offstage {f : RegField} (v : Nat) (hf : ∀ n, offReg (jpPage n) (f.off + f.stride * 0) = true) : Offstage s (s.setJp f v) := by
  unfold State.setJp
  exact Offstage.foldl (fun u n => setFld_offstage u v (hf n)) _ s

theorem noteHold_offstage (origin cause : Nat) : Offstage s (s.noteHold origin cause) := by
  have hnoted := ((setJp_offstage s (f := Reg.JP_HOLD_HELD) 1 (fun _ => rfl)).trans
    (setJp_offstage _ (f := Reg.JP_HOLD_CAUSE) cause (fun _ => rfl))).trans (setJp_offstage _ (f := Reg.JP_HOLD_ORIGIN) origin (fun _ => rfl))
  have hints (u : State) : Offstage u ((List.range 8).foldl (fun t n => t.setInt (jpPage n) 6) u) :=
    Offstage.foldl (fun v n => setInt_offstage v (jpPage n) 6) _ u
  exact ((Offstage.refl s).ite (reportOpen_offstage s jp0 5)).ite (hnoted.trans (hints _))

/-- The schedule's state once the device holds (R535). -/
def Sched.heldFor (c : Sched) (cause since : Nat) : Sched :=
  { c with state := .held, holdCause := some cause, heldSince := since, resumed := false }

/-- A running device holds. -/
theorem raiseHold_holds (hruns : s.schedRuns = true) (cause origin hstep : Nat) :
    ∃ u, Offstage (s.setSched (·.heldFor cause s.clock.time.toNat)) u ∧ s.raiseHold cause origin hstep false = u ∧
      s.raiseHold cause origin hstep true = u.flood hstep (.hold (BitVec.ofNat 8 cause) (BitVec.ofNat 32 s.sched.beat) 0) := by
  unfold State.raiseHold
  extract_lets s1 s2 held s3
  have hnoted : Offstage s s2 :=
    ((report_offstage s _ _ _ _ _).trans (setFld_offstage _ _ (by rfl))).trans (noteHold_offstage _ _ _)
  clear_value s2
  rw [if_pos hruns, if_pos hruns]
  exact ⟨s3, hnoted.setSched _, rfl, rfl⟩

theorem postTrap_offstage : Offstage s s.postTrap := by
  unfold State.postTrap
  split
  · split
    · exact ((postRec_offstage s _ _ _ _ _).trans (.same (by rfl))).trans (postAll_offstage _)
    · exact .refl s
  · exact .refl s

end

end Sys2Proof.Machine
end

section
/-!
SUPPORT. The clauses of the end of a step and the opening of the next one (R210, R230, R231, R234, R236, R247, R248, R478, R505, R507,
R515, R531, R535).
-/
open Sys2Proof.Claims

namespace Sys2Proof.Machine

section
variable {s : State} {port : JPort} {hdr : TokHdr}

/-! Reports and releases. -/

theorem gatherReport_completes (hs : s.regsWf) (hruns : s.schedRuns = true) (hst : s.sched.state ≠ .commit) (hown : s.sched.own = none)
    (hpast : (s.sched.stepErr.any (·.reason == 0x0C)) = false) (htrap : s.trapPending = false) (hcap : s.capturesDone = true)
    (hports : ∀ n, n < 8 → (s.portDone n).isSome = true) (hbeat : s.sched.len + stretchOf s ≤ s.sched.beat) :
    Completes .gatherReport s fun t =>
      t.sched.state = .commit ∧ t.sched.sd = stretchOf s ∧ t.sched.step = s.sched.step ∧
      ∃ r, t.sched.own = some r ∧ r.m = stretchOf s ∧ r.contrib = 1 ∧ r.ratio = s.fld s.leadPage Reg.SCHED_RATIO_REQ := by
  obtain ⟨u, r, hu, hm, hone, hratio, heq⟩ := gatherReport_gathers hs hruns hst hown hpast htrap hcap hports hbeat
  obtain ⟨kids, rel, rec_, htry⟩ := gatherTry_sched (u.setSched (·.gathered r (stretchOf s)))
  obtain ⟨cats, dev, e, hmarks⟩ := hu.sched
  refine ⟨s.gatherReport, rfl, ?_⟩
  rw [heq]
  have hstep : u.sched.step = s.sched.step := by rw [hmarks]
  dsimp only
  rw [htry]
  exact ⟨rfl, rfl, hstep, r, rfl, hm, hone, hratio⟩

/-- A child's report waits for the device's own. -/
theorem gatherToken_waits (hacc : Accepted s port hdr) (hchild : s.childPort port.val = true) {b : GatherBody}
    (hflag : bitOf b.flags.toNat 2 = false) (hown : s.sched.own = none) :
    exec (.gatherToken port hdr b) s = .next { s with sched := { s.sched with
      children := (port.val, reportOf b hdr.origin.toNat) :: s.sched.children.filter (·.1 != port.val) } } := by
  change execGatherToken port hdr b s = _
  rw [execGatherToken, tokenOk_of_accepted hacc]
  dsimp only
  rw [hchild, hflag, if_neg (by decide), if_neg (by decide)]
  exact congrArg Host.Outcome.next (gatherTry_idle hown)

/-- A child's recovery report waits for the device's own. -/
theorem recoveryToken_waits (hacc : Accepted s port hdr) (hchild : s.childPort port.val = true) {b : GatherBody}
    (hflag : bitOf b.flags.toNat 2 = true) (hown : s.sched.recoveryOwn = none) :
    exec (.gatherToken port hdr b) s = .next { s with sched := { s.sched with
      recoveryKids := (port.val, recoveryOf hdr b) :: s.sched.recoveryKids.filter (·.1 != port.val) } } := by
  change execGatherToken port hdr b s = _
  rw [execGatherToken, tokenOk_of_accepted hacc]
  dsimp only
  rw [hchild, hflag, if_neg (by decide), if_pos rfl]
  exact congrArg Host.Outcome.next (recoveryTry_idle hown)

theorem releaseToken_completes (hacc : Accepted s port hdr) (hparent : s.parentPort = some port.val) (hst : s.sched.state = .commit)
    (hrel : s.sched.release = none) (htrap : s.firstTrap = none) (b : GatherBody) : Completes (.releaseToken port hdr b) s fun t =>
      t.sched.release = some (reportOf b hdr.origin.toNat) ∧ t.sched.state = .commit ∧
      t.jal.out = sentOn s s.childPorts (forwarded hdr (.release b)) := by
  obtain ⟨v, hv, hsched, htrap', hout⟩ : ∃ v, s.sendToks s.childPorts (forwarded hdr (.release b)) = v ∧ v.sched = s.sched ∧
      v.firstTrap = none ∧ v.jal.out = sentOn s s.childPorts (forwarded hdr (.release b)) :=
    ⟨_, sendToks_eq _ _ _, rfl, htrap, rfl⟩
  refine ⟨v.takeRelease (reportOf b hdr.origin.toNat), ?_, ?_⟩
  · change execReleaseToken port hdr b s = _
    rw [forwarded] at hv
    rw [execReleaseToken, tokenOk_of_accepted hacc]
    dsimp only
    rw [hparent, if_neg (by simp), hv, hsched]
    exact if_pos ⟨hst, by rw [hrel]; rfl⟩
  · rw [takeRelease_untrapped v htrap']
    exact ⟨rfl, (congrArg Sched.state hsched).trans hst, hout⟩

/-! The commit. -/

/-- A step in COMMIT, gathered and not committed, whose beat C is over. -/
structure AtBeatC (s : State) : Prop where
  uncommitted : s.sched.committed = false
  gathered : s.sched.own.isSome = true
  state : s.sched.state = .commit
  due : s.beatC ≤ s.sched.beat

theorem AtBeatC.decides (h : AtBeatC s) : (s.sched.committed || s.sched.own.isNone ||
    !(s.sched.state == .commit || (s.sched.state == .held && s.sched.release.isSome)) || decide (s.sched.beat < s.beatC)) ≠ true := by
  rw [h.uncommitted, Option.isNone_eq_false_iff.mpr h.gathered, h.state]
  simp [h.due]

theorem boundary_commits (hc : AtBeatC s) {r : Report} (hrel : s.sched.release = some r) (hfault : r.fault = false) (hhold : r.hold = false)
    (herr : r.err = none) (htrap : r.trap = none) (flushed : Bool) : s.boundary flushed =
      { s.commitStep r.m r.cats flushed with
        jal := { (s.commitStep r.m r.cats flushed).jal with flipAt := some (s.beatC + 1600) } } := by
  unfold State.boundary
  dsimp only
  rw [if_neg hc.decides, hrel]
  dsimp only
  rw [hfault, hhold, herr, htrap, if_neg (by decide), if_neg (by decide), if_neg (by decide)]

theorem stepCommit_commits (hc : AtBeatC s) {r : Report} (hrel : s.sched.release = some r) (hfault : r.fault = false)
    (hhold : r.hold = false) (herr : r.err = none) (htrap : r.trap = none) (flushed : Bool) : Completes (.stepCommit flushed) s fun t =>
      t.sched.step = s.sched.step + 1 ∧ t.sched.jstep = s.sched.jstep + 1 ∧ t.sched.committed = true ∧ t.sched.slip = r.m ∧
      t.jal.flipAt = some (s.beatC + 1600) := by
  have hmark := commitStep_mark s r.m r.cats flushed
  simp only [Sched.mark, Prod.mk.injEq] at hmark
  obtain ⟨hstep, hjstep, hcommitted, hslip⟩ := hmark
  refine ⟨_, congrArg Host.Outcome.next (boundary_commits hc hrel hfault hhold herr htrap flushed), ?_⟩
  exact ⟨hstep, hjstep, hcommitted, hslip, rfl⟩

theorem stepCommit_ends (hc : AtBeatC s) {r : Report} {e : Nat × Nat} (hrel : s.sched.release = some r) (hfault : r.fault = false)
    (hhold : r.hold = false) (herr : r.err = some e) (flushed : Bool) : Completes (.stepCommit flushed) s fun t =>
      t.sched.state = .ended ∧ t.sched.step = s.sched.step := by
  have hend := endJob_closes s
  refine ⟨s.boundary flushed, rfl, ?_⟩
  unfold State.boundary
  dsimp only
  rw [if_neg hc.decides, hrel]
  dsimp only
  rw [hfault, hhold, herr, if_neg (by decide), if_pos Option.isSome_some]
  exact ⟨(hend _ _).state, (hend _ _).step⟩

/-- Without a release at its beat C the device holds (R231, R536). -/
theorem stepCommit_holds (hc : AtBeatC s) (hrel : s.sched.release = none) (flushed : Bool) : Completes (.stepCommit flushed) s fun t =>
      t.sched.state = .held ∧ t.sched.step = s.sched.step ∧ t.sched.holdCause = some 2 := by
  have hruns : s.schedRuns = true := by simp [State.schedRuns, hc.state]
  obtain ⟨u, hu, -, hflood⟩ := raiseHold_holds s hruns 2 s.deviceNo s.holdStep
  refine ⟨s.boundary flushed, rfl, ?_⟩
  unfold State.boundary
  dsimp only
  rw [if_neg hc.decides, hrel]
  dsimp only
  rw [hflood, flood_sched, hu.sched]
  exact ⟨rfl, rfl, rfl⟩

/-! The next step. -/

theorem parityFlip_flips {b : Nat} (hat : s.jal.flipAt = some b) :
    (b ≤ s.sched.beat → exec .parityFlip s = .next { s with jal := { s.jal with parity := s.sched.jstep.getLsbD 0, flipAt := none } }) ∧
    (s.sched.beat < b → exec .parityFlip s = .next s) := by
  have hexec : exec .parityFlip s = if b ≤ s.sched.beat then .next s.parityFlip else .next s := by
    change execParityFlip s = _
    rw [execParityFlip, hat]
  have hbit : bitOf s.sched.jstep.toNat 0 = s.sched.jstep.getLsbD 0 := bitOf_testBit _ 0
  refine ⟨fun h => ?_, fun h => hexec.trans (if_neg (not_le.mpr h))⟩
  rw [hexec, if_pos h, State.parityFlip, hbit]

theorem stepOpen_opens (hc : Canon s) (hst : s.sched.state = .commit) (hcom : s.sched.committed = true)
    (hbeat : s.beatC + 2400 ≤ s.sched.beat) : Completes .stepOpen s fun t =>
      t.sched.state = .running ∧ t.sched.beat = 0 ∧ t.sched.len = stepLen s ∧ t.sched.step = s.sched.step ∧ t.sched.attempt = 1 ∧
      t.sched.committed = false ∧ t.sched.ratioCur = s.sched.ratioDue.getD s.sched.ratioCur ∧ CoresOpened s t := by
  obtain ⟨hcores, cats, dev, e, hsched⟩ := openStep_opens hc.regs hc.cores 1
  refine ⟨s.openStep 1 false false, if_pos ⟨hst, hcom, hbeat⟩, ?_⟩
  beta_reduce
  rw [hsched]
  exact ⟨rfl, rfl, rfl, rfl, rfl, rfl, rfl, hcores⟩

theorem inputSet_distributes (hruns : s.schedRuns = true) (hbeat : s.sched.len - 6000 ≤ s.sched.beat) (hsweep : s.homeSt.sweep = false) :
    Completes .inputSetDistribute s fun t =>
      t.sched.inputNext = s.inputsAt (s.sched.jstep.toNat + 1) ∧ t.homeSt.sweep = true ∧
      ∀ h line, line < 2 ^ 46 → inRanges (s.inputsAt (s.sched.jstep.toNat + 1)) (frameOf64 line) = true →
        ∀ c, t.l2Line h line = some c → c.st ≠ .m ∧ c.st ≠ .e := by
  have hdue : (s.schedRuns && decide (s.sched.len - 6000 ≤ s.sched.beat) && !s.homeSt.sweep) = true := by
    simp [hruns, hbeat, hsweep]
  obtain ⟨u, hu, hnext, hrun⟩ : ∃ u, ((s.setSched fun c => { c with inputNext := s.inputsAt (s.sched.jstep.toNat + 1) }).setHome
      { s.homeSt with sweep := true }) = u ∧ u.sched.inputNext = s.inputsAt (s.sched.jstep.toNat + 1) ∧ u.homeSt.sweep = true :=
    ⟨_, rfl, rfl, rfl⟩
  have hswept := swept_sweepFrames u (inRanges (s.inputsAt (s.sched.jstep.toNat + 1)))
  refine ⟨u.sweepFrames (inRanges (s.inputsAt (s.sched.jstep.toNat + 1))), (if_pos hdue).trans (by rw [← hu]; rfl), ?_, ?_, ?_⟩
  · rw [(sweepFrames_offstage _ _).sched, hnext]
  · exact (congrArg Prod.snd hswept).trans hrun
  · exact fun h line hline hp c hcopy => l2Line_sweepFrames u hline hp hcopy

/-! Overruns, holds and trap records. -/

theorem schedError_overrun (hs : s.regsWf) : (s.schedError 0x0C 0x3FF 0 0x30).flag s.leadPage Reg.BLK_STAT_ERR = true ∧
    (s.schedError 0x0C 0x3FF 0 0x30).sched = { s.sched with stepErr := some (s.sched.stepErr.getD ⟨0x0C, 0x3FF, 0, 0x30⟩) } := by
  have herr : ((s.blockErr s.leadPage 4 0 (0x3FF + 0 * 2 ^ 16) 0x0C).report s.leadPage 4
      (0x0C + 0x3FF * 2 ^ 8 + 0 * 2 ^ 18)).flag s.leadPage Reg.BLK_STAT_ERR = true := flag_capture s.leadPage _ _ _ _ _ _ hs
  have hsched := sched_blockErr s s.leadPage 4 0 (0x3FF + 0 * 2 ^ 16) 0x0C
  unfold State.schedError
  dsimp only
  cases hfirst : s.sched.stepErr with
  | none => exact ⟨herr, congrArg (fun c : Sched => { c with stepErr := some ⟨0x0C, 0x3FF, 0, 0x30⟩ }) hsched⟩
  | some e =>
    refine ⟨herr, hsched.trans ?_⟩
    exact congrArg (fun e => { s.sched with stepErr := e }) hfirst

theorem stepOverrun_errs (hs : s.regsWf) (hruns : s.schedRuns = true) (hcom : s.sched.committed = false) (hbeat : 262143 ≤ s.sched.beat)
    (hnew : (s.sched.stepErr.any (·.reason == 0x0C)) = false) : Completes .stepOverrun s fun t =>
      t.sched.stepErr = some (s.sched.stepErr.getD ⟨0x0C, 0x3FF, 0, 0x30⟩) ∧ t.flag s.leadPage Reg.BLK_STAT_ERR = true ∧
      t.sched.state = s.sched.state := by
  have hover : (s.schedRuns && !s.sched.committed && decide (262143 ≤ s.sched.beat) && !(s.sched.stepErr.any (·.reason == 0x0C))) = true := by
    simp [hruns, hcom, hbeat, hnew]
  obtain ⟨herr, hsched⟩ := schedError_overrun hs
  obtain ⟨u, hu⟩ : ∃ u, s.schedError 0x0C 0x3FF 0 0x30 = u := ⟨_, rfl⟩
  rw [hu] at herr hsched
  have hstate : u.sched.state = s.sched.state := by rw [hsched]
  have hfirst : u.sched.stepErr = some (s.sched.stepErr.getD ⟨0x0C, 0x3FF, 0, 0x30⟩) := by rw [hsched]
  refine ⟨u.setSched fun c => { c with stepErr := some (c.stepErr.getD ⟨0x0C, 0x3FF, 0, 0x30⟩) }, ?_, ?_, herr, hstate⟩
  · rw [← hu]
    exact if_pos hover
  · exact (congrArg (fun e : Option StepErr => some (e.getD ⟨0x0C, 0x3FF, 0, 0x30⟩)) hfirst).trans rfl

theorem holdToken_seen (hacc : Accepted s port hdr) {cause : Byte} {beat : Word} {detail : DWord}
    (hseen : s.jal.seen.contains (tokKey ⟨hdr, .hold cause beat detail⟩) = true) : exec (.holdToken port hdr cause beat detail) s = .next s := by
  change execHoldToken port hdr cause beat detail s = _
  rw [execHoldToken, tokenOk_of_accepted hacc]
  dsimp only
  rw [State.floodIn, if_pos hseen]
  rfl

theorem holdToken_holds (hacc : Accepted s port hdr) {cause : Byte} {beat : Word} {detail : DWord}
    (hseen : s.jal.seen.contains (tokKey ⟨hdr, .hold cause beat detail⟩) = false) (hstep : s.sched.step.toNat ≤ hdr.step.toNat)
    (hruns : s.schedRuns = true) : Completes (.holdToken port hdr cause beat detail) s fun t =>
      t.sched.state = .held ∧ t.sched.holdCause = some cause.toNat ∧ t.cores = s.cores ∧
      t.jal.out = sentOn s (s.activePorts.filter (· != port.val)) (forwarded hdr (.hold cause beat detail)) := by
  obtain ⟨v, hv, hsched, hcores, hout⟩ : ∃ v : State, s.floodIn port.val ⟨hdr, .hold cause beat detail⟩ = (true, v) ∧
      v.sched = s.sched ∧ v.cores = s.cores ∧
      v.jal.out = sentOn s (s.activePorts.filter (· != port.val)) (forwarded hdr (.hold cause beat detail)) :=
    ⟨_, floodIn_first hseen _, rfl, rfl, rfl⟩
  have hruns' : v.schedRuns = true := by rw [State.schedRuns, hsched]; exact hruns
  obtain ⟨u, hu, hquiet, -⟩ := raiseHold_holds v hruns' cause.toNat hdr.origin.toNat hdr.step.toNat
  refine ⟨u, ?_, ?_, ?_, hu.cores.trans hcores, (congrArg JalSt.out hu.jal).trans hout⟩
  · change execHoldToken port hdr cause beat detail s = _
    rw [execHoldToken, tokenOk_of_accepted hacc]
    dsimp only
    rw [hv]
    dsimp only
    rw [hsched, if_neg (by decide), if_neg (by simpa using hstep), if_pos hruns', hquiet]
  · exact congrArg Sched.state hu.sched
  · exact congrArg Sched.holdCause hu.sched

theorem trapRecord_noted (hacc : Accepted s port hdr) {rec_ : BitVec 256}
    (hseen : s.jal.seen.contains (tokKey ⟨hdr, .trapRecord rec_⟩) = false) : Completes (.trapRecord port hdr rec_) s fun t =>
      t.sched.trapRec = some rec_.toNat ∧ t.sched.state = s.sched.state ∧
      t.jal.out = sentOn s (s.activePorts.filter (· != port.val)) (forwarded hdr (.trapRecord rec_)) := by
  obtain ⟨v, hv, hsched, hout⟩ : ∃ v : State, s.floodIn port.val ⟨hdr, .trapRecord rec_⟩ = (true, v) ∧ v.sched = s.sched ∧
      v.jal.out = sentOn s (s.activePorts.filter (· != port.val)) (forwarded hdr (.trapRecord rec_)) := ⟨_, floodIn_first hseen _, rfl, rfl⟩
  have hstate : v.sched.state = s.sched.state := congrArg Sched.state hsched
  have hpost := postTrap_offstage (v.setSched fun c => { c with trapRec := some rec_.toNat })
  refine ⟨_, ?_, congrArg Sched.trapRec hpost.sched, ?_, (congrArg JalSt.out hpost.jal).trans hout⟩
  · change execTrapRecord port hdr rec_ s = _
    rw [execTrapRecord, tokenOk_of_accepted hacc]
    dsimp only
    rw [hv]
    rfl
  · exact (congrArg Sched.state hpost.sched).trans hstate

end

end Sys2Proof.Machine
end

section
open Sys2Proof Sys2Proof.Machine Sys2Proof.Claims

/-- Settles O35, command by command: reports and releases, the commit, the next step, and overruns, holds and trap records. -/
theorem stepsGatherCommitAndOpen : Obligations.StepsGatherCommitAndOpen := by
  intro s hc
  refine ⟨gatherReport_completes hc.regs, fun port hdr b hacc hchild => ⟨gatherToken_waits hacc hchild, recoveryToken_waits hacc hchild⟩,
    fun port hdr b hacc hparent hst hrel htrap => releaseToken_completes hacc hparent hst hrel htrap b,
    fun hcom hown hst hbeat => ⟨fun r flushed hrel hfault hhold herr htrap => ?_, fun r flushed e hrel hfault hhold herr => ?_,
      fun flushed hrel => stepCommit_holds ⟨hcom, hown, hst, hbeat⟩ hrel flushed⟩,
    fun b hat => parityFlip_flips hat, fun hst hcom => ⟨fun hearly => ?_, stepOpen_opens hc hst hcom⟩, inputSet_distributes,
    stepOverrun_errs hc.regs, fun port hdr cause beat detail hacc => ⟨holdToken_seen hacc, holdToken_holds hacc⟩,
    fun port hdr rec_ hacc => trapRecord_noted hacc⟩
  · exact stepCommit_commits ⟨hcom, hown, hst, hbeat⟩ hrel hfault hhold herr htrap flushed
  · exact stepCommit_ends ⟨hcom, hown, hst, hbeat⟩ hrel hfault hhold herr flushed
  · exact if_neg fun hopen => absurd hopen.2.2 (not_le.mpr hearly)

end

section
/-!
SUPPORT. Commands of Tier S: what a write to its page leaves alone, TSRAM_CMD, and ZERO's work (R281, R285).
-/
open Sys2Proof.Claims

namespace Sys2Proof.Machine

/-! What writes of registers and records of events leave alone. -/

section
variable {s t : State}

theorem Records.tierS (h : Records s t) : t.tierS = s.tierS := by
  obtain ⟨r, c, q, f, tr, e, rfl⟩ := h.frame
  rfl

theorem PagesOnly.tierS (h : PagesOnly s t) : t.tierS = s.tierS := by
  obtain ⟨r, q, rfl⟩ := h
  rfl

theorem PagesOnly.setReg64 (h : PagesOnly s t) (p : Page) (lo v : Nat) : PagesOnly s (t.setReg64 p lo v) :=
  (h.setReg p _ _).setReg p _ _

theorem PagesOnly.ldOf (h : PagesOnly s t) (pd : PD) : t.ldOf pd = s.ldOf pd := by
  obtain ⟨r, q, rfl⟩ := h
  rfl

theorem PagesOnly.pageRests (h : PagesOnly s t) : t.pageRests = s.pageRests := by
  obtain ⟨r, q, rfl⟩ := h
  rfl

theorem PagesOnly.clock (h : PagesOnly s t) : t.clock = s.clock := by
  obtain ⟨r, q, rfl⟩ := h
  rfl

/-- The canonical form asks of registers and pages only that they are in theirs. -/
theorem PagesOnly.canon (h : PagesOnly s t) (hc : Canon s) (hr : t.regsWf) (hp : t.pagesWf) : Canon t := by
  obtain ⟨r, q, rfl⟩ := h
  exact { hc with regs := hr, pages := hp }

theorem risingFrom_of_mwfFrom {α : Type} [DecidableEq α] {d : Nat → α} {m : List (Nat × α)} {lo : Nat} (h : mwfFrom d lo m = true) :
    risingFrom lo m = true := by
  induction m generalizing lo with
  | nil => rfl
  | cons x m ih =>
    simp only [mwfFrom, Bool.and_eq_true] at h
    obtain ⟨⟨hlo, -⟩, hm⟩ := h
    simp only [risingFrom, Bool.and_eq_true]
    exact ⟨hlo, ih hm⟩

/-- The end of a command leaves the block's other registers. -/
theorem reg_ended {p : Page} {go code valid : RegField} (hf : CmdFields go code valid) (hp : p.blk ≠ .cpucl) (hs : s.regsWf) {off : Nat}
    (ho : 0x100 ≤ off ∧ off < 4096) (hgo : off ≠ go.off) (hcode : off ≠ code.off) (n : Nat) :
    (s.ended p go code valid n).reg p off = s.reg p off := by
  obtain ⟨-, ⟨-, hvalid, -⟩, -⟩ := hf
  have h1 := regsWf_setFlag hs p go false
  have h2 := regsWf_setFld h1 p code n 0
  have h3 := regsWf_setFlag h2 p valid true
  calc (s.ended p go code valid n).reg p off
    _ = (((s.setFlag p go false).setFld p code n).setFlag p valid true).reg p off :=
      (setInt_raises _ p 3).toWritesOnly.reg h3 fun h => blockReg_notMem_errIrq ho hp (Or.inr h)
    _ = ((s.setFlag p go false).setFld p code n).reg p off := reg_setFlag_of_ne h2 (regKey_off_ne (hvalid ▸ hcode)) true
    _ = (s.setFlag p go false).reg p off := reg_setFld_of_ne (i := 0) h1 (by simpa using regKey_off_ne hcode) n
    _ = s.reg p off := reg_setFlag_of_ne hs (regKey_off_ne hgo) false

end

/-! A command written with GO (R54). -/

/-- A register of CMD in its low w bits and GO above them, which reads as it is stored; the block itself clears GO. -/
structure CmdRegister (p : Page) (off w : Nat) (cmd go : RegField) : Prop where
  reg : OwnRegister p off [cmd, go]
  live : ∀ (u : State) (who : Requester), u.liveValue who p off false = (u.reg p off).toNat
  offs : cmd.off = off ∧ go.off = off ∧ off < 4096
  bits : cmd.lo = 0 ∧ cmd.w = w ∧ go.lo = w ∧ w < 31
  access : cmd.acc = .rw ∧ cmd.own = false ∧ go.own = true
  free : cmd.prot = false ∧ go.prot = false

/-- The state in which a command written with GO is judged. -/
def State.cmdStored (s : State) (who : Requester) (p : Page) (cmd : RegField) (n : Nat) : State := (s.arrived p who).setFld p cmd n

theorem cmdStored_pagesOnly (s : State) (who : Requester) (p : Page) (cmd : RegField) (n : Nat) : PagesOnly s (s.cmdStored who p cmd n) :=
  (arrived_pagesOnly s p who).setFld p cmd n 0

theorem regsWf_cmdStored {s : State} (hc : Canon s) (who : Requester) (p : Page) (cmd : RegField) (n : Nat) :
    (s.cmdStored who p cmd n).regsWf := regsWf_setFld (regsWf_arrived hc.regs p who) p cmd n 0

namespace CmdRegister
variable {s : State} {p : Page} {off w n : Nat} {cmd go : RegField} {who : Requester} (h : CmdRegister p off w cmd go)
include h

theorem storeFields (s : State) (hn : n < 2 ^ w) : s.storeFields p off false [cmd, go] (n + 2 ^ w) = s.setFld p cmd n := by
  obtain ⟨hoff, -, -⟩ := h.offs
  obtain ⟨hlo, hw, -, -⟩ := h.bits
  obtain ⟨hrw, hcmd, hgo⟩ := h.access
  have hget : cmd.get (n + 2 ^ w) = n := by
    rw [RegField.get, hlo, hw, bitsOf, pow_zero, Nat.div_one, Nat.add_mod_right, Nat.mod_eq_of_lt hn]
  have hwritable : cmd.writable = true := by rw [RegField.writable, hrw]; rfl
  have hstored (m : Nat) : storedWord [cmd, go] m (n + 2 ^ w) = withBits m cmd.lo cmd.w n := by
    simp [storedWord, hcmd, hgo, hwritable, written_rw hrw, hget]
  rw [State.storeFields, if_neg Bool.false_ne_true, hstored, State.setFld, Nat.mul_zero, Nat.add_zero, hoff]

theorem go_cmdStored (hc : Canon s) (hidle : s.flag p go = false) (n : Nat) : (s.cmdStored who p cmd n).flag p go = false := by
  obtain ⟨-, hgo, ho⟩ := h.offs
  obtain ⟨hlo, hw, hlo', hfit⟩ := h.bits
  have habove := h.reg.above
  have hkept := fld_setFld_of_disjoint (regsWf_arrived hc.regs p who) (p := p) (q := p) (f := cmd) (g := go) (i := 0) (j := 0) (by omega)
    (.inr (.inr (by omega))) n
  have harrived := flag_arrived_of_off hc.regs p p (f := go) (by omega) (by omega) who
  rw [State.flag, State.cmdStored, hkept, ← State.flag, harrived, hidle]

theorem takesWork_cmdStored (hc : Canon s) (hwork : s.takesWork p = true) (n : Nat) : (s.cmdStored who p cmd n).takesWork p = true := by
  obtain ⟨hoff, -, ho⟩ := h.offs
  have habove := h.reg.above
  exact ((takesWork_setFld (regsWf_arrived hc.regs p who) p (by omega) n).trans (takesWork_arrived hc p p)).trans hwork

/-- A command written with GO while GO stands at 0 is stored, and the register acts. -/
theorem busWrite (hc : Canon s) (hacc : s.accessible p = true) (hidle : s.flag p go = false) (hn : n < 2 ^ w)
    (hres : (s.arrived p who).reservedWrite p off [cmd, go] (n + 2 ^ w) = false) :
    s.busWrite who p off (BitVec.ofNat 32 (n + 2 ^ w)) = (s.cmdStored who p cmd n).regAct who p off
      ((s.arrived p who).liveValue who p off false) (n + 2 ^ w) .none := by
  obtain ⟨-, hgo, ho⟩ := h.offs
  obtain ⟨-, -, -, hfit⟩ := h.bits
  obtain ⟨hrw, -, -⟩ := h.access
  obtain ⟨hprot, hprot'⟩ := h.free
  have habove := h.reg.above
  have hidle' : (s.arrived p who).flag p go = false := (flag_arrived_of_off hc.regs p p (by omega) (by omega) who).trans hidle
  have hclear : ∀ f ∈ [cmd, go], f.acc = .sc → f.get ((s.arrived p who).reg p off).toNat ≠ 1 := fun f hf hsc => by
    obtain rfl | rfl := List.mem_pair.mp hf
    · rw [hrw] at hsc
      cases hsc
    · rw [← hgo]
      exact get_of_flag hidle'
  have hpow : 2 ^ w ≤ 2 ^ 30 := Nat.pow_le_pow_right (by decide) (by omega)
  have hword : (BitVec.ofNat 32 (n + 2 ^ w)).toNat = n + 2 ^ w := Nat.mod_eq_of_lt (by omega)
  have hwritable : cmd.writable = true := by rw [RegField.writable, hrw]; rfl
  rw [h.reg.busWrite_open hc hacc (by simp [hprot, hprot']) (by simp [hwritable])
    (by rw [h.live]; exact heldSc_of_clear hclear _ _) (by rw [hword]; exact hres), hword, h.storeFields _ hn]
  rfl

end CmdRegister

/-! A command's end (R285). -/

section
variable {s t : State} {who : Requester} {pd : PD}

theorem cmdFields_scratch : CmdFields Reg.TSRAM_CMD_GO Reg.TSRAM_CMD_STATUS_CODE Reg.TSRAM_CMD_STATUS_VALID :=
  ⟨by decide, by decide, by decide⟩

theorem tsramEnd_eq (s : State) (pd : PD) (code : Nat) : s.tsramEnd pd code =
    s.ended (diePage .tsram pd) Reg.TSRAM_CMD_GO Reg.TSRAM_CMD_STATUS_CODE Reg.TSRAM_CMD_STATUS_VALID code := rfl

@[simp] theorem tierS_tsramEnd (s : State) (pd : PD) (code : Nat) : (s.tsramEnd pd code).tierS = s.tierS := by
  rw [tsramEnd_eq]
  exact (ended_records s _ _ _ _ code).tierS

theorem scratchEnded_tsramEnd (hs : s.regsWf) {code : Nat} (hcode : code < 256) : ScratchEnded (s.tsramEnd pd code) pd code := by
  rw [tsramEnd_eq]
  exact ended_status cmdFields_scratch Blk.noConfusion hs hcode

theorem poison_tsramEnd (hs : s.regsWf) (code : Nat) : (s.tsramEnd pd code).flag (diePage .tsram pd) Reg.TSRAM_STAT_POISON =
    s.flag (diePage .tsram pd) Reg.TSRAM_STAT_POISON := by
  rw [tsramEnd_eq]
  exact flag_congr (i := 0) (reg_ended cmdFields_scratch Blk.noConfusion hs (by decide) (by decide) (by decide) code)

/-! A command goes (R285). -/

theorem cmdRegister_tsram (pd : PD) : CmdRegister (diePage .tsram pd) 0x118 2 Reg.TSRAM_CMD_CMD Reg.TSRAM_CMD_GO where
  reg := ownRegister_of (b := .tsram) rfl rfl (fun _ => rfl) (by decide) (by decide)
  live _ _ := rfl
  offs := by decide
  bits := by decide
  access := by decide
  free := by decide

/-- A command that does not run ends at once. -/
theorem tsramGo_ends {n code : Nat} (hidle : s.flag (diePage .tsram pd) Reg.TSRAM_CMD_GO = false)
    (h : s.pageRests = false ∧ code = 0x30 ∨ s.pageRests = true ∧ n = 0 ∧ code = 0) :
    s.tsramGo pd n = (s.setFlag (diePage .tsram pd) Reg.TSRAM_CMD_STATUS_VALID false).tsramEnd pd code := by
  obtain ⟨hrest, rfl⟩ | ⟨hrest, rfl, rfl⟩ := h <;> simp [State.tsramGo, hidle, hrest]

/-- ZERO of the die has begun: the beat at which it completes is set. -/
def State.zeroBegun (s : State) (pd : PD) : State :=
  { s with tierS := { s.tierS with zeroDue := mput (fun _ => 0) s.tierS.zeroDue pd.val (s.clock.beats.toNat + 12288) } }

theorem tsramGo_begins {n : Nat} (hidle : s.flag (diePage .tsram pd) Reg.TSRAM_CMD_GO = false) (hrest : s.pageRests = true) (hn : n ≠ 0) :
    s.tsramGo pd n = ((s.setFlag (diePage .tsram pd) Reg.TSRAM_CMD_STATUS_VALID false).zeroBegun pd).setFlag (diePage .tsram pd)
      Reg.TSRAM_CMD_GO true := by
  simp only [State.tsramGo, hidle, hrest, hn, Bool.not_true, Bool.false_eq_true, if_false]
  rfl

theorem zeroDue_zeroBegun (s : State) (pd : PD) :
    mget (fun _ => 0) (s.zeroBegun pd).tierS.zeroDue pd.val = s.clock.beats.toNat + 12288 := by
  rw [State.zeroBegun, mput, if_neg (by omega), mget_minsert, if_pos rfl]

/-- ZERO runs from a GO on. -/
theorem tsramGo_runs (hs : s.regsWf) {n : Nat} (hidle : s.flag (diePage .tsram pd) Reg.TSRAM_CMD_GO = false) (hrest : s.pageRests = true)
    (hn : n ≠ 0) : (s.tsramGo pd n).flag (diePage .tsram pd) Reg.TSRAM_CMD_GO = true ∧
      mget (fun _ => 0) (s.tsramGo pd n).tierS.zeroDue pd.val = s.clock.beats.toNat + 12288 ∧
      (s.tsramGo pd n).tierS.mem = s.tierS.mem := by
  have hw : ((s.setFlag (diePage .tsram pd) Reg.TSRAM_CMD_STATUS_VALID false).zeroBegun pd).regsWf := regsWf_setFlag hs _ _ _
  rw [tsramGo_begins hidle hrest hn]
  exact ⟨flag_setFlag_same hw _ (by decide) (by decide) true, zeroDue_zeroBegun _ pd, rfl⟩

section
variable (hc : Canon s) (hacc : s.accessible (diePage .tsram pd) = true) (hwork : s.takesWork (diePage .tsram pd) = true)
  (hidle : s.flag (diePage .tsram pd) Reg.TSRAM_CMD_GO = false)
include hc hacc hwork hidle

/-- A command written with GO to an idle TSRAM_CMD goes. -/
theorem tsramCmd_goes {n : Nat} (hn : n < 2) :
    s.tsramCmd who pd n = (s.cmdStored who (diePage .tsram pd) Reg.TSRAM_CMD_CMD n).tsramGo pd n := by
  have hn4 : n < 4 := by omega
  obtain ⟨hcmd, hgo, -⟩ := poolGoBits hn4
  have hreg := cmdRegister_tsram pd
  have hact (u : State) (old : Nat) : u.regAct who (diePage .tsram pd) 0x118 old (n + 2 ^ 2) .none =
      if bitOf (n + 4) 2 then u.ifWorks (diePage .tsram pd) fun t => t.tsramGo pd (bitsOf (n + 4) 0 2) else u := rfl
  have hres : (s.arrived (diePage .tsram pd) who).reservedWrite (diePage .tsram pd) 0x118 [Reg.TSRAM_CMD_CMD, Reg.TSRAM_CMD_GO]
      (n + 2 ^ 2) = false := by interval_cases n <;> rfl
  refine (hreg.busWrite hc hacc hidle hn4 hres).trans ?_
  rw [hact, if_pos hgo, hcmd, State.ifWorks, if_pos (hreg.takesWork_cmdStored hc hwork n)]

/-- NONE, and a command while the schedule is under way, change nothing of Tier S. -/
theorem tsramCmd_ends {n code : Nat} (hn : n < 2) (hcode : code < 256)
    (h : s.pageRests = false ∧ code = 0x30 ∨ s.pageRests = true ∧ n = 0 ∧ code = 0) :
    ScratchEnded (s.tsramCmd who pd n) pd code ∧ (s.tsramCmd who pd n).tierS = s.tierS := by
  have hpages := cmdStored_pagesOnly s who (diePage .tsram pd) Reg.TSRAM_CMD_CMD n
  rw [← hpages.pageRests] at h
  rw [tsramCmd_goes hc hacc hwork hidle hn, tsramGo_ends ((cmdRegister_tsram pd).go_cmdStored hc hidle n) h]
  exact ⟨scratchEnded_tsramEnd (regsWf_setFlag (regsWf_cmdStored hc who _ _ n) _ _ _) hcode,
    (tierS_tsramEnd _ pd code).trans hpages.tierS⟩

theorem zero_begins (hrest : s.pageRests = true) : (s.tsramCmd who pd 1).flag (diePage .tsram pd) Reg.TSRAM_CMD_GO = true ∧
    mget (fun _ => 0) (s.tsramCmd who pd 1).tierS.zeroDue pd.val = s.clock.beats.toNat + 12288 ∧
    (s.tsramCmd who pd 1).tierS.mem = s.tierS.mem := by
  have hpages := cmdStored_pagesOnly s who (diePage .tsram pd) Reg.TSRAM_CMD_CMD 1
  have hruns := tsramGo_runs (n := 1) (regsWf_cmdStored hc who _ _ 1) ((cmdRegister_tsram pd).go_cmdStored hc hidle 1)
    (hpages.pageRests.trans hrest) (by decide)
  rw [hpages.clock, hpages.tierS] at hruns
  rw [tsramCmd_goes hc hacc hwork hidle (by decide)]
  exact hruns

end

end

/-! ZERO completes (R281). -/

/-- Tier S once a die's bytes and poison are cleared, and its pool slabs freed. -/
def TierS.zeroed (x : TierS) (ld : Nat) : TierS :=
  { x with
    mem := x.mem.filter fun c => c.1 / 2 ^ 27 != ld
    poison := x.poison.filter fun c => c.1 / 2 ^ 23 != ld
    detected := x.detected.filter fun c => c.1 / 2 ^ 23 != ld
    slabs := x.slabs.map fun (c : Nat × SlabState) => if c.1 / 1536 = ld ∧ c.2 ≠ SlabState.static then (c.1, SlabState.free) else c }

/-- What ZERO of a die leaves a slab in. -/
def zeroedSlab (ld k : Nat) (v : SlabState) : SlabState := if k / 1536 = ld ∧ v ≠ .static then .free else v

theorem zeroedSlab_slabKey (ld : Nat) {k : Nat} (hk : k < 1536) (v : SlabState) :
    zeroedSlab ld (slabKey ld k) v = if v = .static then .static else .free := by
  have hld : slabKey ld k / 1536 = ld := by
    unfold slabKey
    omega
  unfold zeroedSlab
  split <;> simp_all

section
variable (x : TierS) (ld : Nat)

theorem mem_zeroed (hmem : mwf (fun _ => 0) x.mem = true) (a : Nat) :
    mget tierSReset (x.zeroed ld).mem a = if a / 2 ^ 27 = ld then 0 else mget tierSReset x.mem a := by
  refine (mget_filter (keep := fun k => k / 2 ^ 27 != ld) (risingFrom_of_mwfFrom hmem) a).trans ?_
  by_cases h : a / 2 ^ 27 = ld
  · rw [if_neg (by rw [h, bne_self_eq_false]; exact Bool.false_ne_true), if_pos h]
    rfl
  · rw [if_pos (bne_iff_ne.mpr h), if_neg h]

theorem poison_zeroed (hp : rising x.poison = true) {w : Nat} (hw : w / 2 ^ 23 = ld) :
    mget (fun _ => false) (x.zeroed ld).poison w = false := by
  refine (mget_filter (keep := fun k => k / 2 ^ 23 != ld) hp w).trans (if_neg ?_)
  rw [hw, bne_self_eq_false]
  exact Bool.false_ne_true

theorem slabs_zeroed (k : Nat) : mget (fun _ => SlabState.static) (x.zeroed ld).slabs k =
    zeroedSlab ld k (mget (fun _ => SlabState.static) x.slabs k) := by
  have hdefault (j : Nat) : zeroedSlab ld j .static = .static := if_neg fun h => h.2 rfl
  refine Eq.trans (congrArg (mget _ · k) (List.map_congr_left fun c _ => ?_)) (mget_mapKey hdefault x.slabs k)
  rw [zeroedSlab]
  split <;> rfl

end

section
variable {s : State} {pd : PD} {ld : Nat}

theorem zeroDie_eq (hld : s.ldOf pd = some ld) : s.zeroDie pd =
    ({ s with tierS := s.tierS.zeroed ld } : State).setFlag (diePage .tsram pd) Reg.TSRAM_STAT_POISON false := by
  unfold State.zeroDie
  rw [hld]
  rfl

/-- The state in which ZERO of a die ends. -/
def State.zeroDone (s : State) (pd : PD) : State :=
  { s.zeroDie pd with tierS := { (s.zeroDie pd).tierS with zeroDue := mput (fun _ => 0) (s.zeroDie pd).tierS.zeroDue pd.val 0 } }

theorem tsramCmdDone_waits (hnow : s.clock.beats.toNat < mget (fun _ => 0) s.tierS.zeroDue pd.val) :
    exec (.tsramCmdDone pd) s = .next s := by
  have hexec : exec (.tsramCmdDone pd) s = execTsramCmdDone pd s := rfl
  simp [hexec, execTsramCmdDone, hnow]

theorem tsramCmdDone_ends (hopen : s.fenced (diePage .tsram pd) = false) (hgo : s.flag (diePage .tsram pd) Reg.TSRAM_CMD_GO = true)
    (hdue : mget (fun _ => 0) s.tierS.zeroDue pd.val ≤ s.clock.beats.toNat) :
    exec (.tsramCmdDone pd) s = .next ((s.zeroDone pd).tsramEnd pd 0) := by
  have hexec : exec (.tsramCmdDone pd) s = execTsramCmdDone pd s := rfl
  simp only [hexec, execTsramCmdDone, hopen, hgo, not_lt.mpr hdue, decide_false, Bool.not_true, Bool.or_self, Bool.false_eq_true, if_false]
  rfl

theorem tsramCmdDone_completes (hc : Canon s) (hld : s.ldOf pd = some ld) (hopen : s.fenced (diePage .tsram pd) = false)
    (hgo : s.flag (diePage .tsram pd) Reg.TSRAM_CMD_GO = true)
    (hdue : mget (fun _ => 0) s.tierS.zeroDue pd.val ≤ s.clock.beats.toNat) : Completes (.tsramCmdDone pd) s fun t =>
      (∀ a, a / 2 ^ 27 = ld → mget tierSReset t.tierS.mem a = 0) ∧
      (∀ a, a / 2 ^ 27 ≠ ld → mget tierSReset t.tierS.mem a = mget tierSReset s.tierS.mem a) ∧
      (∀ w, w / 2 ^ 23 = ld → mget (fun _ => false) t.tierS.poison w = false) ∧
      (∀ k, k < 1536 → t.slab ld k = if s.slab ld k = .static then .static else .free) ∧
      t.flag (diePage .tsram pd) Reg.TSRAM_STAT_POISON = false ∧ ScratchEnded t pd 0 := by
  have hzero : ({ s with tierS := s.tierS.zeroed ld } : State).regsWf := hc.regs
  have hw : (s.zeroDone pd).regsWf := by
    change (s.zeroDie pd).regsWf
    rw [zeroDie_eq hld]
    exact regsWf_setFlag hzero _ _ _
  have htier : ((s.zeroDone pd).tsramEnd pd 0).tierS =
      { s.tierS.zeroed ld with zeroDue := mput (fun _ => 0) (s.tierS.zeroed ld).zeroDue pd.val 0 } := by
    rw [tierS_tsramEnd, State.zeroDone, zeroDie_eq hld]
    rfl
  refine ⟨_, tsramCmdDone_ends hopen hgo hdue, ?_⟩
  simp only [State.slab, htier]
  refine ⟨fun a ha => ?_, fun a ha => ?_, fun w hk => poison_zeroed _ ld hc.poisonS hk, fun k hk => ?_, ?_,
    scratchEnded_tsramEnd hw (by decide)⟩
  · rw [mem_zeroed _ ld hc.scratch, if_pos ha]
  · rw [mem_zeroed _ ld hc.scratch, if_neg ha]
  · exact (slabs_zeroed _ ld _).trans (zeroedSlab_slabKey ld hk _)
  · rw [poison_tsramEnd hw]
    change (s.zeroDie pd).flag _ _ = false
    rw [zeroDie_eq hld]
    exact flag_setFlag_same hzero _ (by decide) (by decide) false

end

end Sys2Proof.Machine
end

section
/-!
SUPPORT. The scrubber of Tier S: the line that it reads of every bank, and the poison that it finds there (R282, R283).
-/
open Sys2Proof.Claims

namespace Sys2Proof.Machine

section
variable {s : State} {pd : PD} {ld : Nat}

/-! What the scrubber's reads change of Tier S. -/

theorem tierS_sCorrected (s : State) (ld bank n : Nat) : (s.sCorrected ld bank n).tierS = s.tierS := by
  have hbump := bump_records s (s.tsramPage ld) Reg.TSRAM_CE_COUNT n bank
  exact Records.tierS ((hbump.trans (setInt_records _ _ 1)).ite hbump)

/-- A detection marks the word, and is recorded. -/
theorem tierS_sDetect (s : State) (w cls : Nat) : (s.sDetect w cls).tierS =
    if mget (fun _ => false) s.tierS.detected w then s.tierS
    else { s.tierS with detected := mput (fun _ => false) s.tierS.detected w true } := by
  have hshow (u : State) (p : Page) (v w : Word) :
      (if u.flag p Reg.TSRAM_UE_ADDR_HI_VALID then u else (u.setReg p 0x128 v).setReg p 0x12C w).tierS = u.tierS := by
    split <;> rfl
  unfold State.sDetect
  split
  · rfl
  · refine (blockErr_records _ _ _ _ _ _).tierS.trans ((hshow _ _ _ _).trans ?_)
    exact ((bump_records _ _ _ 1 0).trans (setInt_records _ _ 2)).tierS

theorem detected_sDetect (s : State) (w cls j : Nat) : mget (fun _ => false) (s.sDetect w cls).tierS.detected j =
    (decide (j = w) || mget (fun _ => false) s.tierS.detected j) := by
  rw [tierS_sDetect]
  by_cases hj : j = w
  · by_cases hw : mget (fun _ => false) s.tierS.detected w = true <;> simp [hj, hw, mput, mget_minsert]
  · split <;> simp [hj, mput, mget_minsert]

/-- The scrubber detects the word that it found poisoned, if any. -/
def State.scrubFound (s : State) : Option Nat → State
  | some w => s.sDetect w 3
  | none => s

/-- Of Tier S, what a detection leaves alone. -/
def TierS.undetected (x : TierS) := (x.mem, x.slabs, x.scrubPos, x.poison)

theorem undetected_iff {x y : TierS} :
    x.undetected = y.undetected ↔ x.mem = y.mem ∧ x.slabs = y.slabs ∧ x.scrubPos = y.scrubPos ∧ x.poison = y.poison := by
  simp only [TierS.undetected, Prod.mk.injEq]

theorem undetected_scrubFound (s : State) (o : Option Nat) : (s.scrubFound o).tierS.undetected = s.tierS.undetected := by
  cases o with
  | none => rfl
  | some w =>
    rw [State.scrubFound, tierS_sDetect]
    split <;> rfl

theorem detected_scrubFound (o : Option Nat) {w : Nat} (hw : mget (fun _ => false) s.tierS.detected w = true) :
    mget (fun _ => false) (s.scrubFound o).tierS.detected w = true := by
  cases o with
  | none => exact hw
  | some w' => rw [State.scrubFound, detected_sDetect, hw, Bool.or_true]

theorem scrubFound_detects (s : State) (w : Nat) : mget (fun _ => false) (s.scrubFound (some w)).tierS.detected w = true := by
  rw [State.scrubFound, detected_sDetect, decide_eq_true rfl, Bool.true_or]

/-! The banks one by one, with what the scrubber finds in a bank left open: unfolded, the search of a line is costly. -/

/-- The scrubber detects what it finds in several banks. -/
def State.scrubBanks (s : State) (find : State → Nat → Option Nat) (l : List Nat) : State :=
  l.foldl (fun t b => t.scrubFound (find t b)) s

section
variable {find : State → Nat → Option Nat}

theorem undetected_scrubBanks (s : State) (l : List Nat) : (s.scrubBanks find l).tierS.undetected = s.tierS.undetected :=
  foldl_keeps (g := fun u => u.tierS.undetected) (fun u b => undetected_scrubFound u (find u b)) l s

theorem detected_scrubBanks (l : List Nat) {w : Nat} (hw : mget (fun _ => false) s.tierS.detected w = true) :
    mget (fun _ => false) (s.scrubBanks find l).tierS.detected w = true :=
  List.foldlRecOn (motive := fun u : State => mget (fun _ => false) u.tierS.detected w = true) l _ hw
    fun u hu b _ => detected_scrubFound (find u b) hu

/-- A search that no detection changes: what it finds in a bank at first is detected, whichever banks come before. -/
theorem scrubBanks_detects (hfind : ∀ t u b, t.tierS.undetected = u.tierS.undetected → find t b = find u b) {b w : Nat} {l : List Nat}
    (hb : b ∈ l) (hw : find s b = some w) : mget (fun _ => false) (s.scrubBanks find l).tierS.detected w = true := by
  induction l generalizing s with
  | nil => cases hb
  | cons c l ih =>
    obtain rfl | hmem := List.mem_cons.mp hb
    · refine detected_scrubBanks (s := s.scrubFound (find s b)) l ?_
      rw [hw]
      exact scrubFound_detects s w
    · exact ih hmem ((hfind _ s b (undetected_scrubFound s (find s c))).trans hw)

end

/-! The whole line (R283). -/

/-- The scrubber's reads: corrections counted and double-bit errors found as the commands say. -/
def State.scrubReads (s : State) (ld line : Nat) (ce : List Nat) (ue : List (Nat × Nat)) : State :=
  ue.foldl (fun t x => t.sPoison (saOf ld x.1 (line * 128 + x.2 * 16) / 16)) (ce.foldl (fun t b => t.sCorrected ld b 1) s)

/-- The scrubber goes on to its next line. -/
def State.scrubOn (s : State) (pd : PD) (next : Nat) : State :=
  { s with tierS := { s.tierS with scrubPos := mput (fun _ => 0) s.tierS.scrubPos pd.val next } }

@[simp] theorem mem_scrubOn (u : State) (pd : PD) (next : Nat) : (u.scrubOn pd next).tierS.mem = u.tierS.mem := rfl

@[simp] theorem slabs_scrubOn (u : State) (pd : PD) (next : Nat) : (u.scrubOn pd next).tierS.slabs = u.tierS.slabs := rfl

@[simp] theorem detected_scrubOn (u : State) (pd : PD) (next : Nat) : (u.scrubOn pd next).tierS.detected = u.tierS.detected := rfl

theorem scrubPos_scrubOn {u : State} (hpos : rising u.tierS.scrubPos = true) (pd : PD) (next : Nat) :
    mget (fun _ => 0) (u.scrubOn pd next).tierS.scrubPos pd.val = next := (mget_mput_rising hpos _ _ _).trans (if_pos rfl)

/-- The first poisoned word of the scrubber's line in a bank. -/
def poisonOfLine (ld line : Nat) (t : State) (b : Nat) : Option Nat := t.poisonIn (saOf ld b (line * 128)) 128

theorem poisonOfLine_congr (ld line : Nat) (t u : State) (b : Nat) (h : t.tierS.undetected = u.tierS.undetected) :
    poisonOfLine ld line t b = poisonOfLine ld line u b := by
  obtain ⟨-, -, -, hpoison⟩ := undetected_iff.mp h
  rw [poisonOfLine, State.poisonIn, hpoison, poisonOfLine, State.poisonIn]

/-- The line that the scrubber reads next. -/
def State.scrubAt (s : State) (pd : PD) : Nat := mget (fun _ => 0) s.tierS.scrubPos pd.val

/-- A tick of the scrubber that looks at each bank as `look` does, before it counts a complete pass. -/
def State.scrubbed (s : State) (pd : PD) (ld : Nat) (ce : List Nat) (ue : List (Nat × Nat)) (look : State → Nat → State) : State :=
  ((List.range 64).foldl look (s.scrubReads ld (s.scrubAt pd) ce ue)).scrubOn pd ((s.scrubAt pd + 1) % 12288)

/-- A tick with the scrubber enabled. `look` is the model's own match on the search of a line, equal to `scrubFound` by cases of what
the search finds: to compare the two by unfolding would run the search. -/
theorem scrubLine_eq (hld : s.ldOf pd = some ld) (hen : s.flag (diePage .tsram pd) Reg.TSRAM_CFG_SCRUB_EN = true) (ce : List Nat)
    (ue : List (Nat × Nat)) : ∃ look, (look = fun (t : State) b => t.scrubFound (poisonOfLine ld (s.scrubAt pd) t b)) ∧
      s.scrubLine pd ce ue = if (s.scrubAt pd + 1) % 12288 = 0
        then (s.scrubbed pd ld ce ue look).bump (diePage .tsram pd) Reg.TSRAM_SCRUB_PASSES_COUNT else s.scrubbed pd ld ce ue look := by
  unfold State.scrubLine
  rw [hld]
  refine ⟨_, ?_, if_neg (by rw [hen]; exact Bool.false_ne_true)⟩
  funext t b
  change _ = t.scrubFound (t.poisonIn _ _)
  dsimp only [State.scrubAt]
  generalize t.poisonIn (saOf ld b _) 128 = o
  cases o <;> rfl

theorem tierS_scrubLine (hld : s.ldOf pd = some ld) (hen : s.flag (diePage .tsram pd) Reg.TSRAM_CFG_SCRUB_EN = true) (ce : List Nat)
    (ue : List (Nat × Nat)) : (s.scrubLine pd ce ue).tierS =
      (((s.scrubReads ld (s.scrubAt pd) ce ue).scrubBanks (poisonOfLine ld (s.scrubAt pd)) (List.range 64)).scrubOn pd
        ((s.scrubAt pd + 1) % 12288)).tierS := by
  obtain ⟨look, rfl, h⟩ := scrubLine_eq hld hen ce ue
  rw [h]
  exact Records.tierS ((bump_records _ _ _ 1 0).ite (.refl _))

theorem tierS_scrubReads_corrected (s : State) (ld line : Nat) (ce : List Nat) : (s.scrubReads ld line ce []).tierS = s.tierS :=
  foldl_keeps (g := State.tierS) (fun u b => tierS_sCorrected u ld b 1) ce s

/-- Of Tier S, what the scrubber's reads and detections leave alone. -/
def TierS.unscrubbed (x : TierS) := (x.mem, x.slabs, x.scrubPos)

theorem unscrubbed_iff {x y : TierS} : x.unscrubbed = y.unscrubbed ↔ x.mem = y.mem ∧ x.slabs = y.slabs ∧ x.scrubPos = y.scrubPos := by
  simp only [TierS.unscrubbed, Prod.mk.injEq]

theorem unscrubbed_scrubReads (s : State) (ld line : Nat) (ce : List Nat) (ue : List (Nat × Nat)) :
    (s.scrubReads ld line ce ue).tierS.unscrubbed = s.tierS.unscrubbed := by
  have hue := foldl_keeps (g := fun u : State => u.tierS.unscrubbed)
    (f := fun t (x : Nat × Nat) => t.sPoison (saOf ld x.1 (line * 128 + x.2 * 16) / 16)) (fun _ _ => rfl) ue
  exact (hue _).trans (congrArg TierS.unscrubbed (tierS_scrubReads_corrected s ld line ce))

section
variable (hld : s.ldOf pd = some ld) (hen : s.flag (diePage .tsram pd) Reg.TSRAM_CFG_SCRUB_EN = true)
include hld hen

theorem scrubLine_advances (hpos : rising s.tierS.scrubPos = true) (ce : List Nat) (ue : List (Nat × Nat)) :
    mget (fun _ => 0) (s.scrubLine pd ce ue).tierS.scrubPos pd.val = (s.scrubAt pd + 1) % 12288 ∧
      (s.scrubLine pd ce ue).tierS.mem = s.tierS.mem ∧ (s.scrubLine pd ce ue).tierS.slabs = s.tierS.slabs := by
  obtain ⟨hmem, hslabs, hscrub⟩ := unscrubbed_iff.mp (unscrubbed_scrubReads s ld (s.scrubAt pd) ce ue)
  obtain ⟨hmem', hslabs', hscrub', -⟩ := undetected_iff.mp
    (undetected_scrubBanks (find := poisonOfLine ld (s.scrubAt pd)) (s.scrubReads ld (s.scrubAt pd) ce ue) (List.range 64))
  rw [tierS_scrubLine hld hen, mem_scrubOn, slabs_scrubOn, hmem', hslabs']
  exact ⟨scrubPos_scrubOn (by rw [hscrub', hscrub, hpos]) pd _, hmem, hslabs⟩

theorem scrubLine_detects (ce : List Nat) {b w : Nat} (hb : b < 64) (hw : poisonOfLine ld (s.scrubAt pd) s b = some w) :
    mget (fun _ => false) (s.scrubLine pd ce []).tierS.detected w = true := by
  have hreads := congrArg TierS.undetected (tierS_scrubReads_corrected s ld (s.scrubAt pd) ce)
  have hfound := scrubBanks_detects (poisonOfLine_congr ld (s.scrubAt pd)) (List.mem_range.mpr hb)
    ((poisonOfLine_congr ld (s.scrubAt pd) _ s b hreads).trans hw)
  rw [tierS_scrubLine hld hen, detected_scrubOn, hfound]

end

theorem tsramScrubTick_next (hopen : s.fenced (diePage .tsram pd) = false) (ce : List (Fin 64)) (ue : List (Fin 64 × Fin 8)) :
    exec (.tsramScrubTick pd ce ue) s = .next (s.scrubLine pd (ce.map (·.val)) (ue.map fun x => (x.1.val, x.2.val))) :=
  if_neg (by rw [hopen]; exact Bool.false_ne_true)

end

end Sys2Proof.Machine
end

section
/-!
SUPPORT. TSRAM_POOL_MASK: the slabs that it names, and its write in two halves by the requester that has the page unlocked
(R47, R64, R279).
-/
open Sys2Proof.Claims

namespace Sys2Proof.Machine

/-! The states of slabs. -/

section
variable {s t : State} {ld n : Nat} {x : Nat → SlabState}

theorem rising_setSlab (hs : rising s.tierS.slabs = true) (ld k : Nat) (v : SlabState) : rising (s.setSlab ld k v).tierS.slabs = true :=
  rising_mput (d := fun _ => SlabState.static) hs _ v

theorem slab_setSlab (hs : rising s.tierS.slabs = true) (ld k j : Nat) (v : SlabState) :
    (s.setSlab ld k v).slab ld j = if j = k then v else s.slab ld j := by
  have hkey : slabKey ld j = slabKey ld k ↔ j = k := Nat.add_left_cancel_iff
  refine (mget_mput_rising hs _ _ v).trans ?_
  simp only [hkey]
  rfl

/-- t is s but for the states of slabs; the die's first n are x. -/
structure SlabsSet (ld : Nat) (x : Nat → SlabState) (n : Nat) (s t : State) : Prop where
  frame : ∃ m, t = { s with tierS := { s.tierS with slabs := m } }
  rises : rising t.tierS.slabs = true
  slabs : ∀ k, k < n → t.slab ld k = x k

theorem slabsSet_foldl (hs : rising s.tierS.slabs = true) (ld : Nat) (x : Nat → SlabState) (n : Nat) :
    SlabsSet ld x n s ((List.range n).foldl (fun t k => t.setSlab ld k (x k)) s) := by
  induction n with
  | zero => exact ⟨⟨_, rfl⟩, hs, fun k hk => absurd hk (Nat.not_lt_zero k)⟩
  | succ n ih =>
    rw [List.range_succ, List.foldl_append, List.foldl_cons, List.foldl_nil]
    obtain ⟨m, hm⟩ := ih.frame
    refine ⟨⟨_, by rw [hm]; rfl⟩, rising_setSlab ih.rises _ _ _, fun k hk => ?_⟩
    rw [slab_setSlab ih.rises]
    split
    case isTrue hkn => rw [hkn]
    case isFalse hkn => exact ih.slabs k (by omega)

theorem SlabsSet.page (h : SlabsSet ld x n s t) (p : Page) : t.page p = s.page p := by
  obtain ⟨m, rfl⟩ := h.frame
  rfl

theorem SlabsSet.pagesWf (h : SlabsSet ld x n s t) (hs : s.pagesWf) : t.pagesWf := by
  obtain ⟨m, rfl⟩ := h.frame
  exact hs

theorem SlabsSet.reg64 (h : SlabsSet ld x n s t) (p : Page) (lo : Nat) : t.reg64 p lo = s.reg64 p lo := by
  obtain ⟨m, rfl⟩ := h.frame
  rfl

theorem SlabsSet.mem (h : SlabsSet ld x n s t) : t.tierS.mem = s.tierS.mem := by
  obtain ⟨m, rfl⟩ := h.frame
  rfl

/-- What a pool mask makes of a slab: FREE in a bank of the pool, STATIC in the others. -/
def maskedSlab (mask k : Nat) : SlabState := if bitOf mask (k / 24) then .free else .static

theorem poolMask_sets (hs : rising s.tierS.slabs = true) {pd : PD} (hld : s.ldOf pd = some ld) (mask : Nat) :
    SlabsSet ld (maskedSlab mask) 1536 (s.setReg64 (diePage .tsram pd) 0x108 mask) (s.poolMask pd mask) := by
  have hset := slabsSet_foldl (s := s.setReg64 (diePage .tsram pd) 0x108 mask) hs ld (maskedSlab mask) 1536
  rw [State.poolMask, hld]
  exact hset

end

/-! The write of the mask (R47, R279). -/

theorem page_setStaged {s : State} (h : s.pagesWf) (p : Page) (off : Nat) (x : Option Staged) :
    ∃ l, (s.setStaged p off x).page p = { s.page p with staged := l } := ⟨_, page_setPage_same h p _⟩

theorem lock_setStaged {s : State} (h : s.pagesWf) (p : Page) (off : Nat) (x : Option Staged) :
    ((s.setStaged p off x).page p).lock = (s.page p).lock := by
  obtain ⟨l, hl⟩ := page_setStaged h p off x
  rw [hl]

section
variable (s : State) (p : Page) (off : Nat) (x : Option Staged)

@[simp] theorem tierS_setStaged : (s.setStaged p off x).tierS = s.tierS := rfl

@[simp] theorem slab_setStaged (ld k : Nat) : (s.setStaged p off x).slab ld k = s.slab ld k := rfl

@[simp] theorem reg64_setStaged (q : Page) (lo : Nat) : (s.setStaged p off x).reg64 q lo = s.reg64 q lo := rfl

@[simp] theorem flag_setStaged (q : Page) (f : RegField) : (s.setStaged p off x).flag q f = s.flag q f := rfl

end

section
variable (s : State) (p : Page) (lo v : Nat)

@[simp] theorem tierS_setReg64 : (s.setReg64 p lo v).tierS = s.tierS := rfl

@[simp] theorem page_setReg64 (q : Page) : (s.setReg64 p lo v).page q = s.page q := rfl

theorem pagesWf_setReg64 (h : s.pagesWf) : (s.setReg64 p lo v).pagesWf := h

end

/-- What is staged has no part in the lock of a page. -/
theorem unlockedFor_setStaged {s : State} {p : Page} {who : Requester} (h : s.pagesWf) (off : Nat) (x : Option Staged) :
    UnlockedFor (s.setStaged p off x) p who ↔ UnlockedFor s p who := by
  obtain ⟨l, hl⟩ := page_setStaged h p off x
  have hacc : (s.setStaged p off x).accessible p = s.accessible p := by
    rw [State.accessible, hl, State.accessible]
    rfl
  rw [UnlockedFor, hacc, hl, UnlockedFor]

section
variable {s : State} {who : Requester} {pd : PD}

/-- The state in which the mask's low half is staged. -/
def State.maskStaged (s : State) (who : Requester) (pd : PD) (v : Word) : State :=
  (s.arrived (diePage .tsram pd) who).loWrite who (diePage .tsram pd) 0x108 v

/-- The state in which the committed mask acts: the unlock used up, the pair as it stood. -/
def State.maskUnlocked (s : State) (who : Requester) (pd : PD) : State :=
  (s.ctrlArrived (diePage .tsram pd) who).setReg64 (diePage .tsram pd) 0x108
    ((s.ctrlArrived (diePage .tsram pd) who).reg64 (diePage .tsram pd) 0x108)

/-- The fields of the mask's pair. -/
abbrev maskFields : List RegField := regFields .tsram 0x108 true

theorem regWrite_poolMask (hc : Canon s) (hl : (s.page (diePage .tsram pd)).lock = .unlocked who) (n : Nat) :
    (s.arrived (diePage .tsram pd) who).regWrite who (diePage .tsram pd) 0x108 true n .none =
      (true, (s.maskUnlocked who pd).poolMaskWrite pd n) := by
  have hplain : ∀ f ∈ maskFields, f.acc ≠ .sc := by decide
  have hown : ∀ f ∈ maskFields, (f.own || !f.writable) = true := by decide
  have hprot : maskFields.any (·.prot) = true := by decide
  have hres (u : State) : u.reservedWrite (diePage .tsram pd) 0x108 maskFields n = false := rfl
  have hact (u : State) (old : Nat) : u.regAct who (diePage .tsram pd) 0x108 old n .none = u.poolMaskWrite pd n := rfl
  have hblk : (diePage .tsram pd).blk = .tsram := rfl
  obtain ⟨hopen, -⟩ := ctrlArrived_unlocked hc (diePage .tsram pd) who hl
  simp only [State.regWrite, hblk, heldSc_of_plain hplain, hres, hopen, hprot, State.storeFields, storedWord_own hown, hact,
    Bool.not_true, Bool.and_false, Bool.false_and, List.filter_false, List.isEmpty_nil, List.foldl_nil, if_true, if_false,
    Bool.false_eq_true, Bool.true_or]
  rfl

theorem maskStaged_pagesOnly (s : State) (who : Requester) (pd : PD) (v : Word) : PagesOnly s (s.maskStaged who pd v) :=
  (arrived_pagesOnly s (diePage .tsram pd) who).setStaged (diePage .tsram pd) 0x108 (some ⟨0x108, v, some who⟩)

theorem canon_maskStaged (hc : Canon s) (v : Word) : Canon (s.maskStaged who pd v) :=
  (maskStaged_pagesOnly s who pd v).canon hc (regsWf_arrived hc.regs _ who) (pagesWf_setPage (pagesWf_arrived hc.pages _ who) _ _)

theorem unlockedFor_maskStaged (hc : Canon s) (h : UnlockedFor s (diePage .tsram pd) who) (v : Word) :
    UnlockedFor (s.maskStaged who pd v) (diePage .tsram pd) who := by
  obtain ⟨hacc, hl⟩ := h
  have hne : (s.page (diePage .tsram pd)).lock ≠ .armed who := by rw [hl]; exact Lock.noConfusion
  refine (unlockedFor_setStaged (pagesWf_arrived hc.pages _ who) _ _).mpr ⟨?_, ?_⟩
  · rw [accessible_arrived hc.regs hc.pages, hacc]
  · rw [page_arrived_of_lock_ne hne, hl]

theorem stagedAt_maskStaged (hc : Canon s) (v : Word) :
    (s.maskStaged who pd v).stagedAt (diePage .tsram pd) 0x108 = some ⟨0x108, v, some who⟩ :=
  stagedAt_setStaged_some (pagesWf_arrived hc.pages _ who) _ rfl

theorem maskHalves (mask : DWord) :
    (mask.setWidth 32 : Word).toNat + ((mask >>> 32).setWidth 32 : Word).toNat * 2 ^ 32 = mask.toNat := by
  simp only [BitVec.toNat_setWidth, BitVec.toNat_ushiftRight, Nat.shiftRight_eq_div_pow]
  omega

/-- The state in which a written mask acts. -/
def State.maskWritten (s : State) (who : Requester) (pd : PD) (mask : DWord) : State :=
  (s.maskStaged who pd (mask.setWidth 32)).maskUnlocked who pd

/-- Both halves of a mask are committed with the high one, by the requester that has the page unlocked. -/
theorem tsramPoolMaskWrite_next (hc : Canon s) (h : UnlockedFor s (diePage .tsram pd) who) (mask : DWord) :
    exec (.tsramPoolMaskWrite who pd mask) s =
      .next (((s.maskWritten who pd mask).poolMaskWrite pd mask.toNat).setStaged (diePage .tsram pd) 0x108 none) := by
  have hc' := canon_maskStaged (who := who) (pd := pd) hc (mask.setWidth 32)
  obtain ⟨hacc', hl'⟩ := unlockedFor_maskStaged hc h (mask.setWidth 32)
  obtain ⟨hacc, -⟩ := h
  have hlo : s.busWrite who (diePage .tsram pd) 0x108 (mask.setWidth 32) = s.maskStaged who pd (mask.setWidth 32) :=
    busWrite_lo (p := diePage .tsram pd) hc (by decide : isLo .tsram 0x108 = true) rfl hacc rfl rfl who _
  have hhi := busWrite_hi (p := diePage .tsram pd) (lo := 0x108) hc' (by decide : isLo .tsram 0x108 = true) rfl hacc' rfl
    (by decide : isLo .tsram 0x10C = false) rfl who ((mask >>> 32).setWidth 32)
  have hstaged := (stagedAt_arrived hc'.pages (diePage .tsram pd) (diePage .tsram pd) 0x108 who).trans (stagedAt_maskStaged hc _)
  have hwrite := regWrite_poolMask hc' hl' mask.toNat
  rw [← maskHalves mask] at hwrite
  refine congrArg Host.Outcome.next ?_
  rw [hlo]
  refine hhi.trans ((hiWrite_commits hstaged rfl hwrite).trans ?_)
  rw [maskHalves]
  rfl

theorem maskUnlocked_pagesOnly (s : State) (who : Requester) (pd : PD) : PagesOnly s (s.maskUnlocked who pd) :=
  (ctrlArrived_pagesOnly s (diePage .tsram pd) who).setReg64 _ _ _

theorem regsWf_maskUnlocked (hc : Canon s) : (s.maskUnlocked who pd).regsWf :=
  regsWf_setReg64 (regsWf_ctrlArrived hc (diePage .tsram pd) who) _ _ _

theorem pagesWf_maskUnlocked (hc : Canon s) : (s.maskUnlocked who pd).pagesWf :=
  pagesWf_setReg64 _ _ _ _ (pagesWf_ctrlArrived hc (diePage .tsram pd) who)

theorem lock_maskUnlocked (hc : Canon s) (hl : (s.page (diePage .tsram pd)).lock = .unlocked who) :
    ((s.maskUnlocked who pd).page (diePage .tsram pd)).lock = .locked := by
  obtain ⟨-, hlock⟩ := ctrlArrived_unlocked hc (diePage .tsram pd) who hl
  rw [State.maskUnlocked, page_setReg64, hlock]

theorem maskWritten_pagesOnly (s : State) (who : Requester) (pd : PD) (mask : DWord) : PagesOnly s (s.maskWritten who pd mask) :=
  (maskStaged_pagesOnly s who pd (mask.setWidth 32)).trans (maskUnlocked_pagesOnly _ who pd)

section
variable (hc : Canon s) (h : UnlockedFor s (diePage .tsram pd) who) (mask : DWord)
include hc h

theorem tsramPoolMaskWrite_takes {ld : Nat} (hld : s.ldOf pd = some ld) (hrest : s.pageRests = true) :
    Completes (.tsramPoolMaskWrite who pd mask) s fun t =>
      t.reg64 (diePage .tsram pd) 0x108 = mask.toNat ∧
      (∀ k, k < 1536 → t.slab ld k = if mask.getLsbD (k / 24) then .free else .static) ∧ t.tierS.mem = s.tierS.mem ∧
      (t.page (diePage .tsram pd)).lock = .locked := by
  have hpages := maskWritten_pagesOnly s who pd mask
  have hc' := canon_maskStaged (who := who) (pd := pd) hc (mask.setWidth 32)
  obtain ⟨-, hl'⟩ := unlockedFor_maskStaged hc h (mask.setWidth 32)
  have hw : (s.maskWritten who pd mask).regsWf := regsWf_maskUnlocked hc'
  have hwp : (s.maskWritten who pd mask).pagesWf := pagesWf_maskUnlocked hc'
  have hlock : ((s.maskWritten who pd mask).page (diePage .tsram pd)).lock = .locked := lock_maskUnlocked hc' hl'
  have hslabs : rising (s.maskWritten who pd mask).tierS.slabs = true := hpages.tierS ▸ hc.slabs
  have hset := poolMask_sets hslabs ((hpages.ldOf pd).trans hld) mask.toNat
  have hmask : (s.maskWritten who pd mask).poolMaskWrite pd mask.toNat = (s.maskWritten who pd mask).poolMask pd mask.toNat :=
    if_pos (hpages.pageRests.trans hrest)
  refine ⟨_, tsramPoolMaskWrite_next hc h mask, ?_⟩
  beta_reduce
  rw [hmask, reg64_setStaged, tierS_setStaged, lock_setStaged (hset.pagesWf (pagesWf_setReg64 _ _ _ _ hwp)), hset.reg64, hset.mem,
    hset.page, reg64_setReg64_same hw, Nat.mod_eq_of_lt mask.isLt, tierS_setReg64, page_setReg64, hpages.tierS]
  refine ⟨rfl, fun k hk => ?_, rfl, hlock⟩
  rw [slab_setStaged, hset.slabs k hk, maskedSlab, bitOf_testBit, BitVec.getLsbD]

theorem tsramPoolMaskWrite_refused (hrest : s.pageRests = false) : Completes (.tsramPoolMaskWrite who pd mask) s fun t =>
    t.tierS = s.tierS ∧ t.flag (diePage .tsram pd) Reg.BLK_STAT_ERR = true := by
  have hpages := maskWritten_pagesOnly s who pd mask
  have hw : (s.maskWritten who pd mask).regsWf := regsWf_maskUnlocked (canon_maskStaged hc (mask.setWidth 32))
  have herr : (s.maskWritten who pd mask).poolMaskWrite pd mask.toNat = (s.maskWritten who pd mask).blockErr (diePage .tsram pd) 0 0 0 0 :=
    if_neg (by rw [hpages.pageRests, hrest]; exact Bool.false_ne_true)
  refine ⟨_, tsramPoolMaskWrite_next hc h mask, ?_⟩
  beta_reduce
  rw [herr, tierS_setStaged, flag_setStaged]
  exact ⟨(blockErr_records _ _ 0 0 0 0).tierS.trans hpages.tierS, flag_capture _ _ _ _ _ _ _ hw⟩

end

end

end Sys2Proof.Machine
end

section
open Sys2Proof Sys2Proof.Machine

/-- Settles O33: the scrubber's tick, the mask's two halves, and the beginning and the end of the die's commands. -/
theorem scratchCommandsAndScrubber : Obligations.ScratchCommandsAndScrubber := by
  intro s hc who pd ld hld hpos
  refine ⟨fun hopen hen => ⟨fun ce ue => ⟨_, tsramScrubTick_next hopen ce ue, scrubLine_advances hld hen hpos _ _⟩,
      fun ce b w hb hw => ⟨_, tsramScrubTick_next hopen ce [], scrubLine_detects hld hen _ hb hw⟩⟩,
    fun mask hun => ⟨tsramPoolMaskWrite_takes hc hun mask hld, tsramPoolMaskWrite_refused hc hun mask⟩,
    fun hacc hwork hidle => ⟨fun hrest => ?_, fun hrest => ⟨_, rfl, zero_begins hc hacc hwork hidle hrest⟩, fun hrest => ?_⟩,
    fun hopen hgo => ⟨tsramCmdDone_waits, tsramCmdDone_completes hc hld hopen hgo⟩⟩
  · exact ⟨_, rfl, tsramCmd_ends hc hacc hwork hidle (by decide) (by decide) (.inr ⟨hrest, rfl, rfl⟩)⟩
  · exact ⟨_, rfl, tsramCmd_ends hc hacc hwork hidle (n := 1) (by decide) (by decide) (.inl ⟨hrest, rfl⟩)⟩

end
